-- ==== Sys2Proof/Word.lean ====
section
/-! DEFINITION. The 64-bit word and its plainest arithmetic: what R40 calls sext and zext, and conversions. -/

namespace Sys2Proof

/-- A register, an address or a doubleword (R12). -/
abbrev Word := BitVec 64

/-- One byte of memory. -/
abbrev Byte := BitVec 8

/-- A number as a 64-bit word, modulo 2^64 (R54). -/
abbrev word (n : Nat) : Word := BitVec.ofNat 64 n

/-- An exact integer as a 64-bit two's complement word, modulo 2^64 (R54). -/
abbrev wordOfInt (z : Int) : Word := BitVec.ofInt 64 z

end Sys2Proof
end

