-- ==== Sys2Proof/Config.lean ====
section
/-! DEFINITION. What the manual leaves open and the model leaves free: constants without a body. Nothing can be proved
of their values, so a claim about the machine holds whatever they are (log 7). -/

namespace Sys2Proof.Config

/-- Which of the values R281 allows a read on another path returns: 0 is the newest. Argument: free values drawn. -/
opaque staleChoice : Nat → Nat

/-- Values that the manual leaves unstated while the machine goes on. Argument: free values drawn. -/
opaque unstated : Nat → Nat

/-- The package at the far end of a package's port (R355 names links, not their ends). Arguments: package and port. -/
opaque neighbour : Nat → Nat → Nat

/-- The SHA-384 digest the boot ROM and the attestation responder compute (R388, R391). -/
opaque sha384 : List Byte → BitVec 384

/-- Whether an Ed25519 signature (key, digest, signature) verifies (R389). -/
opaque ed25519Verifies : List Byte → BitVec 384 → List Byte → Bool

/-- Whether an ML-DSA-65 signature (key, digest, signature) verifies (R389). -/
opaque mldsaVerifies : List Byte → BitVec 384 → List Byte → Bool

/-- The device's Ed25519 and ML-DSA-65 signatures over a transcript digest (R391). -/
opaque ed25519Sign : BitVec 384 → List Byte
opaque mldsaSign : BitVec 384 → List Byte

/-- The hash of the transcript a signed response covers (R391 leaves transcripts to SPDM). Argument: free values drawn. -/
opaque transcriptHash : Nat → BitVec 384

/-- The key digest in fuses (R389), the certificate of slot 0, the boot ROM's digest and the fuse word (R391). -/
opaque fusedKeyDigest : BitVec 384
opaque certificate : List Byte
opaque bootRomDigest : BitVec 384
opaque fuseDigest : Nat → BitVec 384

/-- Where the boot ROM puts the firmware body and where the kernel cores start (R389 names no address). -/
opaque bootBase : Nat → Nat
opaque bootEntry : Nat → Word

/-- How many die cycles a write of the firmware slot takes, by the cycle it begins in (R390 names no time). -/
opaque slotWriteCycles : Nat → Nat

/-- Eutchaet's SPDM vendor identifier (R391 names no value). -/
opaque vendorId : Nat

end Sys2Proof.Config
end

