-- ==== Sys2Proof/Syntax.lean ====
section
/-! DEFINITION. The instructions and events of the JLM, one constructor for each row of the spec's table of
operations and events (R35 for the 225 instruction words; file 95 for the events, which are the machine's other
indivisible steps).

Fields of an instruction word keep the width and the letter of R33 to R37. Operands of an event name its subject:
a core by bits [30:8] of the process identifier of R145 (package, die, index), a die by bits [30:17], a package by
bits [30:19], a process by its number on its core (256 stands for the active-message handler of R194), a request by
its core-local sequence tag (R132), a packet by its place in the network's list. -/

namespace Sys2Proof

/-- One instruction of R35, or one event of the machine. -/
inductive Instr where
  /-- ADD (R80). Writes a + b modulo 2^64 to g[D]. -/
  | add (w : BitVec 2) (d : BitVec 5) (a : BitVec 5) (b : BitVec 5)
  /-- SUB (R80). Writes a − b modulo 2^64 to g[D]. -/
  | sub (w : BitVec 2) (d : BitVec 5) (a : BitVec 5) (b : BitVec 5)
  /-- AND (R80). Writes the bitwise AND of a and b. -/
  | and (w : BitVec 2) (d : BitVec 5) (a : BitVec 5) (b : BitVec 5)
  /-- OR (R80). Writes the bitwise OR of a and b. -/
  | or (w : BitVec 2) (d : BitVec 5) (a : BitVec 5) (b : BitVec 5)
  /-- XOR (R80). Writes the bitwise exclusive OR of a and b. -/
  | xor (w : BitVec 2) (d : BitVec 5) (a : BitVec 5) (b : BitVec 5)
  /-- ANDN (R80). Writes a AND NOT b. -/
  | andn (w : BitVec 2) (d : BitVec 5) (a : BitVec 5) (b : BitVec 5)
  /-- ORN (R80). Writes a OR NOT b. -/
  | orn (w : BitVec 2) (d : BitVec 5) (a : BitVec 5) (b : BitVec 5)
  /-- SLL (R80). Shifts a left by b[5:0]. -/
  | sll (w : BitVec 2) (d : BitVec 5) (a : BitVec 5) (b : BitVec 5)
  /-- SRL (R80). Shifts a right logically by b[5:0]. -/
  | srl (w : BitVec 2) (d : BitVec 5) (a : BitVec 5) (b : BitVec 5)
  /-- SRA (R80). Shifts a right arithmetically by b[5:0]. -/
  | sra (w : BitVec 2) (d : BitVec 5) (a : BitVec 5) (b : BitVec 5)
  /-- ROR (R80). Rotates a right by b[5:0]. -/
  | ror (w : BitVec 2) (d : BitVec 5) (a : BitVec 5) (b : BitVec 5)
  /-- MUL (R80). Writes the low 64 bits of a × b with latency 4. -/
  | mul (w : BitVec 2) (d : BitVec 5) (a : BitVec 5) (b : BitVec 5)
  /-- MULH (R80). Writes the high 64 bits of the signed product. -/
  | mulh (w : BitVec 2) (d : BitVec 5) (a : BitVec 5) (b : BitVec 5)
  /-- MULHU (R80). Writes the high 64 bits of the unsigned product. -/
  | mulhu (w : BitVec 2) (d : BitVec 5) (a : BitVec 5) (b : BitVec 5)
  /-- DIV (R81). Starts a signed division on the core's divider, writing the quotient later. -/
  | div (w : BitVec 2) (d : BitVec 5) (a : BitVec 5) (b : BitVec 5)
  /-- DIVU (R81). Starts an unsigned division on the core's divider. -/
  | divu (w : BitVec 2) (d : BitVec 5) (a : BitVec 5) (b : BitVec 5)
  /-- REM (R81). Starts a signed remainder on the core's divider. -/
  | rem (w : BitVec 2) (d : BitVec 5) (a : BitVec 5) (b : BitVec 5)
  /-- REMU (R81). Starts an unsigned remainder on the core's divider. -/
  | remu (w : BitVec 2) (d : BitVec 5) (a : BitVec 5) (b : BitVec 5)
  /-- MIN (R80). Writes the signed smaller of a and b. -/
  | min (w : BitVec 2) (d : BitVec 5) (a : BitVec 5) (b : BitVec 5)
  /-- MAX (R80). Writes the signed larger of a and b. -/
  | max (w : BitVec 2) (d : BitVec 5) (a : BitVec 5) (b : BitVec 5)
  /-- MINU (R80). Writes the unsigned smaller of a and b. -/
  | minu (w : BitVec 2) (d : BitVec 5) (a : BitVec 5) (b : BitVec 5)
  /-- MAXU (R80). Writes the unsigned larger of a and b. -/
  | maxu (w : BitVec 2) (d : BitVec 5) (a : BitVec 5) (b : BitVec 5)
  /-- SLT (R80). Writes 1 if a < b signed, else 0. -/
  | slt (w : BitVec 2) (d : BitVec 5) (a : BitVec 5) (b : BitVec 5)
  /-- SLTU (R80). Writes 1 if a < b unsigned, else 0. -/
  | sltu (w : BitVec 2) (d : BitVec 5) (a : BitVec 5) (b : BitVec 5)
  /-- CLZ (R80). Counts leading zero bits of a. -/
  | clz (w : BitVec 2) (d : BitVec 5) (a : BitVec 5)
  /-- CTZ (R80). Counts trailing zero bits of a. -/
  | ctz (w : BitVec 2) (d : BitVec 5) (a : BitVec 5)
  /-- POPC (R80). Counts the 1 bits of a. -/
  | popc (w : BitVec 2) (d : BitVec 5) (a : BitVec 5)
  /-- BREV (R80). Reverses the bit order of a. -/
  | brev (w : BitVec 2) (d : BitVec 5) (a : BitVec 5)
  /-- BSWAP (R80). Reverses the byte order of a. -/
  | bswap (w : BitVec 2) (d : BitVec 5) (a : BitVec 5)
  /-- SEXTB (R80). Sign-extends the low 8 bits of a. -/
  | sextb (w : BitVec 2) (d : BitVec 5) (a : BitVec 5)
  /-- SEXTH (R80). Sign-extends the low 16 bits of a. -/
  | sexth (w : BitVec 2) (d : BitVec 5) (a : BitVec 5)
  /-- SEXTW (R80). Sign-extends the low 32 bits of a. -/
  | sextw (w : BitVec 2) (d : BitVec 5) (a : BitVec 5)
  /-- ZEXTW (R80). Zero-extends the low 32 bits of a. -/
  | zextw (w : BitVec 2) (d : BitVec 5) (a : BitVec 5)
  /-- ADDI (R83). Adds a sign-extended 14-bit immediate. -/
  | addi (w : BitVec 2) (d : BitVec 5) (a : BitVec 5) (i : BitVec 14)
  /-- ANDI (R83). ANDs with a sign-extended immediate. -/
  | andi (w : BitVec 2) (d : BitVec 5) (a : BitVec 5) (i : BitVec 14)
  /-- ORI (R83). ORs with a sign-extended immediate. -/
  | ori (w : BitVec 2) (d : BitVec 5) (a : BitVec 5) (i : BitVec 14)
  /-- XORI (R83). Exclusive-ORs with a sign-extended immediate. -/
  | xori (w : BitVec 2) (d : BitVec 5) (a : BitVec 5) (i : BitVec 14)
  /-- SLTI (R83). Writes 1 if a is below the immediate, signed. -/
  | slti (w : BitVec 2) (d : BitVec 5) (a : BitVec 5) (i : BitVec 14)
  /-- SLTIU (R83). Writes 1 if a is below the sign-extended immediate, unsigned. -/
  | sltiu (w : BitVec 2) (d : BitVec 5) (a : BitVec 5) (i : BitVec 14)
  /-- SLLI (R84). Shifts left by an immediate amount. -/
  | slli (w : BitVec 2) (d : BitVec 5) (a : BitVec 5) (s : BitVec 6)
  /-- SRLI (R84). Shifts right logically by an immediate amount. -/
  | srli (w : BitVec 2) (d : BitVec 5) (a : BitVec 5) (s : BitVec 6)
  /-- SRAI (R84). Shifts right arithmetically by an immediate amount. -/
  | srai (w : BitVec 2) (d : BitVec 5) (a : BitVec 5) (s : BitVec 6)
  /-- RORI (R84). Rotates right by an immediate amount. -/
  | rori (w : BitVec 2) (d : BitVec 5) (a : BitVec 5) (s : BitVec 6)
  /-- LIU (R85). Loads a sign-extended 19-bit immediate shifted left by 14. -/
  | liu (w : BitVec 2) (d : BitVec 5) (i : BitVec 19)
  /-- ADDPC (R85). Writes pc plus a word offset. -/
  | addpc (w : BitVec 2) (d : BitVec 5) (i : BitVec 19)
  /-- BFXI (R87). Extracts a signed bit field at an immediate position and width. -/
  | bfxi (w : BitVec 2) (d : BitVec 5) (a : BitVec 5) (p : BitVec 6) (l : BitVec 6)
  /-- BFXUI (R87). Extracts an unsigned bit field at an immediate position and width. -/
  | bfxui (w : BitVec 2) (d : BitVec 5) (a : BitVec 5) (p : BitVec 6) (l : BitVec 6)
  /-- BFII (R87). Inserts a bit field at an immediate position and width. -/
  | bfii (w : BitVec 2) (d : BitVec 5) (a : BitVec 5) (p : BitVec 6) (l : BitVec 6)
  /-- BFX (R87). Extracts a signed bit field described by g[B]. -/
  | bfx (w : BitVec 2) (d : BitVec 5) (a : BitVec 5) (b : BitVec 5)
  /-- BFXU (R87). Extracts an unsigned bit field described by g[B]. -/
  | bfxu (w : BitVec 2) (d : BitVec 5) (a : BitVec 5) (b : BitVec 5)
  /-- BFI (R87). Inserts a bit field described by g[B]. -/
  | bfi (w : BitVec 2) (d : BitVec 5) (a : BitVec 5) (b : BitVec 5)
  /-- HPACK (R89). Packs up to eight registers into a 128-bit header by a field layout. -/
  | hpack (w : BitVec 2) (d : BitVec 5) (a : BitVec 5) (b : BitVec 5)
  /-- HUNPK (R89). Unpacks a 128-bit header into up to eight registers by a field layout. -/
  | hunpk (w : BitVec 2) (d : BitVec 5) (a : BitVec 5) (b : BitVec 5)
  /-- HLWR (R90). Writes one descriptor of the core's field-layout table. -/
  | hlwr (w : BitVec 2) (a : BitVec 5) (b : BitVec 5)
  /-- HLRD (R90). Reads one descriptor of the field-layout table. -/
  | hlrd (w : BitVec 2) (d : BitVec 5) (a : BitVec 5)
  /-- GETX (R92). Reads register XI + k into g[D]. -/
  | getx (w : BitVec 2) (d : BitVec 5) (k : BitVec 12)
  /-- PUTX (R92). Writes g[A] into register XI + k. -/
  | putx (w : BitVec 2) (a : BitVec 5) (k : BitVec 12)
  /-- ADDX (R92). Adds k to XI, wrapping in 16 bits. -/
  | addx (w : BitVec 2) (k : BitVec 12)
  /-- CB_EQ (R94). Compares for equality and branches or skips. -/
  | cbEq (w : BitVec 2) (n : BitVec 2) (a : BitVec 5) (b : BitVec 5) (o : BitVec 9)
  /-- CB_NE (R94). Compares for inequality and branches or skips. -/
  | cbNe (w : BitVec 2) (n : BitVec 2) (a : BitVec 5) (b : BitVec 5) (o : BitVec 9)
  /-- CB_LT (R94). Compares signed less-than and branches or skips. -/
  | cbLt (w : BitVec 2) (n : BitVec 2) (a : BitVec 5) (b : BitVec 5) (o : BitVec 9)
  /-- CB_GE (R94). Compares signed greater-or-equal and branches or skips. -/
  | cbGe (w : BitVec 2) (n : BitVec 2) (a : BitVec 5) (b : BitVec 5) (o : BitVec 9)
  /-- CB_LTU (R94). Compares unsigned less-than and branches or skips. -/
  | cbLtu (w : BitVec 2) (n : BitVec 2) (a : BitVec 5) (b : BitVec 5) (o : BitVec 9)
  /-- CB_GEU (R94). Compares unsigned greater-or-equal and branches or skips. -/
  | cbGeu (w : BitVec 2) (n : BitVec 2) (a : BitVec 5) (b : BitVec 5) (o : BitVec 9)
  /-- CB_BSET (R94). Tests A & B ≠ 0 and branches or skips. -/
  | cbBset (w : BitVec 2) (n : BitVec 2) (a : BitVec 5) (b : BitVec 5) (o : BitVec 9)
  /-- CB_BCLR (R94). Tests A & B = 0 and branches or skips. -/
  | cbBclr (w : BitVec 2) (n : BitVec 2) (a : BitVec 5) (b : BitVec 5) (o : BitVec 9)
  /-- CBI_EQ (R94). Compares with an immediate for equality and skips. -/
  | cbiEq (w : BitVec 2) (n : BitVec 2) (a : BitVec 5) (i : BitVec 14)
  /-- CBI_NE (R94). Compares with an immediate for inequality and skips. -/
  | cbiNe (w : BitVec 2) (n : BitVec 2) (a : BitVec 5) (i : BitVec 14)
  /-- CBI_LT (R94). Compares signed less-than an immediate and skips. -/
  | cbiLt (w : BitVec 2) (n : BitVec 2) (a : BitVec 5) (i : BitVec 14)
  /-- CBI_GE (R94). Compares signed greater-or-equal an immediate and skips. -/
  | cbiGe (w : BitVec 2) (n : BitVec 2) (a : BitVec 5) (i : BitVec 14)
  /-- CBI_LTU (R94). Compares unsigned less-than an immediate and skips. -/
  | cbiLtu (w : BitVec 2) (n : BitVec 2) (a : BitVec 5) (i : BitVec 14)
  /-- CBI_GEU (R94). Compares unsigned greater-or-equal an immediate and skips. -/
  | cbiGeu (w : BitVec 2) (n : BitVec 2) (a : BitVec 5) (i : BitVec 14)
  /-- CBI_BSET (R94). Tests A against an immediate mask for any set bit and skips. -/
  | cbiBset (w : BitVec 2) (n : BitVec 2) (a : BitVec 5) (i : BitVec 14)
  /-- CBI_BCLR (R94). Tests A against an immediate mask for no set bit and skips. -/
  | cbiBclr (w : BitVec 2) (n : BitVec 2) (a : BitVec 5) (i : BitVec 14)
  /-- J (R95). Jumps by a signed word offset. -/
  | j (w : BitVec 2) (o : BitVec 24)
  /-- JL (R95). Jumps by a signed word offset and links into lk. -/
  | jl (w : BitVec 2) (o : BitVec 24)
  /-- JLR (R96). Jumps to a register plus offset and links into g[D]. -/
  | jlr (w : BitVec 2) (d : BitVec 5) (a : BitVec 5) (i : BitVec 14)
  /-- REP (R24). Re-issues the following word count times with stepped register fields. -/
  | rep (w : BitVec 2) (c : BitVec 6) (m : BitVec 3) (t : BitVec 2)
  /-- NOP (R98). Does nothing. -/
  | nop (w : BitVec 2)
  /-- ALIGN (R31). Joins or allocates a cluster alignment entry and holds the process. -/
  | align (w : BitVec 2) (k : BitVec 8)
  /-- YIELD (R99). Hands the slot to an equal-priority husk and restarts the rotation count. -/
  | yield (w : BitVec 2)
  /-- SCHK (R98). Sets the SCHK mode. -/
  | schk (w : BitVec 2) (v : BitVec 1)
  /-- IFSYNC (R100). Waits for earlier stores, then invalidates the cluster instruction cache and own line buffers. -/
  | ifsync (w : BitVec 2)
  /-- LB (R123). Loads a sign-extended byte. -/
  | lb (w : BitVec 2) (d : BitVec 5) (a : BitVec 5) (o : BitVec 11)
  /-- LH (R123). Loads a sign-extended halfword. -/
  | lh (w : BitVec 2) (d : BitVec 5) (a : BitVec 5) (o : BitVec 11)
  /-- LW (R123). Loads a sign-extended word. -/
  | lw (w : BitVec 2) (d : BitVec 5) (a : BitVec 5) (o : BitVec 11)
  /-- LD (R123). Loads a doubleword. -/
  | ld (w : BitVec 2) (d : BitVec 5) (a : BitVec 5) (o : BitVec 11)
  /-- LBU (R123). Loads a zero-extended byte. -/
  | lbu (w : BitVec 2) (d : BitVec 5) (a : BitVec 5) (o : BitVec 11)
  /-- LHU (R123). Loads a zero-extended halfword. -/
  | lhu (w : BitVec 2) (d : BitVec 5) (a : BitVec 5) (o : BitVec 11)
  /-- LWU (R123). Loads a zero-extended word. -/
  | lwu (w : BitVec 2) (d : BitVec 5) (a : BitVec 5) (o : BitVec 11)
  /-- SB (R123). Stores a byte. -/
  | sb (w : BitVec 2) (s : BitVec 5) (a : BitVec 5) (o : BitVec 11)
  /-- SH (R123). Stores a halfword. -/
  | sh (w : BitVec 2) (s : BitVec 5) (a : BitVec 5) (o : BitVec 11)
  /-- SW (R123). Stores a word. -/
  | sw (w : BitVec 2) (s : BitVec 5) (a : BitVec 5) (o : BitVec 11)
  /-- SD (R123). Stores a doubleword. -/
  | sd (w : BitVec 2) (s : BitVec 5) (a : BitVec 5) (o : BitVec 11)
  /-- READF (R129). Waits until a word is FULL and reads it, leaving it FULL. -/
  | readf (w : BitVec 2) (d : BitVec 5) (a : BitVec 5) (o : BitVec 11)
  /-- TAKE (R129). Waits until a word is FULL, reads it and makes it EMPTY. -/
  | take (w : BitVec 2) (d : BitVec 5) (a : BitVec 5) (o : BitVec 11)
  /-- PEEK (R129). Reads a word and its full/empty bit without waiting. -/
  | peek (w : BitVec 2) (d : BitVec 5) (a : BitVec 5) (o : BitVec 11)
  /-- PUT (R129). Waits until a word is EMPTY, writes it and makes it FULL. -/
  | put (w : BitVec 2) (s : BitVec 5) (a : BitVec 5) (o : BitVec 11)
  /-- FILL (R129). Writes a word and makes it FULL as a release. -/
  | fill (w : BitVec 2) (s : BitVec 5) (a : BitVec 5) (o : BitVec 11)
  /-- CLEAR (R129). Writes a word and makes it EMPTY. -/
  | clear (w : BitVec 2) (s : BitVec 5) (a : BitVec 5) (o : BitVec 11)
  /-- OVWR (R129). Writes a word leaving its full/empty bit unchanged. -/
  | ovwr (w : BitVec 2) (s : BitVec 5) (a : BitVec 5) (o : BitVec 11)
  /-- AADD (R135). Atomically adds to a location and returns the old value. -/
  | aadd (w : BitVec 2) (d : BitVec 5) (a : BitVec 5) (b : BitVec 5) (z : BitVec 1)
  /-- AAND (R135). Atomically ANDs into a location. -/
  | aand (w : BitVec 2) (d : BitVec 5) (a : BitVec 5) (b : BitVec 5) (z : BitVec 1)
  /-- AOR (R135). Atomically ORs into a location. -/
  | aor (w : BitVec 2) (d : BitVec 5) (a : BitVec 5) (b : BitVec 5) (z : BitVec 1)
  /-- AXOR (R135). Atomically exclusive-ORs into a location. -/
  | axor (w : BitVec 2) (d : BitVec 5) (a : BitVec 5) (b : BitVec 5) (z : BitVec 1)
  /-- AMIN (R135). Atomically stores the signed minimum. -/
  | amin (w : BitVec 2) (d : BitVec 5) (a : BitVec 5) (b : BitVec 5) (z : BitVec 1)
  /-- AMAX (R135). Atomically stores the signed maximum. -/
  | amax (w : BitVec 2) (d : BitVec 5) (a : BitVec 5) (b : BitVec 5) (z : BitVec 1)
  /-- AMINU (R135). Atomically stores the unsigned minimum. -/
  | aminu (w : BitVec 2) (d : BitVec 5) (a : BitVec 5) (b : BitVec 5) (z : BitVec 1)
  /-- AMAXU (R135). Atomically stores the unsigned maximum. -/
  | amaxu (w : BitVec 2) (d : BitVec 5) (a : BitVec 5) (b : BitVec 5) (z : BitVec 1)
  /-- ASWAP (R135). Atomically swaps a location with the operand. -/
  | aswap (w : BitVec 2) (d : BitVec 5) (a : BitVec 5) (b : BitVec 5) (z : BitVec 1)
  /-- AFADD (R136). Atomically adds a floating-point value rounded by RNE. -/
  | afadd (w : BitVec 2) (d : BitVec 5) (a : BitVec 5) (b : BitVec 5) (z : BitVec 1)
  /-- AFAMAX (R136). Atomically stores the larger floating-point magnitude. -/
  | afamax (w : BitVec 2) (d : BitVec 5) (a : BitVec 5) (b : BitVec 5) (z : BitVec 1)
  /-- CAS (R138). Atomically compares a location with g[D] and replaces it on equality. -/
  | cas (w : BitVec 2) (d : BitVec 5) (a : BitVec 5) (b : BitVec 5) (z : BitVec 1)
  /-- FENCE_C (R140). Holds the process until earlier core-path accesses are complete for the core. -/
  | fenceC (w : BitVec 2)
  /-- FENCE_D (R140). Holds the process until earlier core-path accesses are complete for the die. -/
  | fenceD (w : BitVec 2)
  /-- FENCE_G (R140). Holds the process until earlier core-path accesses are complete for the whole job. -/
  | fenceG (w : BitVec 2)
  /-- XFENCE (R141). Holds the process until observed path-P writes are visible on path Q. -/
  | xfence (w : BitVec 2) (p : BitVec 3) (q : BitVec 3)
  /-- FADD_S (R102). Adds two FP32 values. -/
  | faddS (w : BitVec 2) (d : BitVec 5) (a : BitVec 5) (b : BitVec 5)
  /-- FSUB_S (R102). Subtracts two FP32 values. -/
  | fsubS (w : BitVec 2) (d : BitVec 5) (a : BitVec 5) (b : BitVec 5)
  /-- FMUL_S (R102). Multiplies two FP32 values. -/
  | fmulS (w : BitVec 2) (d : BitVec 5) (a : BitVec 5) (b : BitVec 5)
  /-- FDIV_S (R102). Starts an FP32 division on the divider. -/
  | fdivS (w : BitVec 2) (d : BitVec 5) (a : BitVec 5) (b : BitVec 5)
  /-- FSQRT_S (R102). Starts an FP32 square root on the divider. -/
  | fsqrtS (w : BitVec 2) (d : BitVec 5) (a : BitVec 5)
  /-- FMIN_S (R103). Writes the FP32 minimum. -/
  | fminS (w : BitVec 2) (d : BitVec 5) (a : BitVec 5) (b : BitVec 5)
  /-- FMAX_S (R103). Writes the FP32 maximum. -/
  | fmaxS (w : BitVec 2) (d : BitVec 5) (a : BitVec 5) (b : BitVec 5)
  /-- FADD_D (R102). Adds two FP64 values. -/
  | faddD (w : BitVec 2) (d : BitVec 5) (a : BitVec 5) (b : BitVec 5)
  /-- FSUB_D (R102). Subtracts two FP64 values. -/
  | fsubD (w : BitVec 2) (d : BitVec 5) (a : BitVec 5) (b : BitVec 5)
  /-- FMUL_D (R102). Multiplies two FP64 values. -/
  | fmulD (w : BitVec 2) (d : BitVec 5) (a : BitVec 5) (b : BitVec 5)
  /-- FDIV_D (R102). Starts an FP64 division on the divider. -/
  | fdivD (w : BitVec 2) (d : BitVec 5) (a : BitVec 5) (b : BitVec 5)
  /-- FSQRT_D (R102). Starts an FP64 square root on the divider. -/
  | fsqrtD (w : BitVec 2) (d : BitVec 5) (a : BitVec 5)
  /-- FMIN_D (R103). Writes the FP64 minimum. -/
  | fminD (w : BitVec 2) (d : BitVec 5) (a : BitVec 5) (b : BitVec 5)
  /-- FMAX_D (R103). Writes the FP64 maximum. -/
  | fmaxD (w : BitVec 2) (d : BitVec 5) (a : BitVec 5) (b : BitVec 5)
  /-- FEQ_S (R104). Compares FP32 values for equality. -/
  | feqS (w : BitVec 2) (d : BitVec 5) (a : BitVec 5) (b : BitVec 5)
  /-- FLT_S (R104). Compares FP32 values for less-than. -/
  | fltS (w : BitVec 2) (d : BitVec 5) (a : BitVec 5) (b : BitVec 5)
  /-- FLE_S (R104). Compares FP32 values for less-or-equal. -/
  | fleS (w : BitVec 2) (d : BitVec 5) (a : BitVec 5) (b : BitVec 5)
  /-- FEQ_D (R104). Compares FP64 values for equality. -/
  | feqD (w : BitVec 2) (d : BitVec 5) (a : BitVec 5) (b : BitVec 5)
  /-- FLT_D (R104). Compares FP64 values for less-than. -/
  | fltD (w : BitVec 2) (d : BitVec 5) (a : BitVec 5) (b : BitVec 5)
  /-- FLE_D (R104). Compares FP64 values for less-or-equal. -/
  | fleD (w : BitVec 2) (d : BitVec 5) (a : BitVec 5) (b : BitVec 5)
  /-- FCLASS (R105). Classifies a register as FP64 and FP32 at once. -/
  | fclass (w : BitVec 2) (d : BitVec 5) (a : BitVec 5)
  /-- FMADD_S (R106). Computes a × b + d in FP32 with one rounding. -/
  | fmaddS (w : BitVec 2) (d : BitVec 5) (a : BitVec 5) (b : BitVec 5)
  /-- FMSUB_S (R106). Computes a × b − d in FP32 with one rounding. -/
  | fmsubS (w : BitVec 2) (d : BitVec 5) (a : BitVec 5) (b : BitVec 5)
  /-- FNMADD_S (R106). Computes −(a × b + d) in FP32 with one rounding. -/
  | fnmaddS (w : BitVec 2) (d : BitVec 5) (a : BitVec 5) (b : BitVec 5)
  /-- FMADD_D (R106). Computes a × b + d in FP64 with one rounding. -/
  | fmaddD (w : BitVec 2) (d : BitVec 5) (a : BitVec 5) (b : BitVec 5)
  /-- FMSUB_D (R106). Computes a × b − d in FP64 with one rounding. -/
  | fmsubD (w : BitVec 2) (d : BitVec 5) (a : BitVec 5) (b : BitVec 5)
  /-- FNMADD_D (R106). Computes −(a × b + d) in FP64 with one rounding. -/
  | fnmaddD (w : BitVec 2) (d : BitVec 5) (a : BitVec 5) (b : BitVec 5)
  /-- FCVT_S_D (R107). Converts FP64 to FP32. -/
  | fcvtSD (w : BitVec 2) (d : BitVec 5) (a : BitVec 5)
  /-- FCVT_D_S (R107). Converts FP32 to FP64. -/
  | fcvtDS (w : BitVec 2) (d : BitVec 5) (a : BitVec 5)
  /-- FCVT_S_L (R107). Converts a signed 64-bit integer to FP32. -/
  | fcvtSL (w : BitVec 2) (d : BitVec 5) (a : BitVec 5)
  /-- FCVT_L_S (R108). Converts FP32 to a signed 64-bit integer. -/
  | fcvtLS (w : BitVec 2) (d : BitVec 5) (a : BitVec 5)
  /-- FCVT_D_L (R107). Converts a signed 64-bit integer to FP64. -/
  | fcvtDL (w : BitVec 2) (d : BitVec 5) (a : BitVec 5)
  /-- FCVT_L_D (R108). Converts FP64 to a signed 64-bit integer. -/
  | fcvtLD (w : BitVec 2) (d : BitVec 5) (a : BitVec 5)
  /-- FCVT_B_S (R107). Converts FP32 to BF16. -/
  | fcvtBS (w : BitVec 2) (d : BitVec 5) (a : BitVec 5)
  /-- FCVT_S_B (R107). Converts BF16 to FP32. -/
  | fcvtSB (w : BitVec 2) (d : BitVec 5) (a : BitVec 5)
  /-- START (R155). Creates a tiller process on the issuing core. -/
  | start (w : BitVec 2) (d : BitVec 5) (a : BitVec 5) (b : BitVec 5)
  /-- STOP (R156). Ends the issuing process and frees its slot. -/
  | stop (w : BitVec 2)
  /-- PRI (R157). Sets the process priority, possibly causing its pre-emption. -/
  | pri (w : BitVec 2) (a : BitVec 5)
  /-- SLEEPC (R158). Sleeps until the die counter reaches a deadline. -/
  | sleepc (w : BitVec 2) (a : BitVec 5)
  /-- DONE (R162). Counts the core as done in the launch barrier after its accesses are performed. -/
  | done (w : BitVec 2)
  /-- WHO (R160). Writes the process's identity and position. -/
  | who (w : BitVec 2) (d : BitVec 5)
  /-- BWAIT (R163). Waits until every core of a sub-rectangle is done. -/
  | bwait (w : BitVec 2) (a : BitVec 5)
  /-- SEND (R176). Offers a word on a rendezvous channel and blocks until released. -/
  | send (w : BitVec 2) (a : BitVec 5) (b : BitVec 5)
  /-- RECV (R177). Receives a word on a rendezvous or buffered channel. -/
  | recv (w : BitVec 2) (d : BitVec 5) (a : BitVec 5)
  /-- SENDB (R185). Sends a word as a message on a buffered channel, taking a credit. -/
  | sendb (w : BitVec 2) (a : BitVec 5) (b : BitVec 5)
  /-- SENDH (R193). Sends an active message to a core's inbox. -/
  | sendh (w : BitVec 2) (a : BitVec 5) (b : BitVec 5)
  /-- TSEND (R176). Sends a tile on a rendezvous or buffered channel. -/
  | tsend (w : BitVec 2) (a : BitVec 5) (b : BitVec 5)
  /-- TRECV (R177). Receives a tile on a rendezvous or buffered channel. -/
  | trecv (w : BitVec 2) (a : BitVec 5) (b : BitVec 5)
  /-- ALTB (R190). Empties the process's guard set. -/
  | altb (w : BitVec 2)
  /-- ALTG (R190). Appends a channel guard to the guard set. -/
  | altg (w : BitVec 2) (a : BitVec 5) (b : BitVec 5)
  /-- ALTT (R190). Sets the time-out guard of the guard set. -/
  | altt (w : BitVec 2) (a : BitVec 5) (b : BitVec 5)
  /-- ALTW (R191). Registers the guards and waits until one is ready. -/
  | altw (w : BitVec 2) (d : BitVec 5)
  /-- SPECB (R203). Opens a speculation region holding the core's hold buffer. -/
  | specb (w : BitVec 2)
  /-- COMMIT (R206). Releases the held items of the speculation region in order. -/
  | commit (w : BitVec 2)
  /-- ABORT (R206). Drops the held items of the region and returns their credits. -/
  | abort (w : BitVec 2)
  /-- LPATCH (R306). Writes one RW field of a launch record through the launch unit. -/
  | lpatch (w : BitVec 2) (a : BitVec 5) (b : BitVec 5)
  /-- LARM (R308). Arms a launch record into the launch queue, or makes an inline call when the queue is full. -/
  | larm (w : BitVec 2) (d : BitVec 5) (a : BitVec 5)
  /-- LARM_RETURN (R309). Returns from an inline launch call, or acts as STOP at depth 0. -/
  | larmReturn (w : BitVec 2)
  /-- FWAIT (R241). Waits for a future named by a handle and returns its status. -/
  | fwait (w : BitVec 2) (d : BitVec 5) (a : BitVec 5)
  /-- FTEST (R242). Reads a future's current word without blocking. -/
  | ftest (w : BitVec 2) (d : BitVec 5) (a : BitVec 5)
  /-- FCANCEL (R243). Cancels an operation that has not started. -/
  | fcancel (w : BitVec 2) (a : BitVec 5)
  /-- FPASS (R244). Moves a pending future's target to another register. -/
  | fpass (w : BitVec 2) (d : BitVec 5) (a : BitVec 5)
  /-- FPROM (R245). Reads the promised completion cycle of a future. -/
  | fprom (w : BitVec 2) (d : BitVec 5) (a : BitVec 5)
  /-- NESTSET (R165). Loads a loop-nest description into the process's fetcher entry. -/
  | nestset (w : BitVec 2) (a : BitVec 5)
  /-- ITER (R166). Hands out the next loop index, claiming a chunk when needed. -/
  | iter (w : BitVec 2) (d : BitVec 5)
  /-- SHPUB (R294). Publishes scratchpad bytes to every sheaf member. -/
  | shpub (w : BitVec 2) (d : BitVec 5) (a : BitVec 5) (b : BitVec 5)
  /-- SHST (R293). Queues a store to a sheaf board word. -/
  | shst (w : BitVec 2) (d : BitVec 5) (a : BitVec 5) (b : BitVec 5)
  /-- SHCAS (R293). Queues a compare-and-swap on a sheaf board word. -/
  | shcas (w : BitVec 2) (d : BitVec 5) (a : BitVec 5) (b : BitVec 5)
  /-- SHACQ (R295). Waits until the die replica has applied a target SSN and acquires. -/
  | shacq (w : BitVec 2) (a : BitVec 5)
  /-- EWR (R210). Writes an engine's shadow register. -/
  | ewr (w : BitVec 2) (a : BitVec 5) (e : BitVec 4) (n : BitVec 8)
  /-- EWRA (R210). Writes both register sets of an idle engine. -/
  | ewra (w : BitVec 2) (a : BitVec 5) (e : BitVec 4) (n : BitVec 8)
  /-- ERD (R210). Reads an engine's active or shadow register. -/
  | erd (w : BitVec 2) (d : BitVec 5) (e : BitVec 4) (n : BitVec 8)
  /-- VADD (R218). Queues an elementwise vector add. -/
  | vadd (w : BitVec 2) (d : BitVec 5) (a : BitVec 5) (b : BitVec 5)
  /-- VSUB (R218). Queues an elementwise vector subtract. -/
  | vsub (w : BitVec 2) (d : BitVec 5) (a : BitVec 5) (b : BitVec 5)
  /-- VMUL (R218). Queues an elementwise vector multiply. -/
  | vmul (w : BitVec 2) (d : BitVec 5) (a : BitVec 5) (b : BitVec 5)
  /-- VFMA (R218). Queues an elementwise fused multiply-add into the destination. -/
  | vfma (w : BitVec 2) (d : BitVec 5) (a : BitVec 5) (b : BitVec 5)
  /-- VMAX (R218). Queues an elementwise maximum. -/
  | vmax (w : BitVec 2) (d : BitVec 5) (a : BitVec 5) (b : BitVec 5)
  /-- VMIN (R218). Queues an elementwise minimum. -/
  | vmin (w : BitVec 2) (d : BitVec 5) (a : BitVec 5) (b : BitVec 5)
  /-- VABS (R218). Queues an elementwise absolute value. -/
  | vabs (w : BitVec 2) (d : BitVec 5) (a : BitVec 5) (b : BitVec 5)
  /-- VNEG (R218). Queues an elementwise negation. -/
  | vneg (w : BitVec 2) (d : BitVec 5) (a : BitVec 5) (b : BitVec 5)
  /-- VEXP (R218). Queues an elementwise exponential. -/
  | vexp (w : BitVec 2) (d : BitVec 5) (a : BitVec 5) (b : BitVec 5)
  /-- VLOG (R218). Queues an elementwise natural logarithm. -/
  | vlog (w : BitVec 2) (d : BitVec 5) (a : BitVec 5) (b : BitVec 5)
  /-- VRCP (R218). Queues an elementwise reciprocal. -/
  | vrcp (w : BitVec 2) (d : BitVec 5) (a : BitVec 5) (b : BitVec 5)
  /-- VRSQ (R218). Queues an elementwise reciprocal square root. -/
  | vrsq (w : BitVec 2) (d : BitVec 5) (a : BitVec 5) (b : BitVec 5)
  /-- VCVT (R218). Queues an elementwise conversion. -/
  | vcvt (w : BitVec 2) (d : BitVec 5) (a : BitVec 5) (b : BitVec 5)
  /-- VRSUM (R221). Queues an exact sum along dimension 0. -/
  | vrsum (w : BitVec 2) (d : BitVec 5) (a : BitVec 5) (b : BitVec 5)
  /-- VRMAX (R221). Queues a maximum along dimension 0. -/
  | vrmax (w : BitVec 2) (d : BitVec 5) (a : BitVec 5) (b : BitVec 5)
  /-- VAMAX (R221). Queues a maximum magnitude along dimension 0. -/
  | vamax (w : BitVec 2) (d : BitVec 5) (a : BitVec 5) (b : BitVec 5)
  /-- VSCALE (R224). Queues a quantisation by a running maximum read and cleared atomically. -/
  | vscale (w : BitVec 2) (d : BitVec 5) (a : BitVec 5) (b : BitVec 5)
  /-- VSEL (R223). Queues an elementwise select by a mask. -/
  | vsel (w : BitVec 2) (d : BitVec 5) (a : BitVec 5) (b : BitVec 5)
  /-- VCMP (R223). Queues an elementwise comparison by PRED. -/
  | vcmp (w : BitVec 2) (d : BitVec 5) (a : BitVec 5) (b : BitVec 5)
  /-- VTRANS (R223). Queues an exchange of dimensions 0 and 1. -/
  | vtrans (w : BitVec 2) (d : BitVec 5) (a : BitVec 5) (b : BitVec 5)
  /-- VGATH (R223). Queues an indexed gather. -/
  | vgath (w : BitVec 2) (d : BitVec 5) (a : BitVec 5) (b : BitVec 5)
  /-- VSCAT (R223). Queues an indexed scatter. -/
  | vscat (w : BitVec 2) (d : BitVec 5) (a : BitVec 5) (b : BitVec 5)
  /-- VBCAST (R223). Queues a broadcast of one element to every destination element. -/
  | vbcast (w : BitVec 2) (d : BitVec 5) (a : BitVec 5) (b : BitVec 5)
  /-- CPY (R228). Queues a copy on the copy engine and returns a future with a promise. -/
  | cpy (w : BitVec 2) (d : BitVec 5) (a : BitVec 5) (b : BitVec 5)
  /-- CPYM (R233). Queues a multicast copy to every core of a rectangle. -/
  | cpym (w : BitVec 2) (d : BitVec 5) (a : BitVec 5) (b : BitVec 5)
  /-- MCLAIM (R253). Claims a set of operand slots all at once or not at all. -/
  | mclaim (w : BitVec 2) (d : BitVec 5) (a : BitVec 5)
  /-- MREL (R254). Marks owned operand slots release-pending. -/
  | mrel (w : BitVec 2) (a : BitVec 5)
  /-- MTASK (R256). Enqueues a tile-task record and returns a future. -/
  | mtask (w : BitVec 2) (d : BitVec 5) (a : BitVec 5)
  /-- MMERGE (R266). Waits for earlier tasks and the drain unit, then adds one counter bank into the other. -/
  | mmerge (w : BitVec 2) (d : BitVec 5) (a : BitVec 5) (b : BitVec 5)
  /-- WSET (R78). Loads one window descriptor from scratchpad. -/
  | wset (w : BitVec 2) (a : BitVec 5) (n : BitVec 5)
  /-- RDCR (R109). Reads a control register. -/
  | rdcr (w : BitVec 2) (d : BitVec 5) (c : BitVec 8)
  /-- WRCR (R109). Writes a control register with its side effects. -/
  | wrcr (w : BitVec 2) (a : BitVec 5) (c : BitVec 8)
  /-- TRAP (R111). Raises TRAPI with the code k. -/
  | trap (w : BitVec 2) (k : BitVec 14)
  /-- GSET (R334). Reads or writes one gate or die object from a kernel core. -/
  | gset (w : BitVec 2) (a : BitVec 5) (b : BitVec 5)
  /-- GRESUME (R337). Makes a FAULTED process READY. -/
  | gresume (w : BitVec 2) (a : BitVec 5)
  /-- GKILL (R338). Ends a process of the die with all its kill effects. -/
  | gkill (w : BitVec 2) (a : BitVec 5)
  /-- FIXED_LATENCY_RESULT (R14). A fixed-latency result becomes architectural at issue + L and its FP flags are ORed into FCTL. -/
  | fixedLatencyResult (core : Nat) (idx : Nat)
  /-- DIVIDER_RESULT (R82). The core's divider writes a finished quotient, remainder or root and serves the next operation. -/
  | dividerResult (core : Nat)
  /-- SCHEDULER_PLACEMENT (R150). The scheduler places the head of the highest non-empty ready list into a slot. -/
  | schedulerPlacement (core : Nat)
  /-- SLOT_DEPARTURE (R150). An outgoing process leaves its slot at its next instruction boundary once its fixed-latency results are written. -/
  | slotDeparture (core : Nat) (slot : Nat)
  /-- SWITCH_END (R11). The 4-cycle switch of a slot ends and the incoming process may issue. -/
  | switchEnd (core : Nat) (slot : Nat)
  /-- PENDING_WAIT_EXPIRY (R150). A resident that has waited 64 die cycles on a pending tag becomes displaceable. -/
  | pendingWaitExpiry (core : Nat) (slot : Nat)
  /-- ROTATION (R152). A resident whose ROT reached 16,384 yields its slot to the head of its priority list. -/
  | rotation (core : Nat)
  /-- SLOT15_HANDOVER (R153). An ordinary process leaves slot 15 when handler or overflow work is pending. -/
  | slot15Handover (core : Nat)
  /-- SLEEP_DEADLINE (R158). A SLEEPC deadline is reached and the sleeping process is released. -/
  | sleepDeadline (core : Nat) (pn : Nat)
  /-- ALIGN_TIMEOUT (R31). A process held at ALIGN for 256 die cycles is released alone. -/
  | alignTimeout (core : Nat) (pn : Nat)
  /-- LINE_DELIVERY (R27). The cluster fetch port delivers up to 4 lines to requesting slots in a cycle. -/
  | lineDelivery (die : Nat) (cluster : Nat)
  /-- ICACHE_FILL (R29). An instruction-cache miss is filled from global memory and the line delivered. -/
  | icacheFill (die : Nat) (cluster : Nat) (idx : Nat)
  /-- IFSYNC_RELEASE (R100). The IFSYNC invalidation finishes and the process is released. -/
  | ifsyncRelease (core : Nat) (pn : Nat)
  /-- STORE_BUFFER_DRAIN (R124). A store leaves the core's store buffer toward its point of service. -/
  | storeBufferDrain (core : Nat) (tag : Nat)
  /-- BUFFER_ENTRY_FREED (R124). A store-buffer or request-table entry frees and a process blocked for it enters its access. -/
  | bufferEntryFreed (core : Nat) (tag : Nat)
  /-- TLB_WALK_COMPLETION (R326). The die walker finishes a page-table walk and the waiting access traps or proceeds. -/
  | tlbWalkCompletion (die : Nat) (idx : Nat)
  /-- MEMORY_REQUEST_ARRIVAL (R137). A store, load, AMO or CAS reaches its point of service and is performed in the location's single order. -/
  | memoryRequestArrival (core : Nat) (tag : Nat)
  /-- MEMORY_RESPONSE (R123). A load or atomic result returns and is written into the window, clearing its pending tag. -/
  | memoryResponse (core : Nat) (tag : Nat)
  /-- MESH_ACCESS_ANSWER (R119). The target core's answer to a mesh access returns, completing or trapping the issuer. -/
  | meshAccessAnswer (core : Nat) (tag : Nat)
  /-- SYNC_REQUEST_ARRIVAL (R131). A sync operation reaches its point of service and is performed or entered as a waiter. -/
  | syncRequestArrival (core : Nat) (tag : Nat)
  /-- REQUEST_RETRY (R132). A refused request is resent after its back-off time. -/
  | requestRetry (core : Nat) (tag : Nat)
  /-- SYNC_COMPLETION (R129). A performed sync operation's answer returns and releases the process. -/
  | syncCompletion (core : Nat) (tag : Nat)
  /-- SYNC_WITHDRAWAL (R133). A withdrawal reaches a point of service and removes the waiting request if not performed. -/
  | syncWithdrawal (core : Nat) (tag : Nat)
  /-- FENCE_RELEASE (R140). Earlier accesses are complete at the fence's scope and the process is released. -/
  | fenceRelease (core : Nat) (pn : Nat)
  /-- XFENCE_RELEASE (R141). Observed path-P writes are visible on path Q and the process is released. -/
  | xfenceRelease (core : Nat) (pn : Nat)
  /-- POISON_DELIVERY (R144). Poisoned data arrives and POISON is raised at the process's next instruction boundary. -/
  | poisonDelivery (core : Nat) (pn : Nat)
  /-- START_COMPLETION (R155). START finds a number and window, creates the tiller and writes g[D]. -/
  | startCompletion (core : Nat) (pn : Nat)
  /-- WSET_COMPLETION (R78). A window descriptor load completes and the descriptor changes whole. -/
  | wsetCompletion (core : Nat)
  /-- ITER_CLAIM_RESPONSE (R166). An iteration claim returns from the counter's server and ITER completes. -/
  | iterClaimResponse (core : Nat) (pn : Nat)
  /-- BARRIER_ACK (R162). The barrier unit marks a core done and acknowledges its DONE. -/
  | barrierAck (core : Nat) (pn : Nat)
  /-- BWAIT_RELEASE (R163). A sub-rectangle counter reaches zero and waiting BWAITs are released. -/
  | bwaitRelease (core : Nat) (pn : Nat)
  /-- PROBE_SEND (R168). A process in one wait for 4,096 cycles sends probes along its wait edges. -/
  | probeSend (core : Nat) (pn : Nat)
  /-- PROBE_ARRIVAL (R169). A probe arrives and is dropped, forwarded or reported as a deadlock. -/
  | probeArrival (pkt : Nat)
  /-- OFFER_ARRIVAL (R177). A send offer reaches the rendezvous point and is recorded or starts a transfer. -/
  | offerArrival (pkt : Nat)
  /-- TRANSFER_END (R178). A rendezvous transfer ends, the receiver is released and the release answer is sent. -/
  | transferEnd (core : Nat) (index : Nat)
  /-- RELEASE_ANSWER (R176). The release answer reaches the OUT endpoint, which returns to IDLE and frees the sender. -/
  | releaseAnswer (pkt : Nat)
  /-- CHANNEL_WITHDRAWAL (R181). A withdrawal of a recorded side reaches the rendezvous point and is applied or refused. -/
  | channelWithdrawal (pkt : Nat)
  /-- CREDIT_RETURN (R185). A credit returns to a buffered OUT endpoint and releases a waiting sender. -/
  | creditReturn (pkt : Nat)
  /-- MESSAGE_DEPARTURE (R185). A buffered message leaves its core once the release waits hold, freeing the sender. -/
  | messageDeparture (core : Nat) (pn : Nat)
  /-- MESSAGE_ARRIVAL (R187). A message reaches a core's inbox and takes units in the normal area or staging ring. -/
  | messageArrival (pkt : Nat)
  /-- HANDLER_START (R194). The next active message starts its handler in slot 15. -/
  | handlerStart (core : Nat)
  /-- HANDLER_END (R194). An inline handler issues past its last word and ends, freeing units and returning its credit. -/
  | handlerEnd (core : Nat)
  /-- ALT_TIMEOUT (R191). An ALT time-out deadline is reached and the process is released. -/
  | altTimeout (core : Nat) (pn : Nat)
  /-- HOLD_BUFFER_FREED (R203). The hold buffer is freed and a blocked SPECB opens its region. -/
  | holdBufferFreed (core : Nat)
  /-- COMMIT_COMPLETION (R206). The last held item leaves the core and COMMIT completes. -/
  | commitCompletion (core : Nat)
  /-- VECTOR_OPERATION_START (R215). The vector unit starts its next operation, reading and checking its records. -/
  | vectorOperationStart (core : Nat)
  /-- VECTOR_OPERATION_COMPLETION (R220). A vector operation completes, writes its status and flags, and copies dirty shadow registers. -/
  | vectorOperationCompletion (core : Nat)
  /-- COPY_START (R228). The copy engine starts its next copy with the active register values. -/
  | copyStart (core : Nat)
  /-- COPY_PAGE_FAULT (R229). A copy reaches a faulting page, stops and sends an engine page fault. -/
  | copyPageFault (core : Nat)
  /-- COPY_COMPLETION (R228). A copy writes its last word and completes. -/
  | copyCompletion (core : Nat)
  /-- CPYM_ARRIVAL (R233). Multicast bytes arrive at a core of the rectangle, which checks and accepts or refuses them. -/
  | cpymArrival (core : Nat) (target : Nat)
  /-- LATE_MARK (R235). A copy not complete by its promise is marked LATE. -/
  | lateMark (core : Nat) (entry : Nat)
  /-- FUTURE_TABLE_REQUEST (R241). An FWAIT or FCANCEL request reaches a future's owning table. -/
  | futureTableRequest (pkt : Nat)
  /-- TASK_CHOICE (R257). The tile-task scheduler chooses the oldest eligible task and applies its checks. -/
  | taskChoice (core : Nat)
  /-- GOVERNOR_GRANT (R271). The issue-budget governor grants a held task, which starts. -/
  | governorGrant (core : Nat)
  /-- GOVERNOR_WINDOW (R271). A new 1,024-cycle governor window begins with a new allowance. -/
  | governorWindow (die : Nat)
  /-- PANEL_END (R262). A panel's 32 counting cycles end and the bank is held or its drain requested. -/
  | panelEnd (core : Nat)
  /-- MAC_COUNTING_END (R259). The 64 multiply-add cycles of a MAC task end. -/
  | macCountingEnd (core : Nat)
  /-- TILE_ZEROING (R397). The drain unit writes the accumulator tile as +0 and FULL. -/
  | tileZeroing (core : Nat)
  /-- DRAIN (R263). The drain unit drains a bank into the exact accumulators over 32 cycles. -/
  | drain (core : Nat)
  /-- DRAIN_END (R263). A drain ends and the bank becomes EMPTY. -/
  | drainEnd (core : Nat)
  /-- OUTPUT_WRITE_END (R264). The output tile is written and the task completes. -/
  | outputWriteEnd (core : Nat)
  /-- MMERGE_PERFORM (R266). A waiting MMERGE finds its conditions held and merges the banks. -/
  | mmergePerform (core : Nat)
  /-- TOKEN_ARRIVAL (R286). A package receives the sheaf token and fills frames from its dies' queues. -/
  | tokenArrival (pkg : Nat) (order : List Nat)
  /-- FRAME_RECEIPT (R287). A sheaf frame arrives at a member. -/
  | frameReceipt (pkg : Nat) (idx : Nat) (intact : Bool)
  /-- FRAME_REPAIR (R287). A missing frame fetched by SSN from another member arrives. -/
  | frameRepair (pkg : Nat) (source : Nat) (ssn : Nat)
  /-- FRAME_APPLY (R289). A replica applies the next frame in SSN order, updating the board and results. -/
  | frameApply (die : Nat)
  /-- LANDING (R290). A publication's landing writes are performed at a member, or a landing fault is reported. -/
  | landing (pkg : Nat)
  /-- SHEAF_LEAVE (R297). A package leaves the sheaf and its processes' sheaf operations end. -/
  | sheafLeave (pkg : Nat)
  /-- LIGHT_LOSS (R362). A member loses light on a receive fibre. -/
  | lightLoss (pkg : Nat)
  /-- SILENCE_TIMEOUT (R365). A member takes the token after its ranked silence period. -/
  | silenceTimeout (pkg : Nat)
  /-- SHEAF_FORM (R363). Writing FORM starts sheaf formation at a package. -/
  | sheafForm (pkg : Nat)
  /-- SHEAF_LEAVE_REQUEST (R363). Writing LEAVE makes the package leave the sheaf. -/
  | sheafLeaveRequest (pkg : Nat)
  /-- JOIN_FRAME_SEND (R363). A forming package repeats its join frame every 65,536 cycles. -/
  | joinFrameSend (pkg : Nat)
  /-- JOIN_FRAME_RECEIPT (R363). A join frame naming a position is received. -/
  | joinFrameReceipt (pkg : Nat) (source : Nat)
  /-- FIRST_TOKEN_SEND (R363). The lowest eligible position sends the first token after its wait. -/
  | firstTokenSend (pkg : Nat)
  /-- FIRST_TOKEN_RECEIPT (R363). A first token arrives and named packages zero their replicas and become members. -/
  | firstTokenReceipt (pkg : Nat) (source : Nat)
  /-- FORMATION_TIMEOUT (R363). A formation attempt without a first token ends after 4,200,000 cycles. -/
  | formationTimeout (pkg : Nat)
  /-- LAUNCH_UNIT_REQUEST (R306). The launch unit performs an LPATCH or LARM on a record in arrival order. -/
  | launchUnitRequest (die : Nat)
  /-- LAUNCH_START (R313). A queued launch whose cores are free starts and prepares each core of its rectangle. -/
  | launchStart (die : Nat) (pos : Nat)
  /-- LAUNCH_COMPLETION (R315). Every core of a launch is free and its future completes. -/
  | launchCompletion (die : Nat) (pos : Nat)
  /-- TIME_SHARE_QUANTUM (R320). A time-shared die's quantum ends and it rotates to the next binding. -/
  | timeShareQuantum (die : Nat)
  /-- TENANT_SWITCH (R318). All dies of a tenant are saved and another tenant's save is loaded. -/
  | tenantSwitch (pkg : Nat) (job : Nat) (target : Nat)
  /-- GSET_READ (R334). GSET with RD copies an object into the kernel core's image. -/
  | gsetRead (core : Nat)
  /-- GSET_ENDPT (R335). Writes or removes an endpoint entry. -/
  | gsetEndpt (core : Nat)
  /-- GSET_EPCTL_CLOSE (R183). Closes an endpoint with CLOSE KERNEL. -/
  | gsetEpctlClose (core : Nat)
  /-- GSET_EPCTL_MOVE_BEGIN (R184). Marks an endpoint MOVING. -/
  | gsetEpctlMoveBegin (core : Nat)
  /-- GSET_EPCTL_MOVE_END (R184). Ends a move and forwards held events to the new place. -/
  | gsetEpctlMoveEnd (core : Nat)
  /-- GSET_HUSK (R335). Writes a husk image of a FAULTED or saved process. -/
  | gsetHusk (core : Nat)
  /-- GSET_REG (R335). Writes one window register of a FAULTED or saved process. -/
  | gsetReg (core : Nat)
  /-- GSET_HTAB (R196). Writes one handler-table entry as one transaction. -/
  | gsetHtab (core : Nat)
  /-- GSET_LREC (R303). Writes a launch record. -/
  | gsetLrec (core : Nat)
  /-- GSET_FTAB (R329). Writes a frame-table entry unless pinned. -/
  | gsetFtab (core : Nat)
  /-- GSET_JOB (R327). Writes a job record. -/
  | gsetJob (core : Nat)
  /-- GSET_GATE (R336). Writes a core's gate control. -/
  | gsetGate (core : Nat)
  /-- GSET_DIE (R335). Writes GBUD, GRAMP or a fault-ring base. -/
  | gsetDie (core : Nat)
  /-- GSET_PKG (R335). Writes LAND, DUTY or an LDBIND register at every die. -/
  | gsetPkg (core : Nat)
  /-- GSET_SHOOT (R343). Starts a shoot-down that changes a leaf entry. -/
  | gsetShoot (core : Nat)
  /-- GSET_FREPLY (R229). Continues or refuses a copy stopped at a page fault. -/
  | gsetFreply (core : Nat)
  /-- SHOOTDOWN_INVALIDATE (R343). A shoot-down invalidation reaches a core, which invalidates and forwards it. -/
  | shootdownInvalidate (kcore : Nat) (core : Nat)
  /-- SHOOTDOWN_ACK (R343). A core's old-entry accesses are drained and it acknowledges up the tree. -/
  | shootdownAck (kcore : Nat) (core : Nat)
  /-- HOME_WALK_COMPLETION (R329). A home frame-table miss walk ends, filling an entry or completing the request as MISMATCH. -/
  | homeWalkCompletion (die : Nat) (idx : Nat)
  /-- FAULT_MESSAGE_WRITE (R339). The gate writes a waiting message into the kernel core's fault ring. -/
  | faultMessageWrite (core : Nat)
  /-- FAULTTAKE (R349). Returns the next forwarded fault message to the host. -/
  | faulttake (pkg : Nat) (dev : Nat)
  /-- FAULTREPLY (R349). Performs the host's answer to a forwarded fault. -/
  | faultreply (pkg : Nat) (dev : Nat) (action : Nat) (target : Nat) (image : BitVec 512)
  /-- MIGRATE (R344). Requests one step of a host page migration. -/
  | migrate (pkg : Nat) (dev : Nat) (job : Nat) (va : Nat) (stage : Nat)
  /-- LRECWRITE (R349). Writes a launch record from the host. -/
  | lrecwrite (pkg : Nat) (dev : Nat) (die : Nat) (index : Nat) (image : BitVec 1024)
  /-- ROUTELOAD (R356). Writes fabric control space from the host. -/
  | routeload (pkg : Nat) (dev : Nat) (offset : Nat) (value : BitVec 64)
  /-- SCRUBSET (R375). Sets the patrol rate and action from the host. -/
  | scrubset (pkg : Nat) (dev : Nat) (die : Nat) (period : BitVec 8) (action : BitVec 2)
  /-- DUTYSET (R321). Writes the DUTY register from the host. -/
  | dutyset (pkg : Nat) (dev : Nat) (value : BitVec 64)
  /-- FWSUPPLY (R390). Stages a firmware image piece or commits a staged image. -/
  | fwsupply (pkg : Nat) (dev : Nat) (fin : Bool) (offset : Nat) (data : List (BitVec 8))
  /-- HOSTQREG (R351). Registers or removes a host queue. -/
  | hostqreg (pkg : Nat) (dev : Nat) (queue : Nat) (remove : Bool) (base : Nat) (log : Nat) (entry : Nat) (toHost : Bool)
  /-- MAILBOX_UNSUPPORTED (R349). An unknown vendor opcode completes as unsupported. -/
  | mailboxUnsupported (pkg : Nat) (dev : Nat) (opcode : Nat)
  /-- HOST_DOORBELL (R351). A host doorbell makes new IN queue entries act as offers or messages. -/
  | hostDoorbell (pkg : Nat) (dev : Nat) (queue : Nat)
  /-- HOST_HEAD_PASS (R351). The host's HEAD passes an entry, releasing a sender or returning a credit. -/
  | hostHeadPass (pkg : Nat) (dev : Nat) (queue : Nat)
  /-- HOST_MEM_ACCESS (R347). A host CXL.mem access to device HBM is performed or poisoned. -/
  | hostMemAccess (pkg : Nat) (dev : Nat) (va : Nat) (write : Bool) (value : BitVec 64)
  /-- BACK_INVALIDATION (R348). The host recalls a line from a memory server. -/
  | backInvalidation (pkg : Nat) (line : Nat) (data : List (BitVec 8))
  /-- HOST_WARM_RESTART (R352). A host's warm restart closes its endpoints and cleans up its logical devices. -/
  | hostWarmRestart (pkg : Nat) (devs : List Nat)
  /-- LD_RESET (R353). A logical-device reset closes its endpoints and tears down its dies. -/
  | ldReset (pkg : Nat) (dev : Nat)
  /-- PACKET_FORWARD (R358). A fabric packet is forwarded by its generation's table or discarded. -/
  | packetForward (pkt : Nat)
  /-- ROUTE_SWITCH (R361). Writing RTCTL.SWITCH starts a route-table update. -/
  | routeSwitch (pkg : Nat)
  /-- DRAIN_MARKER (R361). A drain marker arrives, advancing the update levels until the old table is dropped. -/
  | drainMarker (pkg : Nat) (port : Nat) (level : Nat)
  /-- LINK_DOWN (R361). A point-to-point link goes down and counts as having sent every marker. -/
  | linkDown (pkg : Nat) (port : Nat)
  /-- PATROL_VISIT (R377). The patrol reads and corrects one line, or poisons it. -/
  | patrolVisit (die : Nat) (line : Nat) (error : Nat)
  /-- POISON_FIX (R379). Writing FIXADDR clears a line's poison, leaving it zero and EMPTY. -/
  | poisonFix (die : Nat) (addr : Nat)
  /-- INVENTORY_RECORD_WRITE (R381). A waiting inventory record is written into the ring. -/
  | inventoryRecordWrite (die : Nat)
  /-- TEARDOWN (R383). Writing GO starts a teardown of a job on the die. -/
  | teardown (die : Nat) (job : Nat) (reason : Nat)
  /-- QUARANTINE (R383). Traffic for a job being torn down reaches the quarantine sink and is answered TEARDOWN. -/
  | quarantine (pkt : Nat)
  /-- TEARDOWN_MARKER (R383). Teardown drain markers return and the job's on-die state is cleaned. -/
  | teardownMarker (die : Nat)
  /-- POWER_GATE (R385). Writing a PGATE bit gates a free compute core. -/
  | powerGate (core : Nat)
  /-- CORE_WAKE (R385). A launch, mesh access, GSET or cleared bit starts waking a gated core. -/
  | coreWake (core : Nat)
  /-- CORE_WAKE_END (R385). A core's wake completes and stalled accesses proceed. -/
  | coreWakeEnd (core : Nat)
  /-- THERMAL_TRIP (R386). TJ reaches 115 °C and the die resets, setting TRIP. -/
  | thermalTrip (die : Nat) (tj : Nat)
  /-- THERMAL_RECOVERY (R386). TJ falls below 95 °C and the die leaves reset. -/
  | thermalRecovery (die : Nat) (tj : Nat)
  /-- DIE_RESET (R387). Writing DIERST resets the die after tearing down its jobs. -/
  | dieReset (die : Nat)
  /-- PACKAGE_WARM_RESET (R387). PKGRST or WRST_N warm-resets the package. -/
  | packageWarmReset (pkg : Nat)
  /-- PACKAGE_COLD_RESET (R387). Power-on or PWROK cold-resets the package. -/
  | packageColdReset (pkg : Nat)
  /-- GET_VERSION (R391). SPDM request answered with version 1.3. -/
  | getVersion (pkg : Nat) (dev : Nat) (version : Nat)
  /-- GET_CAPABILITIES (R391). SPDM request for responder capabilities. -/
  | getCapabilities (pkg : Nat) (dev : Nat)
  /-- NEGOTIATE_ALGORITHMS (R391). SPDM request negotiating SHA-384 and Ed25519. -/
  | negotiateAlgorithms (pkg : Nat) (dev : Nat)
  /-- GET_DIGESTS (R391). SPDM request for certificate digests. -/
  | getDigests (pkg : Nat) (dev : Nat)
  /-- GET_CERTIFICATE (R391). SPDM request for the slot 0 certificate. -/
  | getCertificate (pkg : Nat) (dev : Nat) (slot : Nat)
  /-- CHALLENGE (R391). SPDM challenge answered with a signed response. -/
  | challenge (pkg : Nat) (dev : Nat) (nonce : List (BitVec 8))
  /-- GET_MEASUREMENTS (R391). SPDM request for the measurement blocks. -/
  | getMeasurements (pkg : Nat) (dev : Nat) (index : Nat) (nonce : List (BitVec 8))
  /-- VENDOR_DEFINED_REQUEST (R391). Eutchaet request answered with an ML-DSA-65 companion signature. -/
  | vendorDefinedRequest (pkg : Nat) (dev : Nat) (vendor : Nat)
  /-- SPDM_UNSUPPORTED (R391). Any other SPDM request is answered with ERROR UnsupportedRequest. -/
  | spdmUnsupported (pkg : Nat) (dev : Nat) (code : Nat)
  /-- REGISTER_WRITE (R5). A write to a register field with no behaviour of its own, by its access code. -/
  | registerWrite (die : Nat) (target : Nat) (offset : Nat) (value : BitVec 64)
  /-- ILLEGAL_WORD (R38). Issuing a word with an unassigned major or member code, or a non-zero required-zero field, raises the precise kernel-bound ILL trap. -/
  | illegalWord (word : BitVec 32)
  /-- HOST_LINK_RETURN (R352). When a restarted host's link returns, device-held modified host lines are written back, and lines the host refuses are discarded and recorded. -/
  | hostLinkReturn (pkg : Nat) (refused : List Nat)
  /-- SOFT_ERROR (R380). An uncorrectable soft error in an on-die structure poisons the process, tears down the core's job, or makes the package leave the sheaf. -/
  | softError (core : Nat) (part : Nat) (pn : Nat)
  /-- THERMAL_WARN (R386). The hottest junction temperature crosses 105 °C, setting or clearing WARN. -/
  | thermalWarn (die : Nat) (tj : Nat)
  deriving DecidableEq, Repr

/-- Whether the constructor is an event that comes about outside any process: a row of the table that has no instruction
word, but for ILLEGAL_WORD, which the issue of such a word is. -/
def Instr.isEvent : Instr → Bool
  | .fixedLatencyResult _ _ => true
  | .dividerResult _ => true
  | .schedulerPlacement _ => true
  | .slotDeparture _ _ => true
  | .switchEnd _ _ => true
  | .pendingWaitExpiry _ _ => true
  | .rotation _ => true
  | .slot15Handover _ => true
  | .sleepDeadline _ _ => true
  | .alignTimeout _ _ => true
  | .lineDelivery _ _ => true
  | .icacheFill _ _ _ => true
  | .ifsyncRelease _ _ => true
  | .storeBufferDrain _ _ => true
  | .bufferEntryFreed _ _ => true
  | .tlbWalkCompletion _ _ => true
  | .memoryRequestArrival _ _ => true
  | .memoryResponse _ _ => true
  | .meshAccessAnswer _ _ => true
  | .syncRequestArrival _ _ => true
  | .requestRetry _ _ => true
  | .syncCompletion _ _ => true
  | .syncWithdrawal _ _ => true
  | .fenceRelease _ _ => true
  | .xfenceRelease _ _ => true
  | .poisonDelivery _ _ => true
  | .startCompletion _ _ => true
  | .wsetCompletion _ => true
  | .iterClaimResponse _ _ => true
  | .barrierAck _ _ => true
  | .bwaitRelease _ _ => true
  | .probeSend _ _ => true
  | .probeArrival _ => true
  | .offerArrival _ => true
  | .transferEnd _ _ => true
  | .releaseAnswer _ => true
  | .channelWithdrawal _ => true
  | .creditReturn _ => true
  | .messageDeparture _ _ => true
  | .messageArrival _ => true
  | .handlerStart _ => true
  | .handlerEnd _ => true
  | .altTimeout _ _ => true
  | .holdBufferFreed _ => true
  | .commitCompletion _ => true
  | .vectorOperationStart _ => true
  | .vectorOperationCompletion _ => true
  | .copyStart _ => true
  | .copyPageFault _ => true
  | .copyCompletion _ => true
  | .cpymArrival _ _ => true
  | .lateMark _ _ => true
  | .futureTableRequest _ => true
  | .taskChoice _ => true
  | .governorGrant _ => true
  | .governorWindow _ => true
  | .panelEnd _ => true
  | .macCountingEnd _ => true
  | .tileZeroing _ => true
  | .drain _ => true
  | .drainEnd _ => true
  | .outputWriteEnd _ => true
  | .mmergePerform _ => true
  | .tokenArrival _ _ => true
  | .frameReceipt _ _ _ => true
  | .frameRepair _ _ _ => true
  | .frameApply _ => true
  | .landing _ => true
  | .sheafLeave _ => true
  | .lightLoss _ => true
  | .silenceTimeout _ => true
  | .sheafForm _ => true
  | .sheafLeaveRequest _ => true
  | .joinFrameSend _ => true
  | .joinFrameReceipt _ _ => true
  | .firstTokenSend _ => true
  | .firstTokenReceipt _ _ => true
  | .formationTimeout _ => true
  | .launchUnitRequest _ => true
  | .launchStart _ _ => true
  | .launchCompletion _ _ => true
  | .timeShareQuantum _ => true
  | .tenantSwitch _ _ _ => true
  | .gsetRead _ => true
  | .gsetEndpt _ => true
  | .gsetEpctlClose _ => true
  | .gsetEpctlMoveBegin _ => true
  | .gsetEpctlMoveEnd _ => true
  | .gsetHusk _ => true
  | .gsetReg _ => true
  | .gsetHtab _ => true
  | .gsetLrec _ => true
  | .gsetFtab _ => true
  | .gsetJob _ => true
  | .gsetGate _ => true
  | .gsetDie _ => true
  | .gsetPkg _ => true
  | .gsetShoot _ => true
  | .gsetFreply _ => true
  | .shootdownInvalidate _ _ => true
  | .shootdownAck _ _ => true
  | .homeWalkCompletion _ _ => true
  | .faultMessageWrite _ => true
  | .faulttake _ _ => true
  | .faultreply _ _ _ _ _ => true
  | .migrate _ _ _ _ _ => true
  | .lrecwrite _ _ _ _ _ => true
  | .routeload _ _ _ _ => true
  | .scrubset _ _ _ _ _ => true
  | .dutyset _ _ _ => true
  | .fwsupply _ _ _ _ _ => true
  | .hostqreg _ _ _ _ _ _ _ _ => true
  | .mailboxUnsupported _ _ _ => true
  | .hostDoorbell _ _ _ => true
  | .hostHeadPass _ _ _ => true
  | .hostMemAccess _ _ _ _ _ => true
  | .backInvalidation _ _ _ => true
  | .hostWarmRestart _ _ => true
  | .ldReset _ _ => true
  | .packetForward _ => true
  | .routeSwitch _ => true
  | .drainMarker _ _ _ => true
  | .linkDown _ _ => true
  | .patrolVisit _ _ _ => true
  | .poisonFix _ _ => true
  | .inventoryRecordWrite _ => true
  | .teardown _ _ _ => true
  | .quarantine _ => true
  | .teardownMarker _ => true
  | .powerGate _ => true
  | .coreWake _ => true
  | .coreWakeEnd _ => true
  | .thermalTrip _ _ => true
  | .thermalRecovery _ _ => true
  | .dieReset _ => true
  | .packageWarmReset _ => true
  | .packageColdReset _ => true
  | .getVersion _ _ _ => true
  | .getCapabilities _ _ => true
  | .negotiateAlgorithms _ _ => true
  | .getDigests _ _ => true
  | .getCertificate _ _ _ => true
  | .challenge _ _ _ => true
  | .getMeasurements _ _ _ _ => true
  | .vendorDefinedRequest _ _ _ => true
  | .spdmUnsupported _ _ _ => true
  | .registerWrite _ _ _ _ => true
  | .hostLinkReturn _ _ => true
  | .softError _ _ _ => true
  | .thermalWarn _ _ => true
  | _ => false

end Sys2Proof
end

