-- ==== Sys2Proof/Machine/State.lean ====
section
/-! DEFINITION. The state of the machine as plain data: every piece of state the manual gives the JLM, keyed by the
identifiers of R145. A map lists only the keys that differ from the reset value its reader names; INVENTORY.md lists
every item with its rule. -/

namespace Sys2Proof.Machine

/-- A sparse map: entries in ascending order of key. -/
abbrev AMap (α : Type) := List (Nat × α)

/-- The states of a process (R148). -/
inductive ProcState where
  | free | ready | running | blockedChan | blockedFut | blockedSync | sleeping | alt | faulted | ended
  deriving DecidableEq, Repr

/-- The cause codes of R112 and R114. -/
inductive Cause where
  | ill | window | stallshort | late | specovf | deadlock | trapi | page | prot | own | stack | localbound | align
  | donemsg | launchdepth | poison | depthfault
  deriving DecidableEq, Repr

/-- The paths of R36. -/
inductive Path where
  | c | v | m | y | n | s | h
  deriving DecidableEq, Repr

/-- The scopes of R140. -/
inductive Scope where
  | core | die | all
  deriving DecidableEq, Repr

/-- The kinds of page ordering of R324, and the pool, which R276 orders as RELEASE. -/
inductive Order where
  | strong | release | unordered | pool
  deriving DecidableEq, Repr

/-- What an access does at its point of service (R122, R128, R134, R138, R166). -/
inductive AccessKind where
  | load (signed : Bool)
  | store
  | readf | take | peek | put | fill | clear | ovwr
  | amo (op : Nat)
  | cas
  | iterClaim
  deriving DecidableEq, Repr

/-- Where an access is performed: stored bytes of memory by their key (Memory), a tensor element window, or the board of
control registers behind the physical window (R356, R375). -/
inductive Place where
  | bytes (key : Nat)
  | window (w : Nat) (desc : BitVec 256)
  | fabric (pkg off : Nat)
  | dieSpace (die off : Nat)
  | nowhere
  deriving DecidableEq, Repr

/-- Where a request stands on its way (R124, R131, R132). -/
inductive ReqPhase where
  | full        -- waits for a free entry of the store buffer or request table
  | buffered    -- in the store buffer
  | sent        -- on its way to the point of service
  | waiting     -- entered at the point of service
  | refused     -- refused, to be sent again at the cycle held with it
  | performed   -- performed, the answer on its way
  deriving DecidableEq, Repr

/-- One memory access from its issue to its completion (R123, R129, R135, R138). -/
structure Req where
  tag : Nat := 0
  pn : Nat := 0
  kind : AccessKind := .load false
  path : Path := .c
  ea : Word := 0
  size : Nat := 8
  place : Place := .nowhere
  order : Order := .pool
  fe : Bool := false
  host : Bool := false
  discarded : Bool := false
  home : Nat := 0            -- core of the pool, or die of the memory server
  homeIsDie : Bool := false
  target : Nat := 0          -- TARGET of the page
  global : Bool := false
  mesh : Bool := false
  job : Nat := 0
  data : Word := 0
  cmp : Word := 0
  dest : Nat := 0
  nest : Nat := 0            -- ITER: the nest it counts in
  blocks : Bool := false
  phase : ReqPhase := .sent
  tries : Nat := 0
  due : Nat := 0             -- own-pool store: the cycle it is performed; refused: the cycle it is sent again
  result : Word := 0
  bit : Bool := true
  flags : BitVec 5 := 0
  poisoned : Bool := false
  fault : Option (Cause × Word) := none
  withdrawn : Bool := false
  why : BitVec 8 := 0x40     -- reason of the withdrawal (R381)
  kept : List (Option Byte) := []   -- bytes of a load that held stores of its region give, fixed at issue (R204)
  ended : Bool := false      -- its process has ended: the result is discarded
  viaGen : Bool := false     -- generation of the packet that brought it to its home (R360)
  homeWait : Bool := false   -- held at its home until the home's walker has read the PTE (R329)
  answered : Bool := false   -- a mesh access whose target has answered (R119)
  accepted : Bool := false   -- a mesh store whose target has accepted it and which is still to be performed (R119, R125)
  lost : Bool := false       -- discarded at its source package: its island bit is 0 (R317, R358)
  early : Bool := false      -- a load that took its bytes from the store buffer (R125, R277)
  fencedC : Bool := false    -- a store in the store buffer that a FENCE.C has followed (R140, R278)
  release : Bool := false    -- committed by COMMIT from a hold buffer (R206)
  fpc : Word := 0            -- address and word of the instruction, for a precise trap of a mesh access (R119)
  finst : BitVec 32 := 0
  deriving DecidableEq, Repr

/-- What a blocked process waits for (the WAIT field of R147 and the rule that named the wait). -/
inductive Wait where
  | none
  | access (tag : Nat)                        -- R119, R129: the answer of a request
  | walk (req : Req)                          -- R120: the walker
  | retryWalk (va : Word)                     -- R165: the walker; the instruction then issues again
  | bufferFull (tag : Nat)                    -- R124
  | ifsync (stage : Nat) (until_ : Nat)       -- R100
  | fence (scope : Scope) (upto : Nat)        -- R140: the requests with tags below upto
  | xfence (p q : Path)                       -- R141
  | align                                     -- R31
  | sleep (until_ : Word)                     -- R158
  | doneBarrier (upto : Nat) (sent : Bool)    -- R162
  | barrier (desc : BitVec 32)                -- R163
  | offering (handle : Nat) (data : Word) (upto : Nat)   -- R176, R180: earlier accesses first, then the offer leaves
  | sending (handle : Nat)                    -- R176: a rendezvous release
  | credit (handle : Nat) (src : Word)        -- R185 step 1
  | departing (handle : Nat) (src : Word) (upto : Nat)   -- R185 steps 3 and 4
  | recording (handle : Nat) (off : Word) (dest upto : Nat)  -- R180: earlier accesses first, then the receive arrives
  | receiving (handle : Nat) (dest : Nat)     -- R177
  | receivingB (handle : Nat) (dest : Nat) (off : Word)  -- R186
  | staged (dest : Nat)                       -- R199
  | loopback (src : Word)                     -- R199
  | alt (dest : Nat)                          -- R191
  | specb                                     -- R203
  | commit                                    -- R206
  | future (handle : Nat) (dest : Nat) (registered : Bool)   -- R241
  | tag (regs : List Nat)                     -- R151: displaced on pending tags
  | sheafRelease (op : Nat) (d : Nat) (x y z : Word) (entry upto : Nat)   -- R288, R293, R294
  | sheafAcquire (t : Nat)                    -- R295
  | launchUnit                                -- R306
  | inlineCall (d : Nat) (sel : Word) (args : List Word) (entry va : Word) (rep : Bool)   -- R308: the walker, for the frame
  | gset (sel : Word) (image : Word)          -- R334
  | kernelOp (kill : Bool) (p : Word)         -- R333: GRESUME or GKILL behind earlier GSETs of the core
  | merge (dest : Nat) (dst : Bool) (tsel : Bool) (upto : Nat)   -- R266
  | wset (until_ : Nat)                       -- R78
  | controlRead (n : Nat) (dest : Nat)        -- R110
  | ownWrites (upto : Nat)                    -- R78, R256, R282: its writes to its own pool; the instruction then issues again
  | inlineReturn (f : Word) (va : Option Word)   -- R309: the words of the frame, or the walker for one of them
  deriving DecidableEq, Repr

/-- One guard of an ALT (R190). -/
structure Guard where
  handle : Nat
  tag : BitVec 4
  enabled : Bool
  deriving DecidableEq, Repr

/-- The guard set the gate holds for a process (R190). -/
structure AltSet where
  guards : List Guard := []
  timeout : Option (Word × BitVec 4 × Bool) := none
  deriving DecidableEq, Repr

/-- The iteration fetcher's entry of one process number (R164). -/
structure IterEntry where
  caddr : Word := 0
  e0 : Nat := 1
  e1 : Nat := 1
  e2 : Nat := 1
  e3 : Nat := 1
  rank : Nat := 1
  part : Nat := 1
  minch : Nat := 1
  next : Nat := 0
  stop : Nat := 0
  exhausted : Bool := true
  gen : Nat := 0             -- which NESTSET of its process gave it
  deriving DecidableEq, Repr

/-- A process: the husk of R147 and its register window (R12, R13). -/
structure Proc where
  state : ProcState := .free
  pc : Word := 0
  prio : BitVec 7 := 0
  prioWas : Option (BitVec 7 × Nat) := none   -- priority before a change, and the cycle of the change (R157)
  tvec : Word := 0
  wsz : Nat := 16
  fpc : Word := 0
  cause : BitVec 8 := 0
  faddr : Word := 0
  finst : BitVec 32 := 0
  xi : BitVec 16 := 0
  fctl : BitVec 9 := 0
  vstat : BitVec 5 := 0
  schk : Bool := false
  srctr : BitVec 40 := 0
  repDone : BitVec 6 := 0
  repRemain : BitVec 7 := 0
  wait : Wait := .none
  waitSince : Nat := 0         -- the cycle from which the present wait counts (R150, R168)
  wbase : BitVec 12 := 0
  depth : BitVec 8 := 0
  depmax : BitVec 8 := 0
  rot : Nat := 0               -- the cycle ROT counts from (R152)
  regs : List Word := []
  pend : List Bool := []
  earliest : Nat := 0          -- R18
  inRep : Bool := false        -- the word after a REP is being repeated (R24)
  held : Bool := false         -- held at an ALIGN (R31), or by an instruction that is not divided
  tagSince : Option Nat := none -- the cycle a wait on a pending tag began (R150 step 3)
  tagRegs : List Nat := []     -- the registers the stalled instruction reads or writes (R151)
  altSet : AltSet := {}
  iter : IterEntry := {}
  pastNests : List IterEntry := []   -- nests that ITERs issued before a NESTSET still count in (R166)
  bidx : BitVec 13 := 0
  asyncTrap : Option (Cause × Word) := none   -- R144, R297
  lateTrap : Option (Cause × Word) := none    -- R113: raised while blocked, delivered when next resident
  carried : List (Path × Path × Nat) := []    -- R281: what XFENCE has carried, by the age of the write
  observed : List (Path × Nat) := []          -- R141, R283: completions observed, by path and age
  regObs : List (Nat × Path × Nat) := []      -- R283: a completed future's register, until it is read
  seen : List (Nat × Nat) := []               -- R274: the age of the write last read, by word
  fenced : Nat := 0                           -- R282: writes up to this age are fenced for engines by a FENCE.G
  fencedDie : Nat := 0                        -- R282: the same by a FENCE.D, for its die's memory
  bpc : Word := 0              -- the blocking instruction: its address, word and REPST (R113, R119)
  binst : BitVec 32 := 0
  bDone : BitVec 6 := 0
  bRemain : BitVec 7 := 0
  probeAt : Nat := 0           -- R168: the cycle the next probe is due
  reported : Nat := 0          -- R169: the wait (its waitSince) whose deadlock has been reported
  closeReason : BitVec 32 := 0 -- R183, R341: EXTRA of the fault message
  moving : Bool := false       -- displaced to be moved to another core (R316)
  deriving DecidableEq, Repr

/-- A fixed-latency result in flight (R14, R19); seq is the issue order. -/
structure Flight where
  pn : Nat
  writes : List (Nat × Word)
  xi : Option (BitVec 16) := none
  flags : BitVec 5 := 0
  due : Nat
  seq : Nat
  var : Bool := false          -- a variable-latency result that the core itself delivers
  deriving DecidableEq, Repr

/-- An operation of the divider (R82). -/
structure DivOp where
  pn : Nat
  dest : Nat
  value : Word
  flags : BitVec 5
  cycles : Nat                 -- the bound of R82
  startBy : Nat                -- the cycle it may have begun
  deriving DecidableEq, Repr

/-- A 16-byte line in a line buffer, as it was fetched (R28); a fault stands in its place (R29). -/
structure Line where
  addr : Nat                   -- line number: address / 16
  bytes : List Byte
  fault : Option Cause := none
  deriving DecidableEq, Repr

/-- Why an outgoing resident leaves (R150 to R153). -/
inductive Leave where
  | preempt | displace | rotate | slot15 | yield
  deriving DecidableEq, Repr

/-- An issue slot (R9 to R11, R28). -/
structure Slot where
  proc : Option Nat := none
  switchEnd : Option Nat := none       -- the cycle from which the incoming process may issue
  since : Nat := 0                     -- when the resident took the slot
  leaving : Option (Leave × Nat) := none   -- reason and incoming process (1024 for none)
  cur : Option Line := none
  nextLine : Option Line := none
  last : Option Line := none
  want : List Nat := []                -- lines requested and not yet delivered
  deriving DecidableEq, Repr

/-- An endpoint entry (R172). -/
structure Endpoint where
  gen : BitVec 12 := 0
  valid : Bool := false
  dirIn : Bool := false
  buffered : Bool := false
  typ : BitVec 2 := 0
  dm1 : BitVec 6 := 0
  etype : BitVec 5 := 0
  shape : BitVec 4 := 0
  pkind : BitVec 2 := 0
  ppkg : BitVec 12 := 0
  pdie : BitVec 2 := 0
  pcore : BitVec 9 := 0
  ppn : BitVec 8 := 0
  owner : BitVec 8 := 0
  phandle : BitVec 32 := 0
  state : BitVec 3 := 0
  wseq : BitVec 16 := 0
  wpn : BitVec 8 := 0
  credit : BitVec 7 := 0
  close : BitVec 8 := 0
  wdata : Word := 0
  before : BitVec 3 := 0               -- the state before a move (R177)
  closing : BitVec 8 := 0              -- a close that waits for the end of the transfer
  moving : Bool := false               -- a move that waits for the end of the transfer
  newPlace : Option Nat := none        -- the gate the move ended at (R184)
  xferDone : Nat := 0                  -- XFER: earliest cycle of the receiver's release (R178)
  xferSrc : Nat := 0                   -- the recorded offer: core and handle of the sender's end
  xferBack : Nat := 0
  xferData : Word := 0                 -- XFER: what the second side brought: the word, or an offset
  bytes : Option (List Byte) := none   -- XFER of a tile: the bytes, once all have been read
  engine : Bool := false               -- the recorded side is the vector unit, acting for the owner (R216)
  killed : Option (BitVec 8) := none   -- OUT: the sender of the offer under way has been killed, and why (R181)
  deriving DecidableEq, Repr

/-- A message (R188): header fields, first doublewords and tile bytes. -/
structure Msg where
  kind : BitVec 4 := 0
  reason : BitVec 4 := 0
  sender : BitVec 31 := 0
  hidx : BitVec 6 := 0
  nm1 : BitVec 4 := 0
  handle : BitVec 32 := 0              -- destination handle
  back : Nat := 0                      -- the sender's OUT endpoint index, to which the credit returns
  words : List Word := []              -- the word, or arguments a0 to a6
  body : List Byte := []               -- tile bytes, or inline code
  job : Nat := 0
  fromHost : Bool := false
  deriving DecidableEq, Repr

/-- A message in an area of the inbox, with the units it holds (R187). -/
structure Stored where
  msg : Msg
  first : Nat
  units : Nat
  skipped : Nat := 0                   -- staging: units skipped at the end of the ring
  returned : Bool := false             -- staging: already returned to the overflow process
  deriving DecidableEq, Repr

/-- Why an offer is withdrawn (R181, R183). -/
inductive Why where
  | close
  | deadlock (faddr : Word)
  | kill (reason : BitVec 8)
  deriving DecidableEq, Repr

/-- Packets between network interfaces. -/
inductive Body where
  | memory (core tag : Nat)                              -- R359: a request on its way to another package
  | answer (core tag : Nat)
  | engine (core va : Nat)                               -- R358: an engine's access to a home in another package
  | fill (core line : Nat)                               -- R358: an instruction fill from there
  | ack                                                  -- R360: the acknowledgement of any other packet
  | offer (handle back : Nat) (data : Word)              -- R176
  | offerWithdrawal (handle back : Nat) (why : Why)      -- R181
  | release (handle : Nat) (fault : Bool) (reason : BitVec 8) (tile : Option Nat)  -- R176: the release answer or a
                                                         -- refusal; for a tile, the IN end whose bytes are then read
  | credit (index : Nat)                                 -- R186
  | message (m : Msg)
  | probe (origin seq : Nat) (edge edgeSeq : Nat) (fromPid : Nat) (hops : Nat) (record : List (Nat × Nat)) (trunc : Bool)
  | futureWait (handle pid : Nat) | futureCancel (handle : Nat)      -- R241, R243
  deriving DecidableEq, Repr

/-- A packet with its route (R355 to R360). -/
structure Packet where
  src : Nat                            -- core identifier of the source
  dst : Nat                            -- core identifier of the destination
  at_ : Nat                            -- the package where it now is
  job : Nat := 0                       -- the job the gate attached (R336)
  hop : Nat := 0
  gen : Bool := false
  line : Option Nat := none            -- memory requests are routed by line (R359)
  retryAt : Option Nat := none         -- refused and to be sent again at this cycle (R132, R198)
  tries : Nat := 0
  inj : Option Nat := none             -- the core that sent it on, where it is not src (R184)
  reply : Option Bool := none          -- a response or acknowledgement: the generation of the packet it answers
  body : Body
  deriving DecidableEq, Repr

/-- A held item of a speculation region (R204). -/
inductive HoldItem where
  | store (r : Req)
  | message (index : Nat) (m : Msg) (dst : Nat) (bytes : Nat)
  deriving DecidableEq, Repr

/-- The hold buffer of a core (R203). -/
structure Hold where
  owner : Option Nat := none
  items : List HoldItem := []
  committing : Bool := false
  deriving DecidableEq, Repr

/-- One entry of a future table (R239); state codes of R237. -/
structure Future where
  used : Bool := false
  gen : BitVec 3 := 0
  owner : Nat := 0
  target : Nat := 0
  ownerLive : Bool := true
  engine : BitVec 4 := 0
  promise : Option Word := none
  late : Bool := false
  status : Word := 0
  age : Nat := 0                           -- age of the newest write when the operation completed (R283)
  deriving DecidableEq, Repr

/-- A write an engine operation has computed: bytes, or a nibble, from a memory key. -/
structure Write where
  key : Nat
  n : Nat
  value : Nat
  nibble : Option Bool := none             -- a masked write of the low (false) or high (true) nibble
  deriving DecidableEq, Repr

/-- The vector unit's registers (R211), one set. -/
structure VecRegs where
  dst : Word := 0
  aux : Word := 0
  pred : BitVec 3 := 0
  tseq : BitVec 16 := 0
  smax : BitVec 32 := 0x43E00000
  lasts : BitVec 32 := 0x3F800000
  lastr : BitVec 32 := 0x3F800000
  deriving DecidableEq, Repr

/-- A vector operation (R217). What it read at its start stays with it; its elements are read and written at its
completion (log 13). -/
structure VecOp where
  fn : Nat
  a : Word
  b : Word
  pn : Nat
  entry : Nat
  upto : Nat := 0                          -- tag of the process's first later access
  started : Bool := false
  recs : AMap (BitVec 256) := []           -- shape records by role: 0 and 1 the sources, 2 the destination, 3 the mask
  regs : VecRegs := {}
  stream : BitVec 40 := 0                  -- SRCTR at the start (R222)
  scale : Option (BitVec 32 × BitVec 32) := none   -- VSCALE: s and 1 / s
  flags : BitVec 5 := 0
  reason : BitVec 8 := 0
  waiting : Option (Nat × Nat) := none     -- a channel operand at work: its handle and its role (R216)
  tiles : AMap (List Byte) := []           -- bytes of channel operands, by role
  left : Bool := false                     -- the offer of its channel destination has left (R180)
  sent : Bool := false                     -- the channel destination has taken its tile
  deriving DecidableEq, Repr

/-- A copy (R228): geometry captured at its start; moved counts the 8-byte words already moved. -/
structure CopyOp where
  multi : Bool
  src : Word
  dst : Word
  pn : Nat
  entry : Nat
  promise : Word
  upto : Nat := 0                          -- tag of the process's first later access
  started : Bool := false
  len : Nat := 0
  rows : Nat := 0
  spitch : Int := 0
  dpitch : Int := 0
  rect : BitVec 32 := 0
  moved : Nat := 0
  fault : Option (Cause × Word) := none    -- stopped at a page fault, waiting for FREPLY (R229)
  reason : BitVec 8 := 0
  words : List Word := []                  -- CPYM: the source words, read once (R233)
  cores : List (Nat × Option Cause) := []  -- CPYM: cores reached, and why one refused
  deriving DecidableEq, Repr

/-- A tile task (R255, R256). -/
structure Task where
  record : BitVec 512
  pn : Nat
  entry : Nat
  seq : Nat
  chosen : Bool := false
  heldAt : Option Nat := none              -- the cycle in which the governor last held it
  started : Bool := false
  panel : Nat := 0                         -- panels counted
  paused : Bool := false                   -- counting waits for the bank of panel 1 (R265)
  counted : Bool := false                  -- counting ended
  drains : Nat := 0                        -- drains requested and not ended
  lastBand : BitVec 32 := 0                -- bandA and bandB of the bank drained last (R264)
  outReq : Bool := false
  flags : BitVec 5 := 0
  xdata : BitVec 8 := 0
  poisoned : Bool := false
  deriving DecidableEq, Repr

/-- A request to the drain unit (R263, R264, R397). -/
inductive DrainReq where
  | zero (seq xofs size pn : Nat)          -- R397: the tile, and the process of the task, which may end before it is served
  | drain (seq : Nat) (bank : Bool) | output (seq : Nat)
  deriving DecidableEq, Repr

/-- A bank of counters (R261): state 0 EMPTY, 1 COUNTING, 2 HELD, 3 DRAINING; a counter is keyed by 18 * cell + code. -/
structure Bank where
  state : BitVec 2 := 0
  depth : Nat := 0
  tagA : BitVec 32 := 0
  tagB : BitVec 32 := 0
  bands : BitVec 32 := 0
  counts : AMap Int := []
  deriving DecidableEq, Repr

/-- An operand slot's owner and flags (R252, R254), with its side band registers (R251). -/
structure OpSlot where
  owner : Option Nat := none
  filled : Bool := false
  releaseAt : Option Nat := none           -- release-pending: the sequence of tasks accepted before the MREL
  sblk : Word := 0x6060606060606060
  sband : BitVec 16 := 0x3F80
  deriving DecidableEq, Repr

/-- A waiting MMERGE (R266). -/
structure Merge where
  pn : Nat
  seq : Nat
  result : Option (Nat × Nat) := none      -- performed: the depth, and the cycle g[D] is written
  deriving DecidableEq, Repr

/-- A TLB entry (R325): the leaf without FRAME; key fields job, page size and page number. -/
structure TlbEntry where
  job : Nat
  large : Bool
  vpn : Nat
  leaf : Word
  deriving DecidableEq, Repr

/-- What a core belongs to (R312): the launch, its rectangle and position. -/
structure LaunchRef where
  die : Nat := 0
  id : Nat := 0
  x0 : Nat := 0
  y0 : Nat := 0
  wm1 : Nat := 0
  hm1 : Nat := 0
  rx : Nat := 0
  ry : Nat := 0
  job : Nat := 0
  deriving DecidableEq, Repr

/-- A fault message (R340) with its further entries, waiting in the gate or the ring. -/
structure FaultMsg where
  kind : BitVec 4
  cause : BitVec 8
  pid : BitVec 31
  job : BitVec 16
  fpc : Word := 0
  faddr : Word := 0
  finst : BitVec 32 := 0
  extra : BitVec 32 := 0
  more : List (BitVec 512) := []
  deriving DecidableEq, Repr

/-- The copy engine's registers (R212), one set. -/
structure CopyRegs where
  len : BitVec 32 := 0
  rows : BitVec 16 := 1
  spitch : Word := 0
  dpitch : Word := 0
  rect : BitVec 32 := 0
  slack : BitVec 32 := 0
  deriving DecidableEq, Repr

/-- A START between its issue and the write of g[D] (R155). -/
structure Start where
  pn : Nat
  dest : Nat
  entry : Word
  arg : Word
  gp : Word
  prio : BitVec 7
  wsz : Nat
  depmax : BitVec 8
  last : Nat                               -- the last cycle in which it may complete
  ended : Bool := false                    -- its process has been killed: the result is discarded (log 24)
  deriving DecidableEq, Repr

/-- A compute or kernel core. -/
structure Core where
  rotPtr : Nat := 0
  slots : List Slot := List.replicate 16 {}
  procs : AMap Proc := []
  schedAt : Option Nat := none             -- the cycle a placement last started (R150)
  ready : AMap (List Nat) := []            -- priority ↦ process numbers, head first (R150)
  flight : List Flight := []
  seq : Nat := 0                           -- issue order of the core
  divider : List DivOp := []
  layout : AMap (BitVec 16) := []
  wdesc : AMap (BitVec 256) := []
  wsetOps : List (Nat × Nat × BitVec 256 × Nat) := []     -- process, descriptor, content, last cycle (R78)
  starts : List Start := []                -- STARTs that have not written their register (R155)
  part : BitVec 23 := 0x010002
  launch : Option LaunchRef := none
  lcn : BitVec 22 := 0
  jseed : Word := 0
  gateJob : BitVec 16 := 0
  gateV : Bool := false
  gated : Bool := false
  wakeEnd : Option Nat := none
  endpoints : AMap Endpoint := []
  held : AMap (List Packet) := []          -- R184: events held at a MOVING endpoint
  handlers : AMap (BitVec 512) := []
  normal : List Stored := []
  staging : List Stored := []
  stageTail : Nat := 0
  divert : Bool := false
  handler : Option Stored := none
  lastStaged : Option Nat := none          -- first unit of the staged message returned last (R199)
  owed : List (Nat × Nat × Nat) := []      -- of messages the overflow process holds: sender, destination handle, and
                                           -- the endpoint to which the credit returns (R198)
  reqs : List Req := []
  nextTag : Nat := 0
  hold : Hold := {}
  futures : AMap Future := []
  freeOrder : List Nat := List.range 64
  waiters : List (Nat × Nat × Nat) := []   -- entry, generation, waiting process identifier (R239)
  vecQ : List VecOp := []
  vecA : VecRegs := {}
  vecS : VecRegs := {}
  vecDirty : List Nat := []
  copyQ : List CopyOp := []
  copyA : CopyRegs := {}
  copyS : CopyRegs := {}
  copyDirty : List Nat := []
  copyP : Option (Word × Nat) := none      -- promise and entry of the copy accepted last (R234)
  tasks : List Task := []
  taskSeq : Nat := 0
  counting : Option (Nat × Bool × Nat × Nat) := none   -- task, bank, first cycle, end cycle
  drainQ : List DrainReq := []
  drainEnd : Option Nat := none
  drainMark : Bool := false                -- the drain unit's words of the present request are written
  merges : List Merge := []
  bank0 : Bank := {}
  bank1 : Bank := {}
  opslots : AMap OpSlot := []
  holds : BitVec 32 := 0
  holdcyc : BitVec 32 := 0
  tlb : List TlbEntry := []                -- in order of their places
  tlbRecent : List TlbEntry := []          -- entries marked recent for replacement (R325)
  frbase : Word := 0
  ringPos : Nat := 0
  stopped : Bool := false
  lost : AMap Bool := []                   -- accesses of engines, and fills, whose packet was discarded (R358), or came to
                                           -- a quarantine and completed as poisoned (true; R383)
  faultOut : List FaultMsg := []
  deriving DecidableEq, Repr

/-- A cluster of 16 cores, or the fetch side of one kernel core (R27 to R31, R395). -/
structure Cluster where
  lines : List (Nat × Nat × List Byte) := []   -- job, 64-byte line number, bytes; a set's lines in order of their ways
  recent : List (Nat × Nat) := []              -- job and line of the lines marked recent for replacement (R29)
  portAt : Option Nat := none                  -- the cycle in which the port last delivered (R27)
  asks : List (Nat × Nat × Nat × Nat) := []    -- 16-byte line, core, slot, cycle asked
  fills : List (Nat × Nat × Nat) := []         -- job, 64-byte line, requesting core
  aligns : List (Nat × Nat × Nat × List (Nat × Nat)) := []   -- launch, k, P, joined (core, process)
  invalidating : List (Nat × Nat) := []        -- processes whose IFSYNC is invalidating
  deriving DecidableEq, Repr

/-- Who asked for a walk (R326). -/
inductive WalkFor where
  | access (core pn : Nat)
  | fetch (core slot : Nat) (line : Nat)
  | engine (core : Nat)
  | home (server : Nat) (core tag : Nat)
  deriving DecidableEq, Repr

/-- A page-table walk outstanding at a die's walker. -/
structure Walk where
  job : Nat
  va : Nat
  asker : WalkFor
  stale : Bool := false                    -- reached by a shoot-down: made again (R326)
  deriving DecidableEq, Repr

/-- A job record (R327). -/
structure JobRec where
  job : BitVec 16 := 0
  valid : Bool := false
  root : BitVec 56 := 0
  jseed : Word := 0
  oventry : BitVec 56 := 0
  ovheap : BitVec 56 := 0
  ovhlog : BitVec 5 := 0
  deriving DecidableEq, Repr

/-- A frame-table entry (R329). -/
structure FrameEntry where
  job : BitVec 16 := 0
  valid : Bool := false
  pin : Bool := false
  large : Bool := false
  vpn : BitVec 40 := 0
  frame : BitVec 32 := 0
  deriving DecidableEq, Repr

/-- A queued launch: the record as LARM read it (R308), and the armer. -/
structure Queued where
  id : Nat
  record : BitVec 1024
  core : Nat                               -- the armer's core and future entry
  entry : Nat
  pn : Nat
  deriving DecidableEq, Repr

/-- A running launch with its barrier unit (R161, R312): it stands with the die of its origin core. -/
structure Running where
  id : Nat
  record : BitVec 1024
  core : Nat
  entry : Nat
  gen : BitVec 3 := 0                      -- of that entry: a die reset may have freed it since
  undone : List Nat                        -- cores of the rectangle not yet marked done
  killed : Bool := false
  reason : BitVec 8 := 0
  deriving DecidableEq, Repr

/-- A request to the launch unit of a die (R306). -/
inductive LaunchReq where
  | patch (core pn : Nat) (sel value : Word)
  deriving DecidableEq, Repr

/-- A waiting operation at a point of service, in order of arrival (R131). -/
structure Waiter where
  word : Nat                               -- memory key / 8
  core : Nat
  tag : Nat
  server : Nat                             -- die * 2 + server, or 2^20 + core of the pool
  job : Nat := 0
  deriving DecidableEq, Repr

/-- A sheaf operation in a die's queue or a frame (R286, R293, R294). -/
inductive SheafOp where
  | st (core pn dest : Nat) (off : Nat) (value : Word)
  | cas (core pn dest : Nat) (off : Nat) (value cmp : Word)
  | pub (core pn entry : Nat) (src : Word) (desc : Word)
  deriving DecidableEq, Repr

/-- What a token frame says (R364): the live mask, the next position, and whether it is the first token of a formation
(R363). -/
structure Token where
  live : BitVec 32
  next : Nat
  first : Bool := false
  deriving DecidableEq, Repr

/-- A frame on the sheaf plane (R285, R364): board operations, or one publication with the bytes read when it was built,
or a token frame, whose ssn is the last one used. -/
structure Frame where
  ssn : Nat
  pkg : Nat
  pos : Nat := 0                           -- the sender's position
  job : Nat := 0                           -- the job of its operations (R296)
  ops : List SheafOp := []
  ended : List Nat := []                   -- positions whose result is discarded (R296)
  bytes : List Byte := []
  token : Option Token := none
  heard : List Nat := []                   -- packages at which the frame has arrived
  deriving DecidableEq, Repr

/-- An inventory record (R381). -/
structure InvRec where
  item : Nat
  state : Nat
  reason : Nat
  job : Nat
  pid : Nat
  started : Bool
  itemid : Word
  value : Word
  cycle : Word
  deriving DecidableEq, Repr

/-- A shoot-down in progress, named by the kernel core that issued it (R343). -/
structure Shoot where
  kcore : Nat
  pn : Nat
  job : Nat
  va : Nat
  pte : Word
  image : Word
  pendingCores : List Nat := []            -- cores not yet invalidated
  unacked : List Nat := []                 -- cores invalidated, their old accesses not yet drained
  limits : List (Nat × Nat) := []          -- the request tag of a core up to which it drains
  home : Option Nat := none                -- the old home, whose frame-table entry is pinned (R343 step 1)
  lg : Bool := false                       -- the old leaf or the new one is large
  moves : Bool := false                    -- OWN changes: the page has a new owner (R284)
  deriving DecidableEq, Repr

/-- A write that a read on another path may not yet see (R281): word key, path, age, writer, the value before it. -/
structure Hist where
  word : Nat
  path : Path
  age : Nat
  pid : Nat
  old : Word
  deriving DecidableEq, Repr

/-- Memory: bytes, FULL words, poisoned lines and owner tags, each listed only where it differs from what an unlisted
key reads as (byte 0, EMPTY, not poisoned, tag 0); and older values that a read on another path may still return. Keys
are physical-window addresses of R332 for HBM, second tier and host memory; 2^56 and up for pools; 2^57 and up for
operand memory. -/
structure Memory where
  cells : List Host.Cell := []
  full : List Nat := []
  poison : List Nat := []
  tags : AMap Nat := []
  hist : List Hist := []
  age : Nat := 0
  deriving DecidableEq, Repr

/-- A saved tenant (R318): the cores of the die as they were, the queues, and the pools. -/
structure Saved where
  job : Nat
  cores : AMap Core
  launchQ : List Queued
  running : List Running
  sheafQ : List SheafOp
  pool : Memory                            -- pools and operand memory, as a memory of their own
  waits : List Waiter := []                -- operations that wait on pool words
  deriving DecidableEq, Repr

/-- A die. -/
structure Die where
  epoch : Nat := 0                         -- the cycle of the last die reset: CYC counts from it
  clusters : AMap Cluster := []
  lrecs : AMap (BitVec 1024) := []
  launchQ : List Queued := []
  launchReqs : List LaunchReq := []
  running : List Running := []
  nextLaunch : Nat := 1
  jobs : AMap JobRec := []
  frames : AMap FrameEntry := []           -- server * 2048 + entry
  walks : List Walk := []
  waits : List Waiter := []
  gbud : BitVec 20 := 0x40000
  gramp : BitVec 20 := 0x04000
  gprev : Nat := 0
  gallow : Nat := 0x4000
  busy : Nat := 0
  windowStart : Nat := 0
  grants : List Nat := []                  -- cores whose chosen task asks the governor
  board : AMap Word := []
  applied : Nat := 0
  sheafQ : List SheafOp := []
  period : BitVec 8 := 24
  action : BitVec 2 := 0
  cecnt : BitVec 32 := 0
  invbase : BitVec 56 := 0
  logn : BitVec 4 := 0
  invNext : Nat := 0
  invlost : BitVec 32 := 0
  invBuf : List InvRec := []
  tdjob : BitVec 16 := 0
  tdWork : Option (Nat × BitVec 8) := none -- job and reason of the teardown at work: BUSY (R383)
  tdQueue : List (Nat × BitVec 8) := []    -- jobs and reasons of teardowns that wait for the present one
  resetWanted : Bool := false              -- a die reset waits for its teardowns (R387)
  tdLevels : Nat := 0                      -- levels of teardown markers that have come back; 7 once cleaned up
  qcnt : BitVec 32 := 0
  pgate : BitVec 256 := 0
  tj : BitVec 8 := 25
  warn : Bool := false
  trip : Bool := false
  inReset : Bool := false
  shoots : List Shoot := []
  saved : List Saved := []
  quantumEnd : Option Nat := none
  turn : Nat := 0                          -- LDBIND register whose tenant is resident on a time-shared die
  stopReport : Bool := false
  switching : Bool := false                -- a tenant switch is at its steps 1 to 3 (R318)
  deriving DecidableEq, Repr

/-- A host queue (R351). -/
structure HostQueue where
  base : Nat := 0
  log : Nat := 4
  entrySize : Nat := 64
  toHost : Bool := true
  used : Bool := false
  head : Nat := 0                          -- entries passed, as the device last saw HEAD
  tail : Nat := 0                          -- entries produced, as the device last saw TAIL
  owners : List (Nat × Nat) := []          -- core and endpoint index of entries in the ring, oldest first
  deriving DecidableEq, Repr

/-- The status of a mailbox command (R349, R352, R353, R387, R389). -/
inductive MailStatus where
  | success | unsupported | invalidInput | recovery | hostReset | ldReset | dieStopped
  deriving DecidableEq, Repr

/-- The completion of a mailbox command: logical device, opcode, status and payload. -/
structure Completion where
  dev : Nat
  opcode : Nat
  status : MailStatus
  payload : List Word := []
  deriving DecidableEq, Repr

/-- A MIGRATE command whose shoot-down is at work on a die (R344). -/
structure Migration where
  dev : Nat
  die : Nat
  deriving DecidableEq, Repr

/-- A mailbox command that is held: while the MODE of its function changes, or a shoot-down is at work for another (R321,
R344). -/
inductive HeldCmd where
  | migrate (dev job va stage : Nat)
  | routeload (dev offset : Nat) (value : Word)
  deriving DecidableEq, Repr

/-- A response of the SPDM responder (R391); a signature is an Ed25519 one but in vendorSignature. -/
inductive SpdmReply where
  | version (v : Nat)
  | capabilities
  | algorithms
  | digests (d : BitVec 384)
  | certificate (bytes : List Byte)
  | challengeAuth (signature : List Byte)
  | measurements (blocks : List (Nat × BitVec 384)) (signature : List Byte)
  | vendorSignature (signature : List Byte)
  | unsupportedRequest
  deriving DecidableEq, Repr

/-- A package. -/
structure Pkg where
  ldbind : AMap Word := []
  duty : Word := 0
  turning : BitVec 5 := 0                  -- functions whose change of MODE waits for work in progress (R321)
  dutyHw : BitVec 16 := 0                  -- logical devices whose restart returned duties to hardware (R352)
  land : BitVec 56 := 0
  rteShadow : AMap Word := []
  rte0 : AMap Word := []                   -- table of generation 0
  rte1 : AMap Word := []                   -- table of generation 1
  gen : Bool := false
  busy : Bool := false
  routeerr : BitVec 32 := 0
  isldrop : BitVec 32 := 0
  markers : AMap Nat := []                 -- port ↦ levels received
  markLevel : Nat := 0                     -- levels sent
  markSent : Nat := 0                      -- markers sent on every port, over all updates
  markTaken : AMap Nat := []               -- port ↦ markers taken from it, over all updates
  linksDown : List Nat := []
  unanswered : AMap Nat := []              -- destination package * 2 + generation ↦ count (R360)
  pos : BitVec 5 := 0
  nm1 : BitVec 5 := 0
  sheafJob : BitVec 16 := 0
  seat : BitVec 5 := 0                     -- POS and NM1 as they stood when the sheaf was formed (R292)
  seats : BitVec 5 := 0
  star : Nat := 0                          -- the sheaf whose stars the package's fibres are plugged into (R362)
  live : BitVec 32 := 0
  formed : Bool := false
  formAt : Option Nat := none
  joinAt : Nat := 0
  joins : List (Nat × Nat) := []           -- package and position of join frames received
  starter : Option Nat := none             -- position whose first token is followed
  token : Bool := false
  nextSsn : Nat := 1
  holder : Nat := 0                        -- position last named as holder
  silentSince : Nat := 0
  got : List Frame := []                   -- frames received; applied ones are kept for repair (R287)
  landed : Nat := 0                        -- highest SSN whose landing is performed (R290)
  landFault : List Nat := []               -- frames whose landing failed here
  hostq : AMap HostQueue := []             -- logical device * 256 + queue
  forwarded : List (Nat × FaultMsg) := []  -- messages forwarded to the host, with the core of their gate (R342)
  taken : List (Nat × FaultMsg) := []      -- those the host has taken and not yet answered
  mailbox : List Completion := []          -- mailbox completions, oldest first (R349)
  migrations : List Migration := []        -- MIGRATE commands in progress (R344)
  heldCmds : List HeldCmd := []            -- mailbox commands that are held, oldest first (R321)
  migrating : List (Nat × Nat) := []       -- job and address of pages whose OWN is MIGRATING (R352)
  hostAnswer : Option (Nat × Option Word) := none   -- the last CXL.mem answer: device, and value or poison (R347)
  hostLines : AMap (List Byte) := []       -- host lines held in exclusive state, as the host last had them (R348)
  hostDown : List Nat := []                -- logical devices whose host restarts (R352)
  fwSlot : List Byte := []
  fwDone : Option Nat := none              -- the cycle in which the slot's present write is over (R390)
  fwStage : AMap Byte := []
  recovery : Bool := true
  minSvn : Nat := 0
  meas : AMap (BitVec 384) := []
  doe : List (Nat × SpdmReply) := []       -- SPDM responses by logical device, oldest first (R391)
  signed : AMap (BitVec 384) := []         -- transcript hash of a device's last signed response
  ports : BitVec 2 := 0                    -- port roles (R346): 0 HOST, 1 MEMORY
  deriving DecidableEq, Repr

/-- The instruction being issued (R40: pc is its address). -/
structure Ctx where
  core : Nat := 0
  slot : Nat := 0
  pn : Nat := 0
  pc : Word := 0
  word : BitVec 32 := 0
  rep : Option (Nat × Nat × Nat) := none   -- register offsets of D, A and B in the present repeat (R24)
  issued : Bool := true
  stall : List Nat := []       -- when it waits on pending tags: its registers (R151)
  deriving DecidableEq, Repr

/-- The events whose time the manual fixes or bounds, which the machine brings about itself; each stands for the row of
the table of the same name (Step.lean gives each the meaning exec gives that row). -/
inductive Due where
  | fixedLatencyResult (core idx : Nat)
  | dividerResult (core : Nat)
  | schedulerPlacement (core : Nat)
  | slotDeparture (core slot : Nat)
  | switchEnd (core slot : Nat)
  | pendingWaitExpiry (core slot : Nat)
  | rotation (core : Nat)
  | slot15Handover (core : Nat)
  | sleepDeadline (core pn : Nat)
  | alignTimeout (core pn : Nat)
  | lineDelivery (die cluster : Nat)
  | ifsyncRelease (core pn : Nat)
  | bufferEntryFreed (core tag : Nat)
  | memoryRequestArrival (core tag : Nat)
  | requestRetry (core tag : Nat)
  | startCompletion (core pn : Nat)
  | wsetCompletion (core : Nat)
  | transferEnd (core index : Nat)
  | releaseAnswer (core : Nat)             -- RELEASE_ANSWER of a transfer within one core (R178)
  | ordered (core pn : Nat)                -- the accesses a release waits for are performed (R180)
  | handlerStart (core : Nat)
  | handlerEnd (core : Nat)
  | altTimeout (core pn : Nat)
  | holdBufferFreed (core : Nat)
  | poisonDelivery (core pn : Nat)
  | probeSend (core pn : Nat)
  | vectorOperationStart (core : Nat)
  | copyStart (core : Nat)
  | lateMark (core entry : Nat)
  | taskChoice (core : Nat)
  | governorGrant (core : Nat)
  | governorWindow (die : Nat)
  | panelEnd (core : Nat)
  | macCountingEnd (core : Nat)
  | tileZeroing (core : Nat)
  | drain (core : Nat)
  | drainEnd (core : Nat)
  | outputWriteEnd (core : Nat)
  | mmergePerform (core : Nat)
  | coreWakeEnd (core : Nat)
  | silenceTimeout (pkg : Nat)
  | joinFrameSend (pkg : Nat)
  | firstTokenSend (pkg : Nat)
  | formationTimeout (pkg : Nat)
  | timeShareQuantum (die : Nat)
  | hostPoll (pkg key : Nat)               -- what a host queue still holds acts as soon as it can (R319, R351)
  | sheafForm (pkg : Nat)
  | sheafLeaveRequest (pkg : Nat)
  | sheafLeave (pkg : Nat)
  | routeSwitch (pkg : Nat)
  | teardown (die job reason : Nat)
  | powerGate (core : Nat)
  | coreWake (core : Nat)
  | poisonFix (die addr : Nat)
  | dieReset (die : Nat)
  | packageWarmReset (pkg : Nat)
  deriving DecidableEq, Repr

/-- What is still to happen in the present die cycle. -/
inductive Phase where
  | issue (core : Nat)
  | due (e : Due)
  deriving DecidableEq, Repr

/-- The whole machine. inputs is the schedule of what the manual leaves open and of what the outside does; phase is the
rest of the present cycle; free counts the free values drawn. -/
structure State where
  cores : AMap Core := []
  dies : AMap Die := []
  pkgs : AMap Pkg := []
  mem : Memory := {}
  carries : List (Path × Path × Nat) := [] -- R281: what XFENCEs have carried, which an acquire takes over (log 7)
  net : List Packet := []
  frames : List Frame := []                -- frames sent on the sheaf plane, oldest first
  ctx : Ctx := {}
  ticks : Nat := 0                         -- die cycles since the cold reset; CYC of a die counts from its epoch
  inputs : List (Option Instr) := []
  phase : List Phase := []
  free : Nat := 0
  deriving DecidableEq, Repr

/-- Why the machine stops with a fault. -/
inductive Fault where
  /-- Raised by a meaning of an instruction word when no process is issuing: the context names no RUNNING process.
  Safe: step never executes a word so. -/
  | noIssuer
  deriving DecidableEq, Repr

/-- Why the machine gives no meaning. -/
inductive Refusal where
  /-- Raised by an arm of exec for an instruction that has no meaning yet. Safe. -/
  | notModelled (mnemonic : String)
  deriving DecidableEq, Repr

/-- The machine right after a package cold reset (R387): every field at the value INVENTORY.md states. -/
def State.reset : State := {}

end Sys2Proof.Machine
end

