-- ==== Sys2Proof/Machine/Ops.lean ====
section
/-! DEFINITION. The named operations over the state: maps, identifiers (R145, R395), memory (R127, R137, R376),
registers (R12 to R15), process states and ready lists (R148 to R150), and taking a trap (R40, R112 to R114). -/

namespace Sys2Proof.Machine

/-! ### Maps -/

/-- The value a map holds for a key, or what an unlisted key reads as. -/
def look {α : Type} (dflt : α) : AMap α → Nat → α
  | [], _ => dflt
  | (k, v) :: m, i => if i = k then v else look dflt m i

/-- The map with one entry written. -/
def put {α : Type} : AMap α → Nat → α → AMap α
  | [], i, v => [(i, v)]
  | (k, x) :: m, i, v =>
    if i < k then (i, v) :: (k, x) :: m
    else if i = k then (i, v) :: m
    else (k, x) :: put m i v

/-- The map without an entry. -/
def drop {α : Type} (m : AMap α) (i : Nat) : AMap α := m.filter (fun e => e.1 != i)

/-- Insertion into a sorted list without repeats. -/
def insertKey : List Nat → Nat → List Nat
  | [], i => [i]
  | k :: m, i => if i < k then i :: k :: m else if i = k then k :: m else k :: insertKey m i

/-- The element at a place of a list, and the list without it. -/
def takeAt {α : Type} : List α → Nat → Option (α × List α)
  | [], _ => none
  | x :: xs, 0 => some (x, xs)
  | x :: xs, n + 1 => (takeAt xs n).map (fun r => (r.1, x :: r.2))

/-- The first element with a property, and the list without it. -/
def takeFirst {α : Type} (p : α → Bool) : List α → Option (α × List α)
  | [] => none
  | x :: xs => if p x then some (x, xs) else (takeFirst p xs).map (fun r => (r.1, x :: r.2))

/-- Changes the first element with a property. -/
def modFirst {α : Type} (p : α → Bool) (f : α → α) : List α → List α
  | [] => []
  | x :: xs => if p x then f x :: xs else x :: modFirst p f xs

/-! ### Pseudo-LRU replacement (R29, R325; log 9) -/

/-- The marks after a use of x in a group of `ways` places: where every place is marked, only the mark of x is left. -/
def markRecent {α : Type} [DecidableEq α] (ways : Nat) (group : α → Bool) (recent : List α) (x : α) : List α :=
  let r := x :: recent.filter (· != x)
  if ways ≤ (r.filter group).length then x :: r.filter (fun y => !group y) else r

/-- A member entered into a group: in a free place, else in that of its first member without a mark. -/
def enterGroup {α : Type} (ways : Nat) (group marked : α → Bool) (xs : List α) (x : α) : List α :=
  if (xs.filter group).length < ways then xs ++ [x] else modFirst (fun y => group y && !marked y) (fun _ => x) xs

/-! ### Identifiers (R145, R395) -/

/-- The die of a core, the package of a core, the package of a die, the index of a core within its die. -/
def dieOf (core : Nat) : Nat := core / 512
def pkgOf (core : Nat) : Nat := core / 2048
def pkgOfDie (die : Nat) : Nat := die / 4
def idxOf (core : Nat) : Nat := core % 512

/-- Indices 256 to 259 are kernel cores. -/
def isKernel (core : Nat) : Bool := 256 ≤ core % 512

/-- The process identifier of R145. -/
def pidOf (core pn : Nat) : Nat := core * 256 + pn % 256

/-- Package coordinates of a compute core (R395); 0 on a kernel core (R160). -/
def coordX (core : Nat) : Nat :=
  if isKernel core then 0 else 16 * (dieOf core % 2) + idxOf core % 16
def coordY (core : Nat) : Nat :=
  if isKernel core then 0 else 16 * (dieOf core % 4 / 2) + idxOf core / 16

/-- The compute core at package coordinates (R395). -/
def coreAt (pkg x y : Nat) : Nat :=
  ((pkg * 4 + (2 * (y / 16) + x / 16)) * 512) + (16 * (y % 16) + x % 16)

/-- The cluster of a core within its die; a kernel core fetches through a port of its own, numbered 16 to 19 (R395). -/
def clusterOf (core : Nat) : Nat :=
  let i := idxOf core
  if isKernel core then 16 + (i - 256) else 4 * (i / 16 / 4) + i % 16 / 4

/-- A die's kernel core that takes the messages of a core (R339). -/
def kernelFor (core : Nat) : Nat :=
  dieOf core * 512 + (if isKernel core then idxOf core else 256 + idxOf core / 64)

/-! ### Parts of the state -/

def State.core (s : State) (c : Nat) : Core := look {} s.cores c
def State.setCore (s : State) (c : Nat) (x : Core) : State := { s with cores := put s.cores c x }
def State.modCore (s : State) (c : Nat) (f : Core → Core) : State := s.setCore c (f (s.core c))
def State.die (s : State) (d : Nat) : Die := look {} s.dies d
def State.setDie (s : State) (d : Nat) (x : Die) : State := { s with dies := put s.dies d x }
def State.modDie (s : State) (d : Nat) (f : Die → Die) : State := s.setDie d (f (s.die d))
def State.pkg (s : State) (p : Nat) : Pkg := look {} s.pkgs p
def State.setPkg (s : State) (p : Nat) (x : Pkg) : State := { s with pkgs := put s.pkgs p x }
def State.modPkg (s : State) (p : Nat) (f : Pkg → Pkg) : State := s.setPkg p (f (s.pkg p))

def Core.proc (c : Core) (pn : Nat) : Proc := look {} c.procs pn
def Core.setProc (c : Core) (pn : Nat) (p : Proc) : Core := { c with procs := put c.procs pn p }
def Core.slot (c : Core) (i : Nat) : Slot := c.slots.getD i {}
def Core.setSlot (c : Core) (i : Nat) (x : Slot) : Core := { c with slots := c.slots.set i x }

def State.proc (s : State) (core pn : Nat) : Proc := (s.core core).proc pn
def State.setProc (s : State) (core pn : Nat) (p : Proc) : State := s.modCore core (fun c => c.setProc pn p)
def State.modProc (s : State) (core pn : Nat) (f : Proc → Proc) : State := s.setProc core pn (f (s.proc core pn))
/-- A change to a process that may have ended: nothing is left to change of one whose record is gone. -/
def State.modLive (s : State) (core pn : Nat) (f : Proc → Proc) : State :=
  if (s.core core).procs.any (fun e => e.1 == pn) then s.modProc core pn f else s
def State.modSlot (s : State) (core i : Nat) (f : Slot → Slot) : State :=
  s.modCore core (fun c => c.setSlot i (f (c.slot i)))

/-- The die's free-running counter CYC (R3, R15). -/
def State.cyc (s : State) (die : Nat) : Word := word (s.ticks - (s.die die).epoch)

/-- A free value is drawn (log 7). -/
def State.drawn (s : State) : State := { s with free := s.free + 1 }

/-- An event to happen later in the present cycle. -/
def State.later (s : State) (e : Due) : State := { s with phase := s.phase ++ [.due e] }

/-! ### Registers (R12, R13) -/

/-- g[n]: g0 reads as zero (R12). -/
def Proc.reg (p : Proc) (n : Nat) : Word := if n = 0 then 0 else p.regs.getD n 0

/-- g[n] := v; g0 ignores writes (R12). -/
def Proc.setReg (p : Proc) (n : Nat) (v : Word) : Proc :=
  if n = 0 then p else { p with regs := p.regs.set n v }

/-- The pending tag of a register (R13); g0 is never pending. -/
def Proc.isPending (p : Proc) (n : Nat) : Bool := n != 0 && p.pend.getD n false

/-- Sets or clears a pending tag. -/
def Proc.setPending (p : Proc) (n : Nat) (b : Bool) : Proc :=
  if n = 0 then p else { p with pend := p.pend.set n b }

/-- A variable-latency result arrives: the register is written and its tag cleared (R13). -/
def Proc.arrive (p : Proc) (n : Nat) (v : Word) : Proc := (p.setReg n v).setPending n false

/-- A window of W registers, all zero and not pending (R146, R155). -/
def Proc.freshWindow (p : Proc) (wsz : Nat) : Proc :=
  { p with wsz := wsz, regs := List.replicate wsz 0, pend := List.replicate wsz false }

/-! ### Control-register bit groups -/

/-- A priority just changed governs the decisions of R150 and R152 from the next die cycle (R157). -/
def Proc.prioFrom (p : Proc) (old : BitVec 7) (now : Nat) : Proc := { p with prioWas := some (old, now) }
def Proc.prioAt (p : Proc) (now : Nat) : BitVec 7 :=
  match p.prioWas with
  | some (q, t) => if t = now then q else p.prio
  | none => p.prio

/-- Sticky flags in the order NX, UF, OF, DZ, NV from bit 0 (R15 VSTAT, R237 FLAGS); FCTL holds them in [8:4] (R16). -/
def Proc.orFctl (p : Proc) (f : BitVec 5) : Proc := { p with fctl := p.fctl ||| (f ++ 0#4) }
def Proc.orVstat (p : Proc) (f : BitVec 5) : Proc := { p with vstat := p.vstat ||| f }

/-- The cause codes of R112 and R114. -/
def Cause.code : Cause → BitVec 8
  | .ill => 0x01
  | .window => 0x10
  | .stallshort => 0x11
  | .late => 0x12
  | .specovf => 0x13
  | .deadlock => 0x14
  | .trapi => 0x15
  | .page => 0x20
  | .prot => 0x21
  | .own => 0x22
  | .stack => 0x23
  | .localbound => 0x24
  | .align => 0x25
  | .donemsg => 0x26
  | .launchdepth => 0x27
  | .poison => 0x28
  | .depthfault => 0x29

/-- Causes 0x10 to 0x15 are recoverable (R113). -/
def Cause.recoverable : Cause → Bool
  | .window | .stallshort | .late | .specovf | .deadlock | .trapi => true
  | .ill | .page | .prot | .own | .stack | .localbound | .align | .donemsg | .launchdepth | .poison | .depthfault =>
    false

/-! ### Memory -/

/-- Keys of stored bytes: a physical-window address (R332), where host memory is one store for the package (log 11); a
pool byte; an operand-memory byte. -/
def storeKey (die target off : Nat) : Nat :=
  ((if target = 3 then die / 4 * 4 else die) * 4 + target) * 2 ^ 40 + off % 2 ^ 40
def poolKey (core off : Nat) : Nat := 2 ^ 56 + core * 2 ^ 21 + off % 2 ^ 21
def operandKey (core slot off : Nat) : Nat := 2 ^ 57 + core * 2 ^ 18 + (slot * 8192 + off) % 2 ^ 18

/-- What an unlisted byte reads as (log 4). -/
def unlistedByte : Byte := 0

/-- A byte of a cell list. -/
def cellGet : List Host.Cell → Nat → Byte
  | [], _ => unlistedByte
  | (a, b) :: m, i => if i = a then b else cellGet m i

/-- The cell list with one byte written, in canonical form. -/
def cellPut : List Host.Cell → Nat → Byte → List Host.Cell
  | [], i, v => if v = unlistedByte then [] else [(i, v)]
  | (a, b) :: m, i, v =>
    if i < a then (if v = unlistedByte then (a, b) :: m else (i, v) :: (a, b) :: m)
    else if i = a then (if v = unlistedByte then m else (i, v) :: m)
    else (a, b) :: cellPut m i v

/-- Addresses strictly rising above a bound, no entry equal to what an unlisted address reads as. -/
def cellsFrom : Nat → List Host.Cell → Bool
  | _, [] => true
  | lo, (a, b) :: m => lo ≤ a && b != unlistedByte && cellsFrom (a + 1) m

/-- Keys strictly rising from a bound. -/
def keysFrom : Nat → List Nat → Bool
  | _, [] => true
  | lo, a :: m => lo ≤ a && keysFrom (a + 1) m

/-- The canonical form of memory. -/
def Memory.wf (m : Memory) : Bool := cellsFrom 0 m.cells && keysFrom 0 m.full && keysFrom 0 m.poison

def Memory.byte (m : Memory) (k : Nat) : Byte := cellGet m.cells k
def Memory.setByte (m : Memory) (k : Nat) (v : Byte) : Memory := { m with cells := cellPut m.cells k v }

/-- n bytes from a key, little-endian (R4), as a number. -/
def Memory.read (m : Memory) (k : Nat) : Nat → Nat
  | 0 => 0
  | n + 1 => (m.byte k).toNat + 256 * m.read (k + 1) n

/-- The low n bytes of a number stored from a key, little-endian. -/
def Memory.write (m : Memory) (k : Nat) : Nat → Nat → Memory
  | 0, _ => m
  | n + 1, v => (m.setByte k (BitVec.ofNat 8 v)).write (k + 1) n (v / 256)

/-- The 64-bit word that contains a byte. -/
def Memory.word (m : Memory) (w : Nat) : Word := BitVec.ofNat 64 (m.read (w * 8) 8)

/-- The bytes from a key. -/
def Memory.bytes (m : Memory) (k : Nat) (n : Nat) : List Byte := (List.range n).map (fun i => m.byte (k + i))

/-- Bytes stored from a key. -/
def Memory.setBytes (m : Memory) (k : Nat) : List Byte → Memory
  | [] => m
  | b :: bs => (m.setByte k b).setBytes (k + 1) bs

/-- Whether a word is FULL (R127). -/
def Memory.isFull (m : Memory) (w : Nat) : Bool := m.full.contains w
def Memory.setFull (m : Memory) (w : Nat) (b : Bool) : Memory :=
  { m with full := if b then insertKey m.full w else m.full.filter (· != w) }

/-- Whether a byte's 64-byte line is poisoned (R378). -/
def Memory.isPoisoned (m : Memory) (k : Nat) : Bool := m.poison.contains (k / 64)
def Memory.setPoison (m : Memory) (line : Nat) (b : Bool) : Memory :=
  { m with poison := if b then insertKey m.poison line else m.poison.filter (· != line) }

/-- The owner tag of a line (R376). -/
def Memory.tag (m : Memory) (line : Nat) : Nat := look 0 m.tags line
def Memory.setTag (m : Memory) (line : Nat) (job : Nat) : Memory :=
  { m with tags := if job = 0 then drop m.tags line else put m.tags line job }

/-- Bytes from key k on become zero and EMPTY with owner tag 0 (R313, R379, R385); a line stays poisoned, with the tag its
record named, until FIXADDR is written (R379). -/
def Memory.clearRange (m : Memory) (k n : Nat) : Memory :=
  { m with
    cells := m.cells.filter (fun c => c.1 < k || k + n ≤ c.1)
    full := m.full.filter (fun w => w * 8 < k || k + n ≤ w * 8)
    tags := m.tags.filter (fun l => l.1 * 64 < k || k + n ≤ l.1 * 64 || m.poison.contains l.1)
    hist := m.hist.filter (fun h => h.word * 8 < k || k + n ≤ h.word * 8) }

/-- Records that a word is about to be written on a path, for R281. -/
def Memory.log (m : Memory) (w : Nat) (p : Path) (pid : Nat) : Memory :=
  { m with hist := m.hist ++ [{ word := w, path := p, age := m.age + 1, pid := pid, old := m.word w }], age := m.age + 1 }

/-- A write of n bytes at key k on a path: the bytes, the owner tags, and the record of R281 of each word it touches. -/
def Memory.writeOn (m : Memory) (p : Path) (pid job k n v : Nat) : Memory :=
  let e := k + n - 1
  let m := m.log (k / 8) p pid
  let m := (if e / 8 = k / 8 then m else m.log (e / 8) p pid).write k n v
  let m := m.setTag (k / 64) job
  if e / 64 = k / 64 then m else m.setTag (e / 64) job

/-- The die whose point of service holds a key; host memory is kept for the package (log 11). -/
def dieOfKey (k : Nat) : Nat :=
  if k < 2 ^ 56 then k / 2 ^ 42 else if k < 2 ^ 57 then dieOf ((k - 2 ^ 56) / 2 ^ 21) else dieOf ((k - 2 ^ 57) / 2 ^ 18)

/-- Keys of host memory, which has no full/empty bits (R127). -/
def isHostKey (k : Nat) : Bool := k < 2 ^ 56 && k / 2 ^ 40 % 4 == 3

/-- Whether a key is a byte of a core's own pool, and whether it is memory of a die (R282). -/
def ownPoolKey (core k : Nat) : Bool := 2 ^ 56 ≤ k && (k - 2 ^ 56) / 2 ^ 21 == core
def dieKey (die k : Nat) : Bool := !isHostKey k && dieOfKey k == die

/-- Whether a path-C write of a process itself is seen by the engine operations it issues: one to its own core's pool,
or one that a fence which covers the engine has followed (R282). -/
def fencedFor (p : Proc) (pid : Nat) (h : Hist) : Bool :=
  h.pid == pid && (ownPoolKey (pid / 256) (h.word * 8) || h.age ≤ p.fenced
    || (h.age ≤ p.fencedDie && dieKey (dieOf (pid / 256)) (h.word * 8)))

/-- Whether what a process has carried by XFENCE or taken over by an acquire, or wrote itself before an engine operation,
makes a write visible to its read on path q (R281, R282). -/
def visibleTo (p : Proc) (pid : Nat) (q : Path) (h : Hist) : Bool :=
  h.path == q
  || p.carried.any (fun e => e.1 == h.path && e.2.1 == q && h.age ≤ e.2.2)
  || (q != .c && h.path == .c && fencedFor p pid h)

/-- The writes to a word that a read need not see yet: those after the last one it must see (R274, R281). -/
def hidden (p : Proc) (pid : Nat) (q : Path) (w : Nat) (hist : List Hist) : List Hist :=
  let mine := hist.filter (fun h => h.word == w)
  let floor := look 0 p.seen w
  (mine.reverse.takeWhile (fun h => !visibleTo p pid q h && floor < h.age)).reverse

/-- The value of a word that a process reads on a path, and the age of the write it is: the newest, or an older one where
R281 leaves it open. -/
def State.version (s : State) (core pn : Nat) (q : Path) (w : Nat) : Word × Nat :=
  let h := hidden (s.proc core pn) (pidOf core pn) q w s.mem.hist
  if h.isEmpty then (s.mem.word w, s.mem.age)
  else
    let i := Config.staleChoice s.free % (h.length + 1)
    match h[h.length - i]? with
    | some e => (e.old, e.age - 1)
    | none => (s.mem.word w, s.mem.age)
def State.wordSeen (s : State) (core pn : Nat) (q : Path) (w : Nat) : Word := (s.version core pn q w).1

/-- A process has read the write of an age to a word: a later read returns no earlier one (R274). -/
def State.remember (s : State) (core pn w age : Nat) : State :=
  if s.mem.hist.any (fun h => h.word == w) then s.modLive core pn (fun p => { p with seen := put p.seen w age }) else s

/-- The state after a read of a word on a path: the read is remembered, and the free value of its choice drawn. -/
def State.sawWord (s : State) (core pn : Nat) (q : Path) (w : Nat) : State :=
  let t := s.remember core pn w (s.version core pn q w).2
  if (hidden (s.proc core pn) (pidOf core pn) q w s.mem.hist).isEmpty then t else t.drawn

/-- Memory with some words as a read of each on a path sees them, and the state after those reads. -/
def State.viewOn (s : State) (core pn : Nat) (q : Path) : List Nat → State × Memory
  | [] => (s, s.mem)
  | w :: ws =>
    let r := (s.sawWord core pn q w).viewOn core pn q ws
    (r.1, if s.mem.hist.any (fun h => h.word == w) then r.2.write (w * 8) 8 (s.wordSeen core pn q w).toNat else r.2)

/-- n bytes of the word that contains key k, as a read on a path sees them. -/
def State.readSeen (s : State) (core pn : Nat) (q : Path) (k n : Nat) : Nat :=
  (s.wordSeen core pn q (k / 8)).toNat / 256 ^ (k % 8) % 256 ^ n

/-- Poisoned data for a process: POISON is raised at its next instruction boundary with the line's address (R144, R378).
Of two before it, the first is the one recorded (log 7). -/
def State.poisonRead (s : State) (core pn : Nat) (a : Word) : State :=
  s.modLive core pn (fun p => { p with asyncTrap := p.asyncTrap.or (some (.poison, a &&& ~~~(63 : Word))) })

/-- n words in a row as reads on a path see them, in order, and the state after those reads; what a poisoned line holds is
a free value (R378; log 7). -/
def State.readRun (s : State) (core pn : Nat) (q : Path) (k : Nat) : Nat → State × List Word
  | 0 => (s, [])
  | n + 1 =>
    if s.mem.isPoisoned k then
      let r := s.drawn.readRun core pn q (k + 8) n
      (r.1, word (Config.unstated s.free) :: r.2)
    else
      let r := (s.sawWord core pn q (k / 8)).readRun core pn q (k + 8) n
      (r.1, s.wordSeen core pn q (k / 8) :: r.2)

/-- Whether a run of bytes touches a poisoned line, and where. -/
def Memory.poisonIn (m : Memory) (k n : Nat) : Option Nat :=
  ((List.range ((k + n - 1) / 64 + 1 - k / 64)).map (fun i => k / 64 + i)).find? (fun l => n != 0 && m.poison.contains l)

/-! ### Process states, ready lists and slots (R148 to R150) -/

/-- The 56 bits of a PC (R147). -/
def pc56 (x : Word) : Word := x &&& 0xFFFFFFFFFFFFFF

/-- The slot that holds a process. -/
def Core.slotOf (c : Core) (pn : Nat) : Option Nat := c.slots.findIdx? (fun x => x.proc == some pn)

/-- Puts a husk at the tail, or the head, of its ready list. -/
def Core.pushTail (c : Core) (pn : Nat) : Core :=
  let p := (c.proc pn).prio.toNat
  { c with ready := put c.ready p (look [] c.ready p ++ [pn]) }
def Core.pushHead (c : Core) (pn : Nat) : Core :=
  let p := (c.proc pn).prio.toNat
  { c with ready := put c.ready p (pn :: look [] c.ready p) }

/-- Takes a process off every ready list. -/
def Core.unlist (c : Core) (pn : Nat) : Core :=
  { c with ready := c.ready.map (fun e => (e.1, e.2.filter (· != pn))) }

/-- A ready list; the overflow process is placed by R153 only. -/
def Core.readyAt (c : Core) (prio : Nat) : List Nat := (look [] c.ready prio).filter (· != 255)

/-- The highest non-empty list and its head (R150). -/
def Core.headReady (c : Core) : Option (Nat × Nat) :=
  (c.ready.reverse.findSome? (fun e => (e.2.filter (· != 255)).head?.map (fun pn => (e.1, pn))))

/-- An empty slot with its line buffers emptied (R28). -/
def Slot.emptied (x : Slot) : Slot :=
  { x with proc := none, switchEnd := none, leaving := none, cur := none, nextLine := none,
           last := none, want := [] }

/-- A process leaves its slot at once (R149). -/
def Core.freeSlotOf (c : Core) (pn : Nat) : Core :=
  match c.slotOf pn with
  | some i =>
    let d := c.setSlot i (c.slot i).emptied
    match (c.slot i).leaving with
    | some (_, inc) => if inc < 1024 && (d.proc inc).state == .ready then d.pushHead inc else d
    | none => d
  | none => c

/-- The wait of a process ends: a resident becomes RUNNING, a husk READY at the tail of its list (R149); one that is being
moved is on no list (R316). -/
def State.wake (s : State) (core pn : Nat) : State :=
  s.modCore core (fun c =>
    let p := { c.proc pn with wait := .none }
    if p.state == .ended || p.state == .free || p.state == .faulted then c
    else match c.slotOf pn with
      | some _ => c.setProc pn { p with state := .running }
      | none =>
        let d := c.setProc pn { p with state := .ready }
        if p.moving then d else d.pushTail pn)

/-- Whether a request still has a result to deliver. -/
def Req.delivers (r : Req) : Bool :=
  match r.kind with
  | .load _ | .readf | .take | .peek | .amo _ | .cas | .iterClaim => true
  | .store | .put | .fill | .clear | .ovwr => false

/-- Whether a variable-latency result of a process is still to arrive, in g0 too, and is not discarded (R126, R149). -/
def Core.owesResult (c : Core) (pn : Nat) : Bool :=
  (c.proc pn).pend.any (fun b => b) || c.flight.any (fun f => f.pn == pn)
    || c.reqs.any (fun r => r.pn == pn && r.delivers && !r.ended) || c.divider.any (fun o => o.pn == pn)
    || c.starts.any (fun x => x.pn == pn && !x.ended) || c.merges.any (fun m => m.pn == pn)

/-- An ended husk whose results have all arrived is free (R149). -/
def State.reap (s : State) (core pn : Nat) : State :=
  let c := s.core core
  let p := c.proc pn
  if p.state == .ended && !c.owesResult pn then
    s.modCore core (fun c => { c with procs := drop c.procs pn })
  else s

/-- A process displaced on pending tags is released once every one of them is clear (R151). -/
def State.tagWake (s : State) (core pn : Nat) : State :=
  let p := s.proc core pn
  match p.wait with
  | .tag regs => if regs.any p.isPending then s else s.wake core pn
  | _ => s.reap core pn

/-- A variable-latency result reaches its register (R11, R13). -/
def State.arriveReg (s : State) (core pn n : Nat) (v : Word) : State :=
  (s.modLive core pn (fun p => p.arrive n v)).tagWake core pn

/-- A message to a kernel core waits in the gate of a core (R339). -/
def State.report (s : State) (core : Nat) (m : FaultMsg) : State :=
  s.modCore core (fun c => { c with faultOut := c.faultOut ++ [m] })

/-- The job a core's gate attaches to its requests (R336); kernel cores run job 0 (R328). -/
def State.jobOf (s : State) (core : Nat) : Nat := if isKernel core then 0 else (s.core core).gateJob.toNat

/-- The units of an inbox message (R187). -/
def Msg.units (m : Msg) : Nat :=
  match m.kind.toNat with
  | 1 => 1 + (m.body.length + 63) / 64
  | 2 => 2
  | _ => 1

/-- The first doubleword of a message header (R188). -/
def Msg.head0 (m : Msg) : Word :=
  word (m.kind.toNat + m.reason.toNat * 2 ^ 4 + m.units * 2 ^ 8 + m.sender.toNat * 2 ^ 16
    + (if m.kind = 3 then m.hidx.toNat * 2 ^ 48 else 0) + (if m.kind = 2 then m.nm1.toNat * 2 ^ 54 else 0))

/-- The eight doublewords of a message header (R188). -/
def Msg.header (m : Msg) : List Word :=
  let rest := if m.kind = 0 then [m.handle.setWidth 64, m.words.getD 0 0]
    else if m.kind = 1 then [m.handle.setWidth 64] else m.words
  ((m.head0 :: rest) ++ List.replicate 7 0).take 8

/-- Doublewords as a number, the first in the lowest bits. -/
def packWords : List Word → Nat
  | [] => 0
  | w :: ws => w.toNat + 2 ^ 64 * packWords ws

/-! ### Operand slots (R254, R255) -/

/-- The operation and the slots of a tile task. -/
def Task.op (t : Task) : Nat := (t.record.extractLsb' 0 8).toNat
def Task.slotA (t : Task) : Nat := (t.record.extractLsb' 16 5).toNat
def Task.slotB (t : Task) : Nat := (t.record.extractLsb' 24 5).toNat
def Task.usesSlots (t : Task) : Bool := t.op ≤ 3
def Task.names (t : Task) (slot : Nat) : Bool := t.slotA == slot || t.slotB == slot

/-- Release-pending slots become free once no task accepted before the MREL that names them is incomplete. -/
def Core.freeSlots (c : Core) : Core :=
  { c with opslots := c.opslots.map (fun e =>
      match e.2.releaseAt with
      | some q =>
        if c.tasks.any (fun t => t.seq < q && t.usesSlots && t.names e.1) then e
        else (e.1, { e.2 with owner := none, filled := false, releaseAt := none })
      | none => e) }

/-- MREL of the slots of a mask that a process owns. -/
def Core.releaseSlots (c : Core) (pn mask : Nat) : Core :=
  let c : Core := { c with opslots := c.opslots.map (fun (e : Nat × OpSlot) =>
      if e.2.owner == some pn && mask.testBit e.1 && e.2.releaseAt.isNone then
        (e.1, { e.2 with releaseAt := some c.taskSeq })
      else e) }
  c.freeSlots

/-- The number of no process: what is left of an operation whose process has been killed. -/
def noProcess : Nat := 1024

/-- A process is no more: results it would still receive are discarded (R126, R239), its slots are released (R254), and
its merges withdrawn (R266). -/
def Core.detach (c : Core) (pn : Nat) : Core :=
  let c : Core := { c with
    flight := c.flight.filter (fun f => f.pn != pn)
    divider := c.divider.map (fun o => if o.pn = pn then { o with pn := noProcess, dest := 0, flags := 0 } else o)
    starts := c.starts.map (fun (x : Start) => if x.pn = pn then { x with ended := true } else x)
    reqs := c.reqs.map (fun r => if r.pn = pn then { r with ended := true } else r)
    merges := c.merges.filter (fun m => m.pn != pn)
    futures := c.futures.map (fun (e : Nat × Future) =>
      if e.2.used && e.2.owner == pn then (e.1, { e.2 with ownerLive := false }) else e) }
  c.releaseSlots pn (2 ^ 32 - 1)

/-- A handler ends: its units are freed and its credit returns to the sender (R194, R195). -/
def State.endHandler (s : State) (core : Nat) : State :=
  match (s.core core).handler with
  | some m =>
    let s := s.modCore core (fun c => { (c.freeSlotOf 256).detach 256 with
      handler := none, normal := c.normal.filter (fun x => x.first != m.first) })
    let s := s.modProc core 256 (fun p => { p with state := .free, wait := .none })
    { s with net := s.net ++ [{ src := core, dst := m.msg.sender.toNat / 256, at_ := pkgOf core, job := s.jobOf core,
                                body := .credit m.msg.back }] }
  | none => s

/-- A process is parked FAULTED: its slot is freed at once, its husk PC is FPC, and a fault message with the recorded
registers goes to a kernel core (R114, R337, R341). -/
def State.park (s : State) (core pn : Nat) : State :=
  let p := s.proc core pn
  let s := s.modCore core (fun c =>
    ((c.freeSlotOf pn).unlist pn).setProc pn
      { p with state := .faulted, pc := p.fpc, wait := .none, inRep := false, held := false,
               closeReason := 0 })
  s.report core { kind := 1, cause := p.cause, pid := BitVec.ofNat 31 (pidOf core pn),
                  job := BitVec.ofNat 16 (s.jobOf core), fpc := p.fpc, faddr := p.faddr, finst := p.finst,
                  extra := p.closeReason }

/-- Delivery of a recorded trap (R113, R114, R195, R332). -/
def State.deliver (s : State) (core pn : Nat) (cause : Cause) : State :=
  let p := s.proc core pn
  if pn = 256 then
    let m := (s.core core).handler
    let sender : BitVec 31 := match m with | some x => x.msg.sender | none => 0
    let hdr : BitVec 512 := match m with | some x => BitVec.ofNat 512 (packWords x.msg.header) | none => 0
    (s.report core { kind := 6, cause := p.cause, pid := sender, job := BitVec.ofNat 16 (s.jobOf core), fpc := p.fpc,
                     faddr := p.faddr, finst := p.finst, more := [hdr] }).endHandler core
  else if (cause.recoverable || isKernel core) && p.tvec != 0 then
    (s.setProc core pn { p with pc := p.tvec, tvec := 0, inRep := false }).wake core pn
  else if isKernel core then
    ((s.modCore core (fun c => { (c.freeSlotOf pn).setProc pn { p with state := .faulted, pc := p.fpc } with
      stopped := true })).modDie (dieOf core) (fun d => { d with stopReport := true })).later (.dieReset (dieOf core))
  else s.park core pn

/-- A trap: records CAUSE, FPC, FADDR and FINST, then is delivered (R40, R112). -/
def State.trapAt (s : State) (core pn : Nat) (cause : Cause) (faddr fpc : Word) (finst : BitVec 32) : State :=
  (s.modProc core pn (fun p =>
    { p with cause := cause.code, fpc := pc56 fpc &&& ~~~(3 : Word), faddr := faddr, finst := finst,
             earliest := s.ticks + 1, tagSince := none })).deliver core pn cause

/-- A trap of the instruction being issued. -/
def State.trap (s : State) (cause : Cause) (faddr : Word) : State :=
  s.trapAt s.ctx.core s.ctx.pn cause faddr s.ctx.pc s.ctx.word

/-- A trap of an instruction whose process is blocked: the process leaves its wait as if the instruction had not issued,
so REPST and the address are those of the blocking instruction; a recoverable one is delivered when the process is next
resident (R113, R119). -/
def State.trapBlocked (s : State) (core pn : Nat) (cause : Cause) (faddr : Word) : State :=
  let p := s.proc core pn
  if cause.recoverable && ((s.core core).slotOf pn).isNone then
    (s.setProc core pn { p with
      repDone := p.bDone, repRemain := p.bRemain, pc := p.bpc, lateTrap := some (cause, faddr) }).wake core pn
  else
  (s.setProc core pn { p with repDone := p.bDone, repRemain := p.bRemain, wait := .none }).trapAt
    core pn cause faddr p.bpc p.binst

/-! ### Issue: next PC, repeats and blocking -/

/-- The process being issued. -/
def State.me (s : State) : Proc := s.proc s.ctx.core s.ctx.pn
def State.modMe (s : State) (f : Proc → Proc) : State := s.modProc s.ctx.core s.ctx.pn f

/-- The repeats still to issue: 65 to 127 act as 64 (R25). -/
def Proc.remain (p : Proc) : Nat := min p.repRemain.toNat 64

/-- The next PC of a process that has issued one instruction, or one repeat of it (R24, R25). Where WRCR has left DONE and
REMAIN that together pass 64, DONE goes from 63 to 0 and the repeats go on (DESIGN CHOICE, log 28). -/
def Proc.stepPc (p : Proc) (pc : Word) (rep : Bool) : Proc :=
  if rep then
    if p.remain ≤ 1 then { p with pc := pc56 (pc + 8), repDone := 0, repRemain := 0, inRep := false }
    else { p with pc := pc, repDone := p.repDone + 1, repRemain := BitVec.ofNat 7 (p.remain - 1) }
  else { p with pc := pc56 (pc + 4) }

/-- The instruction completes and npc is taken (R40). -/
def State.advance (s : State) : State := s.modMe (fun p => p.stepPc s.ctx.pc s.ctx.rep.isSome)

/-- The instruction transfers control (R22, R23). -/
def State.jump (s : State) (target : Word) : State := s.modMe (fun p => { p with pc := pc56 target })

/-- block(state): the process leaves issue rotation; when released, the instruction completes and npc is taken (R40). -/
def State.block (s : State) (st : ProcState) (w : Wait) : State :=
  (s.modMe (fun p => { p with
    state := st, wait := w, waitSince := s.ticks + 1, probeAt := s.ticks + 4096, bpc := s.ctx.pc, binst := s.ctx.word,
    bDone := p.repDone, bRemain := p.repRemain })).advance

/-- The instruction does not issue in this cycle (R10). -/
def State.notIssued (s : State) : State := { s with ctx := { s.ctx with issued := false } }

/-- A fixed-latency result enters flight (R19). -/
def State.fly (s : State) (latency : Nat) (writes : List (Nat × Word)) (flags : BitVec 5) (xi : Option (BitVec 16)) : State :=
  s.modCore s.ctx.core (fun c => { c with
    flight := c.flight ++ [{ pn := s.ctx.pn, writes := writes.filter (fun e => e.1 != 0), xi := xi, flags := flags,
                             due := s.ticks + latency, seq := c.seq }]
    seq := c.seq + 1 })

/-- A fixed-latency instruction: one result after its latency, and npc. -/
def State.result (s : State) (latency : Nat) (d : Nat) (v : Word) (flags : BitVec 5) : State :=
  (s.fly latency [(d, v)] flags none).advance

/-- Fixed-latency results of a process that are still in flight (R11). -/
def Core.inFlight (c : Core) (pn : Nat) : Bool := c.flight.any (fun f => f.pn == pn && !f.var)

end Sys2Proof.Machine
end

