-- ==== Sys2Proof/Machine/Operands.lean ====
section
/-! DEFINITION. Operand forms, and the checks every issued word passes: readiness (R10, R13), window names (R12), early
reads (R20), the stall count (R18), in the order of R39; register names and literals stepped by a REP (R24). -/

namespace Sys2Proof.Machine

/-- A step's answer. -/
abbrev Answer := Host.Outcome State Fault Refusal

/-- Register numbers that the fields D, A and B name, stepped in a repeat (R24, R34). -/
def State.rd (s : State) (d : BitVec 5) : Nat := d.toNat + (match s.ctx.rep with | some o => o.1 | none => 0)
def State.ra (s : State) (a : BitVec 5) : Nat := a.toNat + (match s.ctx.rep with | some o => o.2.1 | none => 0)
def State.rb (s : State) (b : BitVec 5) : Nat := b.toNat + (match s.ctx.rep with | some o => o.2.2 | none => 0)

/-- The value of a register of the issuing process. -/
def State.g (s : State) (n : Nat) : Word := s.me.reg n

/-- What an instruction needs to issue. legal: no rule of R38 beyond the word's bits makes it illegal here. ready: its
engine queue and future table can take it (R10). -/
structure Use where
  reads : List Nat := []
  writes : List Nat := []
  var : Bool := false
  legal : Bool := true
  ready : Bool := true
  waitsFor : List Nat := []

/-- Whether an instruction waits on a pending tag, or on a result in flight to a variable-latency destination (R10, R13). -/
def State.waitsTag (s : State) (u : Use) : Bool :=
  (u.reads ++ u.writes ++ u.waitsFor).any s.me.isPending
def State.waitsFlight (s : State) (u : Use) : Bool :=
  u.var && (s.core s.ctx.core).flight.any (fun f =>
    f.pn == s.ctx.pn && f.writes.any (fun e => u.writes.contains e.1))

/-- The register name at or beyond W that WINDOW reports (R12, R112): the first, sources before destinations (log 8). -/
def State.badName (s : State) (u : Use) : Option Nat := (u.reads ++ u.writes).find? (fun n => s.me.wsz ≤ n)

/-- The source read too early that STALLSHORT reports (R20, R112): the first whose fixed-latency result has not arrived
(log 8). -/
def State.earlyRead (s : State) (u : Use) : Option Nat :=
  u.reads.find? (fun n => n != 0 && (s.core s.ctx.core).flight.any (fun f =>
    f.pn == s.ctx.pn && f.writes.any (fun e => e.1 == n)))

/-- The gap of a stall count (R18). -/
def stallGap (w : BitVec 2) : Nat := 1 + (match w.toNat with | 0 => 0 | 1 => 1 | 2 => 3 | _ => 5)

/-- Reading a register whose future has completed observes the completion (R283). -/
def Proc.observe (p : Proc) (path : Path) (age : Nat) : Proc := { p with observed := (path, age) :: p.observed }
def Proc.observeRegs (p : Proc) (rs : List Nat) : Proc :=
  if p.regObs.isEmpty then p
  else
    { p with observed := ((p.regObs.filter (fun o => rs.contains o.1)).map (fun o => o.2)) ++ p.observed
             regObs := p.regObs.filter (fun o => !rs.contains o.1) }

/-- The word issues: its stall count sets the earliest next issue (R18). -/
def State.begun (s : State) (w : BitVec 2) (u : Use) : State :=
  s.modMe (fun p => { (p.observeRegs u.reads) with earliest := s.ticks + stallGap w, tagSince := none })

/-- One issue of a word: it waits as R10 states, or is checked in the order of R39 and takes its effect. -/
def State.issue (s : State) (w : BitVec 2) (u : Use) (body : State → State) : Answer :=
  if s.me.state != .running then .fault .noIssuer
  else if s.waitsTag u then
    .next { s with ctx := { s.ctx with issued := false, stall := u.reads ++ u.writes ++ u.waitsFor } }
  else if s.waitsFlight u || !u.ready then .next s.notIssued
  else if !u.legal then .next (s.trap .ill 0)
  else match s.badName u with
    | some n => .next (s.trap .window (word n))
    | none =>
      match (if s.me.schk then s.earlyRead u else none) with
      | some n => .next (s.trap .stallshort (word n))
      | none => .next (body (s.begun w u))

/-- Whether the issuing process is an active-message handler (R194). -/
def State.inHandler (s : State) : Bool := s.ctx.pn == 256

/-- An instruction that R195 denies to a handler. -/
def State.noHandler (s : State) (faddr : Word) (body : State → State) : State :=
  if s.inHandler then s.trap .prot faddr else body s

/-- Sign extension of an immediate (R34, R40). -/
def imm {n : Nat} (x : BitVec n) : Word := x.signExtend 64

/-- A fixed-latency instruction of two sources and one destination (R19, R80). -/
def State.alu2 (s : State) (w : BitVec 2) (d a b : BitVec 5) (latency : Nat) (f : Word → Word → Word) : Answer :=
  s.issue w { reads := [s.ra a, s.rb b], writes := [s.rd d] } (fun t =>
    t.result latency (s.rd d) (f (s.g (s.ra a)) (s.g (s.rb b))) 0)

/-- A fixed-latency instruction of one source and one destination. -/
def State.alu1 (s : State) (w : BitVec 2) (d a : BitVec 5) (latency : Nat) (f : Word → Word) : Answer :=
  s.issue w { reads := [s.ra a], writes := [s.rd d] } (fun t => t.result latency (s.rd d) (f (s.g (s.ra a))) 0)

/-- A fixed-latency instruction without a register source. -/
def State.alu0 (s : State) (w : BitVec 2) (d : BitVec 5) (latency : Nat) (v : Word) : Answer :=
  s.issue w { writes := [s.rd d] } (fun t => t.result latency (s.rd d) v 0)

/-- A variable-latency destination becomes pending (R13). -/
def State.pendDest (s : State) (d : Nat) : State := s.modMe (fun p => p.setPending d true)

/-- A variable-latency result that the core itself delivers after a fixed time: the destination is pending until then. -/
def State.varResult (s : State) (latency : Nat) (writes : List (Nat × Word)) : State :=
  (writes.foldl (fun t e => t.pendDest e.1) s).modCore s.ctx.core (fun c => { c with
    flight := c.flight ++ [{ pn := s.ctx.pn, writes := writes.filter (fun e => e.1 != 0), due := s.ticks + latency,
                             seq := c.seq, var := true }]
    seq := c.seq + 1 })

/-- Loads one 64-bit register pair value as a number: hi above lo. -/
def pairNat (hi lo : Word) : Nat := hi.toNat * 2 ^ 64 + lo.toNat

end Sys2Proof.Machine
end

