-- ==== Sys2Proof/Machine/Flags.lean ====
section
/-! DEFINITION. Number formats, exact values, rounding, and the flags they raise (R54 to R66, R219). Flags are a
five-bit value: bit 0 NX, 1 UF, 2 OF, 3 DZ, 4 NV (R15, R237). -/

namespace Sys2Proof.Machine

def flagNX : BitVec 5 := 1
def flagUF : BitVec 5 := 2
def flagOF : BitVec 5 := 4
def flagDZ : BitVec 5 := 8
def flagNV : BitVec 5 := 16

/-- A binary format: precision with the hidden bit, exponent of the smallest normal, width, codes of the largest finite
value, of infinity (where there is one) and of the canonical NaN (R55 to R61). -/
structure Fmt where
  prec : Nat
  emin : Int
  width : Nat
  maxCode : Nat
  infCode : Option Nat
  nanCode : Nat
  deriving DecidableEq, Repr

def fp64 : Fmt := ⟨53, -1022, 64, 0x7FEFFFFFFFFFFFFF, some 0x7FF0000000000000, 0x7FF8000000000000⟩
def fp32 : Fmt := ⟨24, -126, 32, 0x7F7FFFFF, some 0x7F800000, 0x7FC00000⟩
def bf16 : Fmt := ⟨8, -126, 16, 0x7F7F, some 0x7F80, 0x7FC0⟩
def e5m2 : Fmt := ⟨3, -14, 8, 0x7B, some 0x7C, 0x7E⟩
def e4m3 : Fmt := ⟨4, -6, 8, 0x7E, none, 0x7F⟩
def e2m1 : Fmt := ⟨2, 0, 4, 0x7, none, 0x0⟩

/-- An exact value: sign, magnitude m times 2^e. -/
inductive Val where
  | nan (signalling : Bool)
  | inf (neg : Bool)
  | fin (neg : Bool) (m : Nat) (e : Int)
  deriving DecidableEq, Repr

/-- The exponent of the last place of a subnormal. -/
def Fmt.qmin (f : Fmt) : Int := f.emin - (f.prec - 1 : Nat)

/-- The value of a code (R55 to R60). -/
def Fmt.decode (f : Fmt) (code : Nat) : Val :=
  let mag := code % 2 ^ (f.width - 1)
  let neg := code / 2 ^ (f.width - 1) % 2 == 1
  if mag ≤ f.maxCode then
    let field := mag / 2 ^ (f.prec - 1)
    let frac := mag % 2 ^ (f.prec - 1)
    if field = 0 then .fin neg frac f.qmin
    else .fin neg (2 ^ (f.prec - 1) + frac) (f.qmin + (field - 1 : Nat))
  else if f.infCode = some mag then .inf neg
  else .nan (8 < f.width && mag / 2 ^ (f.prec - 2) % 2 == 0)

/-- The methods of rounding (R16, R62, R64): a threshold is a numerator over a power of two. -/
inductive Mode where
  | rne | rtz | rdn | rup
  | threshold (num den : Nat)
  deriving DecidableEq, Repr

/-- The mode FCTL.RM names (R16). -/
def rmMode (fctl : BitVec 9) : Mode :=
  match fctl.toNat % 4 with
  | 0 => .rne
  | 1 => .rtz
  | 2 => .rdn
  | _ => .rup

/-- (m + d) * 2^e, with 0 < d < 1 when sticky and d = 0 otherwise, in units of 2^q: the integer below, and whether it is
exact and whether the method rounds up. Sticky values carry enough bits below 2^q. -/
def roundTo (mode : Mode) (neg : Bool) (m : Nat) (e q : Int) (sticky : Bool) : Nat × Bool :=
  if q ≤ e then
    let n := m * 2 ^ (e - q).toNat
    (if sticky && (match mode with | .rdn => neg | .rup => !neg | _ => false) then n + 1 else n, sticky)
  else
    let sh := (q - e).toNat
    let n := m / 2 ^ sh
    let r := m % 2 ^ sh
    let inexact := r != 0 || sticky
    let up := inexact && (match mode with
      | .rne => 2 ^ sh < 2 * r || (2 * r == 2 ^ sh && (sticky || n % 2 == 1))
      | .rtz => false
      | .rdn => neg
      | .rup => !neg
      | .threshold num den => num * 2 ^ sh < r * den || (r * den == num * 2 ^ sh && sticky))
    (if up then n + 1 else n, inexact)

/-- How a format's overflow is answered: by IEEE and the mode (R107), or by the SAT bit (R63). -/
inductive Overflow where
  | ieee
  | sat (on : Bool)
  deriving DecidableEq, Repr

/-- The code of ±infinity, of the largest finite value, and of the canonical NaN. -/
def Fmt.signed (f : Fmt) (neg : Bool) (mag : Nat) : Nat := mag + (if neg then 2 ^ (f.width - 1) else 0)

/-- The answer to an overflow (R63, R107). -/
def Fmt.overflow (f : Fmt) (o : Overflow) (mode : Mode) (neg : Bool) : Nat :=
  match f.infCode with
  | some i =>
    let toMax := match o with
      | .sat on => on
      | .ieee => match mode with
        | .rtz => true
        | .rdn => !neg
        | .rup => neg
        | _ => false
    f.signed neg (if toMax then f.maxCode else i)
  | none =>
    match o with
    | .sat false => if f.width = 4 then f.signed neg f.maxCode else f.nanCode
    | _ => f.signed neg f.maxCode

/-- The exponent of the leading bit of a non-zero magnitude. -/
def topExp (m : Nat) (e : Int) : Int := e + (Nat.log2 m : Nat)

/-- Rounds a finite value into a format: the code and the flags NX, UF, OF (R55, R62 to R64). -/
def Fmt.round (f : Fmt) (o : Overflow) (mode : Mode) (neg : Bool) (m : Nat) (e : Int) (sticky : Bool) :
    Nat × BitVec 5 :=
  if m = 0 && !sticky then (f.signed neg 0, 0)
  else
    let top := topExp m e
    let qn := top - (f.prec - 1 : Nat)
    let q := max qn f.qmin
    let (n, inexact) := roundTo mode neg m e q sticky
    let free := (roundTo mode neg m e qn sticky).1
    let tiny := qn + (f.prec - 1 : Nat) < f.emin && !(free == 2 ^ f.prec && top + 1 == f.emin)
    let code := if n < 2 ^ (f.prec - 1) then n
      else (q - f.qmin).toNat * 2 ^ (f.prec - 1) + n
    if f.maxCode < code then (f.overflow o mode neg, flagOF ||| flagNX)
    else (f.signed neg code, (if inexact then flagNX else 0) ||| (if inexact && tiny then flagUF else 0))

/-- Converts a value into a format (R57, R62, R63): finite values round, infinities and NaNs follow R63. An infinity that
becomes ±6 or ±448 raises OF alone, as the table of R63 has it: whether it raises NX too, as R62's sentence on conversions
that change the value can be read, is left open (DESIGN CHOICE, log 29). -/
def Fmt.convert (f : Fmt) (o : Overflow) (mode : Mode) (v : Val) : Nat × BitVec 5 :=
  match v with
  | .fin neg m e => f.round o mode neg m e false
  | .inf neg =>
    match f.infCode with
    | some i => (f.signed neg i, 0)
    | none =>
      if f.width = 4 then (f.signed neg f.maxCode, flagOF)
      else match o with
        | .sat true => (f.signed neg f.maxCode, flagOF)
        | _ => (f.nanCode, flagNV)
  | .nan sig => (f.nanCode, if f.width = 4 || sig then flagNV else 0)

/-! ### Exact arithmetic on values -/

def Val.isNan : Val → Bool
  | .nan _ => true
  | _ => false
def Val.isSnan : Val → Bool
  | .nan s => s
  | _ => false
def Val.isZero : Val → Bool
  | .fin _ m _ => m == 0
  | _ => false
def Val.isInf : Val → Bool
  | .inf _ => true
  | _ => false
def Val.neg? : Val → Bool
  | .nan _ => false
  | .inf n => n
  | .fin n _ _ => n
def Val.negate : Val → Val
  | .nan s => .nan s
  | .inf n => .inf (!n)
  | .fin n m e => .fin (!n) m e
def Val.abs : Val → Val
  | .nan s => .nan s
  | .inf _ => .inf false
  | .fin _ m e => .fin false m e

/-- A finite value as an integer number of units 2^e0, e0 not above its exponent. -/
def scaled (neg : Bool) (m : Nat) (e e0 : Int) : Int :=
  let n : Int := m * 2 ^ (e - e0).toNat
  if neg then -n else n

/-- The sign of an exact zero sum: the common sign of two zeros, else + except under RDN (R106). -/
def zeroSign (mode : Mode) (an bn bothZero : Bool) : Bool :=
  if bothZero && an == bn then an else mode == .rdn

/-- a + b: the exact sum, or NaN with NV for infinities of opposite sign or a signalling operand (R102). -/
def Val.add (mode : Mode) (a b : Val) : Val × BitVec 5 :=
  let nv := if a.isSnan || b.isSnan then flagNV else 0
  match a, b with
  | .nan _, _ => (.nan false, nv)
  | _, .nan _ => (.nan false, nv)
  | .inf x, .inf y => if x == y then (.inf x, 0) else (.nan false, flagNV)
  | .inf x, .fin .. => (.inf x, 0)
  | .fin .., .inf y => (.inf y, 0)
  | .fin an am ae, .fin bn bm be =>
    let e0 := min ae be
    let z := scaled an am ae e0 + scaled bn bm be e0
    if z = 0 then (.fin (zeroSign mode an bn (am == 0 && bm == 0)) 0 e0, 0)
    else (.fin (z < 0) z.natAbs e0, 0)

/-- a * b, exact; 0 times infinity is NaN with NV. -/
def Val.mul (a b : Val) : Val × BitVec 5 :=
  let nv := if a.isSnan || b.isSnan then flagNV else 0
  if a.isInf && b.isZero || a.isZero && b.isInf then (.nan false, flagNV)
  else match a, b with
    | .nan _, _ => (.nan false, nv)
    | _, .nan _ => (.nan false, nv)
    | .fin an am ae, .fin bn bm be => (.fin (an != bn) (am * bm) (ae + be), 0)
    | x, y => (.inf (x.neg? != y.neg?), 0)

/-- a * b + c with one exact sum; an infinite product of 0 gives NV whatever c is (R106). -/
def Val.fma (mode : Mode) (a b c : Val) : Val × BitVec 5 :=
  let nv := if a.isSnan || b.isSnan || c.isSnan then flagNV else 0
  let p := a.mul b
  let r := p.1.add mode (match c with | .nan _ => .nan false | x => x)
  (r.1, nv ||| p.2 ||| r.2)

/-- The integer square root below 2^k. -/
def isqrtBits (n : Nat) : Nat → Nat → Nat
  | 0, r => r
  | k + 1, r => if (r + 2 ^ k) * (r + 2 ^ k) ≤ n then isqrtBits n k (r + 2 ^ k) else isqrtBits n k r
def isqrt (n : Nat) : Nat := isqrtBits n (Nat.log2 n / 2 + 1) 0

/-- A quotient of magnitudes to at least 160 bits below its leading bit, with its sticky bit. -/
def quot (am : Nat) (ae : Int) (bm : Nat) (be : Int) : Nat × Int × Bool :=
  let k := 160 + Nat.log2 bm
  (am * 2 ^ k / bm, ae - be - (k : Nat), am * 2 ^ k % bm != 0)

/-- A square root of a magnitude to at least 160 bits, with its sticky bit. -/
def root (m : Nat) (e : Int) : Nat × Int × Bool :=
  let k : Nat := 320 + (e % 2).toNat
  let n := m * 2 ^ k
  let r := isqrt n
  (r, (e - k) / 2, r * r != n)

/-- a / b rounded (R102): DZ for a finite non-zero a over zero. -/
def Fmt.div (f : Fmt) (o : Overflow) (mode : Mode) (a b : Val) : Nat × BitVec 5 :=
  let nv := if a.isSnan || b.isSnan then flagNV else 0
  match a, b with
  | .nan _, _ => (f.nanCode, nv)
  | _, .nan _ => (f.nanCode, nv)
  | .inf _, .inf _ => (f.nanCode, flagNV)
  | .inf x, y => f.convert o mode (.inf (x != y.neg?))
  | .fin an _ _, .inf bn => (f.signed (an != bn) 0, 0)
  | .fin an am ae, .fin bn bm be =>
    if bm = 0 then
      if am = 0 then (f.nanCode, flagNV)
      else
        let r := f.convert o mode (.inf (an != bn))
        (r.1, flagDZ ||| r.2)
    else if am = 0 then (f.signed (an != bn) 0, 0)
    else
      let (m, e, st) := quot am ae bm be
      f.round o mode (an != bn) m e st

/-- √a rounded (R102): √(−0) = −0; a negative operand gives NaN with NV. -/
def Fmt.sqrt (f : Fmt) (mode : Mode) (a : Val) : Nat × BitVec 5 :=
  match a with
  | .nan s => (f.nanCode, if s then flagNV else 0)
  | .inf false => f.convert .ieee mode (.inf false)
  | .inf true => (f.nanCode, flagNV)
  | .fin n m e =>
    if m = 0 then (f.signed n 0, 0)
    else if n then (f.nanCode, flagNV)
    else
      let (r, q, st) := root m e
      f.round .ieee mode false r q st

/-- Whether a < b, and whether a = b, for values that are not NaN; zeros of either sign are equal (R104). -/
def Val.lt (a b : Val) : Bool :=
  match a, b with
  | .nan _, _ => false
  | _, .nan _ => false
  | .inf x, .inf y => x && !y
  | .inf x, .fin .. => x
  | .fin .., .inf y => !y
  | .fin an am ae, .fin bn bm be => scaled an am ae (min ae be) < scaled bn bm be (min ae be)
def Val.eq (a b : Val) : Bool :=
  match a, b with
  | .nan _, _ => false
  | _, .nan _ => false
  | .inf x, .inf y => x == y
  | .inf _, .fin .. => false
  | .fin .., .inf _ => false
  | .fin an am ae, .fin bn bm be => scaled an am ae (min ae be) == scaled bn bm be (min ae be)

/-- Below, with −0 below +0 (R103). -/
def Val.below (a b : Val) : Bool := a.lt b || (a.eq b && a.isZero && a.neg? && !b.neg?)

/-- R103: the smaller (or larger) operand; one NaN gives the other operand, two give NaN. -/
def Val.minMax (larger : Bool) (a b : Val) : Val :=
  match a, b with
  | .nan _, .nan _ => .nan false
  | .nan _, y => y
  | x, .nan _ => x
  | x, y => if larger then (if x.below y then y else x) else (if y.below x then y else x)

/-- A finite value rounded to an integer, and whether that changed it. -/
def roundInt (mode : Mode) (neg : Bool) (m : Nat) (e : Int) : Int × Bool :=
  let r := roundTo mode neg m e 0 false
  (if neg then -(r.1 : Int) else r.1, r.2)

/-- Conversion into a two's complement range (R108, R219): outside it the nearer end with NV only; NaN gives nanValue. -/
def toIntRange (mode : Mode) (lo hi nanValue : Int) (v : Val) : Int × BitVec 5 :=
  match v with
  | .nan _ => (nanValue, flagNV)
  | .inf n => (if n then lo else hi, flagNV)
  | .fin n m e =>
    let r := roundInt mode n m e
    if r.1 < lo then (lo, flagNV) else if hi < r.1 then (hi, flagNV) else (r.1, if r.2 then flagNX else 0)

/-- An integer as an exact value; 0 is +0. -/
def Val.ofInt (z : Int) : Val := .fin (z < 0) z.natAbs 0

/-! ### Stochastic rounding (R65, R66) -/

/-- mix of R65, modulo 2^64. -/
def mix (x : Word) : Word :=
  let z := x + 0x9E3779B97F4A7C15
  let z := (z ^^^ (z >>> 30)) * 0xBF58476D1CE4E5B9
  let z := (z ^^^ (z >>> 27)) * 0x94D049BB133111EB
  z ^^^ (z >>> 31)

/-- The class G threshold of the element with stream value n: bits [63:48] of mix(JSEED ⊕ (LCN << 40) ⊕ n) over 65,536. -/
def classG (jseed : Word) (lcn : BitVec 22) (n : Word) : Mode :=
  .threshold ((mix (jseed ^^^ (lcn.setWidth 64 <<< 40) ^^^ n.setWidth 64)).toNat / 2 ^ 48) 65536

/-- Bayer8 of R66, row by row. -/
def bayer8 : List Nat :=
  [0, 32, 8, 40, 2, 34, 10, 42, 48, 16, 56, 24, 50, 18, 58, 26,
   12, 44, 4, 36, 14, 46, 6, 38, 60, 28, 52, 20, 62, 30, 54, 22,
   3, 35, 11, 43, 1, 33, 9, 41, 51, 19, 59, 27, 49, 17, 57, 25,
   15, 47, 7, 39, 13, 45, 5, 37, 63, 31, 55, 23, 61, 29, 53, 21]

/-- The class A threshold at row i and column j under a tile sequence (R66). -/
def classA (i j tseq : Nat) : Mode :=
  .threshold ((bayer8.getD (i % 8 * 8 + j % 8) 0 + tseq * 23 % 64) % 64) 64

/-! ### The E3M5 scale (R61) -/

/-- M and the exponent of a scale code; none for NaN. -/
def scaleOf (code : Nat) : Option (Nat × Int) :=
  if code = 0xFF then none
  else
    let e := code / 32
    let m := code % 32
    some (if e = 0 then m else 32 + m, (max e 1 : Nat) - 8)

end Sys2Proof.Machine
end

