-- ==== Sys2Proof/Machine/Address.lean ====
section
/-! DEFINITION. Where an address leads: the ranges of R116, the local protection unit (R118, R307), the alias windows
(R72 to R77), page tables and TLB (R322 to R331), the physical window and the control spaces (R332, R356, R375). -/

namespace Sys2Proof.Machine

/-! ### Regions of a pool (R118, R307) -/

inductive Region where
  | scratchpad | accumulator | inbox | register | beyond
  deriving DecidableEq, Repr

/-- Granules of a partition word (R307). -/
def partReg (w : BitVec 23) : Nat := (w.extractLsb' 0 7).toNat
def partAcc (w : BitVec 23) : Nat := (w.extractLsb' 8 7).toNat
def partInb (w : BitVec 23) : Nat := (w.extractLsb' 16 7).toNat
def partScratch (w : BitVec 23) : Nat := 96 - partReg w - partAcc w - partInb w

/-- A partition word whose fields lie in their ranges (R307). -/
def partOk (w : BitVec 23) : Bool :=
  2 ≤ partReg w && partReg w ≤ 32 && partAcc w ≤ 32 && 1 ≤ partInb w && partInb w ≤ 4
    && 16 + partReg w + partAcc w + partInb w ≤ 96

/-- Size of the scratchpad in bytes. -/
def scratchSize (w : BitVec 23) : Nat := partScratch w * 16384

/-- Units of the inbox: 64 bytes each, the upper quarter the staging ring (R187). -/
def regionOf (w : BitVec 23) (off : Nat) : Region :=
  let g := off / 16384
  let sc := partScratch w
  if 96 ≤ g then .beyond
  else if g < sc then .scratchpad
  else if g < sc + partAcc w then .accumulator
  else if g < sc + partAcc w + partInb w then .inbox
  else .register

/-- Whether the local protection unit allows an access of n bytes at a pool offset (R118). -/
def localOk (w : BitVec 23) (write : Bool) (off n : Nat) : Bool :=
  let ok (o : Nat) := match regionOf w o with
    | .scratchpad => true
    | .accumulator | .inbox => !write
    | .register | .beyond => false
  ok off && ok (off + n - 1)

/-- Whether bytes lie wholly in the scratchpad. -/
def inScratch (w : BitVec 23) (off n : Nat) : Bool := off + n ≤ scratchSize w

/-! ### Kinds of access (R120, R127, R276) -/

/-- Plain loads. -/
def AccessKind.isLoad : AccessKind → Bool
  | .load _ => true
  | _ => false

/-- Sync operations (R128). -/
def AccessKind.isSync : AccessKind → Bool
  | .readf | .take | .peek | .put | .fill | .clear | .ovwr => true
  | _ => false

/-- Accesses that need W, and those that change the word (R118, R120, R330 step 5). -/
def AccessKind.writes : AccessKind → Bool
  | .load _ | .readf | .peek => false
  | .store | .take | .put | .fill | .clear | .ovwr | .amo _ | .cas | .iterClaim => true

/-- Accesses that need R (R120). -/
def AccessKind.readsData : AccessKind → Bool
  | .load _ | .readf | .peek | .take | .amo _ | .cas | .iterClaim => true
  | .store | .put | .fill | .clear | .ovwr => false

/-- The sync operations that block until performed, which a handler may not issue (R129, R195). -/
def AccessKind.waits : AccessKind → Bool
  | .readf | .take | .put | .fill => true
  | _ => false

/-- The accesses that go through the store buffer (R124, R129). -/
def AccessKind.buffered : AccessKind → Bool
  | .store | .clear | .ovwr => true
  | _ => false

/-- Acquires and releases among memory accesses (R276). -/
def AccessKind.acquire : AccessKind → Bool
  | .readf | .take | .amo _ | .cas => true
  | _ => false
def AccessKind.release : AccessKind → Bool
  | .put | .fill | .amo _ | .cas => true
  | _ => false

/-! ### Alias windows (R72 to R77) -/

/-- The method of a window's writes. -/
inductive Method where
  | rne | classG | classA
  deriving DecidableEq, Repr

/-- A tensor window: stored format, program-side format, method of writes (R72). -/
structure WinSpec where
  stored : Fmt
  prog : Fmt
  method : Method
  deriving DecidableEq, Repr

def winSpec (w : Nat) : WinSpec :=
  match w with
  | 1 => ⟨e2m1, bf16, .rne⟩
  | 2 => ⟨e2m1, bf16, .classG⟩
  | 3 => ⟨e2m1, bf16, .classA⟩
  | 4 => ⟨e4m3, bf16, .rne⟩
  | 5 => ⟨e4m3, bf16, .classG⟩
  | 6 => ⟨e5m2, bf16, .rne⟩
  | 7 => ⟨bf16, fp32, .rne⟩
  | _ => ⟨bf16, fp32, .classG⟩

/-- Fields of a window descriptor (R77). -/
def wdTbase (d : BitVec 256) : Nat := (d.extractLsb' 0 24).toNat
def wdPitch (d : BitVec 256) : Nat := (d.extractLsb' 32 16).toNat
def wdCols (d : BitVec 256) : Nat := (d.extractLsb' 48 16).toNat
def wdRows (d : BitVec 256) : Nat := (d.extractLsb' 64 16).toNat
def wdSbase (d : BitVec 256) : Nat := (d.extractLsb' 80 24).toNat
def wdSpitch (d : BitVec 256) : Nat := (d.extractLsb' 112 16).toNat
def wdBbase (d : BitVec 256) : Nat := (d.extractLsb' 128 24).toNat
def wdSat (d : BitVec 256) : Bool := d.getLsbD 160
def wdScaled (d : BitVec 256) : Bool := d.getLsbD 161
def wdTseq (d : BitVec 256) : Nat := (d.extractLsb' 176 16).toNat

/-- The bits a descriptor holds: reserved bits read zero (R6, R77). -/
def wdMask : BitVec 256 :=
  BitVec.ofNat 256 (0x00FFFFFF + 0xFFFFFFFFFFFF * 2 ^ 32 + 0xFFFFFF * 2 ^ 80 + 0xFFFF * 2 ^ 112 + 0xFFFFFF * 2 ^ 128
    + 0x3 * 2 ^ 160 + 0xFFFF * 2 ^ 176)

/-- Whether the scales of R76 apply. -/
def wdScales (w : Nat) (d : BitVec 256) : Bool := wdScaled d && w ≤ 3

/-- Where element i of a window lies: row, column, first stored byte, and its number of stored bytes. -/
def wdRow (d : BitVec 256) (i : Nat) : Nat := i / wdCols d
def wdCol (d : BitVec 256) (i : Nat) : Nat := i % wdCols d
def wdByte (w : Nat) (d : BitVec 256) (i : Nat) : Nat :=
  wdTbase d + wdRow d i * wdPitch d + wdCol d i * (winSpec w).stored.width / 8
def wdBytes (w : Nat) : Nat := ((winSpec w).stored.width + 7) / 8

/-- The block scale's and the band scale's byte (R68). -/
def wdBlockAt (d : BitVec 256) (i : Nat) : Nat := wdSbase d + wdRow d i / 8 * wdSpitch d + wdCol d i / 256
def wdBandAt (d : BitVec 256) (i : Nat) : Nat := wdBbase d + 2 * (wdRow d i / 64)

/-- The checks of R73 for one element. -/
def elementOk (part : BitVec 23) (w : Nat) (d : BitVec 256) (i : Nat) : Bool :=
  wdCols d != 0 && wdRows d != 0 && i / wdCols d < wdRows d
    && inScratch part (wdByte w d i) (wdBytes w)
    && (!wdScales w d || (inScratch part (wdBlockAt d i) 1 && inScratch part (wdBandAt d i) 2))

/-- The elements of an access of n bytes at window offset o (R73). -/
def windowElements (w o n : Nat) : List Nat :=
  let es := (winSpec w).prog.width / 8
  (List.range (n / es)).map (fun j => o / es + j)

/-- The checks of R73, in order. -/
def windowCause (part : BitVec 23) (w : Nat) (d : BitVec 256) (o n : Nat) : Option Cause :=
  if n < (winSpec w).prog.width / 8 then some .align
  else if o % n != 0 then some .align
  else if (windowElements w o n).all (elementOk part w d) then none
  else some .localbound

/-- The stored code of an element. -/
def storedCode (m : Memory) (core w : Nat) (d : BitVec 256) (i : Nat) : Nat :=
  let v := m.read (poolKey core (wdByte w d i)) (wdBytes w)
  if (winSpec w).stored.width = 4 then v / (if wdCol d i % 2 = 0 then 1 else 16) % 16 else v

/-- The memory with an element's stored code written: a nibble is a masked byte write (R74). -/
def storeCode (m : Memory) (core pid job : Nat) (w : Nat) (d : BitVec 256) (i code : Nat) : Memory :=
  let k := poolKey core (wdByte w d i)
  if (winSpec w).stored.width = 4 then
    let old := (m.byte k).toNat
    m.writeOn .c pid job k 1
      (if wdCol d i % 2 = 0 then old / 16 * 16 + code % 16 else old % 16 + 16 * (code % 16))
  else m.writeOn .c pid job k (wdBytes w) code

/-- Block and band scale of an element (R68). -/
def blockScale (m : Memory) (core : Nat) (d : BitVec 256) (i : Nat) : Option (Nat × Int) :=
  scaleOf (m.byte (poolKey core (wdBlockAt d i))).toNat
def bandScale (m : Memory) (core : Nat) (d : BitVec 256) (i : Nat) : Val :=
  bf16.decode (m.read (poolKey core (wdBandAt d i)) 2)

/-- A scaled element e × s × b, rounded once by RNE to BF16 (R76). -/
def scaledValue (e : Val) (s : Option (Nat × Int)) (b : Val) : Nat × BitVec 5 :=
  match s, b with
  | none, _ => (bf16.nanCode, 0)
  | _, .nan _ => (bf16.nanCode, 0)
  | some _, .inf bn =>
    if e.isZero then (bf16.nanCode, flagNV) else bf16.convert .ieee .rne (.inf (e.neg? != bn))
  | some (sm, se), .fin bn bm be =>
    match e with
    | .fin en em ee => bf16.round .ieee .rne (en != bn) (em * sm * bm) (ee + se + be) false
    | v => bf16.convert .ieee .rne v

/-- Element i as a program-side code, and the flags of its conversion (R72, R76). -/
def windowRead (m : Memory) (core w : Nat) (d : BitVec 256) (i : Nat) : Nat × BitVec 5 :=
  let v := (winSpec w).stored.decode (storedCode m core w d i)
  if wdScales w d then scaledValue v (blockScale m core d i) (bandScale m core d i)
  else (((winSpec w).prog.convert .ieee .rne v).1, 0)

/-- The mode of one element's write (R65, R66). -/
def methodMode (k : Method) (jseed : Word) (lcn : BitVec 22) (n : Word) (row col tseq : Nat) : Mode :=
  match k with
  | .rne => .rne
  | .classG => classG jseed lcn n
  | .classA => classA row col tseq

/-- The code an element's write stores, and its flags: the exact quotient by the scales where they apply (R76). -/
def windowCode (m : Memory) (core w : Nat) (d : BitVec 256) (i : Nat) (mode : Mode) (x : Val) : Nat × BitVec 5 :=
  let f := (winSpec w).stored
  if wdScales w d then
    match blockScale m core d i, bandScale m core d i with
    | some (sm, se), .fin bn bm be =>
      if sm = 0 || bm = 0 then (0, flagNV)
      else match x with
        | .fin xn xm xe =>
          let (q, e, st) := quot xm xe (sm * bm) (se + be)
          f.round (.sat (wdSat d)) mode (xn != bn) q e st
        | .inf xn => f.convert (.sat (wdSat d)) mode (.inf (xn != bn))
        | v => f.convert (.sat (wdSat d)) mode v
    | _, _ => (0, flagNV)
  else f.convert (.sat (wdSat d)) mode x

/-! ### Page tables (R322 to R328) -/

/-- What a walk finds. -/
inductive WalkResult where
  | leaf (pte : Word) (large : Bool)
  | fault (c : Cause)
  deriving DecidableEq, Repr

/-- Fields of a leaf (R324). -/
def pteOrd (p : Word) : Nat := p.toNat / 2 ^ 4 % 4
def pteOwn (p : Word) : Nat := p.toNat / 2 ^ 6 % 4
def pteFe (p : Word) : Bool := p.getLsbD 8
def pteStk (p : Word) : Bool := p.getLsbD 9
def pteLg (p : Word) : Bool := p.getLsbD 10
def pteFrame (p : Word) : Nat := p.toNat / 2 ^ 16 % 2 ^ 32
def pteTarget (p : Word) : Nat := p.toNat / 2 ^ 48 % 4
/-- The home die, as an identifier over all packages. -/
def pteHome (p : Word) : Nat := p.toNat / 2 ^ 52 * 4 + p.toNat / 2 ^ 50 % 4

/-- A PROT case of R324: ORD 3, a reserved bit, LG at level 2, or a large FRAME out of step. -/
def pteBad (p : Word) (large : Bool) : Bool :=
  pteOrd p == 3 || p.toNat / 2 ^ 11 % 32 != 0 || (pteLg p && !large) || (large && pteFrame p % 8192 != 0)

/-- Bytes of a store: 64 GB a memory server; of the second tier, of which R1 and R3 give a package up to 3,072 GB and no
division, 768 GB a die (DESIGN CHOICE, log 29): this bounds the addresses of page tables, and the patrol. -/
def storeCapacity (target : Nat) : Nat :=
  match target with
  | 0 | 1 => 64000000000
  | 2 => 768000000000
  | _ => 2 ^ 40

/-- The key of the table a directory entry names, in the store that ROOT names (R328). -/
def tableKey (root : Nat) (entry : Word) : Option Nat :=
  let off := entry.toNat / 2 ^ 16 % 2 ^ 32 * 65536
  if off < storeCapacity (root / 2 ^ 40 % 4) then some (root / 2 ^ 40 * 2 ^ 40 + off) else none

/-- The cause of an absent entry: STACK where its STK bit is 1 (R330). -/
def absentCause (e : Word) : Cause := if pteStk e then .stack else .page

/-- The walk of a virtual address of a job by a die's walker (R322, R326, R327). An entry in a poisoned line is poisoned data
(R378). A root entry with LG = 1, and the bits of a directory entry that must be zero, are ignored: the spec gives them no
fate (DESIGN CHOICE, log 29). -/
def State.walk (s : State) (die job va : Nat) : WalkResult :=
  match (s.die die).jobs.find? (fun r => r.2.valid && r.2.job.toNat == job) with
  | none => .fault .page
  | some (_, rec) =>
    let a := rec.root.toNat
    let root := storeKey (a / 2 ^ 42) (a / 2 ^ 40 % 4) a
    let k0 := root + 8 * (va / 2 ^ 42 % 16384)
    let e0 := s.mem.word (k0 / 8)
    if s.mem.isPoisoned k0 then .fault .poison
    else if !e0.getLsbD 0 then .fault (absentCause e0)
    else match tableKey root e0 with
      | none => .fault .prot
      | some t1 =>
        let k1 := t1 + 8 * (va / 2 ^ 29 % 8192)
        let e1 := s.mem.word (k1 / 8)
        if s.mem.isPoisoned k1 then .fault .poison
        else if pteLg e1 then .leaf e1 true
        else if !e1.getLsbD 0 then .fault (absentCause e1)
        else match tableKey root e1 with
          | none => .fault .prot
          | some t2 =>
            let k2 := t2 + 8 * (va / 2 ^ 16 % 8192)
            if s.mem.isPoisoned k2 then .fault .poison else .leaf (s.mem.word (k2 / 8)) false

/-- What the checks of a leaf need to know of an access. -/
structure Needs where
  r : Bool
  w : Bool
  x : Bool
  writes : Bool
  sync : Bool

/-- The needs of a data access (R120). -/
def AccessKind.needs (k : AccessKind) : Needs :=
  { r := k.readsData, w := k.writes, x := false, writes := k.writes, sync := k.isSync }

/-- The needs of an instruction fetch (R330). -/
def fetchNeeds : Needs := { r := false, w := false, x := true, writes := false, sync := false }

/-- Steps 2 to 7 of R330. -/
def leafCause (p : Word) (large : Bool) (n : Needs) : Option Cause :=
  if !p.getLsbD 0 then some (absentCause p)
  else if pteBad p large then some .prot
  else if (n.r && !p.getLsbD 1) || (n.w && !p.getLsbD 2) || (n.x && !p.getLsbD 3) then some .prot
  else if pteOwn p == 3 && n.writes then some .page
  else if pteOwn p == 1 || pteOwn p == 2 then some .own
  else if n.sync && (!pteFe p || pteTarget p == 3) then some .prot
  else none

/-- The size of a page. -/
def pageSize (large : Bool) : Nat := if large then 2 ^ 29 else 2 ^ 16

/-- The TLB entry that covers an address (R325). -/
def Core.tlbFind (c : Core) (job va : Nat) : Option TlbEntry :=
  c.tlb.find? (fun e => e.job == job && e.vpn == va / pageSize e.large)

/-- A leaf as the TLB holds it: without FRAME; a FRAME out of step stays a PROT case by its reserved bit (R324, R325). -/
def tlbLeaf (p : Word) (large : Bool) : Word :=
  (p &&& ~~~(0xFFFFFFFF0000 : Word)) ||| (if large && pteFrame p % 8192 != 0 then 0x800 else 0)

/-- A use of an entry marks it recent among the 96 (R325; log 9). -/
def Core.tlbTouch (c : Core) (e : TlbEntry) : Core :=
  { c with tlbRecent := markRecent 96 (fun _ => true) (c.tlbRecent.filter (fun x => c.tlb.contains x)) e }

/-- The TLB with a leaf entered, in a free place of its 96 or in that of an entry not marked recent (R325; log 9). -/
def Core.tlbEnter (c : Core) (job va : Nat) (p : Word) (large : Bool) : Core :=
  if p.getLsbD 0 then
    let e : TlbEntry := { job := job, large := large, vpn := va / pageSize large, leaf := tlbLeaf p large }
    let others := c.tlb.filter (fun x => !(x.job == job && x.large == large && x.vpn == e.vpn))
    ({ c with tlb := enterGroup 96 (fun _ => true) (fun x => c.tlbRecent.contains x) others e }).tlbTouch e
  else c

/-! ### Ranges (R116, R332) -/

inductive Space where
  | window (n off : Nat)
  | operand
  | lowNone
  | mesh (x y off : Nat)
  | none
  | global
  | physical
  deriving DecidableEq, Repr

/-- The row of R116 an address falls in, or of R332 on a kernel core. -/
def spaceOf (kernel : Bool) (ea : Word) : Space :=
  let a := ea.toNat
  if a < 0x10000000 then .window (a / 0x1000000) (a % 0x1000000)
  else if 0x7F000000 ≤ a && a < 0x7F040000 then .operand
  else if a < 0x1000000000 then .lowNone
  else if a < 0x1800000000 then .mesh (a / 2 ^ 30 % 32) (a / 2 ^ 25 % 32) (a % 2 ^ 25)
  else if a < 0x1000000000000 then .none
  else if a < 0x100000000000000 then .global
  else if kernel && a < 0x200000000000000 then .physical
  else .none

/-- Offsets of the fabric control space (R356). -/
def fabricOffsetOk (off : Nat) : Bool :=
  off % 8 == 0 && (off < 0x8000008000 || off == 0x8000010000 || off == 0x8000010008 || off == 0x8000020000
    || off == 0x8000020008)

/-- Offsets of a die's control space (R375). -/
def dieOffsetOk (off : Nat) : Bool := off % 8 == 0 && off ≤ 0x8000000050

/-- Fields of a binding register (R320). -/
def ldDies (b : Word) : Nat := b.toNat % 16
def ldTs (b : Word) : Bool := b.getLsbD 4
def ldV (b : Word) : Bool := b.getLsbD 5
def ldJob (b : Word) : Nat := b.toNat / 2 ^ 16 % 2 ^ 16
/-- QUANT in die cycles; 0 is treated as 1. -/
def ldQuant (b : Word) : Nat := max 1 (b.toNat / 2 ^ 32 % 2 ^ 16) * 2 ^ 20
def Pkg.binding (p : Pkg) (dev : Nat) : Word := look 0 p.ldbind dev
def ldNames (b : Word) (job die : Nat) : Bool := ldV b && ldJob b == job && b.getLsbD (die % 4)

/-- A job holds a die while an LDBIND register of its package names them; the kernel job holds every die (R396). -/
def State.holds (s : State) (job die : Nat) : Bool :=
  job == 0 || (s.pkg (pkgOfDie die)).ldbind.any (fun e => ldNames e.2 job die)

/-- Where an access goes. -/
inductive Located where
  | trap (c : Cause)
  | miss
  | own (off : Nat)
  | tensor (w : Nat) (desc : BitVec 256)
  | away (r : Req)
  deriving Repr

/-- The request of an access through a leaf that passed every check (R276, R324); a claim orders nothing (R166). -/
def leafReq (r : Req) (p : Word) (job : Nat) : Req :=
  { r with
    order := if r.kind == .iterClaim then .unordered else if pteOrd p = 0 then .strong else if pteOrd p = 1 then .release else .unordered
    fe := pteFe p && pteTarget p != 3, host := pteTarget p == 3, discarded := pteOwn p == 3
    home := pteHome p, homeIsDie := true, target := pteTarget p, global := true, job := job }

/-- Checks an access of a leaf, then its alignment (R121, R330). -/
def leafLocated (r : Req) (p : Word) (large : Bool) (job : Nat) : Located :=
  match leafCause p large r.kind.needs with
  | some c => .trap c
  | none => if r.ea.toNat % r.size != 0 then .trap .align else .away (leafReq r p job)

/-- A physical-window access of a kernel core (R332, R356, R375): STRONG, FE as the FE = 1 column of R127. -/
def physicalLocated (core : Nat) (r : Req) : Located :=
  let a := r.ea.toNat % 2 ^ 56
  let die := a / 2 ^ 42
  let target := a / 2 ^ 40 % 4
  let off := a % 2 ^ 40
  let plain8 := (r.kind.isLoad || r.kind == .store) && r.size == 8
  let out (p : Place) (host : Bool) : Located :=
    if r.ea.toNat % r.size != 0 then .trap .align
    else .away { r with place := p, order := .strong, fe := !host, host := host, home := die, homeIsDie := true,
                        target := target }
  if target < 2 && 0x8000000000 ≤ off then
    if pkgOfDie die != pkgOf core || !plain8 then .trap .prot
    else if target = 0 then
      if fabricOffsetOk off then out (.fabric (pkgOfDie die) off) true else .trap .prot
    else if dieOffsetOk off then out (.dieSpace die off) true else .trap .prot
  else if target = 3 && r.kind.isSync then .trap .prot
  else out (.bytes (storeKey die target off)) (target == 3)

/-- The checks of R116 to R121 at the issuing core, for a request whose kind, address and size stand in r. -/
def State.locate (s : State) (core : Nat) (r : Req) : Located :=
  let c := s.core core
  let aligned (l : Located) : Located := if r.ea.toNat % r.size != 0 then .trap .align else l
  match spaceOf (isKernel core) r.ea with
  | .window 0 off => if localOk c.part r.kind.writes off r.size then aligned (.own off) else .trap .localbound
  | .window n off =>
    if 9 ≤ n then .trap .localbound
    else match r.kind with
      | .load _ | .store =>
        let d := look 0 c.wdesc (n - 1)
        match windowCause c.part n d off r.size with
        | some e => .trap e
        | none => .tensor n d
      | _ => .trap .localbound
  | .operand | .lowNone => .trap .localbound
  | .none => .trap .prot
  | .mesh x y off =>
    let t := coreAt (pkgOf core) x y
    if isKernel core || !c.gateV || !s.holds c.gateJob.toNat (dieOf t) then .trap .prot
    else .away { r with place := .bytes (poolKey t off), order := .pool, home := t, mesh := true,
                        job := c.gateJob.toNat }
  | .physical => physicalLocated core r
  | .global =>
    if !isKernel core && !c.gateV then .trap .prot
    else
      let job := s.jobOf core
      match c.tlbFind job r.ea.toNat with
      | none => .miss
      | some e => leafLocated r e.leaf e.large job

/-! ### At the home (R329) -/

/-- The memory server that serves a target of its die. -/
def serverOf (target : Nat) : Nat := if target = 1 then 1 else 0

/-- The frame-table entry that covers a page. -/
def Die.frameFind (d : Die) (server job va : Nat) : Option FrameEntry :=
  (d.frames.find? (fun e => e.1 / 2048 == server && e.2.valid && e.2.job.toNat == job
    && e.2.vpn.toNat * 65536 / pageSize e.2.large == va / pageSize e.2.large)).map (fun e => e.2)

/-- The key of a byte through the frame table of its home, none on a miss. -/
def State.homeFind (s : State) (home target job va : Nat) : Option Nat :=
  ((s.die home).frameFind (serverOf target) job va).map (fun e =>
    storeKey home target (e.frame.toNat * 65536 + va % pageSize e.large))

/-- The place of a new entry: the lowest unused entry of the server, else the lowest that is not pinned (log 9). -/
def Die.frameSlot (d : Die) (server : Nat) : Option Nat :=
  let at_ (i : Nat) : FrameEntry := look {} d.frames (server * 2048 + i)
  match (List.range 2048).find? (fun i => !(at_ i).valid) with
  | some i => some (server * 2048 + i)
  | none => ((List.range 2048).find? (fun i => !(at_ i).pin)).map (fun i => server * 2048 + i)

/-- The entry a leaf gives, when the leaf names this home. -/
def homeEntry (home target job va : Nat) (p : Word) (large : Bool) : Option FrameEntry :=
  if p.getLsbD 0 && !pteBad p large && pteHome p == home && pteTarget p == target then
    some { job := BitVec.ofNat 16 job, valid := true, large := large,
           vpn := BitVec.ofNat 40 (va / pageSize large * pageSize large / 65536),
           frame := BitVec.ofNat 32 (pteFrame p) }
  else none

/-- The frame table filled after a miss by the home's walker; none when the PTE does not name this home (MISMATCH). -/
def State.homeWalk (s : State) (home target job va : Nat) : State × Option Nat :=
  match s.walk home job va with
  | .fault _ => (s, none)
  | .leaf p large =>
    match homeEntry home target job va p large with
    | none => (s, none)
    | some e =>
      let key := storeKey home target (e.frame.toNat * 65536 + va % pageSize large)
      match (s.die home).frameSlot (serverOf target) with
      | some i => (s.modDie home (fun d => { d with frames := put d.frames i e }), some key)
      | none => (s, some key)

/-- The home's answer to an access, its frame table filled where it misses. -/
def State.homeKey (s : State) (home target job va : Nat) : State × Option Nat :=
  match s.homeFind home target job va with
  | some k => (s, some k)
  | none => s.homeWalk home target job va

/-- The key of a byte of a global address by its page tables, with its leaf; none where the walk faults (R323, R324). -/
def State.globalKey (s : State) (die job va : Nat) : Option (Nat × Word) :=
  match s.walk die job va with
  | .fault _ => none
  | .leaf p large => some (storeKey (pteHome p) (pteTarget p) (pteFrame p * 65536 + va % pageSize large), p)

/-- A report about a whole die or package, to kernel core 256 of the die (R339). -/
def State.reportDie (s : State) (die : Nat) (m : FaultMsg) : State := s.report (die * 512 + 256) m

/-- The MISMATCH report of R341. -/
def State.mismatch (s : State) (home job va : Nat) : State :=
  s.reportDie home { kind := 7, cause := 0, pid := 0, job := BitVec.ofNat 16 job, faddr := word va }

end Sys2Proof.Machine
end

