-- ==== Sys2Proof/Machine/Packet.lean ====
section
/-! DEFINITION. Packets between cores and dies: sending, arrival in order, and answers (R189, R355 to R360). -/

namespace Sys2Proof.Machine

/-- Whether a die tears down a job: its traffic goes to the quarantine sink (R383). -/
def State.quarantines (s : State) (die job : Nat) : Bool := (s.die die).tdWork.any (fun w => w.1 == job)

/-- The reason of the teardown at work on a job's die; none where there is none (R353, R383). -/
def State.tearReason (s : State) (die job : Nat) : Option (BitVec 8) :=
  ((s.die die).tdWork.filter (fun w => w.1 == job)).map (fun w => w.2)

/-- Whether a die reset tears its jobs down while a kernel core of the die has stopped: no records are made (R387). -/
def State.mute (s : State) (die : Nat) : Bool :=
  (s.die die).resetWanted && (List.range 4).any (fun i => (s.core (die * 512 + 256 + i)).stopped)

/-- A record waits in the die's buffer of 256; a full buffer loses it and counts it. A record of a teardown is kept until
there is room; a reset of a stopped die makes none. -/
def State.invRecord (s : State) (die : Nat) (r : InvRec) : State :=
  if s.mute die then s
  else s.modDie die (fun d =>
    if 256 ≤ d.invBuf.length && !s.quarantines die r.job then { d with invlost := d.invlost + 1 }
    else { d with invBuf := d.invBuf ++ [{ r with cycle := s.cyc die }] })

/-- The quarantine sink of a die: traffic is counted and recorded (R383). -/
def State.sink (s : State) (die item pid job : Nat) (id : Word) : State :=
  (s.modDie die (fun d => { d with qcnt := d.qcnt + 1 })).invRecord die
    { item := item, state := 2, reason := 0x41, job := job, pid := pid, started := false, itemid := id, value := 0,
      cycle := 0 }

/-- A packet of a job toward another node. -/
def State.sendFor (s : State) (job src dst : Nat) (line : Option Nat) (b : Body) : State :=
  { s with net := s.net ++ [{ src := src, dst := dst, at_ := pkgOf src, job := job, gen := (s.pkg (pkgOf src)).gen,
                              line := line, body := b }] }

/-- A packet of the job of its source core. -/
def State.sendPacket (s : State) (src dst : Nat) (line : Option Nat) (b : Body) : State :=
  s.sendFor (s.jobOf src) src dst line b

/-- A response or acknowledgement to a packet that crossed packages under a generation (R360). -/
def State.sendReply (s : State) (job src dst : Nat) (line : Option Nat) (gen : Bool) (b : Body) : State :=
  { s with net := s.net ++ [{ src := src, dst := dst, at_ := pkgOf src, job := job, gen := (s.pkg (pkgOf src)).gen,
                              line := line, reply := some gen, body := b }] }

/-- What keeps its order between two nodes: memory requests for one line, messages with offers and their withdrawals, and
requests about futures. Answers, credits and probes keep none (0). -/
def Body.lane : Body → Nat
  | .memory _ _ => 1
  | .offer _ _ _ | .offerWithdrawal _ _ _ | .message _ => 2
  | .futureWait _ _ | .futureCancel _ => 3
  | .answer _ _ | .ack | .engine _ _ | .fill _ _ | .release _ _ _ _ | .credit _ | .probe _ _ _ _ _ _ _ _ => 0

/-- Whether a packet must arrive behind an older one between the same two nodes (R189, R359); memory requests of a core in
issue order, whatever order they left in. -/
def Packet.sameRoute (q p : Packet) : Bool :=
  p.src == q.src && p.dst == q.dst && p.line == q.line && q.body.lane != 0 && q.body.lane == p.body.lane
    && (match q.body, p.body with
      | .memory _ t, .memory _ u => t < u
      | _, _ => true)

/-- The bytes of a started tile transfer go on to be read while the job is torn down (R182, R383 step 3). -/
def Packet.runs (p : Packet) : Bool :=
  match p.body with
  | .release _ _ _ (some _) => true
  | _ => false

/-- Whether a job's tenant is saved on a die (R319). -/
def Die.isSaved (d : Die) (job : Nat) : Bool := d.saved.any (fun x => x.job == job)

/-- The core that sends a packet on its way, and its package. -/
def Packet.origin (p : Packet) : Nat := p.inj.getD p.src

/-- The table of a generation. -/
def Pkg.table (p : Pkg) (gen : Bool) : AMap Word := if gen then p.rte1 else p.rte0
def Pkg.rte (p : Pkg) (gen : Bool) (dst : Nat) : Word := look 0 (p.table gen) dst

/-- Whether traffic from local die s to die d is allowed (ISL). -/
def rteAllows (e : Word) (s d : Nat) : Bool := e.getLsbD (24 + 4 * s + d)

/-- Whether the route entry of its destination lets a packet pass between its dies, those of one package too (R317, R357,
R358). Traffic within one die needs no route. -/
def State.islandOk (s : State) (p : Packet) (gen : Bool) : Bool :=
  let k := s.pkg (pkgOf p.origin)
  let g := if pkgOf p.origin = pkgOf p.dst then k.gen else gen
  dieOf p.origin == dieOf p.dst || rteAllows (k.rte g (pkgOf p.dst)) (dieOf p.origin % 4) (dieOf p.dst % 4)

/-- Whether the entry of its own package bars a core's memory traffic to another die there (R317, R358). -/
def State.islandShut (s : State) (core die : Nat) : Bool :=
  let k := s.pkg (pkgOf core)
  pkgOfDie die == pkgOf core && die != dieOf core && !rteAllows (k.rte k.gen (pkgOf core)) (dieOf core % 4) (die % 4)

/-- What a package's island check discards is counted, and recorded on its die 0 (R358, R382). -/
def State.islandDrop (s : State) (pkg job pid : Nat) (id : Word) : State :=
  (s.modPkg pkg (fun k => { k with isldrop := k.isldrop + 1 })).invRecord (4 * pkg)
    { item := 12, state := 2, reason := 0, job := job, pid := pid, started := false, itemid := id, value := 0, cycle := 0 }

/-- Whether the packet at a place of the list has arrived, ahead of every older one of its route; traffic for a saved
tenant is refused and retried until its restore, but for answers to its requests (R319). -/
def State.arrived (s : State) (idx : Nat) : Option Packet :=
  match s.net[idx]? with
  | some p =>
    if p.at_ == pkgOf p.dst && (p.hop != 0 || s.islandOk p p.gen) && (match p.retryAt with | some t => t ≤ s.ticks | none => true)
      && (p.reply.isSome || !(!isKernel p.dst && (s.die (dieOf p.dst)).isSaved p.job))
      && (p.runs || !s.quarantines (dieOf p.dst) p.job)
      && !(s.net.take idx).any (fun q => q.sameRoute p) then some p else none
  | none => none

/-- One packet fewer that a package has not had answered (R360). -/
def State.countAnswer (s : State) (pkg dst : Nat) (gen : Bool) : State :=
  s.modPkg pkg (fun k =>
    let i := dst * 2 + (if gen then 1 else 0)
    let n := look 0 k.unanswered i
    { k with unanswered := if n ≤ 1 then drop k.unanswered i else put k.unanswered i (n - 1) })

/-- The packet leaves the network. One that crossed packages is acknowledged, but for a memory request, which its answer
answers, and a response, which lowers the count of the package it comes to (R360). -/
def State.unpacket (s : State) (idx : Nat) : State :=
  match takeAt s.net idx with
  | some (p, rest) =>
    let s := { s with net := rest }
    if pkgOf p.origin == pkgOf p.dst then s
    else match p.reply, p.body with
      | some g, _ => s.countAnswer (pkgOf p.dst) (pkgOf p.src) g
      | none, .memory _ _ => s
      | none, _ => s.sendReply p.job p.dst p.origin p.line p.gen .ack
  | none => s

/-- Whether a compute core's gate lets nothing through: it belongs to no job (R336). -/
def State.gateShut (s : State) (core : Nat) : Bool := !isKernel core && !(s.core core).gateV

/-- Whether an offer or message comes to a compute core outside the job of the compute core that sent it (R336). -/
def State.foreign (s : State) (p : Packet) : Bool :=
  !isKernel p.src && !isKernel p.dst && (s.gateShut p.dst || s.jobOf p.dst != p.job)

/-- The place in the network of a packet with a body. -/
def State.findPacket (s : State) (b : Body) : Option Nat := s.net.findIdx? (fun p => p.body == b)

/-- A packet that its sender takes back out of the network; one that was injected no longer counts. -/
def State.recall (s : State) (idx : Nat) : State :=
  match takeAt s.net idx with
  | some (p, rest) =>
    let s := { s with net := rest }
    if p.hop = 0 then s else s.countAnswer (pkgOf p.origin) (pkgOf p.dst) p.gen
  | none => s

/-- How an engine's access to a home, or a fill from it, stands. -/
inductive Crossing where
  | there | away | sunk
  deriving DecidableEq, Repr

/-- The key under which a core keeps what became of an engine's access, or a fill. -/
def Body.lostKey : Body → Option (Nat × Nat)
  | .engine core va => some (core, 2 * va)
  | .fill core line => some (core, 128 * line + 1)
  | .memory _ _ | .answer _ _ | .ack | .offer _ _ _ | .offerWithdrawal _ _ _ | .release _ _ _ _ | .credit _ | .message _
  | .probe _ _ _ _ _ _ _ _ | .futureWait _ _ | .futureCancel _ => none

/-- What became of an engine's access, or a fill: false, its packet is discarded; true, it completed as poisoned. -/
def State.noteLost (s : State) (b : Body) (poisoned : Bool) : State :=
  match b.lostKey with
  | some (core, k) => s.modCore core (fun c => { c with lost := put c.lost k poisoned })
  | none => s

/-- An access of a core's engine, or a fill, at a home die. One to another die passes the island check, and one to another
package is sent as a packet first, which takes the routes (R317, R358, R359); once discarded it is never made. One to a die
that tears the job down ends in its quarantine (R383). -/
def State.crosses (s : State) (core die job line key : Nat) (item : Nat) (va : Word) (b : Body) : State × Crossing :=
  let lost := ((s.core core).lost.find? (fun e => e.1 == key)).map (·.2)
  if die = dieOf core then (s, .there)
  else if pkgOfDie die = pkgOf core then
    if lost == some false then (s, .away)
    else if s.islandShut core die then ((s.islandDrop (pkgOf core) job 0 va).noteLost b false, .away)
    else if s.quarantines die job then (s.sink die item 0 job va, .sunk)
    else (s, .there)
  else match s.findPacket b with
    | some i => if (s.arrived i).isSome then (s.unpacket i, .there) else (s, .away)
    | none =>
      match lost with
      | some true => (s.modCore core (fun c => { c with lost := drop c.lost key }), .sunk)
      | some false => (s, .away)
      | none => (s.sendFor job core (die * 512 + 256) (some line) b, .away)

/-- What ended engine operations leave of their accesses to other packages is dropped: packets on their way, and what became
of others. An operation that has started, or whose amax word is asked for, keeps its own. -/
def State.sweepCrossings (s : State) (core : Nat) : State :=
  let c := s.core core
  let mine (va : Nat) : Bool := !c.copyQ.any (fun o => o.started) && !c.vecQ.any (fun v => v.b.toNat == va)
  let left := s.net.filter (fun p => match p.body with | .engine k va => k == core && mine va | _ => false)
  let s := left.foldl (fun t p => match t.findPacket p.body with | some i => t.recall i | none => t) s
  if c.lost.isEmpty then s
  else s.modCore core (fun c => { c with lost := c.lost.filter (fun e => e.1 % 2 == 1 || !mine (e.1 / 2)) })

end Sys2Proof.Machine
end

