-- ==== Sys2Proof/Machine/Registers.lean ====
section
/-! DEFINITION. The control spaces behind the physical window: a die's registers (R375) and a package's fabric registers
(R356, R357, R361, R363). Fields that start an action queue the event that the action is. -/

namespace Sys2Proof.Machine

/-- The MODE in force of a duty: 0 MIGR, 1 FSERV, 2 LBUILD, 3 ROUTE, 4 SCRUB; one that DUTY has changed waits for the
function's work in progress (R321). -/
def Pkg.dutyMode (p : Pkg) (i : Nat) : Bool := p.duty.getLsbD (2 * i) != p.turning.getLsbD i

/-- Whether a function has work in progress: migrations and pages on their way, fault messages that the host holds, a route
update (R321). -/
def Pkg.atWork (p : Pkg) (i : Nat) : Bool :=
  match i with
  | 0 => !p.migrations.isEmpty || !p.migrating.isEmpty
  | 1 => !p.forwarded.isEmpty || p.taken.any (fun e => e.2.kind == 1 || e.2.kind == 2)
  | 3 => p.busy
  | _ => false

/-- The five functions of DUTY that a test picks. -/
def dutyBits (f : Nat → Bool) : BitVec 5 :=
  BitVec.ofNat 5 ((List.range 5).foldl (fun n i => if f i then n + 2 ^ i else n) 0)

/-- DUTY is written; bits [63:10] read zero. A change of MODE takes effect after the function's work in progress (R321). -/
def Pkg.setDuty (p : Pkg) (v : Word) : Pkg :=
  { p with
    duty := v &&& 0x3FF
    turning := dutyBits (fun i => p.atWork i && v.getLsbD (2 * i) != p.dutyMode i) }

/-- Changes of MODE whose function has no work left take effect. -/
def Pkg.settleDuty (p : Pkg) : Pkg :=
  if p.turning = 0 then p else { p with turning := dutyBits (fun i => p.turning.getLsbD i && p.atWork i) }

/-- BUSY of TDCTL: a teardown of the die is at work, or waits to begin (R383). -/
def Die.tearing (d : Die) : Bool := d.tdWork.isSome || !d.tdQueue.isEmpty

/-- A register of a die's control space as a load reads it (R375). -/
def State.dieRegister (s : State) (die off : Nat) : Word :=
  let d := s.die die
  match off - 0x8000000000 with
  | 0x00 => word (d.period.toNat + 2 ^ 8 * d.action.toNat + 2 ^ 32 * d.cecnt.toNat)
  | 0x10 => word (d.invbase.toNat + 2 ^ 56 * d.logn.toNat)
  | 0x18 => word (d.invNext + 2 ^ 16 * d.invlost.toNat)
  | 0x20 => word (d.tdjob.toNat + (if d.tearing then 2 ^ 17 else 0) + 2 ^ 32 * d.qcnt.toNat)
  | 0x28 => d.pgate.extractLsb' 0 64
  | 0x30 => d.pgate.extractLsb' 64 64
  | 0x38 => d.pgate.extractLsb' 128 64
  | 0x40 => d.pgate.extractLsb' 192 64
  | 0x48 => word (d.tj.toNat + (if d.warn then 2 ^ 8 else 0) + (if d.trip then 2 ^ 9 else 0))
  | _ => 0

/-- A core is free: its processes 0 to 254 have ended and been freed, and their engine operations are complete (R312). -/
def Core.isFree (c : Core) : Bool :=
  c.procs.all (fun e => 255 ≤ e.1 || e.2.state == .free) && c.tasks.all (fun t => 255 ≤ t.pn)
    && c.futures.all (fun e => !e.2.used || e.2.engine == 3 || 255 ≤ e.2.owner)

/-- The events of a write to PGATEn: a bit set gates a free core, a bit cleared wakes its core (R385). -/
def pgateEvents (die n : Nat) (old v : Word) (free : Nat → Bool) : List Due :=
  (List.range 64).filterMap (fun i =>
    let core := die * 512 + 64 * n + i
    if v.getLsbD i && !old.getLsbD i then (if free core then some (.powerGate core) else none)
    else if !v.getLsbD i && old.getLsbD i then some (.coreWake core)
    else none)

/-- Queues events. -/
def State.laterAll (s : State) (es : List Due) : State := es.foldl (fun t e => t.later e) s

/-- A write to a register of a die's control space (R5, R375). -/
def State.dieRegisterWrite (s : State) (die off : Nat) (v : Word) : State :=
  let d := s.die die
  match off - 0x8000000000 with
  | 0x00 =>
    if (s.pkg (pkgOfDie die)).dutyMode 4 then s
    else s.setDie die { d with period := v.extractLsb' 0 8, action := v.extractLsb' 8 2 }
  | 0x08 => s.later (.poisonFix die (v.toNat % 2 ^ 56))
  | 0x10 => s.setDie die { d with invbase := v.extractLsb' 0 56, logn := v.extractLsb' 56 4 }
  | 0x20 =>
    let go := v.getLsbD 16 && !d.tearing
    let s := s.setDie die { d with
      tdjob := v.extractLsb' 0 16, tdQueue := if go then d.tdQueue ++ [(v.toNat % 65536, 0x41)] else d.tdQueue }
    if go then s.later (.teardown die (v.toNat % 65536) 0x41) else s
  | 0x28 => s.laterAll (pgateEvents die 0 (d.pgate.extractLsb' 0 64) v (fun c => (s.core c).isFree))
  | 0x30 => s.laterAll (pgateEvents die 1 (d.pgate.extractLsb' 64 64) v (fun c => (s.core c).isFree))
  | 0x38 => s.laterAll (pgateEvents die 2 (d.pgate.extractLsb' 128 64) v (fun c => (s.core c).isFree))
  | 0x40 => s.laterAll (pgateEvents die 3 (d.pgate.extractLsb' 192 64) v (fun c => (s.core c).isFree))
  | 0x48 => if v.getLsbD 9 then s.setDie die { d with trip := false } else s
  | 0x50 =>
    let s := if v.getLsbD 0 then s.later (.dieReset die) else s
    if v.getLsbD 1 then s.later (.packageWarmReset (pkgOfDie die)) else s
  | _ => s

/-- The bits an RTE holds (R357). -/
def rteBits (v : Word) : Word := v &&& 0xFFFFFFFFFF

/-- A register of a package's fabric control space (R356, R357, R361, R363). -/
def State.fabricRegister (s : State) (pkg off : Nat) : Word :=
  let p := s.pkg pkg
  if off < 0x8000008000 then look 0 p.rteShadow ((off - 0x8000000000) / 8)
  else match off - 0x8000010000 with
    | 0x00 => word ((if p.gen then 1 else 0) + (if p.busy then 4 else 0))
    | 0x08 => word (p.routeerr.toNat + 2 ^ 32 * p.isldrop.toNat)
    | 0x10000 => word (p.pos.toNat + 2 ^ 5 * p.nm1.toNat + 2 ^ 16 * p.sheafJob.toNat)
    | 0x10008 => word (p.live.toNat + (if p.formed then 2 ^ 32 else 0))
    | _ => 0

/-- A write to a register of the fabric control space. -/
def State.fabricRegisterWrite (s : State) (pkg off : Nat) (v : Word) : State :=
  let p := s.pkg pkg
  if off < 0x8000008000 then s.setPkg pkg { p with rteShadow := put p.rteShadow ((off - 0x8000000000) / 8) (rteBits v) }
  else match off - 0x8000010000 with
    | 0x00 => if v.getLsbD 1 && !p.busy then s.later (.routeSwitch pkg) else s
    | 0x10000 =>
      let s := s.setPkg pkg { p with pos := v.extractLsb' 0 5, nm1 := v.extractLsb' 5 5, sheafJob := v.extractLsb' 16 16 }
      let s := if v.getLsbD 10 then s.later (.sheafForm pkg) else s
      if v.getLsbD 11 then s.later (.sheafLeaveRequest pkg) else s
    | _ => s

/-- A write through either control space: target 0 names the package's fabric space, target 1 the die's own (R332). -/
def State.registerWrite (s : State) (die target off : Nat) (v : Word) : State :=
  if target = 0 then (if fabricOffsetOk off then s.fabricRegisterWrite (pkgOfDie die) off v else s)
  else if target = 1 && dieOffsetOk off then s.dieRegisterWrite die off v
  else s

/-- REGISTER_WRITE (R375, R356): a write of a control register. -/
def execRegisterWrite (die target offset : Nat) (value : BitVec 64) (s : State) : Answer :=
  .next (if 0x8000000000 ≤ offset then s.registerWrite die target offset value else s)

/-! ### Inventory records (R381, R382) -/

/-- The address of a stored byte as a record names it: its physical-window address; for a pool, which that window does not
reach, its address in the mesh window, and for the pool of a kernel core, which has none there either, one past them by die
and core (log 22). -/
def byteAddress (k : Nat) : Word :=
  if k < 2 ^ 56 then word (2 ^ 56 + k)
  else
    let core := (k - 2 ^ 56) / 2 ^ 21
    if isKernel core then word (0x1800000000 + (dieOf core % 4 * 4 + (idxOf core - 256)) * 2 ^ 21 + k % 2 ^ 21)
    else word (0x1000000000 + coordX core * 2 ^ 30 + coordY core * 2 ^ 25 + k % 2 ^ 21)

/-- The stored byte that an address names so to a die: no store of a die reaches the addresses of the pools (log 22). -/
def addressByte (die addr : Nat) : Nat :=
  if addr < 0x1000000000 || 0x2000000000 ≤ addr then storeKey (addr / 2 ^ 42) (addr / 2 ^ 40 % 4) addr
  else if addr < 0x1800000000 then
    poolKey (coreAt (pkgOfDie die) (addr / 2 ^ 30 % 32) (addr / 2 ^ 25 % 32)) (addr % 2 ^ 21)
  else
    let i := addr / 2 ^ 21 % 16
    poolKey ((4 * pkgOfDie die + i / 4) * 512 + 256 + i % 4) (addr % 2 ^ 21)

end Sys2Proof.Machine
end

