-- ==== Sys2Proof/WellFormed.lean ====
section
/-! DEFINITION. Well-formed instructions: the words R38 calls legal on some core, and events whose subjects exist.
The checks a word's bit fields already force by their width are not repeated here; those that depend on the machine
(a matrix instruction on a kernel core, a GATE instruction on a compute core, a REP pairing) stand with the meanings. -/

namespace Sys2Proof

/-- A core exists: index 0 to 255 is a compute core, 256 to 259 a kernel core, in one of 4,096 packages of 4 dies (R145). -/
def coreOk (core : Nat) : Bool := core < 2 ^ 23 && core % 512 < 260

/-- A die exists (R145). -/
def dieOk (die : Nat) : Bool := die < 2 ^ 14

/-- A package exists (R355). -/
def pkgOk (pkg : Nat) : Bool := pkg < 4096

/-- The engine registers that R211, R212, R251 and R292 list, by engine number and register number below 0x80. -/
def engineRegListed (e n : Nat) : Bool :=
  match e with
  | 0 => n ≤ 4
  | 1 => n ≤ 5
  | 2 => n ≤ 6 || (0x10 ≤ n && n ≤ 0x4F)
  | 5 => n ≤ 5
  | _ => false

/-- The field checks of R33, R36, R37 and R38 that a word of this constructor can still fail. -/
def Instr.wellFormed : Instr → Bool
  | .cbEq _ n _ _ o => (n == 0 || o == 0)
  | .cbNe _ n _ _ o => (n == 0 || o == 0)
  | .cbLt _ n _ _ o => (n == 0 || o == 0)
  | .cbGe _ n _ _ o => (n == 0 || o == 0)
  | .cbLtu _ n _ _ o => (n == 0 || o == 0)
  | .cbGeu _ n _ _ o => (n == 0 || o == 0)
  | .cbBset _ n _ _ o => (n == 0 || o == 0)
  | .cbBclr _ n _ _ o => (n == 0 || o == 0)
  | .cbiEq _ n _ _ => n != 0
  | .cbiNe _ n _ _ => n != 0
  | .cbiLt _ n _ _ => n != 0
  | .cbiGe _ n _ _ => n != 0
  | .cbiLtu _ n _ _ => n != 0
  | .cbiGeu _ n _ _ => n != 0
  | .cbiBset _ n _ _ => n != 0
  | .cbiBclr _ n _ _ => n != 0
  | .xfence _ p q => p != 7 && q != 7
  | .larm _ d a => !(d == 0 && a == 0)
  | .ewr _ _ e n => n.toNat < 0x80 && engineRegListed e.toNat n.toNat
  | .ewra _ _ e n => n.toNat < 0x80 && engineRegListed e.toNat n.toNat
  | .erd _ _ e n => engineRegListed e.toNat (n.toNat % 0x80)
  | .wset _ _ n => n.toNat < 8
  | .rdcr _ _ c => c.toNat ≤ 0x11
  | .wrcr _ _ c => c.toNat ≤ 0x11
  | .fixedLatencyResult core _ => coreOk core
  | .dividerResult core => coreOk core
  | .schedulerPlacement core => coreOk core
  | .slotDeparture core slot => coreOk core && slot < 16
  | .switchEnd core slot => coreOk core && slot < 16
  | .pendingWaitExpiry core slot => coreOk core && slot < 16
  | .rotation core => coreOk core
  | .slot15Handover core => coreOk core
  | .sleepDeadline core pn => coreOk core && pn ≤ 256
  | .alignTimeout core pn => coreOk core && pn ≤ 256
  | .lineDelivery die cluster => dieOk die && cluster < 20
  | .icacheFill die cluster _ => dieOk die && cluster < 20
  | .ifsyncRelease core pn => coreOk core && pn ≤ 256
  | .storeBufferDrain core _ => coreOk core
  | .bufferEntryFreed core _ => coreOk core
  | .tlbWalkCompletion die _ => dieOk die
  | .memoryRequestArrival core _ => coreOk core
  | .memoryResponse core _ => coreOk core
  | .meshAccessAnswer core _ => coreOk core
  | .syncRequestArrival core _ => coreOk core
  | .requestRetry core _ => coreOk core
  | .syncCompletion core _ => coreOk core
  | .syncWithdrawal core _ => coreOk core
  | .fenceRelease core pn => coreOk core && pn ≤ 256
  | .xfenceRelease core pn => coreOk core && pn ≤ 256
  | .poisonDelivery core pn => coreOk core && pn ≤ 256
  | .startCompletion core pn => coreOk core && pn ≤ 256
  | .wsetCompletion core => coreOk core
  | .iterClaimResponse core pn => coreOk core && pn ≤ 256
  | .barrierAck core pn => coreOk core && pn ≤ 256
  | .bwaitRelease core pn => coreOk core && pn ≤ 256
  | .probeSend core pn => coreOk core && pn ≤ 256
  | .transferEnd core _ => coreOk core
  | .messageDeparture core pn => coreOk core && pn ≤ 256
  | .handlerStart core => coreOk core
  | .handlerEnd core => coreOk core
  | .altTimeout core pn => coreOk core && pn ≤ 256
  | .holdBufferFreed core => coreOk core
  | .commitCompletion core => coreOk core
  | .vectorOperationStart core => coreOk core
  | .vectorOperationCompletion core => coreOk core
  | .copyStart core => coreOk core
  | .copyPageFault core => coreOk core
  | .copyCompletion core => coreOk core
  | .cpymArrival core _ => coreOk core
  | .lateMark core entry => coreOk core && entry < 64
  | .taskChoice core => coreOk core
  | .governorGrant core => coreOk core
  | .governorWindow die => dieOk die
  | .panelEnd core => coreOk core
  | .macCountingEnd core => coreOk core
  | .tileZeroing core => coreOk core
  | .drain core => coreOk core
  | .drainEnd core => coreOk core
  | .outputWriteEnd core => coreOk core
  | .mmergePerform core => coreOk core
  | .tokenArrival pkg _ => pkgOk pkg
  | .frameReceipt pkg _ _ => pkgOk pkg
  | .frameRepair pkg _ _ => pkgOk pkg
  | .frameApply die => dieOk die
  | .landing pkg => pkgOk pkg
  | .sheafLeave pkg => pkgOk pkg
  | .lightLoss pkg => pkgOk pkg
  | .silenceTimeout pkg => pkgOk pkg
  | .sheafForm pkg => pkgOk pkg
  | .sheafLeaveRequest pkg => pkgOk pkg
  | .joinFrameSend pkg => pkgOk pkg
  | .joinFrameReceipt pkg _ => pkgOk pkg
  | .firstTokenSend pkg => pkgOk pkg
  | .firstTokenReceipt pkg _ => pkgOk pkg
  | .formationTimeout pkg => pkgOk pkg
  | .launchUnitRequest die => dieOk die
  | .launchStart die _ => dieOk die
  | .launchCompletion die _ => dieOk die
  | .timeShareQuantum die => dieOk die
  | .tenantSwitch pkg _ _ => pkgOk pkg
  | .gsetRead core => coreOk core
  | .gsetEndpt core => coreOk core
  | .gsetEpctlClose core => coreOk core
  | .gsetEpctlMoveBegin core => coreOk core
  | .gsetEpctlMoveEnd core => coreOk core
  | .gsetHusk core => coreOk core
  | .gsetReg core => coreOk core
  | .gsetHtab core => coreOk core
  | .gsetLrec core => coreOk core
  | .gsetFtab core => coreOk core
  | .gsetJob core => coreOk core
  | .gsetGate core => coreOk core
  | .gsetDie core => coreOk core
  | .gsetPkg core => coreOk core
  | .gsetShoot core => coreOk core
  | .gsetFreply core => coreOk core
  | .shootdownInvalidate kcore core => coreOk kcore && coreOk core
  | .shootdownAck kcore core => coreOk kcore && coreOk core
  | .homeWalkCompletion die _ => dieOk die
  | .faultMessageWrite core => coreOk core
  | .faulttake pkg _ => pkgOk pkg
  | .faultreply pkg _ _ _ _ => pkgOk pkg
  | .migrate pkg _ _ _ _ => pkgOk pkg
  | .lrecwrite pkg _ die _ _ => pkgOk pkg && dieOk die
  | .routeload pkg _ _ _ => pkgOk pkg
  | .scrubset pkg _ die _ _ => pkgOk pkg && dieOk die
  | .dutyset pkg _ _ => pkgOk pkg
  | .fwsupply pkg _ _ _ _ => pkgOk pkg
  | .hostqreg pkg _ _ _ _ _ _ _ => pkgOk pkg
  | .mailboxUnsupported pkg _ _ => pkgOk pkg
  | .hostDoorbell pkg _ _ => pkgOk pkg
  | .hostHeadPass pkg _ _ => pkgOk pkg
  | .hostMemAccess pkg _ _ _ _ => pkgOk pkg
  | .backInvalidation pkg _ _ => pkgOk pkg
  | .hostWarmRestart pkg _ => pkgOk pkg
  | .ldReset pkg _ => pkgOk pkg
  | .routeSwitch pkg => pkgOk pkg
  | .drainMarker pkg port level => pkgOk pkg && port < 20 && level ≤ 6
  | .linkDown pkg port => pkgOk pkg && port < 20
  | .patrolVisit die _ _ => dieOk die
  | .poisonFix die _ => dieOk die
  | .inventoryRecordWrite die => dieOk die
  | .teardown die _ _ => dieOk die
  | .teardownMarker die => dieOk die
  | .powerGate core => coreOk core
  | .coreWake core => coreOk core
  | .coreWakeEnd core => coreOk core
  | .thermalTrip die _ => dieOk die
  | .thermalRecovery die _ => dieOk die
  | .dieReset die => dieOk die
  | .packageWarmReset pkg => pkgOk pkg
  | .packageColdReset pkg => pkgOk pkg
  | .getVersion pkg _ _ => pkgOk pkg
  | .getCapabilities pkg _ => pkgOk pkg
  | .negotiateAlgorithms pkg _ => pkgOk pkg
  | .getDigests pkg _ => pkgOk pkg
  | .getCertificate pkg _ _ => pkgOk pkg
  | .challenge pkg _ _ => pkgOk pkg
  | .getMeasurements pkg _ _ _ => pkgOk pkg
  | .vendorDefinedRequest pkg _ _ => pkgOk pkg
  | .spdmUnsupported pkg _ _ => pkgOk pkg
  | .registerWrite die _ _ _ => dieOk die
  | .hostLinkReturn pkg _ => pkgOk pkg
  | .softError core _ pn => coreOk core && pn ≤ 256
  | .thermalWarn die _ => dieOk die
  | _ => true

end Sys2Proof
end

