-- ==== Sys2Proof/Decode.lean ====
section
/-! DEFINITION. The instruction words of R32 to R38: a total decoder that rejects every word R38 makes illegal by its
bits alone, and the encoder. Bits of an instruction are numbered as R4 does; memory holds them little-endian. -/

namespace Sys2Proof

/-- Bits [lo+n-1:lo] of a word. -/
def bitsAt (x : BitVec 32) (lo n : Nat) : BitVec n := x.extractLsb' lo n

/-- A field that R33, R36 or R37 requires to be zero. -/
def zeroAt (x : BitVec 32) (lo n : Nat) : Bool := x.extractLsb' lo n == 0#n

/-- Members of major opcode 0x01 (R35), with the zero fields of R36 and R37. -/
def decodeMajor01 (x : BitVec 32) : Option Instr :=
  match (bitsAt x 0 9).toNat with
  | 0 => some (.add (bitsAt x 30 2) (bitsAt x 19 5) (bitsAt x 14 5) (bitsAt x 9 5))
  | 1 => some (.sub (bitsAt x 30 2) (bitsAt x 19 5) (bitsAt x 14 5) (bitsAt x 9 5))
  | 2 => some (.and (bitsAt x 30 2) (bitsAt x 19 5) (bitsAt x 14 5) (bitsAt x 9 5))
  | 3 => some (.or (bitsAt x 30 2) (bitsAt x 19 5) (bitsAt x 14 5) (bitsAt x 9 5))
  | 4 => some (.xor (bitsAt x 30 2) (bitsAt x 19 5) (bitsAt x 14 5) (bitsAt x 9 5))
  | 5 => some (.andn (bitsAt x 30 2) (bitsAt x 19 5) (bitsAt x 14 5) (bitsAt x 9 5))
  | 6 => some (.orn (bitsAt x 30 2) (bitsAt x 19 5) (bitsAt x 14 5) (bitsAt x 9 5))
  | 7 => some (.sll (bitsAt x 30 2) (bitsAt x 19 5) (bitsAt x 14 5) (bitsAt x 9 5))
  | 8 => some (.srl (bitsAt x 30 2) (bitsAt x 19 5) (bitsAt x 14 5) (bitsAt x 9 5))
  | 9 => some (.sra (bitsAt x 30 2) (bitsAt x 19 5) (bitsAt x 14 5) (bitsAt x 9 5))
  | 10 => some (.ror (bitsAt x 30 2) (bitsAt x 19 5) (bitsAt x 14 5) (bitsAt x 9 5))
  | 11 => some (.mul (bitsAt x 30 2) (bitsAt x 19 5) (bitsAt x 14 5) (bitsAt x 9 5))
  | 12 => some (.mulh (bitsAt x 30 2) (bitsAt x 19 5) (bitsAt x 14 5) (bitsAt x 9 5))
  | 13 => some (.mulhu (bitsAt x 30 2) (bitsAt x 19 5) (bitsAt x 14 5) (bitsAt x 9 5))
  | 14 => some (.div (bitsAt x 30 2) (bitsAt x 19 5) (bitsAt x 14 5) (bitsAt x 9 5))
  | 15 => some (.divu (bitsAt x 30 2) (bitsAt x 19 5) (bitsAt x 14 5) (bitsAt x 9 5))
  | 16 => some (.rem (bitsAt x 30 2) (bitsAt x 19 5) (bitsAt x 14 5) (bitsAt x 9 5))
  | 17 => some (.remu (bitsAt x 30 2) (bitsAt x 19 5) (bitsAt x 14 5) (bitsAt x 9 5))
  | 18 => some (.min (bitsAt x 30 2) (bitsAt x 19 5) (bitsAt x 14 5) (bitsAt x 9 5))
  | 19 => some (.max (bitsAt x 30 2) (bitsAt x 19 5) (bitsAt x 14 5) (bitsAt x 9 5))
  | 20 => some (.minu (bitsAt x 30 2) (bitsAt x 19 5) (bitsAt x 14 5) (bitsAt x 9 5))
  | 21 => some (.maxu (bitsAt x 30 2) (bitsAt x 19 5) (bitsAt x 14 5) (bitsAt x 9 5))
  | 22 => some (.slt (bitsAt x 30 2) (bitsAt x 19 5) (bitsAt x 14 5) (bitsAt x 9 5))
  | 23 => some (.sltu (bitsAt x 30 2) (bitsAt x 19 5) (bitsAt x 14 5) (bitsAt x 9 5))
  | 24 => if zeroAt x 9 5 then some (.clz (bitsAt x 30 2) (bitsAt x 19 5) (bitsAt x 14 5)) else none
  | 25 => if zeroAt x 9 5 then some (.ctz (bitsAt x 30 2) (bitsAt x 19 5) (bitsAt x 14 5)) else none
  | 26 => if zeroAt x 9 5 then some (.popc (bitsAt x 30 2) (bitsAt x 19 5) (bitsAt x 14 5)) else none
  | 27 => if zeroAt x 9 5 then some (.brev (bitsAt x 30 2) (bitsAt x 19 5) (bitsAt x 14 5)) else none
  | 28 => if zeroAt x 9 5 then some (.bswap (bitsAt x 30 2) (bitsAt x 19 5) (bitsAt x 14 5)) else none
  | 29 => if zeroAt x 9 5 then some (.sextb (bitsAt x 30 2) (bitsAt x 19 5) (bitsAt x 14 5)) else none
  | 30 => if zeroAt x 9 5 then some (.sexth (bitsAt x 30 2) (bitsAt x 19 5) (bitsAt x 14 5)) else none
  | 31 => if zeroAt x 9 5 then some (.sextw (bitsAt x 30 2) (bitsAt x 19 5) (bitsAt x 14 5)) else none
  | 32 => if zeroAt x 9 5 then some (.zextw (bitsAt x 30 2) (bitsAt x 19 5) (bitsAt x 14 5)) else none
  | _ => none

/-- Members of major opcode 0x02 (R35), with the zero fields of R36 and R37. -/
def decodeMajor02 (x : BitVec 32) : Option Instr :=
  some (.addi (bitsAt x 30 2) (bitsAt x 19 5) (bitsAt x 14 5) (bitsAt x 0 14))

/-- Members of major opcode 0x03 (R35), with the zero fields of R36 and R37. -/
def decodeMajor03 (x : BitVec 32) : Option Instr :=
  some (.andi (bitsAt x 30 2) (bitsAt x 19 5) (bitsAt x 14 5) (bitsAt x 0 14))

/-- Members of major opcode 0x04 (R35), with the zero fields of R36 and R37. -/
def decodeMajor04 (x : BitVec 32) : Option Instr :=
  some (.ori (bitsAt x 30 2) (bitsAt x 19 5) (bitsAt x 14 5) (bitsAt x 0 14))

/-- Members of major opcode 0x05 (R35), with the zero fields of R36 and R37. -/
def decodeMajor05 (x : BitVec 32) : Option Instr :=
  some (.xori (bitsAt x 30 2) (bitsAt x 19 5) (bitsAt x 14 5) (bitsAt x 0 14))

/-- Members of major opcode 0x06 (R35), with the zero fields of R36 and R37. -/
def decodeMajor06 (x : BitVec 32) : Option Instr :=
  some (.slti (bitsAt x 30 2) (bitsAt x 19 5) (bitsAt x 14 5) (bitsAt x 0 14))

/-- Members of major opcode 0x07 (R35), with the zero fields of R36 and R37. -/
def decodeMajor07 (x : BitVec 32) : Option Instr :=
  some (.sltiu (bitsAt x 30 2) (bitsAt x 19 5) (bitsAt x 14 5) (bitsAt x 0 14))

/-- Members of major opcode 0x08 (R35), with the zero fields of R36 and R37. -/
def decodeMajor08 (x : BitVec 32) : Option Instr :=
  match (bitsAt x 12 2).toNat with
  | 0 => if zeroAt x 6 6 then some (.slli (bitsAt x 30 2) (bitsAt x 19 5) (bitsAt x 14 5) (bitsAt x 0 6)) else none
  | 1 => if zeroAt x 6 6 then some (.srli (bitsAt x 30 2) (bitsAt x 19 5) (bitsAt x 14 5) (bitsAt x 0 6)) else none
  | 2 => if zeroAt x 6 6 then some (.srai (bitsAt x 30 2) (bitsAt x 19 5) (bitsAt x 14 5) (bitsAt x 0 6)) else none
  | 3 => if zeroAt x 6 6 then some (.rori (bitsAt x 30 2) (bitsAt x 19 5) (bitsAt x 14 5) (bitsAt x 0 6)) else none
  | _ => none

/-- Members of major opcode 0x09 (R35), with the zero fields of R36 and R37. -/
def decodeMajor09 (x : BitVec 32) : Option Instr :=
  some (.liu (bitsAt x 30 2) (bitsAt x 19 5) (bitsAt x 0 19))

/-- Members of major opcode 0x0A (R35), with the zero fields of R36 and R37. -/
def decodeMajor0A (x : BitVec 32) : Option Instr :=
  some (.addpc (bitsAt x 30 2) (bitsAt x 19 5) (bitsAt x 0 19))

/-- Members of major opcode 0x0B (R35), with the zero fields of R36 and R37. -/
def decodeMajor0B (x : BitVec 32) : Option Instr :=
  match (bitsAt x 0 2).toNat with
  | 0 => some (.bfxi (bitsAt x 30 2) (bitsAt x 19 5) (bitsAt x 14 5) (bitsAt x 8 6) (bitsAt x 2 6))
  | 1 => some (.bfxui (bitsAt x 30 2) (bitsAt x 19 5) (bitsAt x 14 5) (bitsAt x 8 6) (bitsAt x 2 6))
  | 2 => some (.bfii (bitsAt x 30 2) (bitsAt x 19 5) (bitsAt x 14 5) (bitsAt x 8 6) (bitsAt x 2 6))
  | _ => none

/-- Members of major opcode 0x0C (R35), with the zero fields of R36 and R37. -/
def decodeMajor0C (x : BitVec 32) : Option Instr :=
  match (bitsAt x 0 9).toNat with
  | 0 => some (.bfx (bitsAt x 30 2) (bitsAt x 19 5) (bitsAt x 14 5) (bitsAt x 9 5))
  | 1 => some (.bfxu (bitsAt x 30 2) (bitsAt x 19 5) (bitsAt x 14 5) (bitsAt x 9 5))
  | 2 => some (.bfi (bitsAt x 30 2) (bitsAt x 19 5) (bitsAt x 14 5) (bitsAt x 9 5))
  | _ => none

/-- Members of major opcode 0x0D (R35), with the zero fields of R36 and R37. -/
def decodeMajor0D (x : BitVec 32) : Option Instr :=
  match (bitsAt x 0 9).toNat with
  | 0 => some (.hpack (bitsAt x 30 2) (bitsAt x 19 5) (bitsAt x 14 5) (bitsAt x 9 5))
  | 1 => some (.hunpk (bitsAt x 30 2) (bitsAt x 19 5) (bitsAt x 14 5) (bitsAt x 9 5))
  | 2 => if zeroAt x 19 5 then some (.hlwr (bitsAt x 30 2) (bitsAt x 14 5) (bitsAt x 9 5)) else none
  | 3 => if zeroAt x 9 5 then some (.hlrd (bitsAt x 30 2) (bitsAt x 19 5) (bitsAt x 14 5)) else none
  | _ => none

/-- Members of major opcode 0x0E (R35), with the zero fields of R36 and R37. -/
def decodeMajor0E (x : BitVec 32) : Option Instr :=
  match (bitsAt x 12 2).toNat with
  | 0 => if zeroAt x 14 5 then some (.getx (bitsAt x 30 2) (bitsAt x 19 5) (bitsAt x 0 12)) else none
  | 1 => if zeroAt x 19 5 then some (.putx (bitsAt x 30 2) (bitsAt x 14 5) (bitsAt x 0 12)) else none
  | 2 => if zeroAt x 14 10 then some (.addx (bitsAt x 30 2) (bitsAt x 0 12)) else none
  | _ => none

/-- Members of major opcode 0x10 (R35), with the zero fields of R36 and R37. -/
def decodeMajor10 (x : BitVec 32) : Option Instr :=
  match (bitsAt x 21 3).toNat with
  | 0 => some (.cbEq (bitsAt x 30 2) (bitsAt x 19 2) (bitsAt x 14 5) (bitsAt x 9 5) (bitsAt x 0 9))
  | 1 => some (.cbNe (bitsAt x 30 2) (bitsAt x 19 2) (bitsAt x 14 5) (bitsAt x 9 5) (bitsAt x 0 9))
  | 2 => some (.cbLt (bitsAt x 30 2) (bitsAt x 19 2) (bitsAt x 14 5) (bitsAt x 9 5) (bitsAt x 0 9))
  | 3 => some (.cbGe (bitsAt x 30 2) (bitsAt x 19 2) (bitsAt x 14 5) (bitsAt x 9 5) (bitsAt x 0 9))
  | 4 => some (.cbLtu (bitsAt x 30 2) (bitsAt x 19 2) (bitsAt x 14 5) (bitsAt x 9 5) (bitsAt x 0 9))
  | 5 => some (.cbGeu (bitsAt x 30 2) (bitsAt x 19 2) (bitsAt x 14 5) (bitsAt x 9 5) (bitsAt x 0 9))
  | 6 => some (.cbBset (bitsAt x 30 2) (bitsAt x 19 2) (bitsAt x 14 5) (bitsAt x 9 5) (bitsAt x 0 9))
  | 7 => some (.cbBclr (bitsAt x 30 2) (bitsAt x 19 2) (bitsAt x 14 5) (bitsAt x 9 5) (bitsAt x 0 9))
  | _ => none

/-- Members of major opcode 0x11 (R35), with the zero fields of R36 and R37. -/
def decodeMajor11 (x : BitVec 32) : Option Instr :=
  match (bitsAt x 21 3).toNat with
  | 0 => some (.cbiEq (bitsAt x 30 2) (bitsAt x 19 2) (bitsAt x 14 5) (bitsAt x 0 14))
  | 1 => some (.cbiNe (bitsAt x 30 2) (bitsAt x 19 2) (bitsAt x 14 5) (bitsAt x 0 14))
  | 2 => some (.cbiLt (bitsAt x 30 2) (bitsAt x 19 2) (bitsAt x 14 5) (bitsAt x 0 14))
  | 3 => some (.cbiGe (bitsAt x 30 2) (bitsAt x 19 2) (bitsAt x 14 5) (bitsAt x 0 14))
  | 4 => some (.cbiLtu (bitsAt x 30 2) (bitsAt x 19 2) (bitsAt x 14 5) (bitsAt x 0 14))
  | 5 => some (.cbiGeu (bitsAt x 30 2) (bitsAt x 19 2) (bitsAt x 14 5) (bitsAt x 0 14))
  | 6 => some (.cbiBset (bitsAt x 30 2) (bitsAt x 19 2) (bitsAt x 14 5) (bitsAt x 0 14))
  | 7 => some (.cbiBclr (bitsAt x 30 2) (bitsAt x 19 2) (bitsAt x 14 5) (bitsAt x 0 14))
  | _ => none

/-- Members of major opcode 0x12 (R35), with the zero fields of R36 and R37. -/
def decodeMajor12 (x : BitVec 32) : Option Instr :=
  some (.j (bitsAt x 30 2) (bitsAt x 0 24))

/-- Members of major opcode 0x13 (R35), with the zero fields of R36 and R37. -/
def decodeMajor13 (x : BitVec 32) : Option Instr :=
  some (.jl (bitsAt x 30 2) (bitsAt x 0 24))

/-- Members of major opcode 0x14 (R35), with the zero fields of R36 and R37. -/
def decodeMajor14 (x : BitVec 32) : Option Instr :=
  some (.jlr (bitsAt x 30 2) (bitsAt x 19 5) (bitsAt x 14 5) (bitsAt x 0 14))

/-- Members of major opcode 0x15 (R35), with the zero fields of R36 and R37. -/
def decodeMajor15 (x : BitVec 32) : Option Instr :=
  if zeroAt x 0 13 then some (.rep (bitsAt x 30 2) (bitsAt x 18 6) (bitsAt x 15 3) (bitsAt x 13 2)) else none

/-- Members of major opcode 0x16 (R35), with the zero fields of R36 and R37. -/
def decodeMajor16 (x : BitVec 32) : Option Instr :=
  match (bitsAt x 10 4).toNat with
  | 0 => if zeroAt x 0 10 && zeroAt x 14 10 then some (.nop (bitsAt x 30 2)) else none
  | 1 => if zeroAt x 8 2 && zeroAt x 14 10 then some (.align (bitsAt x 30 2) (bitsAt x 0 8)) else none
  | 2 => if zeroAt x 0 10 && zeroAt x 14 10 then some (.yield (bitsAt x 30 2)) else none
  | 3 => if zeroAt x 1 9 && zeroAt x 14 10 then some (.schk (bitsAt x 30 2) (bitsAt x 0 1)) else none
  | 4 => if zeroAt x 0 10 && zeroAt x 14 10 then some (.ifsync (bitsAt x 30 2)) else none
  | _ => none

/-- Members of major opcode 0x18 (R35), with the zero fields of R36 and R37. -/
def decodeMajor18 (x : BitVec 32) : Option Instr :=
  match (bitsAt x 11 3).toNat with
  | 0 => some (.lb (bitsAt x 30 2) (bitsAt x 19 5) (bitsAt x 14 5) (bitsAt x 0 11))
  | 1 => some (.lh (bitsAt x 30 2) (bitsAt x 19 5) (bitsAt x 14 5) (bitsAt x 0 11))
  | 2 => some (.lw (bitsAt x 30 2) (bitsAt x 19 5) (bitsAt x 14 5) (bitsAt x 0 11))
  | 3 => some (.ld (bitsAt x 30 2) (bitsAt x 19 5) (bitsAt x 14 5) (bitsAt x 0 11))
  | 4 => some (.lbu (bitsAt x 30 2) (bitsAt x 19 5) (bitsAt x 14 5) (bitsAt x 0 11))
  | 5 => some (.lhu (bitsAt x 30 2) (bitsAt x 19 5) (bitsAt x 14 5) (bitsAt x 0 11))
  | 6 => some (.lwu (bitsAt x 30 2) (bitsAt x 19 5) (bitsAt x 14 5) (bitsAt x 0 11))
  | _ => none

/-- Members of major opcode 0x19 (R35), with the zero fields of R36 and R37. -/
def decodeMajor19 (x : BitVec 32) : Option Instr :=
  match (bitsAt x 11 3).toNat with
  | 0 => some (.sb (bitsAt x 30 2) (bitsAt x 19 5) (bitsAt x 14 5) (bitsAt x 0 11))
  | 1 => some (.sh (bitsAt x 30 2) (bitsAt x 19 5) (bitsAt x 14 5) (bitsAt x 0 11))
  | 2 => some (.sw (bitsAt x 30 2) (bitsAt x 19 5) (bitsAt x 14 5) (bitsAt x 0 11))
  | 3 => some (.sd (bitsAt x 30 2) (bitsAt x 19 5) (bitsAt x 14 5) (bitsAt x 0 11))
  | _ => none

/-- Members of major opcode 0x1A (R35), with the zero fields of R36 and R37. -/
def decodeMajor1A (x : BitVec 32) : Option Instr :=
  match (bitsAt x 11 3).toNat with
  | 0 => some (.readf (bitsAt x 30 2) (bitsAt x 19 5) (bitsAt x 14 5) (bitsAt x 0 11))
  | 1 => some (.take (bitsAt x 30 2) (bitsAt x 19 5) (bitsAt x 14 5) (bitsAt x 0 11))
  | 2 => some (.peek (bitsAt x 30 2) (bitsAt x 19 5) (bitsAt x 14 5) (bitsAt x 0 11))
  | _ => none

/-- Members of major opcode 0x1B (R35), with the zero fields of R36 and R37. -/
def decodeMajor1B (x : BitVec 32) : Option Instr :=
  match (bitsAt x 11 3).toNat with
  | 0 => some (.put (bitsAt x 30 2) (bitsAt x 19 5) (bitsAt x 14 5) (bitsAt x 0 11))
  | 1 => some (.fill (bitsAt x 30 2) (bitsAt x 19 5) (bitsAt x 14 5) (bitsAt x 0 11))
  | 2 => some (.clear (bitsAt x 30 2) (bitsAt x 19 5) (bitsAt x 14 5) (bitsAt x 0 11))
  | 3 => some (.ovwr (bitsAt x 30 2) (bitsAt x 19 5) (bitsAt x 14 5) (bitsAt x 0 11))
  | _ => none

/-- Members of major opcode 0x1C (R35), with the zero fields of R36 and R37. -/
def decodeMajor1C (x : BitVec 32) : Option Instr :=
  match (bitsAt x 0 4).toNat with
  | 0 => if zeroAt x 5 4 then some (.aadd (bitsAt x 30 2) (bitsAt x 19 5) (bitsAt x 14 5) (bitsAt x 9 5) (bitsAt x 4 1)) else none
  | 1 => if zeroAt x 5 4 then some (.aand (bitsAt x 30 2) (bitsAt x 19 5) (bitsAt x 14 5) (bitsAt x 9 5) (bitsAt x 4 1)) else none
  | 2 => if zeroAt x 5 4 then some (.aor (bitsAt x 30 2) (bitsAt x 19 5) (bitsAt x 14 5) (bitsAt x 9 5) (bitsAt x 4 1)) else none
  | 3 => if zeroAt x 5 4 then some (.axor (bitsAt x 30 2) (bitsAt x 19 5) (bitsAt x 14 5) (bitsAt x 9 5) (bitsAt x 4 1)) else none
  | 4 => if zeroAt x 5 4 then some (.amin (bitsAt x 30 2) (bitsAt x 19 5) (bitsAt x 14 5) (bitsAt x 9 5) (bitsAt x 4 1)) else none
  | 5 => if zeroAt x 5 4 then some (.amax (bitsAt x 30 2) (bitsAt x 19 5) (bitsAt x 14 5) (bitsAt x 9 5) (bitsAt x 4 1)) else none
  | 6 => if zeroAt x 5 4 then some (.aminu (bitsAt x 30 2) (bitsAt x 19 5) (bitsAt x 14 5) (bitsAt x 9 5) (bitsAt x 4 1)) else none
  | 7 => if zeroAt x 5 4 then some (.amaxu (bitsAt x 30 2) (bitsAt x 19 5) (bitsAt x 14 5) (bitsAt x 9 5) (bitsAt x 4 1)) else none
  | 8 => if zeroAt x 5 4 then some (.aswap (bitsAt x 30 2) (bitsAt x 19 5) (bitsAt x 14 5) (bitsAt x 9 5) (bitsAt x 4 1)) else none
  | 9 => if zeroAt x 5 4 then some (.afadd (bitsAt x 30 2) (bitsAt x 19 5) (bitsAt x 14 5) (bitsAt x 9 5) (bitsAt x 4 1)) else none
  | 10 => if zeroAt x 5 4 then some (.afamax (bitsAt x 30 2) (bitsAt x 19 5) (bitsAt x 14 5) (bitsAt x 9 5) (bitsAt x 4 1)) else none
  | _ => none

/-- Members of major opcode 0x1D (R35), with the zero fields of R36 and R37. -/
def decodeMajor1D (x : BitVec 32) : Option Instr :=
  if zeroAt x 1 8 then some (.cas (bitsAt x 30 2) (bitsAt x 19 5) (bitsAt x 14 5) (bitsAt x 9 5) (bitsAt x 0 1)) else none

/-- Members of major opcode 0x1E (R35), with the zero fields of R36 and R37. -/
def decodeMajor1E (x : BitVec 32) : Option Instr :=
  match (bitsAt x 0 9).toNat with
  | 0 => if zeroAt x 9 15 then some (.fenceC (bitsAt x 30 2)) else none
  | 1 => if zeroAt x 9 15 then some (.fenceD (bitsAt x 30 2)) else none
  | 2 => if zeroAt x 9 15 then some (.fenceG (bitsAt x 30 2)) else none
  | 3 => if zeroAt x 12 2 && zeroAt x 17 7 then some (.xfence (bitsAt x 30 2) (bitsAt x 14 3) (bitsAt x 9 3)) else none
  | _ => none

/-- Members of major opcode 0x1F (R35), with the zero fields of R36 and R37. -/
def decodeMajor1F (x : BitVec 32) : Option Instr :=
  match (bitsAt x 0 9).toNat with
  | 0 => some (.faddS (bitsAt x 30 2) (bitsAt x 19 5) (bitsAt x 14 5) (bitsAt x 9 5))
  | 1 => some (.fsubS (bitsAt x 30 2) (bitsAt x 19 5) (bitsAt x 14 5) (bitsAt x 9 5))
  | 2 => some (.fmulS (bitsAt x 30 2) (bitsAt x 19 5) (bitsAt x 14 5) (bitsAt x 9 5))
  | 3 => some (.fdivS (bitsAt x 30 2) (bitsAt x 19 5) (bitsAt x 14 5) (bitsAt x 9 5))
  | 4 => if zeroAt x 9 5 then some (.fsqrtS (bitsAt x 30 2) (bitsAt x 19 5) (bitsAt x 14 5)) else none
  | 5 => some (.fminS (bitsAt x 30 2) (bitsAt x 19 5) (bitsAt x 14 5) (bitsAt x 9 5))
  | 6 => some (.fmaxS (bitsAt x 30 2) (bitsAt x 19 5) (bitsAt x 14 5) (bitsAt x 9 5))
  | 7 => some (.faddD (bitsAt x 30 2) (bitsAt x 19 5) (bitsAt x 14 5) (bitsAt x 9 5))
  | 8 => some (.fsubD (bitsAt x 30 2) (bitsAt x 19 5) (bitsAt x 14 5) (bitsAt x 9 5))
  | 9 => some (.fmulD (bitsAt x 30 2) (bitsAt x 19 5) (bitsAt x 14 5) (bitsAt x 9 5))
  | 10 => some (.fdivD (bitsAt x 30 2) (bitsAt x 19 5) (bitsAt x 14 5) (bitsAt x 9 5))
  | 11 => if zeroAt x 9 5 then some (.fsqrtD (bitsAt x 30 2) (bitsAt x 19 5) (bitsAt x 14 5)) else none
  | 12 => some (.fminD (bitsAt x 30 2) (bitsAt x 19 5) (bitsAt x 14 5) (bitsAt x 9 5))
  | 13 => some (.fmaxD (bitsAt x 30 2) (bitsAt x 19 5) (bitsAt x 14 5) (bitsAt x 9 5))
  | 14 => some (.feqS (bitsAt x 30 2) (bitsAt x 19 5) (bitsAt x 14 5) (bitsAt x 9 5))
  | 15 => some (.fltS (bitsAt x 30 2) (bitsAt x 19 5) (bitsAt x 14 5) (bitsAt x 9 5))
  | 16 => some (.fleS (bitsAt x 30 2) (bitsAt x 19 5) (bitsAt x 14 5) (bitsAt x 9 5))
  | 17 => some (.feqD (bitsAt x 30 2) (bitsAt x 19 5) (bitsAt x 14 5) (bitsAt x 9 5))
  | 18 => some (.fltD (bitsAt x 30 2) (bitsAt x 19 5) (bitsAt x 14 5) (bitsAt x 9 5))
  | 19 => some (.fleD (bitsAt x 30 2) (bitsAt x 19 5) (bitsAt x 14 5) (bitsAt x 9 5))
  | 20 => if zeroAt x 9 5 then some (.fclass (bitsAt x 30 2) (bitsAt x 19 5) (bitsAt x 14 5)) else none
  | _ => none

/-- Members of major opcode 0x20 (R35), with the zero fields of R36 and R37. -/
def decodeMajor20 (x : BitVec 32) : Option Instr :=
  match (bitsAt x 0 9).toNat with
  | 0 => some (.fmaddS (bitsAt x 30 2) (bitsAt x 19 5) (bitsAt x 14 5) (bitsAt x 9 5))
  | 1 => some (.fmsubS (bitsAt x 30 2) (bitsAt x 19 5) (bitsAt x 14 5) (bitsAt x 9 5))
  | 2 => some (.fnmaddS (bitsAt x 30 2) (bitsAt x 19 5) (bitsAt x 14 5) (bitsAt x 9 5))
  | 3 => some (.fmaddD (bitsAt x 30 2) (bitsAt x 19 5) (bitsAt x 14 5) (bitsAt x 9 5))
  | 4 => some (.fmsubD (bitsAt x 30 2) (bitsAt x 19 5) (bitsAt x 14 5) (bitsAt x 9 5))
  | 5 => some (.fnmaddD (bitsAt x 30 2) (bitsAt x 19 5) (bitsAt x 14 5) (bitsAt x 9 5))
  | _ => none

/-- Members of major opcode 0x21 (R35), with the zero fields of R36 and R37. -/
def decodeMajor21 (x : BitVec 32) : Option Instr :=
  match (bitsAt x 0 9).toNat with
  | 0 => if zeroAt x 9 5 then some (.fcvtSD (bitsAt x 30 2) (bitsAt x 19 5) (bitsAt x 14 5)) else none
  | 1 => if zeroAt x 9 5 then some (.fcvtDS (bitsAt x 30 2) (bitsAt x 19 5) (bitsAt x 14 5)) else none
  | 2 => if zeroAt x 9 5 then some (.fcvtSL (bitsAt x 30 2) (bitsAt x 19 5) (bitsAt x 14 5)) else none
  | 3 => if zeroAt x 9 5 then some (.fcvtLS (bitsAt x 30 2) (bitsAt x 19 5) (bitsAt x 14 5)) else none
  | 4 => if zeroAt x 9 5 then some (.fcvtDL (bitsAt x 30 2) (bitsAt x 19 5) (bitsAt x 14 5)) else none
  | 5 => if zeroAt x 9 5 then some (.fcvtLD (bitsAt x 30 2) (bitsAt x 19 5) (bitsAt x 14 5)) else none
  | 6 => if zeroAt x 9 5 then some (.fcvtBS (bitsAt x 30 2) (bitsAt x 19 5) (bitsAt x 14 5)) else none
  | 7 => if zeroAt x 9 5 then some (.fcvtSB (bitsAt x 30 2) (bitsAt x 19 5) (bitsAt x 14 5)) else none
  | _ => none

/-- Members of major opcode 0x24 (R35), with the zero fields of R36 and R37. -/
def decodeMajor24 (x : BitVec 32) : Option Instr :=
  match (bitsAt x 0 9).toNat with
  | 0 => some (.start (bitsAt x 30 2) (bitsAt x 19 5) (bitsAt x 14 5) (bitsAt x 9 5))
  | 1 => if zeroAt x 9 15 then some (.stop (bitsAt x 30 2)) else none
  | 2 => if zeroAt x 9 5 && zeroAt x 19 5 then some (.pri (bitsAt x 30 2) (bitsAt x 14 5)) else none
  | 3 => if zeroAt x 9 5 && zeroAt x 19 5 then some (.sleepc (bitsAt x 30 2) (bitsAt x 14 5)) else none
  | 4 => if zeroAt x 9 15 then some (.done (bitsAt x 30 2)) else none
  | 5 => if zeroAt x 9 10 then some (.who (bitsAt x 30 2) (bitsAt x 19 5)) else none
  | 6 => if zeroAt x 9 5 && zeroAt x 19 5 then some (.bwait (bitsAt x 30 2) (bitsAt x 14 5)) else none
  | _ => none

/-- Members of major opcode 0x25 (R35), with the zero fields of R36 and R37. -/
def decodeMajor25 (x : BitVec 32) : Option Instr :=
  match (bitsAt x 0 9).toNat with
  | 0 => if zeroAt x 19 5 then some (.send (bitsAt x 30 2) (bitsAt x 14 5) (bitsAt x 9 5)) else none
  | 1 => if zeroAt x 9 5 then some (.recv (bitsAt x 30 2) (bitsAt x 19 5) (bitsAt x 14 5)) else none
  | 2 => if zeroAt x 19 5 then some (.sendb (bitsAt x 30 2) (bitsAt x 14 5) (bitsAt x 9 5)) else none
  | 3 => if zeroAt x 19 5 then some (.sendh (bitsAt x 30 2) (bitsAt x 14 5) (bitsAt x 9 5)) else none
  | 4 => if zeroAt x 19 5 then some (.tsend (bitsAt x 30 2) (bitsAt x 14 5) (bitsAt x 9 5)) else none
  | 5 => if zeroAt x 19 5 then some (.trecv (bitsAt x 30 2) (bitsAt x 14 5) (bitsAt x 9 5)) else none
  | _ => none

/-- Members of major opcode 0x26 (R35), with the zero fields of R36 and R37. -/
def decodeMajor26 (x : BitVec 32) : Option Instr :=
  match (bitsAt x 0 9).toNat with
  | 0 => if zeroAt x 9 15 then some (.altb (bitsAt x 30 2)) else none
  | 1 => if zeroAt x 19 5 then some (.altg (bitsAt x 30 2) (bitsAt x 14 5) (bitsAt x 9 5)) else none
  | 2 => if zeroAt x 19 5 then some (.altt (bitsAt x 30 2) (bitsAt x 14 5) (bitsAt x 9 5)) else none
  | 3 => if zeroAt x 9 10 then some (.altw (bitsAt x 30 2) (bitsAt x 19 5)) else none
  | _ => none

/-- Members of major opcode 0x27 (R35), with the zero fields of R36 and R37. -/
def decodeMajor27 (x : BitVec 32) : Option Instr :=
  match (bitsAt x 0 9).toNat with
  | 0 => if zeroAt x 9 15 then some (.specb (bitsAt x 30 2)) else none
  | 1 => if zeroAt x 9 15 then some (.commit (bitsAt x 30 2)) else none
  | 2 => if zeroAt x 9 15 then some (.abort (bitsAt x 30 2)) else none
  | _ => none

/-- Members of major opcode 0x28 (R35), with the zero fields of R36 and R37. -/
def decodeMajor28 (x : BitVec 32) : Option Instr :=
  match (bitsAt x 0 9).toNat with
  | 0 => if zeroAt x 19 5 then some (.lpatch (bitsAt x 30 2) (bitsAt x 14 5) (bitsAt x 9 5)) else none
  | 1 => if zeroAt x 9 5 then (if zeroAt x 14 10 then some (.larmReturn (bitsAt x 30 2)) else some (.larm (bitsAt x 30 2) (bitsAt x 19 5) (bitsAt x 14 5))) else none
  | _ => none

/-- Members of major opcode 0x29 (R35), with the zero fields of R36 and R37. -/
def decodeMajor29 (x : BitVec 32) : Option Instr :=
  match (bitsAt x 0 9).toNat with
  | 0 => if zeroAt x 9 5 then some (.fwait (bitsAt x 30 2) (bitsAt x 19 5) (bitsAt x 14 5)) else none
  | 1 => if zeroAt x 9 5 then some (.ftest (bitsAt x 30 2) (bitsAt x 19 5) (bitsAt x 14 5)) else none
  | 2 => if zeroAt x 9 5 && zeroAt x 19 5 then some (.fcancel (bitsAt x 30 2) (bitsAt x 14 5)) else none
  | 3 => if zeroAt x 9 5 then some (.fpass (bitsAt x 30 2) (bitsAt x 19 5) (bitsAt x 14 5)) else none
  | 4 => if zeroAt x 9 5 then some (.fprom (bitsAt x 30 2) (bitsAt x 19 5) (bitsAt x 14 5)) else none
  | _ => none

/-- Members of major opcode 0x2A (R35), with the zero fields of R36 and R37. -/
def decodeMajor2A (x : BitVec 32) : Option Instr :=
  match (bitsAt x 0 9).toNat with
  | 0 => if zeroAt x 9 5 && zeroAt x 19 5 then some (.nestset (bitsAt x 30 2) (bitsAt x 14 5)) else none
  | 1 => if zeroAt x 9 10 then some (.iter (bitsAt x 30 2) (bitsAt x 19 5)) else none
  | _ => none

/-- Members of major opcode 0x2B (R35), with the zero fields of R36 and R37. -/
def decodeMajor2B (x : BitVec 32) : Option Instr :=
  match (bitsAt x 0 9).toNat with
  | 0 => some (.shpub (bitsAt x 30 2) (bitsAt x 19 5) (bitsAt x 14 5) (bitsAt x 9 5))
  | 1 => some (.shst (bitsAt x 30 2) (bitsAt x 19 5) (bitsAt x 14 5) (bitsAt x 9 5))
  | 2 => some (.shcas (bitsAt x 30 2) (bitsAt x 19 5) (bitsAt x 14 5) (bitsAt x 9 5))
  | 3 => if zeroAt x 9 5 && zeroAt x 19 5 then some (.shacq (bitsAt x 30 2) (bitsAt x 14 5)) else none
  | _ => none

/-- Members of major opcode 0x2C (R35), with the zero fields of R36 and R37. -/
def decodeMajor2C (x : BitVec 32) : Option Instr :=
  match (bitsAt x 12 2).toNat with
  | 0 => if zeroAt x 19 5 then some (.ewr (bitsAt x 30 2) (bitsAt x 14 5) (bitsAt x 8 4) (bitsAt x 0 8)) else none
  | 1 => if zeroAt x 19 5 then some (.ewra (bitsAt x 30 2) (bitsAt x 14 5) (bitsAt x 8 4) (bitsAt x 0 8)) else none
  | 2 => if zeroAt x 14 5 then some (.erd (bitsAt x 30 2) (bitsAt x 19 5) (bitsAt x 8 4) (bitsAt x 0 8)) else none
  | _ => none

/-- Members of major opcode 0x30 (R35), with the zero fields of R36 and R37. -/
def decodeMajor30 (x : BitVec 32) : Option Instr :=
  match (bitsAt x 0 5).toNat with
  | 0 => if zeroAt x 5 4 then some (.vadd (bitsAt x 30 2) (bitsAt x 19 5) (bitsAt x 14 5) (bitsAt x 9 5)) else none
  | 1 => if zeroAt x 5 4 then some (.vsub (bitsAt x 30 2) (bitsAt x 19 5) (bitsAt x 14 5) (bitsAt x 9 5)) else none
  | 2 => if zeroAt x 5 4 then some (.vmul (bitsAt x 30 2) (bitsAt x 19 5) (bitsAt x 14 5) (bitsAt x 9 5)) else none
  | 3 => if zeroAt x 5 4 then some (.vfma (bitsAt x 30 2) (bitsAt x 19 5) (bitsAt x 14 5) (bitsAt x 9 5)) else none
  | 4 => if zeroAt x 5 4 then some (.vmax (bitsAt x 30 2) (bitsAt x 19 5) (bitsAt x 14 5) (bitsAt x 9 5)) else none
  | 5 => if zeroAt x 5 4 then some (.vmin (bitsAt x 30 2) (bitsAt x 19 5) (bitsAt x 14 5) (bitsAt x 9 5)) else none
  | 6 => if zeroAt x 5 4 then some (.vabs (bitsAt x 30 2) (bitsAt x 19 5) (bitsAt x 14 5) (bitsAt x 9 5)) else none
  | 7 => if zeroAt x 5 4 then some (.vneg (bitsAt x 30 2) (bitsAt x 19 5) (bitsAt x 14 5) (bitsAt x 9 5)) else none
  | 8 => if zeroAt x 5 4 then some (.vexp (bitsAt x 30 2) (bitsAt x 19 5) (bitsAt x 14 5) (bitsAt x 9 5)) else none
  | 9 => if zeroAt x 5 4 then some (.vlog (bitsAt x 30 2) (bitsAt x 19 5) (bitsAt x 14 5) (bitsAt x 9 5)) else none
  | 10 => if zeroAt x 5 4 then some (.vrcp (bitsAt x 30 2) (bitsAt x 19 5) (bitsAt x 14 5) (bitsAt x 9 5)) else none
  | 11 => if zeroAt x 5 4 then some (.vrsq (bitsAt x 30 2) (bitsAt x 19 5) (bitsAt x 14 5) (bitsAt x 9 5)) else none
  | 12 => if zeroAt x 5 4 then some (.vcvt (bitsAt x 30 2) (bitsAt x 19 5) (bitsAt x 14 5) (bitsAt x 9 5)) else none
  | 13 => if zeroAt x 5 4 then some (.vrsum (bitsAt x 30 2) (bitsAt x 19 5) (bitsAt x 14 5) (bitsAt x 9 5)) else none
  | 14 => if zeroAt x 5 4 then some (.vrmax (bitsAt x 30 2) (bitsAt x 19 5) (bitsAt x 14 5) (bitsAt x 9 5)) else none
  | 15 => if zeroAt x 5 4 then some (.vamax (bitsAt x 30 2) (bitsAt x 19 5) (bitsAt x 14 5) (bitsAt x 9 5)) else none
  | 16 => if zeroAt x 5 4 then some (.vscale (bitsAt x 30 2) (bitsAt x 19 5) (bitsAt x 14 5) (bitsAt x 9 5)) else none
  | 17 => if zeroAt x 5 4 then some (.vsel (bitsAt x 30 2) (bitsAt x 19 5) (bitsAt x 14 5) (bitsAt x 9 5)) else none
  | 18 => if zeroAt x 5 4 then some (.vcmp (bitsAt x 30 2) (bitsAt x 19 5) (bitsAt x 14 5) (bitsAt x 9 5)) else none
  | 19 => if zeroAt x 5 4 then some (.vtrans (bitsAt x 30 2) (bitsAt x 19 5) (bitsAt x 14 5) (bitsAt x 9 5)) else none
  | 20 => if zeroAt x 5 4 then some (.vgath (bitsAt x 30 2) (bitsAt x 19 5) (bitsAt x 14 5) (bitsAt x 9 5)) else none
  | 21 => if zeroAt x 5 4 then some (.vscat (bitsAt x 30 2) (bitsAt x 19 5) (bitsAt x 14 5) (bitsAt x 9 5)) else none
  | 22 => if zeroAt x 5 4 then some (.vbcast (bitsAt x 30 2) (bitsAt x 19 5) (bitsAt x 14 5) (bitsAt x 9 5)) else none
  | _ => none

/-- Members of major opcode 0x32 (R35), with the zero fields of R36 and R37. -/
def decodeMajor32 (x : BitVec 32) : Option Instr :=
  match (bitsAt x 0 5).toNat with
  | 0 => if bitsAt x 5 4 == 1#4 then some (.cpy (bitsAt x 30 2) (bitsAt x 19 5) (bitsAt x 14 5) (bitsAt x 9 5)) else none
  | 1 => if bitsAt x 5 4 == 1#4 then some (.cpym (bitsAt x 30 2) (bitsAt x 19 5) (bitsAt x 14 5) (bitsAt x 9 5)) else none
  | _ => none

/-- Members of major opcode 0x33 (R35), with the zero fields of R36 and R37. -/
def decodeMajor33 (x : BitVec 32) : Option Instr :=
  match (bitsAt x 0 5).toNat with
  | 0 => if bitsAt x 5 9 == 2#9 then some (.mclaim (bitsAt x 30 2) (bitsAt x 19 5) (bitsAt x 14 5)) else none
  | 1 => if bitsAt x 5 9 == 2#9 && zeroAt x 19 5 then some (.mrel (bitsAt x 30 2) (bitsAt x 14 5)) else none
  | 2 => if bitsAt x 5 9 == 2#9 then some (.mtask (bitsAt x 30 2) (bitsAt x 19 5) (bitsAt x 14 5)) else none
  | 3 => if bitsAt x 5 4 == 2#4 then some (.mmerge (bitsAt x 30 2) (bitsAt x 19 5) (bitsAt x 14 5) (bitsAt x 9 5)) else none
  | _ => none

/-- Members of major opcode 0x34 (R35), with the zero fields of R36 and R37. -/
def decodeMajor34 (x : BitVec 32) : Option Instr :=
  if zeroAt x 0 9 && zeroAt x 19 5 then some (.wset (bitsAt x 30 2) (bitsAt x 14 5) (bitsAt x 9 5)) else none

/-- Members of major opcode 0x38 (R35), with the zero fields of R36 and R37. -/
def decodeMajor38 (x : BitVec 32) : Option Instr :=
  match (bitsAt x 13 1).toNat with
  | 0 => if zeroAt x 8 5 && zeroAt x 14 5 then some (.rdcr (bitsAt x 30 2) (bitsAt x 19 5) (bitsAt x 0 8)) else none
  | 1 => if zeroAt x 8 5 && zeroAt x 19 5 then some (.wrcr (bitsAt x 30 2) (bitsAt x 14 5) (bitsAt x 0 8)) else none
  | _ => none

/-- Members of major opcode 0x39 (R35), with the zero fields of R36 and R37. -/
def decodeMajor39 (x : BitVec 32) : Option Instr :=
  if zeroAt x 14 10 then some (.trap (bitsAt x 30 2) (bitsAt x 0 14)) else none

/-- Members of major opcode 0x3A (R35), with the zero fields of R36 and R37. -/
def decodeMajor3A (x : BitVec 32) : Option Instr :=
  match (bitsAt x 0 9).toNat with
  | 0 => if zeroAt x 19 5 then some (.gset (bitsAt x 30 2) (bitsAt x 14 5) (bitsAt x 9 5)) else none
  | 1 => if zeroAt x 9 5 && zeroAt x 19 5 then some (.gresume (bitsAt x 30 2) (bitsAt x 14 5)) else none
  | 2 => if zeroAt x 9 5 && zeroAt x 19 5 then some (.gkill (bitsAt x 30 2) (bitsAt x 14 5)) else none
  | _ => none

/-- The instruction that a word's major opcode and fields name, before the value checks of R38. -/
def decodeFields (x : BitVec 32) : Option Instr :=
  match (bitsAt x 24 6).toNat with
  | 0x01 => decodeMajor01 x
  | 0x02 => decodeMajor02 x
  | 0x03 => decodeMajor03 x
  | 0x04 => decodeMajor04 x
  | 0x05 => decodeMajor05 x
  | 0x06 => decodeMajor06 x
  | 0x07 => decodeMajor07 x
  | 0x08 => decodeMajor08 x
  | 0x09 => decodeMajor09 x
  | 0x0A => decodeMajor0A x
  | 0x0B => decodeMajor0B x
  | 0x0C => decodeMajor0C x
  | 0x0D => decodeMajor0D x
  | 0x0E => decodeMajor0E x
  | 0x10 => decodeMajor10 x
  | 0x11 => decodeMajor11 x
  | 0x12 => decodeMajor12 x
  | 0x13 => decodeMajor13 x
  | 0x14 => decodeMajor14 x
  | 0x15 => decodeMajor15 x
  | 0x16 => decodeMajor16 x
  | 0x18 => decodeMajor18 x
  | 0x19 => decodeMajor19 x
  | 0x1A => decodeMajor1A x
  | 0x1B => decodeMajor1B x
  | 0x1C => decodeMajor1C x
  | 0x1D => decodeMajor1D x
  | 0x1E => decodeMajor1E x
  | 0x1F => decodeMajor1F x
  | 0x20 => decodeMajor20 x
  | 0x21 => decodeMajor21 x
  | 0x24 => decodeMajor24 x
  | 0x25 => decodeMajor25 x
  | 0x26 => decodeMajor26 x
  | 0x27 => decodeMajor27 x
  | 0x28 => decodeMajor28 x
  | 0x29 => decodeMajor29 x
  | 0x2A => decodeMajor2A x
  | 0x2B => decodeMajor2B x
  | 0x2C => decodeMajor2C x
  | 0x30 => decodeMajor30 x
  | 0x32 => decodeMajor32 x
  | 0x33 => decodeMajor33 x
  | 0x34 => decodeMajor34 x
  | 0x38 => decodeMajor38 x
  | 0x39 => decodeMajor39 x
  | 0x3A => decodeMajor3A x
  | _ => none

/-- The decoder: a word is an instruction exactly when R38 does not make it illegal by its bits alone. -/
def decode (x : BitVec 32) : Option Instr :=
  match decodeFields x with
  | some i => if i.wellFormed then some i else none
  | none => none

/-- The word at the head of a byte list, little-endian (R4, R32). -/
def wordOfBytes : List (BitVec 8) → Option (BitVec 32 × List (BitVec 8))
  | b0 :: b1 :: b2 :: b3 :: rest => some (b3 ++ b2 ++ b1 ++ b0, rest)
  | _ => none

/-- The instruction at the head of a byte list, with the bytes after it. -/
def decodeBytes (bs : List (BitVec 8)) : Option (Instr × List (BitVec 8)) :=
  match wordOfBytes bs with
  | some (x, rest) => (decode x).map (fun i => (i, rest))
  | none => none

/-- The four bytes of a word as memory holds them (R4). -/
def bytesOfWord (x : BitVec 32) : List (BitVec 8) :=
  [bitsAt x 0 8, bitsAt x 8 8, bitsAt x 16 8, bitsAt x 24 8]

/-- The instruction the decoder reads from a word numbered as spec/opcode_table.json numbers it: every instruction of
the JLM is one 32-bit word (R32), so nbits is 32 and bits above it are zero. -/
def decodeTableWord (nbits w : Nat) : Option Instr :=
  match decodeBytes (bytesOfWord (BitVec.ofNat 32 (w % 2 ^ min nbits 32))) with
  | some (i, _) => some i
  | none => none

/-- A word made of its stall count, major opcode and low 24 bits (R32). -/
def mkWord (w : BitVec 2) (major : BitVec 6) (low : BitVec 24) : BitVec 32 := w ++ major ++ low

/-- The word of an instruction, from the encoding tables R33 to R37; an event has none. -/
def encode : Instr → Option (BitVec 32)
  | .add w d a b => some (mkWord w 0x01#6 (d ++ a ++ b ++ 0#9))
  | .sub w d a b => some (mkWord w 0x01#6 (d ++ a ++ b ++ 1#9))
  | .and w d a b => some (mkWord w 0x01#6 (d ++ a ++ b ++ 2#9))
  | .or w d a b => some (mkWord w 0x01#6 (d ++ a ++ b ++ 3#9))
  | .xor w d a b => some (mkWord w 0x01#6 (d ++ a ++ b ++ 4#9))
  | .andn w d a b => some (mkWord w 0x01#6 (d ++ a ++ b ++ 5#9))
  | .orn w d a b => some (mkWord w 0x01#6 (d ++ a ++ b ++ 6#9))
  | .sll w d a b => some (mkWord w 0x01#6 (d ++ a ++ b ++ 7#9))
  | .srl w d a b => some (mkWord w 0x01#6 (d ++ a ++ b ++ 8#9))
  | .sra w d a b => some (mkWord w 0x01#6 (d ++ a ++ b ++ 9#9))
  | .ror w d a b => some (mkWord w 0x01#6 (d ++ a ++ b ++ 10#9))
  | .mul w d a b => some (mkWord w 0x01#6 (d ++ a ++ b ++ 11#9))
  | .mulh w d a b => some (mkWord w 0x01#6 (d ++ a ++ b ++ 12#9))
  | .mulhu w d a b => some (mkWord w 0x01#6 (d ++ a ++ b ++ 13#9))
  | .div w d a b => some (mkWord w 0x01#6 (d ++ a ++ b ++ 14#9))
  | .divu w d a b => some (mkWord w 0x01#6 (d ++ a ++ b ++ 15#9))
  | .rem w d a b => some (mkWord w 0x01#6 (d ++ a ++ b ++ 16#9))
  | .remu w d a b => some (mkWord w 0x01#6 (d ++ a ++ b ++ 17#9))
  | .min w d a b => some (mkWord w 0x01#6 (d ++ a ++ b ++ 18#9))
  | .max w d a b => some (mkWord w 0x01#6 (d ++ a ++ b ++ 19#9))
  | .minu w d a b => some (mkWord w 0x01#6 (d ++ a ++ b ++ 20#9))
  | .maxu w d a b => some (mkWord w 0x01#6 (d ++ a ++ b ++ 21#9))
  | .slt w d a b => some (mkWord w 0x01#6 (d ++ a ++ b ++ 22#9))
  | .sltu w d a b => some (mkWord w 0x01#6 (d ++ a ++ b ++ 23#9))
  | .clz w d a => some (mkWord w 0x01#6 (d ++ a ++ 24#14))
  | .ctz w d a => some (mkWord w 0x01#6 (d ++ a ++ 25#14))
  | .popc w d a => some (mkWord w 0x01#6 (d ++ a ++ 26#14))
  | .brev w d a => some (mkWord w 0x01#6 (d ++ a ++ 27#14))
  | .bswap w d a => some (mkWord w 0x01#6 (d ++ a ++ 28#14))
  | .sextb w d a => some (mkWord w 0x01#6 (d ++ a ++ 29#14))
  | .sexth w d a => some (mkWord w 0x01#6 (d ++ a ++ 30#14))
  | .sextw w d a => some (mkWord w 0x01#6 (d ++ a ++ 31#14))
  | .zextw w d a => some (mkWord w 0x01#6 (d ++ a ++ 32#14))
  | .addi w d a i => some (mkWord w 0x02#6 (d ++ a ++ i))
  | .andi w d a i => some (mkWord w 0x03#6 (d ++ a ++ i))
  | .ori w d a i => some (mkWord w 0x04#6 (d ++ a ++ i))
  | .xori w d a i => some (mkWord w 0x05#6 (d ++ a ++ i))
  | .slti w d a i => some (mkWord w 0x06#6 (d ++ a ++ i))
  | .sltiu w d a i => some (mkWord w 0x07#6 (d ++ a ++ i))
  | .slli w d a s => some (mkWord w 0x08#6 (d ++ a ++ 0#8 ++ s))
  | .srli w d a s => some (mkWord w 0x08#6 (d ++ a ++ 64#8 ++ s))
  | .srai w d a s => some (mkWord w 0x08#6 (d ++ a ++ 128#8 ++ s))
  | .rori w d a s => some (mkWord w 0x08#6 (d ++ a ++ 192#8 ++ s))
  | .liu w d i => some (mkWord w 0x09#6 (d ++ i))
  | .addpc w d i => some (mkWord w 0x0A#6 (d ++ i))
  | .bfxi w d a p l => some (mkWord w 0x0B#6 (d ++ a ++ p ++ l ++ 0#2))
  | .bfxui w d a p l => some (mkWord w 0x0B#6 (d ++ a ++ p ++ l ++ 1#2))
  | .bfii w d a p l => some (mkWord w 0x0B#6 (d ++ a ++ p ++ l ++ 2#2))
  | .bfx w d a b => some (mkWord w 0x0C#6 (d ++ a ++ b ++ 0#9))
  | .bfxu w d a b => some (mkWord w 0x0C#6 (d ++ a ++ b ++ 1#9))
  | .bfi w d a b => some (mkWord w 0x0C#6 (d ++ a ++ b ++ 2#9))
  | .hpack w d a b => some (mkWord w 0x0D#6 (d ++ a ++ b ++ 0#9))
  | .hunpk w d a b => some (mkWord w 0x0D#6 (d ++ a ++ b ++ 1#9))
  | .hlwr w a b => some (mkWord w 0x0D#6 (0#5 ++ a ++ b ++ 2#9))
  | .hlrd w d a => some (mkWord w 0x0D#6 (d ++ a ++ 3#14))
  | .getx w d k => some (mkWord w 0x0E#6 (d ++ 0#7 ++ k))
  | .putx w a k => some (mkWord w 0x0E#6 (0#5 ++ a ++ 1#2 ++ k))
  | .addx w k => some (mkWord w 0x0E#6 (2#12 ++ k))
  | .cbEq w n a b o => some (mkWord w 0x10#6 (0#3 ++ n ++ a ++ b ++ o))
  | .cbNe w n a b o => some (mkWord w 0x10#6 (1#3 ++ n ++ a ++ b ++ o))
  | .cbLt w n a b o => some (mkWord w 0x10#6 (2#3 ++ n ++ a ++ b ++ o))
  | .cbGe w n a b o => some (mkWord w 0x10#6 (3#3 ++ n ++ a ++ b ++ o))
  | .cbLtu w n a b o => some (mkWord w 0x10#6 (4#3 ++ n ++ a ++ b ++ o))
  | .cbGeu w n a b o => some (mkWord w 0x10#6 (5#3 ++ n ++ a ++ b ++ o))
  | .cbBset w n a b o => some (mkWord w 0x10#6 (6#3 ++ n ++ a ++ b ++ o))
  | .cbBclr w n a b o => some (mkWord w 0x10#6 (7#3 ++ n ++ a ++ b ++ o))
  | .cbiEq w n a i => some (mkWord w 0x11#6 (0#3 ++ n ++ a ++ i))
  | .cbiNe w n a i => some (mkWord w 0x11#6 (1#3 ++ n ++ a ++ i))
  | .cbiLt w n a i => some (mkWord w 0x11#6 (2#3 ++ n ++ a ++ i))
  | .cbiGe w n a i => some (mkWord w 0x11#6 (3#3 ++ n ++ a ++ i))
  | .cbiLtu w n a i => some (mkWord w 0x11#6 (4#3 ++ n ++ a ++ i))
  | .cbiGeu w n a i => some (mkWord w 0x11#6 (5#3 ++ n ++ a ++ i))
  | .cbiBset w n a i => some (mkWord w 0x11#6 (6#3 ++ n ++ a ++ i))
  | .cbiBclr w n a i => some (mkWord w 0x11#6 (7#3 ++ n ++ a ++ i))
  | .j w o => some (mkWord w 0x12#6 (o))
  | .jl w o => some (mkWord w 0x13#6 (o))
  | .jlr w d a i => some (mkWord w 0x14#6 (d ++ a ++ i))
  | .rep w c m t => some (mkWord w 0x15#6 (c ++ m ++ t ++ 0#13))
  | .nop w => some (mkWord w 0x16#6 (0#24))
  | .align w k => some (mkWord w 0x16#6 (4#16 ++ k))
  | .yield w => some (mkWord w 0x16#6 (2048#24))
  | .schk w v => some (mkWord w 0x16#6 (1536#23 ++ v))
  | .ifsync w => some (mkWord w 0x16#6 (4096#24))
  | .lb w d a o => some (mkWord w 0x18#6 (d ++ a ++ 0#3 ++ o))
  | .lh w d a o => some (mkWord w 0x18#6 (d ++ a ++ 1#3 ++ o))
  | .lw w d a o => some (mkWord w 0x18#6 (d ++ a ++ 2#3 ++ o))
  | .ld w d a o => some (mkWord w 0x18#6 (d ++ a ++ 3#3 ++ o))
  | .lbu w d a o => some (mkWord w 0x18#6 (d ++ a ++ 4#3 ++ o))
  | .lhu w d a o => some (mkWord w 0x18#6 (d ++ a ++ 5#3 ++ o))
  | .lwu w d a o => some (mkWord w 0x18#6 (d ++ a ++ 6#3 ++ o))
  | .sb w s a o => some (mkWord w 0x19#6 (s ++ a ++ 0#3 ++ o))
  | .sh w s a o => some (mkWord w 0x19#6 (s ++ a ++ 1#3 ++ o))
  | .sw w s a o => some (mkWord w 0x19#6 (s ++ a ++ 2#3 ++ o))
  | .sd w s a o => some (mkWord w 0x19#6 (s ++ a ++ 3#3 ++ o))
  | .readf w d a o => some (mkWord w 0x1A#6 (d ++ a ++ 0#3 ++ o))
  | .take w d a o => some (mkWord w 0x1A#6 (d ++ a ++ 1#3 ++ o))
  | .peek w d a o => some (mkWord w 0x1A#6 (d ++ a ++ 2#3 ++ o))
  | .put w s a o => some (mkWord w 0x1B#6 (s ++ a ++ 0#3 ++ o))
  | .fill w s a o => some (mkWord w 0x1B#6 (s ++ a ++ 1#3 ++ o))
  | .clear w s a o => some (mkWord w 0x1B#6 (s ++ a ++ 2#3 ++ o))
  | .ovwr w s a o => some (mkWord w 0x1B#6 (s ++ a ++ 3#3 ++ o))
  | .aadd w d a b z => some (mkWord w 0x1C#6 (d ++ a ++ b ++ 0#4 ++ z ++ 0#4))
  | .aand w d a b z => some (mkWord w 0x1C#6 (d ++ a ++ b ++ 0#4 ++ z ++ 1#4))
  | .aor w d a b z => some (mkWord w 0x1C#6 (d ++ a ++ b ++ 0#4 ++ z ++ 2#4))
  | .axor w d a b z => some (mkWord w 0x1C#6 (d ++ a ++ b ++ 0#4 ++ z ++ 3#4))
  | .amin w d a b z => some (mkWord w 0x1C#6 (d ++ a ++ b ++ 0#4 ++ z ++ 4#4))
  | .amax w d a b z => some (mkWord w 0x1C#6 (d ++ a ++ b ++ 0#4 ++ z ++ 5#4))
  | .aminu w d a b z => some (mkWord w 0x1C#6 (d ++ a ++ b ++ 0#4 ++ z ++ 6#4))
  | .amaxu w d a b z => some (mkWord w 0x1C#6 (d ++ a ++ b ++ 0#4 ++ z ++ 7#4))
  | .aswap w d a b z => some (mkWord w 0x1C#6 (d ++ a ++ b ++ 0#4 ++ z ++ 8#4))
  | .afadd w d a b z => some (mkWord w 0x1C#6 (d ++ a ++ b ++ 0#4 ++ z ++ 9#4))
  | .afamax w d a b z => some (mkWord w 0x1C#6 (d ++ a ++ b ++ 0#4 ++ z ++ 10#4))
  | .cas w d a b z => some (mkWord w 0x1D#6 (d ++ a ++ b ++ 0#8 ++ z))
  | .fenceC w => some (mkWord w 0x1E#6 (0#24))
  | .fenceD w => some (mkWord w 0x1E#6 (1#24))
  | .fenceG w => some (mkWord w 0x1E#6 (2#24))
  | .xfence w p q => some (mkWord w 0x1E#6 (0#7 ++ p ++ 0#2 ++ q ++ 3#9))
  | .faddS w d a b => some (mkWord w 0x1F#6 (d ++ a ++ b ++ 0#9))
  | .fsubS w d a b => some (mkWord w 0x1F#6 (d ++ a ++ b ++ 1#9))
  | .fmulS w d a b => some (mkWord w 0x1F#6 (d ++ a ++ b ++ 2#9))
  | .fdivS w d a b => some (mkWord w 0x1F#6 (d ++ a ++ b ++ 3#9))
  | .fsqrtS w d a => some (mkWord w 0x1F#6 (d ++ a ++ 4#14))
  | .fminS w d a b => some (mkWord w 0x1F#6 (d ++ a ++ b ++ 5#9))
  | .fmaxS w d a b => some (mkWord w 0x1F#6 (d ++ a ++ b ++ 6#9))
  | .faddD w d a b => some (mkWord w 0x1F#6 (d ++ a ++ b ++ 7#9))
  | .fsubD w d a b => some (mkWord w 0x1F#6 (d ++ a ++ b ++ 8#9))
  | .fmulD w d a b => some (mkWord w 0x1F#6 (d ++ a ++ b ++ 9#9))
  | .fdivD w d a b => some (mkWord w 0x1F#6 (d ++ a ++ b ++ 10#9))
  | .fsqrtD w d a => some (mkWord w 0x1F#6 (d ++ a ++ 11#14))
  | .fminD w d a b => some (mkWord w 0x1F#6 (d ++ a ++ b ++ 12#9))
  | .fmaxD w d a b => some (mkWord w 0x1F#6 (d ++ a ++ b ++ 13#9))
  | .feqS w d a b => some (mkWord w 0x1F#6 (d ++ a ++ b ++ 14#9))
  | .fltS w d a b => some (mkWord w 0x1F#6 (d ++ a ++ b ++ 15#9))
  | .fleS w d a b => some (mkWord w 0x1F#6 (d ++ a ++ b ++ 16#9))
  | .feqD w d a b => some (mkWord w 0x1F#6 (d ++ a ++ b ++ 17#9))
  | .fltD w d a b => some (mkWord w 0x1F#6 (d ++ a ++ b ++ 18#9))
  | .fleD w d a b => some (mkWord w 0x1F#6 (d ++ a ++ b ++ 19#9))
  | .fclass w d a => some (mkWord w 0x1F#6 (d ++ a ++ 20#14))
  | .fmaddS w d a b => some (mkWord w 0x20#6 (d ++ a ++ b ++ 0#9))
  | .fmsubS w d a b => some (mkWord w 0x20#6 (d ++ a ++ b ++ 1#9))
  | .fnmaddS w d a b => some (mkWord w 0x20#6 (d ++ a ++ b ++ 2#9))
  | .fmaddD w d a b => some (mkWord w 0x20#6 (d ++ a ++ b ++ 3#9))
  | .fmsubD w d a b => some (mkWord w 0x20#6 (d ++ a ++ b ++ 4#9))
  | .fnmaddD w d a b => some (mkWord w 0x20#6 (d ++ a ++ b ++ 5#9))
  | .fcvtSD w d a => some (mkWord w 0x21#6 (d ++ a ++ 0#14))
  | .fcvtDS w d a => some (mkWord w 0x21#6 (d ++ a ++ 1#14))
  | .fcvtSL w d a => some (mkWord w 0x21#6 (d ++ a ++ 2#14))
  | .fcvtLS w d a => some (mkWord w 0x21#6 (d ++ a ++ 3#14))
  | .fcvtDL w d a => some (mkWord w 0x21#6 (d ++ a ++ 4#14))
  | .fcvtLD w d a => some (mkWord w 0x21#6 (d ++ a ++ 5#14))
  | .fcvtBS w d a => some (mkWord w 0x21#6 (d ++ a ++ 6#14))
  | .fcvtSB w d a => some (mkWord w 0x21#6 (d ++ a ++ 7#14))
  | .start w d a b => some (mkWord w 0x24#6 (d ++ a ++ b ++ 0#9))
  | .stop w => some (mkWord w 0x24#6 (1#24))
  | .pri w a => some (mkWord w 0x24#6 (0#5 ++ a ++ 2#14))
  | .sleepc w a => some (mkWord w 0x24#6 (0#5 ++ a ++ 3#14))
  | .done w => some (mkWord w 0x24#6 (4#24))
  | .who w d => some (mkWord w 0x24#6 (d ++ 5#19))
  | .bwait w a => some (mkWord w 0x24#6 (0#5 ++ a ++ 6#14))
  | .send w a b => some (mkWord w 0x25#6 (0#5 ++ a ++ b ++ 0#9))
  | .recv w d a => some (mkWord w 0x25#6 (d ++ a ++ 1#14))
  | .sendb w a b => some (mkWord w 0x25#6 (0#5 ++ a ++ b ++ 2#9))
  | .sendh w a b => some (mkWord w 0x25#6 (0#5 ++ a ++ b ++ 3#9))
  | .tsend w a b => some (mkWord w 0x25#6 (0#5 ++ a ++ b ++ 4#9))
  | .trecv w a b => some (mkWord w 0x25#6 (0#5 ++ a ++ b ++ 5#9))
  | .altb w => some (mkWord w 0x26#6 (0#24))
  | .altg w a b => some (mkWord w 0x26#6 (0#5 ++ a ++ b ++ 1#9))
  | .altt w a b => some (mkWord w 0x26#6 (0#5 ++ a ++ b ++ 2#9))
  | .altw w d => some (mkWord w 0x26#6 (d ++ 3#19))
  | .specb w => some (mkWord w 0x27#6 (0#24))
  | .commit w => some (mkWord w 0x27#6 (1#24))
  | .abort w => some (mkWord w 0x27#6 (2#24))
  | .lpatch w a b => some (mkWord w 0x28#6 (0#5 ++ a ++ b ++ 0#9))
  | .larm w d a => some (mkWord w 0x28#6 (d ++ a ++ 1#14))
  | .larmReturn w => some (mkWord w 0x28#6 (1#24))
  | .fwait w d a => some (mkWord w 0x29#6 (d ++ a ++ 0#14))
  | .ftest w d a => some (mkWord w 0x29#6 (d ++ a ++ 1#14))
  | .fcancel w a => some (mkWord w 0x29#6 (0#5 ++ a ++ 2#14))
  | .fpass w d a => some (mkWord w 0x29#6 (d ++ a ++ 3#14))
  | .fprom w d a => some (mkWord w 0x29#6 (d ++ a ++ 4#14))
  | .nestset w a => some (mkWord w 0x2A#6 (0#5 ++ a ++ 0#14))
  | .iter w d => some (mkWord w 0x2A#6 (d ++ 1#19))
  | .shpub w d a b => some (mkWord w 0x2B#6 (d ++ a ++ b ++ 0#9))
  | .shst w d a b => some (mkWord w 0x2B#6 (d ++ a ++ b ++ 1#9))
  | .shcas w d a b => some (mkWord w 0x2B#6 (d ++ a ++ b ++ 2#9))
  | .shacq w a => some (mkWord w 0x2B#6 (0#5 ++ a ++ 3#14))
  | .ewr w a e n => some (mkWord w 0x2C#6 (0#5 ++ a ++ 0#2 ++ e ++ n))
  | .ewra w a e n => some (mkWord w 0x2C#6 (0#5 ++ a ++ 1#2 ++ e ++ n))
  | .erd w d e n => some (mkWord w 0x2C#6 (d ++ 2#7 ++ e ++ n))
  | .vadd w d a b => some (mkWord w 0x30#6 (d ++ a ++ b ++ 0#9))
  | .vsub w d a b => some (mkWord w 0x30#6 (d ++ a ++ b ++ 1#9))
  | .vmul w d a b => some (mkWord w 0x30#6 (d ++ a ++ b ++ 2#9))
  | .vfma w d a b => some (mkWord w 0x30#6 (d ++ a ++ b ++ 3#9))
  | .vmax w d a b => some (mkWord w 0x30#6 (d ++ a ++ b ++ 4#9))
  | .vmin w d a b => some (mkWord w 0x30#6 (d ++ a ++ b ++ 5#9))
  | .vabs w d a b => some (mkWord w 0x30#6 (d ++ a ++ b ++ 6#9))
  | .vneg w d a b => some (mkWord w 0x30#6 (d ++ a ++ b ++ 7#9))
  | .vexp w d a b => some (mkWord w 0x30#6 (d ++ a ++ b ++ 8#9))
  | .vlog w d a b => some (mkWord w 0x30#6 (d ++ a ++ b ++ 9#9))
  | .vrcp w d a b => some (mkWord w 0x30#6 (d ++ a ++ b ++ 10#9))
  | .vrsq w d a b => some (mkWord w 0x30#6 (d ++ a ++ b ++ 11#9))
  | .vcvt w d a b => some (mkWord w 0x30#6 (d ++ a ++ b ++ 12#9))
  | .vrsum w d a b => some (mkWord w 0x30#6 (d ++ a ++ b ++ 13#9))
  | .vrmax w d a b => some (mkWord w 0x30#6 (d ++ a ++ b ++ 14#9))
  | .vamax w d a b => some (mkWord w 0x30#6 (d ++ a ++ b ++ 15#9))
  | .vscale w d a b => some (mkWord w 0x30#6 (d ++ a ++ b ++ 16#9))
  | .vsel w d a b => some (mkWord w 0x30#6 (d ++ a ++ b ++ 17#9))
  | .vcmp w d a b => some (mkWord w 0x30#6 (d ++ a ++ b ++ 18#9))
  | .vtrans w d a b => some (mkWord w 0x30#6 (d ++ a ++ b ++ 19#9))
  | .vgath w d a b => some (mkWord w 0x30#6 (d ++ a ++ b ++ 20#9))
  | .vscat w d a b => some (mkWord w 0x30#6 (d ++ a ++ b ++ 21#9))
  | .vbcast w d a b => some (mkWord w 0x30#6 (d ++ a ++ b ++ 22#9))
  | .cpy w d a b => some (mkWord w 0x32#6 (d ++ a ++ b ++ 32#9))
  | .cpym w d a b => some (mkWord w 0x32#6 (d ++ a ++ b ++ 33#9))
  | .mclaim w d a => some (mkWord w 0x33#6 (d ++ a ++ 64#14))
  | .mrel w a => some (mkWord w 0x33#6 (0#5 ++ a ++ 65#14))
  | .mtask w d a => some (mkWord w 0x33#6 (d ++ a ++ 66#14))
  | .mmerge w d a b => some (mkWord w 0x33#6 (d ++ a ++ b ++ 67#9))
  | .wset w a n => some (mkWord w 0x34#6 (0#5 ++ a ++ n ++ 0#9))
  | .rdcr w d c => some (mkWord w 0x38#6 (d ++ 0#11 ++ c))
  | .wrcr w a c => some (mkWord w 0x38#6 (0#5 ++ a ++ 32#6 ++ c))
  | .trap w k => some (mkWord w 0x39#6 (0#10 ++ k))
  | .gset w a b => some (mkWord w 0x3A#6 (0#5 ++ a ++ b ++ 0#9))
  | .gresume w a => some (mkWord w 0x3A#6 (0#5 ++ a ++ 1#14))
  | .gkill w a => some (mkWord w 0x3A#6 (0#5 ++ a ++ 2#14))
  | _ => none

end Sys2Proof
end

