-- ==== Sys2Proof/Machine/Fetch.lean ====
section
/-! DEFINITION. Instruction fetch: line buffers, the port and the instruction cache of a cluster (R27 to R30), inline
handler code (R194), and the words a core finds there. -/

namespace Sys2Proof.Machine

/-! ### Clusters -/

def State.cluster (s : State) (die cl : Nat) : Cluster := look {} (s.die die).clusters cl
def State.modCluster (s : State) (die cl : Nat) (f : Cluster → Cluster) : State :=
  s.modDie die (fun d => { d with clusters := put d.clusters cl (f (look {} d.clusters cl)) })

/-- The 64-byte line of a job in an instruction cache. -/
def Cluster.find (c : Cluster) (job line64 : Nat) : Option (List Byte) :=
  (c.lines.find? (fun e => e.1 == job && e.2.1 == line64)).map (fun e => e.2.2)

/-- A use of a line marks it recent within its set of 8 (R29; log 9). -/
def Cluster.touch (c : Cluster) (job line64 : Nat) : Cluster :=
  { c with recent := markRecent 8 (fun e => e.2 % 512 == line64 % 512)
                       (c.recent.filter (fun k => c.lines.any (fun e => e.1 == k.1 && e.2.1 == k.2))) (job, line64) }

/-- A line enters its set, in a free way or in that of a line not marked recent (R29; log 9). -/
def Cluster.enter (c : Cluster) (job line64 : Nat) (bytes : List Byte) : Cluster :=
  let others := c.lines.filter (fun e => !(e.1 == job && e.2.1 == line64))
  ({ c with lines := enterGroup 8 (fun e => e.2.1 % 512 == line64 % 512) (fun e => c.recent.contains (e.1, e.2.1)) others
                       (job, line64, bytes) }).touch job line64

/-! ### Line buffers (R28) -/

/-- The buffered line with a number, in any of the three buffers. -/
def Slot.buffered (x : Slot) (line : Nat) : Option Line :=
  ([x.cur, x.nextLine, x.last].filterMap id).find? (fun l => l.addr == line)

/-- Inserts a request in the order of R27: age, core, slot. -/
def askInsert (a : Nat × Nat × Nat × Nat) : List (Nat × Nat × Nat × Nat) → List (Nat × Nat × Nat × Nat)
  | [] => [a]
  | b :: bs =>
    if a.2.2.2 < b.2.2.2 || (a.2.2.2 == b.2.2.2 && (a.2.1 < b.2.1 || (a.2.1 == b.2.1 && a.2.2.1 < b.2.2.1)))
    then a :: b :: bs else b :: askInsert a bs

/-- A slot requests a line unless it holds or awaits it. -/
def State.wantLine (s : State) (core i line : Nat) : State :=
  let x := (s.core core).slot i
  if (x.buffered line).isSome || x.want.contains line then s
  else
    (s.modSlot core i (fun x => { x with want := x.want ++ [line] })).modCluster (dieOf core) (clusterOf core) (fun c =>
      { c with asks := askInsert (line, core, i, s.ticks)
                 (c.asks.filter (fun a => !(a.1 == line && a.2.1 == core && a.2.2.1 == i))) })

/-- A little-endian instruction word in a line's bytes. -/
def lineWord (l : Line) (addr : Nat) : BitVec 32 :=
  let o := addr % 16
  BitVec.ofNat 32 ((l.bytes.getD o 0).toNat + 2 ^ 8 * (l.bytes.getD (o + 1) 0).toNat
    + 2 ^ 16 * (l.bytes.getD (o + 2) 0).toNat + 2 ^ 24 * (l.bytes.getD (o + 3) 0).toNat)

/-- What a slot finds at an address. -/
inductive Fetched where
  | absent
  | word (w : BitVec 32)
  | fault (c : Cause)
  deriving DecidableEq, Repr

/-! ### Inline handlers (R187, R194) -/

/-- The pool offset of the inbox, its normal area first, then 4 KiB of staging ring (R187, R307). -/
def inboxBase (part : BitVec 23) : Nat := (partScratch part + partAcc part) * 16384
def normalUnits (part : BitVec 23) : Nat := partInb part * 256 - 64
def stagingBase (part : BitVec 23) : Nat := inboxBase part + normalUnits part * 64

/-- The addresses of the words of the inline handler at work: first address and number of words. -/
def Core.inlineCode (c : Core) : Option (Nat × Nat) :=
  match c.handler with
  | some h => if h.msg.kind = 2 then some (inboxBase c.part + h.first * 64 + 64, h.msg.nm1.toNat + 1) else none
  | none => none

/-- The inline code of the process in a slot, if that is what it runs. -/
def Core.inlineOf (c : Core) (pn : Nat) : Option (Nat × Nat) := if pn = 256 then c.inlineCode else none

/-- The word at an address as a slot finds it; inline code in a poisoned line is read as any other (R378). -/
def State.fetched (s : State) (core i addr : Nat) : Fetched :=
  let c := s.core core
  let x := c.slot i
  match c.inlineOf (x.proc.getD 0) with
  | some (base, n) =>
    if !(base ≤ addr && addr < base + 4 * n) then .absent
    else if s.mem.isPoisoned (poolKey core addr) then .fault .poison
    else .word (BitVec.ofNat 32 (s.mem.read (poolKey core addr) 4))
  | none =>
    match x.buffered (addr / 16) with
    | none => .absent
    | some l => match l.fault with
      | some f => .fault f
      | none => .word (lineWord l addr)

/-! ### Following the PC (R28) -/

/-- A line becomes the current line; the line the PC leaves moves to the last-left buffer. What the next-line buffer holds
stays there, and can be hit, until another next line replaces it (R28; DESIGN CHOICE, log 9). -/
def Slot.become (x : Slot) (l : Line) : Slot :=
  { x with
    last := if x.cur.isSome then x.cur else x.last
    cur := some l
    nextLine := match x.nextLine with
      | some n => if n.addr == l.addr then none else some n
      | none => none }

/-- Whether the word at the end of a line is a REP, whose word follows in the next line (R26). -/
def Line.endsInRep (l : Line) : Bool := (lineWord l (l.addr * 16 + 12)).extractLsb' 24 6 == 0x15

/-- A slot's buffers follow the PC of its resident: a buffered target line becomes current and the line after it is
requested; a line that is not buffered is requested. -/
def State.follow (s : State) (core i : Nat) : State :=
  let c := s.core core
  match (c.slot i).proc with
  | none => s
  | some pn =>
    if (c.inlineOf pn).isSome then s
    else
      let addr := (c.proc pn).pc.toNat
      let line := addr / 16
      let x := c.slot i
      match x.buffered line with
      | none => s.wantLine core i line
      | some l =>
        if (x.cur.map (fun k => k.addr)) == some line then
          if addr % 16 == 12 && l.fault.isNone && l.endsInRep then s.wantLine core i (line + 1) else s
        else (s.modSlot core i (fun x => x.become l)).wantLine core i (line + 1)

/-- A line reaches a slot that asked for it: the PC's own line becomes current, the line after the current one fills the
next buffer, and any other is dropped. A fault found by a sequential request is dropped, unless it is the second word of
a REP that is about to issue (R26, R29). -/
def State.deliverLine (s : State) (core i : Nat) (l : Line) : State :=
  let c := s.core core
  let x := c.slot i
  if !x.want.contains l.addr then s
  else
    let s := s.modSlot core i (fun x => { x with want := x.want.filter (· != l.addr) })
    match x.proc with
    | none => s
    | some pn =>
      let addr := (c.proc pn).pc.toNat
      if addr / 16 == l.addr then
        let s := s.modSlot core i (fun x => x.become l)
        if l.fault.isSome then s else s.wantLine core i (l.addr + 1)
      else
        let follows := (x.cur.map (fun k => k.addr + 1)) == some l.addr
        let needed := addr % 16 == 12 && (x.cur.map (fun k => k.endsInRep)) == some true
        if follows && (l.fault.isNone || needed) then s.modSlot core i (fun x => { x with nextLine := some l })
        else s

/-- The 16 bytes of a line within its 64-byte cache line. -/
def sliceLine (bytes : List Byte) (line : Nat) : List Byte := (bytes.drop (line % 4 * 16)).take 16

/-- The job whose code a core runs. -/
def State.askJob (s : State) (a : Nat × Nat × Nat × Nat) : Nat := s.jobOf a.2.1

/-- The first n distinct lines, by job, among requests. -/
def distinctLines : Nat → List (Nat × Nat) → List (Nat × Nat)
  | 0, _ => []
  | _ + 1, [] => []
  | n + 1, x :: xs => x :: distinctLines n (xs.filter (· != x))

/-- The lines the port delivers in this cycle: up to 4 distinct lines that the cache holds, oldest requests first, each
asked for at least 4 die cycles ago; none where it has delivered in this cycle. R28 gives the 4 die cycles of a hit for the
target of a branch, and the model takes them for the next line of sequential fetch too (DESIGN CHOICE, log 9). -/
def State.portLines (s : State) (die cl : Nat) : List (Nat × Nat) :=
  let c := s.cluster die cl
  if !c.invalidating.isEmpty || c.portAt == some s.ticks then []
  else distinctLines 4 (((c.asks.filter (fun a => a.2.2.2 + 4 ≤ s.ticks
    && (c.find (s.askJob a) (a.1 / 4)).isSome))).map (fun a => (s.askJob a, a.1)))

/-- Delivers one line to every slot that asks for it. -/
def State.deliverAll (s : State) (die cl : Nat) (l : Nat × Nat) : State :=
  match (s.cluster die cl).find l.1 (l.2 / 4) with
  | none => s
  | some b =>
    let hit (a : Nat × Nat × Nat × Nat) : Bool := s.askJob a == l.1 && a.1 == l.2
    let mine := (s.cluster die cl).asks.filter hit
    let s := s.modCluster die cl (fun c => { (c.touch l.1 (l.2 / 4)) with asks := c.asks.filter (fun a => !hit a) })
    mine.foldl (fun t a => t.deliverLine a.2.1 a.2.2.1 { addr := l.2, bytes := sliceLine b l.2 }) s

/-- LINE_DELIVERY (R27): the fetch port delivers its lines of this cycle. -/
def execLineDelivery (die cluster : Nat) (s : State) : Answer :=
  .next (match s.portLines die cluster with
    | [] => s
    | ls => (ls.foldl (fun t l => t.deliverAll die cluster l) s).modCluster die cluster (fun c =>
        { c with portAt := some s.ticks }))

/-- Requests that miss start one fill each line (R29). -/
def State.startFills (s : State) (die cl : Nat) : State :=
  let c := s.cluster die cl
  let missing := c.asks.filter (fun a => (c.find (s.askJob a) (a.1 / 4)).isNone)
  missing.foldl (fun t a =>
    let key := (s.askJob a, a.1 / 4)
    t.modCluster die cl (fun c =>
      if c.fills.any (fun f => f.1 == key.1 && f.2.1 == key.2) then c
      else { c with fills := c.fills ++ [(key.1, key.2, a.2.1)] })) s

/-- What a fill through the requesting core's TLB finds: the bytes, or the fault of R29; none while its packet to a home in
another package is on its way (R358). -/
def State.fillFrom (s : State) (core job line64 : Nat) : State × Option (List Byte ⊕ Cause) :=
  let va := line64 * 64
  if va < 2 ^ 48 then (s, some (.inr .prot))
  else
    let (s, found) : State × (TlbEntry ⊕ Cause) := match (s.core core).tlbFind job va with
      | some e => (s.modCore core (fun c => c.tlbTouch e), .inl e)
      | none => match s.walk (dieOf core) job va with
        | .fault c => (s, .inr c)
        | .leaf p large => (s.modCore core (fun c => c.tlbEnter job va p large),
            if p.getLsbD 0 then .inl { job := job, large := large, vpn := 0, leaf := tlbLeaf p large }
            else .inr (absentCause p))
    match found with
    | .inr c => (s, some (.inr c))
    | .inl e =>
      match leafCause e.leaf e.large fetchNeeds with
      | some c => (s, some (.inr c))
      | none =>
        if pteOwn e.leaf == 3 then (s, some (.inl (List.replicate 64 0)))
        else match s.crosses core (pteHome e.leaf) job line64 (2 * va + 1) 7 (word va) (.fill core line64) with
          | (s, .away) => (s, none)
          | (s, .sunk) => (s, some (.inr .poison))
          | (s, .there) =>
            let (s, key) := s.homeKey (pteHome e.leaf) (pteTarget e.leaf) job va
            match key with
            | none => (s.mismatch (pteHome e.leaf) job va, some (.inr .poison))
            | some k => (s, some (if s.mem.isPoisoned k then .inr .poison else .inl (s.mem.bytes k 64)))

/-- ICACHE_FILL (R28, R29): an outstanding fill brings its line into the cluster's cache, or its fault to the slots that
wait for the line. -/
def execIcacheFill (die cluster idx : Nat) (s : State) : Answer :=
  .next (
    let s := s.startFills die cluster
    let c := s.cluster die cluster
    if !c.invalidating.isEmpty then s
    else match takeAt c.fills idx with
    | none => s
    | some ((job, line64, core), rest) =>
      let (s, found) := s.fillFrom core job line64
      let s := if found.isSome then s.modCluster die cluster (fun c => { c with fills := rest }) else s
      match found with
      | none => s
      | some (.inl b) => s.modCluster die cluster (fun c => c.enter job line64 b)
      | some (.inr f) =>
        let hit (a : Nat × Nat × Nat × Nat) : Bool := s.askJob a == job && a.1 / 4 == line64
        let mine := (s.cluster die cluster).asks.filter hit
        let s := s.modCluster die cluster (fun c => { c with asks := c.asks.filter (fun a => !hit a) })
        mine.foldl (fun t a => t.deliverLine a.2.1 a.2.2.1 { addr := a.1, bytes := [], fault := some f }) s)

/-- The word at an address for the count of a skip (R21): the slot's buffers, the cluster's cache, else memory as a walk
finds it now (log 10). -/
def State.wordAt (s : State) (core i addr : Nat) : Option (BitVec 32) :=
  match s.fetched core i addr with
  | .word w => some w
  | .fault _ => none
  | .absent =>
    let job := s.jobOf core
    match (s.cluster (dieOf core) (clusterOf core)).find job (addr / 64) with
    | some b => some (lineWord { addr := addr / 16, bytes := sliceLine b (addr / 16) } addr)
    | none =>
      match s.walk (dieOf core) job addr with
      | .fault _ => none
      | .leaf p large =>
        if p.getLsbD 0 then
          some (BitVec.ofNat 32 (s.mem.read
            (storeKey (pteHome p) (pteTarget p) (pteFrame p * 65536 + addr % pageSize large)) 4))
        else none

/-- The address after n instructions from addr, a REP with its word counting as one (R21). -/
def State.skipFrom (s : State) (core i : Nat) : Nat → Nat → Nat
  | 0, addr => addr
  | n + 1, addr =>
    let rep := match s.wordAt core i addr with
      | some w => w.extractLsb' 24 6 == 0x15
      | none => false
    s.skipFrom core i n (addr + if rep then 8 else 4)

end Sys2Proof.Machine
end

