-- ==== Sys2Proof/Machine/Integer.lean ====
section
/-! DEFINITION. Integer, immediate, shift, bit-field and relative-access instructions (R80 to R87, R92, R93), the
divider (R82), and the arrival of fixed-latency results (R14, R19). -/

namespace Sys2Proof.Machine

/-! ### What the ALU computes (R80, R81) -/

/-- The shift amount s = b[5:0]. -/
def shamt (b : Word) : Nat := b.toNat % 64

def sll (a b : Word) : Word := a <<< shamt b
def srl (a b : Word) : Word := a >>> shamt b
def sra (a b : Word) : Word := a.sshiftRight (shamt b)
def ror (a b : Word) : Word := a.rotateRight (shamt b)

/-- Bits [127:64] of the signed and of the unsigned product. -/
def mulh (a b : Word) : Word := wordOfInt ((a.toInt * b.toInt) / 2 ^ 64)
def mulhu (a b : Word) : Word := word (a.toNat * b.toNat / 2 ^ 64)

/-- Quotients and remainders with the edges of R81: a divisor of 0 gives all ones and the dividend; the one overflowing
signed division gives the dividend and 0. -/
def divSigned (a b : Word) : Word := if b = 0 then 0xFFFFFFFFFFFFFFFF else wordOfInt (a.toInt.tdiv b.toInt)
def remSigned (a b : Word) : Word := if b = 0 then a else wordOfInt (a.toInt.tmod b.toInt)
def divUnsigned (a b : Word) : Word := if b = 0 then 0xFFFFFFFFFFFFFFFF else word (a.toNat / b.toNat)
def remUnsigned (a b : Word) : Word := if b = 0 then a else word (a.toNat % b.toNat)

def minS (a b : Word) : Word := if a.toInt ≤ b.toInt then a else b
def maxS (a b : Word) : Word := if a.toInt ≤ b.toInt then b else a
def minU (a b : Word) : Word := if a.toNat ≤ b.toNat then a else b
def maxU (a b : Word) : Word := if a.toNat ≤ b.toNat then b else a
def sltS (a b : Word) : Word := if a.toInt < b.toInt then 1 else 0
def sltU (a b : Word) : Word := if a.toNat < b.toNat then 1 else 0

/-- The number of leading false values of a list. -/
def falseRun : List Bool → Nat
  | [] => 0
  | true :: _ => 0
  | false :: bs => falseRun bs + 1

/-- The bits of a word, least significant first. -/
def bitsOf (a : Word) : List Bool := (List.range 64).map (fun i => a.getLsbD i)

/-- A word from its bits, least significant first. -/
def ofBits : List Bool → Nat
  | [] => 0
  | b :: bs => (if b then 1 else 0) + 2 * ofBits bs

def clz (a : Word) : Word := word (falseRun (bitsOf a).reverse)
def ctz (a : Word) : Word := word (falseRun (bitsOf a))
def popc (a : Word) : Word := word ((bitsOf a).filter id).length
def brev (a : Word) : Word := word (ofBits (bitsOf a).reverse)

/-- Byte i moved to byte 7 - i. -/
def bswap (a : Word) : Word :=
  a.extractLsb' 0 8 ++ a.extractLsb' 8 8 ++ a.extractLsb' 16 8 ++ a.extractLsb' 24 8 ++ a.extractLsb' 32 8
    ++ a.extractLsb' 40 8 ++ a.extractLsb' 48 8 ++ a.extractLsb' 56 8

/-- sext and zext of R40 for the widths the ALU names. -/
def sextN (n : Nat) (a : Word) : Word := (a.setWidth n).signExtend 64
def zextN (n : Nat) (a : Word) : Word := (a.setWidth n).setWidth 64

/-! ### Arrival of results (R14, R19) -/

/-- A result arrives: its registers are written unless a younger result has arrived (R14, whose loser was struck from
this entry), tags set by the core itself are cleared, XI is written, and flags are ORed into FCTL (R17). -/
def Core.arriveFlight (c : Core) (f : Flight) (rest : List Flight) : Core :=
  let p := f.writes.foldl (fun q e => q.arrive e.1 e.2) (c.proc f.pn)
  let p := match f.xi with | some x => { p with xi := x } | none => p
  let younger := rest.map (fun g =>
    if g.pn == f.pn && g.seq < f.seq then
      { g with writes := g.writes.filter (fun e => !(f.writes.any (fun x => x.1 == e.1))) }
    else g)
  { (c.setProc f.pn (p.orFctl f.flags)) with flight := younger }

/-- FIXED_LATENCY_RESULT (R14): the idx-th result in flight becomes architectural at issue + L. -/
def execFixedLatencyResult (core idx : Nat) (s : State) : Answer :=
  .next (match takeAt (s.core core).flight idx with
    | some (f, rest) =>
      if f.due ≤ s.ticks then (s.modCore core (fun c => c.arriveFlight f rest)).tagWake core f.pn else s
    | none => s)

/-! ### The divider (R82) -/

/-- A division or square root enters the core's divider; its destination is pending until the divider writes it. -/
def State.divide (s : State) (d : Nat) (v : Word) (flags : BitVec 5) (cycles : Nat) : State :=
  ((s.pendDest d).modCore s.ctx.core (fun c => { c with
    divider := c.divider ++ [{ pn := s.ctx.pn, dest := d, value := v, flags := flags, cycles := cycles,
                               startBy := s.ticks }] })).advance

/-- DIVIDER_RESULT (R82): the divider writes a finished result, with its flags, and serves the next operation. -/
def execDividerResult (core : Nat) (s : State) : Answer :=
  .next (match (s.core core).divider with
    | o :: rest =>
      let s := s.modCore core (fun c => { c with divider := rest.map (fun x => { x with startBy := max x.startBy s.ticks }) })
      (s.modLive core o.pn (fun p => (p.arrive o.dest o.value).orFctl o.flags)).tagWake core o.pn
    | [] => s)

/-- An integer division (R81, R82). -/
def State.intDivide (s : State) (w : BitVec 2) (d a b : BitVec 5) (f : Word → Word → Word) : Answer :=
  s.issue w { reads := [s.ra a, s.rb b], writes := [s.rd d], var := true } (fun t =>
    t.divide (s.rd d) (f (s.g (s.ra a)) (s.g (s.rb b))) 0 34)

/-! ### The instructions -/

/-- ADD (R80). -/
def execAdd (w : BitVec 2) (d a b : BitVec 5) (s : State) : Answer :=
  s.alu2 w d a b 1 (fun x y => x + y)

/-- SUB (R80). -/
def execSub (w : BitVec 2) (d a b : BitVec 5) (s : State) : Answer :=
  s.alu2 w d a b 1 (fun x y => x - y)

/-- AND (R80). -/
def execAnd (w : BitVec 2) (d a b : BitVec 5) (s : State) : Answer :=
  s.alu2 w d a b 1 (fun x y => x &&& y)

/-- OR (R80). -/
def execOr (w : BitVec 2) (d a b : BitVec 5) (s : State) : Answer :=
  s.alu2 w d a b 1 (fun x y => x ||| y)

/-- XOR (R80). -/
def execXor (w : BitVec 2) (d a b : BitVec 5) (s : State) : Answer :=
  s.alu2 w d a b 1 (fun x y => x ^^^ y)

/-- ANDN (R80). -/
def execAndn (w : BitVec 2) (d a b : BitVec 5) (s : State) : Answer :=
  s.alu2 w d a b 1 (fun x y => x &&& ~~~y)

/-- ORN (R80). -/
def execOrn (w : BitVec 2) (d a b : BitVec 5) (s : State) : Answer :=
  s.alu2 w d a b 1 (fun x y => x ||| ~~~y)

/-- SLL (R80). -/
def execSll (w : BitVec 2) (d a b : BitVec 5) (s : State) : Answer :=
  s.alu2 w d a b 1 sll

/-- SRL (R80). -/
def execSrl (w : BitVec 2) (d a b : BitVec 5) (s : State) : Answer :=
  s.alu2 w d a b 1 srl

/-- SRA (R80). -/
def execSra (w : BitVec 2) (d a b : BitVec 5) (s : State) : Answer :=
  s.alu2 w d a b 1 sra

/-- ROR (R80). -/
def execRor (w : BitVec 2) (d a b : BitVec 5) (s : State) : Answer :=
  s.alu2 w d a b 1 ror

/-- MUL (R80). -/
def execMul (w : BitVec 2) (d a b : BitVec 5) (s : State) : Answer :=
  s.alu2 w d a b 4 (fun x y => x * y)

/-- MULH (R80). -/
def execMulh (w : BitVec 2) (d a b : BitVec 5) (s : State) : Answer :=
  s.alu2 w d a b 4 mulh

/-- MULHU (R80). -/
def execMulhu (w : BitVec 2) (d a b : BitVec 5) (s : State) : Answer :=
  s.alu2 w d a b 4 mulhu

/-- DIV (R80, R81). -/
def execDiv (w : BitVec 2) (d a b : BitVec 5) (s : State) : Answer :=
  s.intDivide w d a b divSigned

/-- DIVU (R80, R81). -/
def execDivu (w : BitVec 2) (d a b : BitVec 5) (s : State) : Answer :=
  s.intDivide w d a b divUnsigned

/-- REM (R80, R81). -/
def execRem (w : BitVec 2) (d a b : BitVec 5) (s : State) : Answer :=
  s.intDivide w d a b remSigned

/-- REMU (R80, R81). -/
def execRemu (w : BitVec 2) (d a b : BitVec 5) (s : State) : Answer :=
  s.intDivide w d a b remUnsigned

/-- MIN (R80). -/
def execMin (w : BitVec 2) (d a b : BitVec 5) (s : State) : Answer :=
  s.alu2 w d a b 1 minS

/-- MAX (R80). -/
def execMax (w : BitVec 2) (d a b : BitVec 5) (s : State) : Answer :=
  s.alu2 w d a b 1 maxS

/-- MINU (R80). -/
def execMinu (w : BitVec 2) (d a b : BitVec 5) (s : State) : Answer :=
  s.alu2 w d a b 1 minU

/-- MAXU (R80). -/
def execMaxu (w : BitVec 2) (d a b : BitVec 5) (s : State) : Answer :=
  s.alu2 w d a b 1 maxU

/-- SLT (R80). -/
def execSlt (w : BitVec 2) (d a b : BitVec 5) (s : State) : Answer :=
  s.alu2 w d a b 1 sltS

/-- SLTU (R80). -/
def execSltu (w : BitVec 2) (d a b : BitVec 5) (s : State) : Answer :=
  s.alu2 w d a b 1 sltU

/-- CLZ (R80). -/
def execClz (w : BitVec 2) (d a : BitVec 5) (s : State) : Answer :=
  s.alu1 w d a 1 clz

/-- CTZ (R80). -/
def execCtz (w : BitVec 2) (d a : BitVec 5) (s : State) : Answer :=
  s.alu1 w d a 1 ctz

/-- POPC (R80). -/
def execPopc (w : BitVec 2) (d a : BitVec 5) (s : State) : Answer :=
  s.alu1 w d a 1 popc

/-- BREV (R80). -/
def execBrev (w : BitVec 2) (d a : BitVec 5) (s : State) : Answer :=
  s.alu1 w d a 1 brev

/-- BSWAP (R80). -/
def execBswap (w : BitVec 2) (d a : BitVec 5) (s : State) : Answer :=
  s.alu1 w d a 1 bswap

/-- SEXTB (R80). -/
def execSextb (w : BitVec 2) (d a : BitVec 5) (s : State) : Answer :=
  s.alu1 w d a 1 (sextN 8)

/-- SEXTH (R80). -/
def execSexth (w : BitVec 2) (d a : BitVec 5) (s : State) : Answer :=
  s.alu1 w d a 1 (sextN 16)

/-- SEXTW (R80). -/
def execSextw (w : BitVec 2) (d a : BitVec 5) (s : State) : Answer :=
  s.alu1 w d a 1 (sextN 32)

/-- ZEXTW (R80). -/
def execZextw (w : BitVec 2) (d a : BitVec 5) (s : State) : Answer :=
  s.alu1 w d a 1 (zextN 32)

/-- ADDI (R83): the immediate is sign-extended. -/
def execAddi (w : BitVec 2) (d a : BitVec 5) (i : BitVec 14) (st : State) : Answer :=
  st.alu1 w d a 1 (fun x => x + imm i)

/-- ANDI (R83): the immediate is sign-extended. -/
def execAndi (w : BitVec 2) (d a : BitVec 5) (i : BitVec 14) (st : State) : Answer :=
  st.alu1 w d a 1 (fun x => x &&& imm i)

/-- ORI (R83): the immediate is sign-extended. -/
def execOri (w : BitVec 2) (d a : BitVec 5) (i : BitVec 14) (st : State) : Answer :=
  st.alu1 w d a 1 (fun x => x ||| imm i)

/-- XORI (R83): the immediate is sign-extended. -/
def execXori (w : BitVec 2) (d a : BitVec 5) (i : BitVec 14) (st : State) : Answer :=
  st.alu1 w d a 1 (fun x => x ^^^ imm i)

/-- SLTI (R83): the immediate is sign-extended. -/
def execSlti (w : BitVec 2) (d a : BitVec 5) (i : BitVec 14) (st : State) : Answer :=
  st.alu1 w d a 1 (fun x => sltS x (imm i))

/-- SLTIU (R83): the immediate is sign-extended. -/
def execSltiu (w : BitVec 2) (d a : BitVec 5) (i : BitVec 14) (st : State) : Answer :=
  st.alu1 w d a 1 (fun x => sltU x (imm i))

/-- SLLI (R84). -/
def execSlli (w : BitVec 2) (d a : BitVec 5) (n : BitVec 6) (s : State) : Answer :=
  s.alu1 w d a 1 (fun x => x <<< n.toNat)

/-- SRLI (R84). -/
def execSrli (w : BitVec 2) (d a : BitVec 5) (n : BitVec 6) (s : State) : Answer :=
  s.alu1 w d a 1 (fun x => x >>> n.toNat)

/-- SRAI (R84). -/
def execSrai (w : BitVec 2) (d a : BitVec 5) (n : BitVec 6) (s : State) : Answer :=
  s.alu1 w d a 1 (fun x => x.sshiftRight n.toNat)

/-- RORI (R84). -/
def execRori (w : BitVec 2) (d a : BitVec 5) (n : BitVec 6) (s : State) : Answer :=
  s.alu1 w d a 1 (fun x => x.rotateRight n.toNat)

/-- LIU (R85): sext(imm19) << 14. -/
def execLiu (w : BitVec 2) (d : BitVec 5) (i : BitVec 19) (s : State) : Answer := s.alu0 w d 1 (imm i <<< 14)

/-- ADDPC (R85): pc + (sext(imm19) << 2), pc being the address of the word itself (R34). -/
def execAddpc (w : BitVec 2) (d : BitVec 5) (i : BitVec 19) (s : State) : Answer :=
  s.alu0 w d 1 ((if s.ctx.rep.isSome then s.ctx.pc + 4 else s.ctx.pc) + (imm i <<< 2))

/-! ### Bit fields (R86, R87) -/

/-- The width after R87's clipping. -/
def clipWidth (pos width : Nat) : Nat := if 64 ≤ pos then 0 else min width (64 - pos)

/-- The field of R87 as a number below 2^width. -/
def fieldAt (a : Word) (pos width : Nat) : Nat := a.toNat / 2 ^ pos % 2 ^ clipWidth pos width

def bfxs (a : Word) (pos width : Nat) : Word :=
  if clipWidth pos width = 0 then 0 else sextN (clipWidth pos width) (word (fieldAt a pos width))
def bfxz (a : Word) (pos width : Nat) : Word := word (fieldAt a pos width)

/-- The insert of R87: width 0 leaves the old value. -/
def bfins (old a : Word) (pos width : Nat) : Word :=
  let n := clipWidth pos width
  if n = 0 then old
  else
    let m := word (2 ^ n - 1) <<< pos
    (old &&& ~~~m) ||| ((a <<< pos) &&& m)

/-- Position and width of the register form: g[B][7:0] and g[B][14:8], a width from 65 to 127 taken as 64 (R86). -/
def posOf (b : Word) : Nat := b.toNat % 256
def widthOf (b : Word) : Nat := min (b.toNat / 256 % 128) 64

/-- BFXI (R86, R87). -/
def execBfxi (w : BitVec 2) (d a : BitVec 5) (p l : BitVec 6) (s : State) : Answer :=
  s.alu1 w d a 1 (fun x => bfxs x p.toNat (l.toNat + 1))

/-- BFXUI (R86, R87). -/
def execBfxui (w : BitVec 2) (d a : BitVec 5) (p l : BitVec 6) (s : State) : Answer :=
  s.alu1 w d a 1 (fun x => bfxz x p.toNat (l.toNat + 1))

/-- BFII (R86, R87): reads g[D] as well as writing it. -/
def execBfii (w : BitVec 2) (d a : BitVec 5) (p l : BitVec 6) (s : State) : Answer :=
  s.issue w { reads := [s.ra a, s.rd d], writes := [s.rd d] } (fun t =>
    t.result 1 (s.rd d) (bfins (s.g (s.rd d)) (s.g (s.ra a)) p.toNat (l.toNat + 1)) 0)

/-- BFX (R86, R87). -/
def execBfx (w : BitVec 2) (d a b : BitVec 5) (s : State) : Answer :=
  s.alu2 w d a b 1 (fun x y => bfxs x (posOf y) (widthOf y))

/-- BFXU (R86, R87). -/
def execBfxu (w : BitVec 2) (d a b : BitVec 5) (s : State) : Answer :=
  s.alu2 w d a b 1 (fun x y => bfxz x (posOf y) (widthOf y))

/-- BFI (R86, R87): reads g[D] as well as writing it. -/
def execBfi (w : BitVec 2) (d a b : BitVec 5) (s : State) : Answer :=
  s.issue w { reads := [s.ra a, s.rb b, s.rd d], writes := [s.rd d] } (fun t =>
    t.result 1 (s.rd d) (bfins (s.g (s.rd d)) (s.g (s.ra a)) (posOf (s.g (s.rb b))) (widthOf (s.g (s.rb b)))) 0)

/-! ### Relative register access (R92, R93) -/

/-- XI as it stands for a GETX, PUTX or ADDX: the newest ADDX or WRCR counts as soon as it has arrived. -/
def relIndex (s : State) (k : BitVec 12) : Int := s.me.xi.toInt + k.toInt

/-- The index lies in the window. -/
def relOk (s : State) (n : Int) : Bool := 0 ≤ n && n < s.me.wsz

/-- GETX (R92, R93): waits while g[XI + k] is pending; an index outside the window raises WINDOW with the index. -/
def execGetx (w : BitVec 2) (d : BitVec 5) (k : BitVec 12) (s : State) : Answer :=
  let n := relIndex s k
  s.issue w { reads := if relOk s n then [n.toNat] else [], writes := [s.rd d] } (fun t =>
    if relOk s n then t.result 1 (s.rd d) (s.g n.toNat) 0 else t.trap .window (wordOfInt n))

/-- PUTX (R92, R93): variable-latency, its target pending for 1 die cycle. -/
def execPutx (w : BitVec 2) (a : BitVec 5) (k : BitVec 12) (s : State) : Answer :=
  let n := relIndex s k
  s.issue w { reads := [s.ra a], writes := if relOk s n then [n.toNat] else [], var := true } (fun t =>
    if relOk s n then (t.varResult 1 [(n.toNat, s.g (s.ra a))]).advance else t.trap .window (wordOfInt n))

/-- ADDX (R92, R93): XI wraps in 16 bits and never checks bounds; latency 1. -/
def execAddx (w : BitVec 2) (k : BitVec 12) (s : State) : Answer :=
  s.issue w {} (fun t => (t.fly 1 [] 0 (some (s.me.xi + k.signExtend 16))).advance)

end Sys2Proof.Machine
end

