-- ==== Sys2Proof/Machine/Float.lean ====
section
/-! DEFINITION. Scalar floating point (R101 to R108). -/

namespace Sys2Proof.Machine

/-- An operand of a format, from the low bits of its register (R101). -/
def Fmt.operand (f : Fmt) (x : Word) : Val := f.decode (x.toNat % 2 ^ f.width)

/-- A fixed-latency member of two operands: f gets FCTL.RM as read at issue and answers the code and flags (R101). -/
def State.fpu2 (s : State) (f : Fmt) (w : BitVec 2) (d a b : BitVec 5) (op : Mode → Val → Val → Nat × BitVec 5) :
    Answer :=
  s.issue w { reads := [s.ra a, s.rb b], writes := [s.rd d] } (fun t =>
    let r := op (rmMode s.me.fctl) (f.operand (s.g (s.ra a))) (f.operand (s.g (s.rb b)))
    t.result 6 (s.rd d) (word r.1) r.2)

/-- A fixed-latency member of one operand. -/
def State.fpu1 (s : State) (w : BitVec 2) (d a : BitVec 5) (op : Mode → Word → Word × BitVec 5) : Answer :=
  s.issue w { reads := [s.ra a], writes := [s.rd d] } (fun t =>
    let r := op (rmMode s.me.fctl) (s.g (s.ra a))
    t.result 6 (s.rd d) r.1 r.2)

/-- A multiply-add: g[D] is an operand as well (R106). -/
def State.fma3 (s : State) (f : Fmt) (w : BitVec 2) (d a b : BitVec 5)
    (op : Mode → Val → Val → Val → Val × BitVec 5) : Answer :=
  s.issue w { reads := [s.ra a, s.rb b, s.rd d], writes := [s.rd d] } (fun t =>
    let m := rmMode s.me.fctl
    let v := op m (f.operand (s.g (s.ra a))) (f.operand (s.g (s.rb b))) (f.operand (s.g (s.rd d)))
    let r := f.convert .ieee m v.1
    t.result 6 (s.rd d) (word r.1) (v.2 ||| r.2))

/-- A member that the divider serves (R82, R102). -/
def State.fpDivide (s : State) (w : BitVec 2) (d : BitVec 5) (reads : List Nat) (r : Nat × BitVec 5) (cycles : Nat) :
    Answer :=
  s.issue w { reads := reads, writes := [s.rd d], var := true } (fun t =>
    t.divide (s.rd d) (word r.1) r.2 cycles)

/-! ### Results (R102 to R105, R107, R108) -/

/-- A rounded sum, difference, product. -/
def fpRound (f : Fmt) (m : Mode) (v : Val × BitVec 5) : Nat × BitVec 5 :=
  let r := f.convert .ieee m v.1
  (r.1, v.2 ||| r.2)
def fpAdd (f : Fmt) (m : Mode) (a b : Val) : Nat × BitVec 5 := fpRound f m (a.add m b)
def fpSub (f : Fmt) (m : Mode) (a b : Val) : Nat × BitVec 5 := fpRound f m (a.add m b.negate)
def fpMul (f : Fmt) (m : Mode) (a b : Val) : Nat × BitVec 5 := fpRound f m (a.mul b)

/-- NV for a signalling operand (R103, R104). -/
def snanFlag (a b : Val) : BitVec 5 := if a.isSnan || b.isSnan then flagNV else 0
def nanFlag (a b : Val) : BitVec 5 := if a.isNan || b.isNan then flagNV else 0

/-- Minimum and maximum (R103). -/
def fpMinMax (f : Fmt) (larger : Bool) (_ : Mode) (a b : Val) : Nat × BitVec 5 :=
  ((f.convert .ieee .rne (match Val.minMax larger a b with | .nan _ => .nan false | v => v)).1, snanFlag a b)

/-- The compares (R104). -/
def fpEq (_ : Mode) (a b : Val) : Nat × BitVec 5 := (if a.eq b then 1 else 0, snanFlag a b)
def fpLt (_ : Mode) (a b : Val) : Nat × BitVec 5 := (if a.lt b then 1 else 0, nanFlag a b)
def fpLe (_ : Mode) (a b : Val) : Nat × BitVec 5 := (if a.lt b || a.eq b then 1 else 0, nanFlag a b)

/-- The bit of the class of a value (R105). -/
def classBit (f : Fmt) (v : Val) : Nat :=
  match v with
  | .nan sig => if sig then 9 else 8
  | .inf n => if n then 7 else 6
  | .fin n m _ =>
    if m = 0 then (if n then 1 else 0)
    else if m < 2 ^ (f.prec - 1) then (if n then 3 else 2)
    else (if n then 5 else 4)

/-- FCLASS of 64 bits and of the low 32 (R105). -/
def fclass (x : Word) : Word :=
  word (2 ^ classBit fp64 (fp64.operand x) + 2 ^ (16 + classBit fp32 (fp32.operand x)))

/-- A conversion between formats (R107): every NaN gives the canonical NaN. -/
def fpConvert (src dst : Fmt) (m : Mode) (x : Word) : Word × BitVec 5 :=
  let r := dst.convert .ieee m (src.operand x)
  (word r.1, r.2)

/-- A signed 64-bit integer into a format (R107). -/
def fpFromInt (dst : Fmt) (m : Mode) (x : Word) : Word × BitVec 5 :=
  let r := dst.convert .ieee m (.ofInt x.toInt)
  (word r.1, r.2)

/-- A format into a signed 64-bit integer (R108). -/
def fpToInt (src : Fmt) (m : Mode) (x : Word) : Word × BitVec 5 :=
  let r := toIntRange m (-(2 ^ 63)) (2 ^ 63 - 1) (-(2 ^ 63)) (src.operand x)
  (wordOfInt r.1, r.2)

/-! ### The instructions -/

/-- FADD.S (R102). -/
def execFaddS (w : BitVec 2) (d a b : BitVec 5) (s : State) : Answer :=
  s.fpu2 fp32 w d a b (fpAdd fp32)

/-- FSUB.S (R102). -/
def execFsubS (w : BitVec 2) (d a b : BitVec 5) (s : State) : Answer :=
  s.fpu2 fp32 w d a b (fpSub fp32)

/-- FMUL.S (R102). -/
def execFmulS (w : BitVec 2) (d a b : BitVec 5) (s : State) : Answer :=
  s.fpu2 fp32 w d a b (fpMul fp32)

/-- FDIV.S (R102, R82). -/
def execFdivS (w : BitVec 2) (d a b : BitVec 5) (s : State) : Answer :=
  s.fpDivide w d [s.ra a, s.rb b]
    (fp32.div .ieee (rmMode s.me.fctl) (fp32.operand (s.g (s.ra a))) (fp32.operand (s.g (s.rb b)))) 14

/-- FSQRT.S (R102, R82). -/
def execFsqrtS (w : BitVec 2) (d a : BitVec 5) (s : State) : Answer :=
  s.fpDivide w d [s.ra a] (fp32.sqrt (rmMode s.me.fctl) (fp32.operand (s.g (s.ra a)))) 14

/-- FMIN.S (R103). -/
def execFminS (w : BitVec 2) (d a b : BitVec 5) (s : State) : Answer :=
  s.fpu2 fp32 w d a b (fpMinMax fp32 false)

/-- FMAX.S (R103). -/
def execFmaxS (w : BitVec 2) (d a b : BitVec 5) (s : State) : Answer :=
  s.fpu2 fp32 w d a b (fpMinMax fp32 true)

/-- FEQ.S (R104). -/
def execFeqS (w : BitVec 2) (d a b : BitVec 5) (s : State) : Answer :=
  s.fpu2 fp32 w d a b fpEq

/-- FLT.S (R104). -/
def execFltS (w : BitVec 2) (d a b : BitVec 5) (s : State) : Answer :=
  s.fpu2 fp32 w d a b fpLt

/-- FLE.S (R104). -/
def execFleS (w : BitVec 2) (d a b : BitVec 5) (s : State) : Answer :=
  s.fpu2 fp32 w d a b fpLe

/-- FMADD.S (R106): a × b + d. -/
def execFmaddS (w : BitVec 2) (d a b : BitVec 5) (s : State) : Answer :=
  s.fma3 fp32 w d a b (fun m x y z => x.fma m y z)

/-- FMSUB.S (R106): a × b − d. -/
def execFmsubS (w : BitVec 2) (d a b : BitVec 5) (s : State) : Answer :=
  s.fma3 fp32 w d a b (fun m x y z => x.fma m y z.negate)

/-- FNMADD.S (R106): (−a × b) + (−d). -/
def execFnmaddS (w : BitVec 2) (d a b : BitVec 5) (s : State) : Answer :=
  s.fma3 fp32 w d a b (fun m x y z => x.negate.fma m y z.negate)

/-- FADD.D (R102). -/
def execFaddD (w : BitVec 2) (d a b : BitVec 5) (s : State) : Answer :=
  s.fpu2 fp64 w d a b (fpAdd fp64)

/-- FSUB.D (R102). -/
def execFsubD (w : BitVec 2) (d a b : BitVec 5) (s : State) : Answer :=
  s.fpu2 fp64 w d a b (fpSub fp64)

/-- FMUL.D (R102). -/
def execFmulD (w : BitVec 2) (d a b : BitVec 5) (s : State) : Answer :=
  s.fpu2 fp64 w d a b (fpMul fp64)

/-- FDIV.D (R102, R82). -/
def execFdivD (w : BitVec 2) (d a b : BitVec 5) (s : State) : Answer :=
  s.fpDivide w d [s.ra a, s.rb b]
    (fp64.div .ieee (rmMode s.me.fctl) (fp64.operand (s.g (s.ra a))) (fp64.operand (s.g (s.rb b)))) 28

/-- FSQRT.D (R102, R82). -/
def execFsqrtD (w : BitVec 2) (d a : BitVec 5) (s : State) : Answer :=
  s.fpDivide w d [s.ra a] (fp64.sqrt (rmMode s.me.fctl) (fp64.operand (s.g (s.ra a)))) 28

/-- FMIN.D (R103). -/
def execFminD (w : BitVec 2) (d a b : BitVec 5) (s : State) : Answer :=
  s.fpu2 fp64 w d a b (fpMinMax fp64 false)

/-- FMAX.D (R103). -/
def execFmaxD (w : BitVec 2) (d a b : BitVec 5) (s : State) : Answer :=
  s.fpu2 fp64 w d a b (fpMinMax fp64 true)

/-- FEQ.D (R104). -/
def execFeqD (w : BitVec 2) (d a b : BitVec 5) (s : State) : Answer :=
  s.fpu2 fp64 w d a b fpEq

/-- FLT.D (R104). -/
def execFltD (w : BitVec 2) (d a b : BitVec 5) (s : State) : Answer :=
  s.fpu2 fp64 w d a b fpLt

/-- FLE.D (R104). -/
def execFleD (w : BitVec 2) (d a b : BitVec 5) (s : State) : Answer :=
  s.fpu2 fp64 w d a b fpLe

/-- FMADD.D (R106): a × b + d. -/
def execFmaddD (w : BitVec 2) (d a b : BitVec 5) (s : State) : Answer :=
  s.fma3 fp64 w d a b (fun m x y z => x.fma m y z)

/-- FMSUB.D (R106): a × b − d. -/
def execFmsubD (w : BitVec 2) (d a b : BitVec 5) (s : State) : Answer :=
  s.fma3 fp64 w d a b (fun m x y z => x.fma m y z.negate)

/-- FNMADD.D (R106): (−a × b) + (−d). -/
def execFnmaddD (w : BitVec 2) (d a b : BitVec 5) (s : State) : Answer :=
  s.fma3 fp64 w d a b (fun m x y z => x.negate.fma m y z.negate)

/-- FCLASS (R105): raises no flag. -/
def execFclass (w : BitVec 2) (d a : BitVec 5) (s : State) : Answer :=
  s.fpu1 w d a (fun _ x => (fclass x, 0))

/-- FCVT.S.D (R107). -/
def execFcvtSD (w : BitVec 2) (d a : BitVec 5) (s : State) : Answer :=
  s.fpu1 w d a (fpConvert fp64 fp32)

/-- FCVT.D.S (R107). -/
def execFcvtDS (w : BitVec 2) (d a : BitVec 5) (s : State) : Answer :=
  s.fpu1 w d a (fpConvert fp32 fp64)

/-- FCVT.S.L (R107). -/
def execFcvtSL (w : BitVec 2) (d a : BitVec 5) (s : State) : Answer :=
  s.fpu1 w d a (fpFromInt fp32)

/-- FCVT.L.S (R108). -/
def execFcvtLS (w : BitVec 2) (d a : BitVec 5) (s : State) : Answer :=
  s.fpu1 w d a (fpToInt fp32)

/-- FCVT.D.L (R107). -/
def execFcvtDL (w : BitVec 2) (d a : BitVec 5) (s : State) : Answer :=
  s.fpu1 w d a (fpFromInt fp64)

/-- FCVT.L.D (R108). -/
def execFcvtLD (w : BitVec 2) (d a : BitVec 5) (s : State) : Answer :=
  s.fpu1 w d a (fpToInt fp64)

/-- FCVT.B.S (R107). -/
def execFcvtBS (w : BitVec 2) (d a : BitVec 5) (s : State) : Answer :=
  s.fpu1 w d a (fpConvert fp32 bf16)

/-- FCVT.S.B (R107). -/
def execFcvtSB (w : BitVec 2) (d a : BitVec 5) (s : State) : Answer :=
  s.fpu1 w d a (fpConvert bf16 fp32)

end Sys2Proof.Machine
end

