-- ==== Sys2Proof/Machine/Control.lean ====
section
/-! DEFINITION. Branches, jumps and repeats (R94 to R97), the MISC group (R31, R98 to R100), header fields (R88 to R91),
control registers (R109, R110), TRAP (R111) and words that are not instructions (R38). -/

namespace Sys2Proof.Machine

/-! ### Transfers of control -/

/-- A taken branch or jump; inline handler code may not leave its words (R195). -/
def State.transfer (s : State) (target : Word) (body : State → State) : State :=
  match (s.core s.ctx.core).inlineOf s.ctx.pn with
  | some (base, n) =>
    if base ≤ target.toNat && target.toNat < base + 4 * n then (body s).jump target else s.trap .prot target
  | none => (body s).jump target

/-- The eight conditions of R94. -/
def condEq (a b : Word) : Bool := a == b
def condNe (a b : Word) : Bool := a != b
def condLt (a b : Word) : Bool := a.toInt < b.toInt
def condGe (a b : Word) : Bool := b.toInt ≤ a.toInt
def condLtu (a b : Word) : Bool := a.toNat < b.toNat
def condGeu (a b : Word) : Bool := b.toNat ≤ a.toNat
def condBset (a b : Word) : Bool := a &&& b != 0
def condBclr (a b : Word) : Bool := a &&& b == 0

/-- A compare that skips: the next n instructions are annulled when the condition is false (R21). -/
def State.skip (s : State) (c : Bool) (n : Nat) : State :=
  if c then s.advance
  else s.jump (word (s.skipFrom s.ctx.core s.ctx.slot n (s.ctx.pc + 4).toNat))

/-- CB: branches with N = 0, else opens a skip (R94). -/
def State.branch (s : State) (w n : BitVec 2) (a b : BitVec 5) (off : BitVec 9) (cond : Word → Word → Bool) : Answer :=
  s.issue w { reads := [s.ra a, s.rb b] } (fun t =>
    let c := cond (s.g (s.ra a)) (s.g (s.rb b))
    if n = 0 then (if c then t.transfer (s.ctx.pc + (imm off <<< 2)) id else t.advance)
    else t.skip c n.toNat)

/-- CBI (R94). -/
def State.compareImm (s : State) (w n : BitVec 2) (a : BitVec 5) (i : BitVec 14) (cond : Word → Word → Bool) : Answer :=
  s.issue w { reads := [s.ra a] } (fun t => t.skip (cond (s.g (s.ra a)) (imm i)) n.toNat)


/-- CB.EQ (R94). -/
def execCbEq (w n : BitVec 2) (a b : BitVec 5) (o : BitVec 9) (s : State) : Answer := s.branch w n a b o condEq

/-- CBI.EQ (R94). -/
def execCbiEq (w n : BitVec 2) (a : BitVec 5) (i : BitVec 14) (s : State) : Answer := s.compareImm w n a i condEq

/-- CB.NE (R94). -/
def execCbNe (w n : BitVec 2) (a b : BitVec 5) (o : BitVec 9) (s : State) : Answer := s.branch w n a b o condNe

/-- CBI.NE (R94). -/
def execCbiNe (w n : BitVec 2) (a : BitVec 5) (i : BitVec 14) (s : State) : Answer := s.compareImm w n a i condNe

/-- CB.LT (R94). -/
def execCbLt (w n : BitVec 2) (a b : BitVec 5) (o : BitVec 9) (s : State) : Answer := s.branch w n a b o condLt

/-- CBI.LT (R94). -/
def execCbiLt (w n : BitVec 2) (a : BitVec 5) (i : BitVec 14) (s : State) : Answer := s.compareImm w n a i condLt

/-- CB.GE (R94). -/
def execCbGe (w n : BitVec 2) (a b : BitVec 5) (o : BitVec 9) (s : State) : Answer := s.branch w n a b o condGe

/-- CBI.GE (R94). -/
def execCbiGe (w n : BitVec 2) (a : BitVec 5) (i : BitVec 14) (s : State) : Answer := s.compareImm w n a i condGe

/-- CB.LTU (R94). -/
def execCbLtu (w n : BitVec 2) (a b : BitVec 5) (o : BitVec 9) (s : State) : Answer := s.branch w n a b o condLtu

/-- CBI.LTU (R94). -/
def execCbiLtu (w n : BitVec 2) (a : BitVec 5) (i : BitVec 14) (s : State) : Answer := s.compareImm w n a i condLtu

/-- CB.GEU (R94). -/
def execCbGeu (w n : BitVec 2) (a b : BitVec 5) (o : BitVec 9) (s : State) : Answer := s.branch w n a b o condGeu

/-- CBI.GEU (R94). -/
def execCbiGeu (w n : BitVec 2) (a : BitVec 5) (i : BitVec 14) (s : State) : Answer := s.compareImm w n a i condGeu

/-- CB.BSET (R94). -/
def execCbBset (w n : BitVec 2) (a b : BitVec 5) (o : BitVec 9) (s : State) : Answer := s.branch w n a b o condBset

/-- CBI.BSET (R94). -/
def execCbiBset (w n : BitVec 2) (a : BitVec 5) (i : BitVec 14) (s : State) : Answer := s.compareImm w n a i condBset

/-- CB.BCLR (R94). -/
def execCbBclr (w n : BitVec 2) (a b : BitVec 5) (o : BitVec 9) (s : State) : Answer := s.branch w n a b o condBclr

/-- CBI.BCLR (R94). -/
def execCbiBclr (w n : BitVec 2) (a : BitVec 5) (i : BitVec 14) (s : State) : Answer := s.compareImm w n a i condBclr

/-- J (R95). -/
def execJ (w : BitVec 2) (o : BitVec 24) (s : State) : Answer :=
  s.issue w {} (fun t => t.transfer (s.ctx.pc + (imm o <<< 2)) id)

/-- JL (R95): lk is pending for 1 die cycle. -/
def execJl (w : BitVec 2) (o : BitVec 24) (s : State) : Answer :=
  s.issue w { writes := [1], var := true } (fun t =>
    t.transfer (s.ctx.pc + (imm o <<< 2)) (fun u => u.varResult 1 [(1, s.ctx.pc + 4)]))

/-- JLR (R96). -/
def execJlr (w : BitVec 2) (d a : BitVec 5) (i : BitVec 14) (s : State) : Answer :=
  s.issue w { reads := [s.ra a], writes := [s.rd d], var := true } (fun t =>
    let target := s.g (s.ra a) + (imm i <<< 2)
    if target.toNat % 4 != 0 then t.trap .align target
    else t.transfer target (fun u => u.varResult 1 [(s.rd d, s.ctx.pc + 4)]))

/-! ### REP (R24 to R26) -/

/-- The fields D, A and B of a word that a step mask may select: those its format has and its member uses, literals
included (R26). -/
def Instr.stepFields : Instr → Bool × Bool × Bool
  | .add _ _ _ _ => (true, true, true)
  | .sub _ _ _ _ => (true, true, true)
  | .and _ _ _ _ => (true, true, true)
  | .or _ _ _ _ => (true, true, true)
  | .xor _ _ _ _ => (true, true, true)
  | .andn _ _ _ _ => (true, true, true)
  | .orn _ _ _ _ => (true, true, true)
  | .sll _ _ _ _ => (true, true, true)
  | .srl _ _ _ _ => (true, true, true)
  | .sra _ _ _ _ => (true, true, true)
  | .ror _ _ _ _ => (true, true, true)
  | .mul _ _ _ _ => (true, true, true)
  | .mulh _ _ _ _ => (true, true, true)
  | .mulhu _ _ _ _ => (true, true, true)
  | .div _ _ _ _ => (true, true, true)
  | .divu _ _ _ _ => (true, true, true)
  | .rem _ _ _ _ => (true, true, true)
  | .remu _ _ _ _ => (true, true, true)
  | .min _ _ _ _ => (true, true, true)
  | .max _ _ _ _ => (true, true, true)
  | .minu _ _ _ _ => (true, true, true)
  | .maxu _ _ _ _ => (true, true, true)
  | .slt _ _ _ _ => (true, true, true)
  | .sltu _ _ _ _ => (true, true, true)
  | .clz _ _ _ => (true, true, false)
  | .ctz _ _ _ => (true, true, false)
  | .popc _ _ _ => (true, true, false)
  | .brev _ _ _ => (true, true, false)
  | .bswap _ _ _ => (true, true, false)
  | .sextb _ _ _ => (true, true, false)
  | .sexth _ _ _ => (true, true, false)
  | .sextw _ _ _ => (true, true, false)
  | .zextw _ _ _ => (true, true, false)
  | .addi _ _ _ _ => (true, true, false)
  | .andi _ _ _ _ => (true, true, false)
  | .ori _ _ _ _ => (true, true, false)
  | .xori _ _ _ _ => (true, true, false)
  | .slti _ _ _ _ => (true, true, false)
  | .sltiu _ _ _ _ => (true, true, false)
  | .slli _ _ _ _ => (true, true, false)
  | .srli _ _ _ _ => (true, true, false)
  | .srai _ _ _ _ => (true, true, false)
  | .rori _ _ _ _ => (true, true, false)
  | .liu _ _ _ => (true, false, false)
  | .addpc _ _ _ => (true, false, false)
  | .bfxi _ _ _ _ _ => (true, true, false)
  | .bfxui _ _ _ _ _ => (true, true, false)
  | .bfii _ _ _ _ _ => (true, true, false)
  | .bfx _ _ _ _ => (true, true, true)
  | .bfxu _ _ _ _ => (true, true, true)
  | .bfi _ _ _ _ => (true, true, true)
  | .hpack _ _ _ _ => (true, true, true)
  | .hunpk _ _ _ _ => (true, true, true)
  | .hlwr _ _ _ => (false, true, true)
  | .hlrd _ _ _ => (true, true, false)
  | .getx _ _ _ => (true, false, false)
  | .putx _ _ _ => (false, true, false)
  | .addx _ _ => (false, false, false)
  | .cbEq _ _ _ _ _ => (false, true, true)
  | .cbNe _ _ _ _ _ => (false, true, true)
  | .cbLt _ _ _ _ _ => (false, true, true)
  | .cbGe _ _ _ _ _ => (false, true, true)
  | .cbLtu _ _ _ _ _ => (false, true, true)
  | .cbGeu _ _ _ _ _ => (false, true, true)
  | .cbBset _ _ _ _ _ => (false, true, true)
  | .cbBclr _ _ _ _ _ => (false, true, true)
  | .cbiEq _ _ _ _ => (false, true, false)
  | .cbiNe _ _ _ _ => (false, true, false)
  | .cbiLt _ _ _ _ => (false, true, false)
  | .cbiGe _ _ _ _ => (false, true, false)
  | .cbiLtu _ _ _ _ => (false, true, false)
  | .cbiGeu _ _ _ _ => (false, true, false)
  | .cbiBset _ _ _ _ => (false, true, false)
  | .cbiBclr _ _ _ _ => (false, true, false)
  | .j _ _ => (false, false, false)
  | .jl _ _ => (false, false, false)
  | .jlr _ _ _ _ => (true, true, false)
  | .rep _ _ _ _ => (false, false, false)
  | .nop _ => (false, false, false)
  | .align _ _ => (false, false, false)
  | .yield _ => (false, false, false)
  | .schk _ _ => (false, false, false)
  | .ifsync _ => (false, false, false)
  | .lb _ _ _ _ => (true, true, false)
  | .lh _ _ _ _ => (true, true, false)
  | .lw _ _ _ _ => (true, true, false)
  | .ld _ _ _ _ => (true, true, false)
  | .lbu _ _ _ _ => (true, true, false)
  | .lhu _ _ _ _ => (true, true, false)
  | .lwu _ _ _ _ => (true, true, false)
  | .sb _ _ _ _ => (true, true, false)
  | .sh _ _ _ _ => (true, true, false)
  | .sw _ _ _ _ => (true, true, false)
  | .sd _ _ _ _ => (true, true, false)
  | .readf _ _ _ _ => (true, true, false)
  | .take _ _ _ _ => (true, true, false)
  | .peek _ _ _ _ => (true, true, false)
  | .put _ _ _ _ => (true, true, false)
  | .fill _ _ _ _ => (true, true, false)
  | .clear _ _ _ _ => (true, true, false)
  | .ovwr _ _ _ _ => (true, true, false)
  | .aadd _ _ _ _ _ => (true, true, true)
  | .aand _ _ _ _ _ => (true, true, true)
  | .aor _ _ _ _ _ => (true, true, true)
  | .axor _ _ _ _ _ => (true, true, true)
  | .amin _ _ _ _ _ => (true, true, true)
  | .amax _ _ _ _ _ => (true, true, true)
  | .aminu _ _ _ _ _ => (true, true, true)
  | .amaxu _ _ _ _ _ => (true, true, true)
  | .aswap _ _ _ _ _ => (true, true, true)
  | .afadd _ _ _ _ _ => (true, true, true)
  | .afamax _ _ _ _ _ => (true, true, true)
  | .cas _ _ _ _ _ => (true, true, true)
  | .fenceC _ => (false, false, false)
  | .fenceD _ => (false, false, false)
  | .fenceG _ => (false, false, false)
  | .xfence _ _ _ => (false, true, true)
  | .faddS _ _ _ _ => (true, true, true)
  | .fsubS _ _ _ _ => (true, true, true)
  | .fmulS _ _ _ _ => (true, true, true)
  | .fdivS _ _ _ _ => (true, true, true)
  | .fsqrtS _ _ _ => (true, true, false)
  | .fminS _ _ _ _ => (true, true, true)
  | .fmaxS _ _ _ _ => (true, true, true)
  | .faddD _ _ _ _ => (true, true, true)
  | .fsubD _ _ _ _ => (true, true, true)
  | .fmulD _ _ _ _ => (true, true, true)
  | .fdivD _ _ _ _ => (true, true, true)
  | .fsqrtD _ _ _ => (true, true, false)
  | .fminD _ _ _ _ => (true, true, true)
  | .fmaxD _ _ _ _ => (true, true, true)
  | .feqS _ _ _ _ => (true, true, true)
  | .fltS _ _ _ _ => (true, true, true)
  | .fleS _ _ _ _ => (true, true, true)
  | .feqD _ _ _ _ => (true, true, true)
  | .fltD _ _ _ _ => (true, true, true)
  | .fleD _ _ _ _ => (true, true, true)
  | .fclass _ _ _ => (true, true, false)
  | .fmaddS _ _ _ _ => (true, true, true)
  | .fmsubS _ _ _ _ => (true, true, true)
  | .fnmaddS _ _ _ _ => (true, true, true)
  | .fmaddD _ _ _ _ => (true, true, true)
  | .fmsubD _ _ _ _ => (true, true, true)
  | .fnmaddD _ _ _ _ => (true, true, true)
  | .fcvtSD _ _ _ => (true, true, false)
  | .fcvtDS _ _ _ => (true, true, false)
  | .fcvtSL _ _ _ => (true, true, false)
  | .fcvtLS _ _ _ => (true, true, false)
  | .fcvtDL _ _ _ => (true, true, false)
  | .fcvtLD _ _ _ => (true, true, false)
  | .fcvtBS _ _ _ => (true, true, false)
  | .fcvtSB _ _ _ => (true, true, false)
  | .start _ _ _ _ => (true, true, true)
  | .stop _ => (false, false, false)
  | .pri _ _ => (false, true, false)
  | .sleepc _ _ => (false, true, false)
  | .done _ => (false, false, false)
  | .who _ _ => (true, false, false)
  | .bwait _ _ => (false, true, false)
  | .send _ _ _ => (false, true, true)
  | .recv _ _ _ => (true, true, false)
  | .sendb _ _ _ => (false, true, true)
  | .sendh _ _ _ => (false, true, true)
  | .tsend _ _ _ => (false, true, true)
  | .trecv _ _ _ => (false, true, true)
  | .altb _ => (false, false, false)
  | .altg _ _ _ => (false, true, true)
  | .altt _ _ _ => (false, true, true)
  | .altw _ _ => (true, false, false)
  | .specb _ => (false, false, false)
  | .commit _ => (false, false, false)
  | .abort _ => (false, false, false)
  | .lpatch _ _ _ => (false, true, true)
  | .larm _ _ _ => (true, true, false)
  | .larmReturn _ => (true, true, false)
  | .fwait _ _ _ => (true, true, false)
  | .ftest _ _ _ => (true, true, false)
  | .fcancel _ _ => (false, true, false)
  | .fpass _ _ _ => (true, true, false)
  | .fprom _ _ _ => (true, true, false)
  | .nestset _ _ => (false, true, false)
  | .iter _ _ => (true, false, false)
  | .shpub _ _ _ _ => (true, true, true)
  | .shst _ _ _ _ => (true, true, true)
  | .shcas _ _ _ _ => (true, true, true)
  | .shacq _ _ => (false, true, false)
  | .ewr _ _ _ _ => (false, true, false)
  | .ewra _ _ _ _ => (false, true, false)
  | .erd _ _ _ _ => (true, false, false)
  | .vadd _ _ _ _ => (true, true, true)
  | .vsub _ _ _ _ => (true, true, true)
  | .vmul _ _ _ _ => (true, true, true)
  | .vfma _ _ _ _ => (true, true, true)
  | .vmax _ _ _ _ => (true, true, true)
  | .vmin _ _ _ _ => (true, true, true)
  | .vabs _ _ _ _ => (true, true, true)
  | .vneg _ _ _ _ => (true, true, true)
  | .vexp _ _ _ _ => (true, true, true)
  | .vlog _ _ _ _ => (true, true, true)
  | .vrcp _ _ _ _ => (true, true, true)
  | .vrsq _ _ _ _ => (true, true, true)
  | .vcvt _ _ _ _ => (true, true, true)
  | .vrsum _ _ _ _ => (true, true, true)
  | .vrmax _ _ _ _ => (true, true, true)
  | .vamax _ _ _ _ => (true, true, true)
  | .vscale _ _ _ _ => (true, true, true)
  | .vsel _ _ _ _ => (true, true, true)
  | .vcmp _ _ _ _ => (true, true, true)
  | .vtrans _ _ _ _ => (true, true, true)
  | .vgath _ _ _ _ => (true, true, true)
  | .vscat _ _ _ _ => (true, true, true)
  | .vbcast _ _ _ _ => (true, true, true)
  | .cpy _ _ _ _ => (true, true, true)
  | .cpym _ _ _ _ => (true, true, true)
  | .mclaim _ _ _ => (true, true, false)
  | .mrel _ _ => (false, true, false)
  | .mtask _ _ _ => (true, true, false)
  | .mmerge _ _ _ _ => (true, true, true)
  | .wset _ _ _ => (false, true, true)
  | .rdcr _ _ _ => (true, false, false)
  | .wrcr _ _ _ => (false, true, false)
  | .trap _ _ => (false, false, false)
  | .gset _ _ _ => (false, true, true)
  | .gresume _ _ => (false, true, false)
  | .gkill _ _ => (false, true, false)
  | _ => (false, false, false)

/-- The words that R26 bars from repetition. -/
def Instr.repeatBarred : Instr → Bool
  | .cbEq _ _ _ _ _ => true
  | .cbNe _ _ _ _ _ => true
  | .cbLt _ _ _ _ _ => true
  | .cbGe _ _ _ _ _ => true
  | .cbLtu _ _ _ _ _ => true
  | .cbGeu _ _ _ _ _ => true
  | .cbBset _ _ _ _ _ => true
  | .cbBclr _ _ _ _ _ => true
  | .cbiEq _ _ _ _ => true
  | .cbiNe _ _ _ _ => true
  | .cbiLt _ _ _ _ => true
  | .cbiGe _ _ _ _ => true
  | .cbiLtu _ _ _ _ => true
  | .cbiGeu _ _ _ _ => true
  | .cbiBset _ _ _ _ => true
  | .cbiBclr _ _ _ _ => true
  | .j _ _ => true
  | .jl _ _ => true
  | .jlr _ _ _ _ => true
  | .rep _ _ _ _ => true
  | .readf _ _ _ _ => true
  | .take _ _ _ _ => true
  | .put _ _ _ _ => true
  | .fill _ _ _ _ => true
  | .stop _ => true
  | .sleepc _ _ => true
  | .bwait _ _ => true
  | .send _ _ _ => true
  | .recv _ _ _ => true
  | .sendb _ _ _ => true
  | .sendh _ _ _ => true
  | .tsend _ _ _ => true
  | .trecv _ _ _ => true
  | .altb _ => true
  | .altg _ _ _ => true
  | .altt _ _ _ => true
  | .altw _ _ => true
  | .fwait _ _ _ => true
  | .shacq _ _ => true
  | .trap _ _ => true
  | _ => false

/-- Members that only one kind of core executes: GATE on kernel cores (R333), the matrix array on compute cores (R247). -/
def legalOn (kernel : Bool) : Instr → Bool
  | .gset _ _ _ => kernel
  | .gresume _ _ => kernel
  | .gkill _ _ => kernel
  | .mclaim _ _ _ => !kernel
  | .mrel _ _ => !kernel
  | .mtask _ _ _ => !kernel
  | .mmerge _ _ _ _ => !kernel
  | _ => true

/-- Whether a word may be repeated under a step mask (R26). -/
def repeatLegal (kernel : Bool) (m : BitVec 3) (w : BitVec 32) : Bool :=
  match decode w with
  | none => false
  | some i =>
    let f := Instr.stepFields i
    !Instr.repeatBarred i && legalOn kernel i
      && (!m.getLsbD 2 || f.1) && (!m.getLsbD 1 || f.2.1) && (!m.getLsbD 0 || f.2.2)

/-- REP (R24, R26): judged with the word after it; the repeats are issues of their own. -/
def execRep (w : BitVec 2) (c : BitVec 6) (m : BitVec 3) (_t : BitVec 2) (s : State) : Answer :=
  if s.me.state != .running then .fault .noIssuer
  else match s.fetched s.ctx.core s.ctx.slot (s.ctx.pc + 4).toNat with
    | .absent => .next s.notIssued
    | .fault f => .next (s.trap f (s.ctx.pc + 4))
    | .word w2 =>
      s.issue w { legal := repeatLegal (isKernel s.ctx.core) m w2 } (fun t => t.modMe (fun p =>
        let p := { p with pc := pc56 s.ctx.pc, inRep := true }
        if p.repRemain = 0 then { p with repDone := 0, repRemain := BitVec.ofNat 7 (c.toNat + 1) } else p))

/-- The register offsets of the present repeat under a REP word: i × stride for each selected field (R24). -/
def repOffsets (word : BitVec 32) (done : Nat) : Nat × Nat × Nat :=
  let k := done * 2 ^ (word.extractLsb' 13 2).toNat
  (if word.getLsbD 17 then k else 0, if word.getLsbD 16 then k else 0, if word.getLsbD 15 then k else 0)

/-! ### The MISC group (R98 to R100, R31) -/

/-- NOP (R98). -/
def execNop (w : BitVec 2) (s : State) : Answer := s.issue w {} (fun t => t.advance)

/-- SCHK v (R98). -/
def execSchk (w : BitVec 2) (v : BitVec 1) (s : State) : Answer :=
  s.issue w {} (fun t => (t.modMe (fun p => { p with schk := v == 1 })).advance)

/-- The launch a core belongs to, as one number; 0 for none. -/
def Core.launchId (c : Core) : Nat := match c.launch with | some l => 1 + l.die + 2 ^ 14 * l.id | none => 0

/-- The cores of a cluster. -/
def clusterCores (die cl : Nat) : List Nat :=
  if 16 ≤ cl then [die * 512 + 256 + (cl - 16)]
  else (List.range 16).map (fun i => die * 512 + (4 * (cl / 4) + i / 4) * 16 + 4 * (cl % 4) + i % 4)

/-- P of R31: the processes of a launch on a cluster's cores numbered 0 to 254 that are not ENDED. -/
def State.alignParty (s : State) (die cl lid : Nat) : Nat :=
  ((clusterCores die cl).map (fun k =>
    let c := s.core k
    if c.launchId != lid then 0
    else (c.procs.filter (fun e => e.1 < 255 && e.2.state != .free && e.2.state != .ended)).length)).sum

/-- A process held at an ALIGN goes on. -/
def State.unhold (s : State) (core pn : Nat) : State :=
  s.modProc core pn (fun p => { p with held := false, wait := .none })

/-- A process leaves the alignment entry it has joined. -/
def State.leaveAlign (s : State) (core pn : Nat) : State :=
  s.modCluster (dieOf core) (clusterOf core) (fun c => { c with
    aligns := (c.aligns.map (fun e => (e.1, e.2.1, e.2.2.1, e.2.2.2.filter (· != (core, pn))))).filter
      (fun e => !e.2.2.2.isEmpty) })

/-- ALIGN k (R31): joins or allocates an entry and holds the process until half the launch's processes have joined. -/
def execAlign (w : BitVec 2) (k : BitVec 8) (s : State) : Answer :=
  s.issue w {} (fun t =>
    let core := s.ctx.core
    let die := dieOf core
    let cl := clusterOf core
    let lid := (s.core core).launchId
    let c := s.cluster die cl
    let same (e : Nat × Nat × Nat × List (Nat × Nat)) : Bool := e.1 == lid && e.2.1 == k.toNat
    if s.inHandler then t.trap .prot 0
    else if s.ctx.pn == 255 || isKernel core then t.advance
    else
      let (p, joined) := match c.aligns.find? same with
        | some e => (e.2.2.1, e.2.2.2)
        | none => (s.alignParty die cl lid, [])
      if joined.isEmpty && 8 ≤ c.aligns.length then t.advance
      else if (p + 1) / 2 ≤ joined.length + 1 then
        let t := t.modCluster die cl (fun c => { c with aligns := c.aligns.filter (fun e => !same e) })
        (joined.foldl (fun u e => u.unhold e.1 e.2) t).advance
      else
        let t := t.modCluster die cl (fun c => { c with
          aligns := c.aligns.filter (fun e => !same e) ++ [(lid, k.toNat, p, joined ++ [(core, s.ctx.pn)])] })
        t.advance.modMe (fun p => { p with held := true, wait := .align, waitSince := s.ticks }))

/-- ALIGN_TIMEOUT (R31): a held process is released alone 256 die cycles after its own arrival. It leaves its entry, as a
pre-empted one does (log 28). -/
def execAlignTimeout (core pn : Nat) (s : State) : Answer :=
  let p := s.proc core pn
  .next (if p.wait == .align && p.held && p.waitSince + 256 ≤ s.ticks then (s.leaveAlign core pn).unhold core pn else s)

/-- A message whose handler-table entry is not in use: no handler runs for it (R197). -/
def Core.unhandled (c : Core) (m : Msg) : Bool := m.kind == 3 && !(look 0 c.handlers m.hidx.toNat).getLsbD 63

/-- The active message that is handled next, where none is at work (R194). -/
def Core.nextActive (c : Core) : Option Stored :=
  if c.handler.isSome then none else c.normal.find? (fun m => 2 ≤ m.msg.kind.toNat)

/-- Inline or table handlers that wait for slot 15 (R153, R194). -/
def Core.handlerWork (c : Core) : Bool := c.nextActive.any (fun m => !c.unhandled m.msg)

/-- The overflow process waits for slot 15 (R153). -/
def Core.overflowWork (c : Core) : Bool := (c.proc 255).state == .ready

/-- Handler or overflow work is pending: slot 15 takes no ordinary process (R153). -/
def Core.slot15Work (c : Core) : Bool := c.handlerWork || c.overflowWork

/-- YIELD (R99): a waiter of equal priority takes the slot; ROT restarts in either case. Slot 15 is left empty for the
handler or overflow work that waits for it (R153). -/
def execYield (w : BitVec 2) (s : State) : Answer :=
  s.issue w {} (fun t =>
    let t := t.advance.modMe (fun p => { p with rot := s.ticks })
    let c := s.core s.ctx.core
    if 255 ≤ s.ctx.pn then t
    else match c.readyAt s.me.prio.toNat with
      | [] => t
      | h :: _ => t.modCore s.ctx.core (fun c =>
          if s.ctx.slot = 15 && c.slot15Work then c.setSlot 15 { c.slot 15 with leaving := some (.yield, 1024) }
          else (c.unlist h).setSlot s.ctx.slot { c.slot s.ctx.slot with leaving := some (.yield, h) }))

/-- Whether every store, AMO and CAS of a process with a tag below a bound has been performed (R100, R140). -/
def Core.storesDone (c : Core) (pn upto : Nat) : Bool :=
  c.reqs.all (fun r => r.pn != pn || upto ≤ r.tag || r.ended || !r.kind.writes || r.phase == .performed)

/-- IFSYNC (R100). -/
def execIfsync (w : BitVec 2) (s : State) : Answer :=
  s.issue w {} (fun t => if s.inHandler then t.trap .prot 0 else t.block .blockedSync (.ifsync 0 0))

/-- IFSYNC_RELEASE (R100): once the earlier stores are performed the invalidation of the cluster's cache and of the
process's own line buffers begins; it takes at most 600 die cycles, and then the process goes on. -/
def execIfsyncRelease (core pn : Nat) (s : State) : Answer :=
  let c := s.core core
  let p := c.proc pn
  .next (match p.wait with
    | .ifsync 0 _ =>
      if c.storesDone pn c.nextTag then
        let s := s.modCluster (dieOf core) (clusterOf core) (fun k =>
          { k with lines := [], recent := [], fills := [], invalidating := k.invalidating ++ [(core, pn)] })
        let s := match c.slotOf pn with
          | some i => s.modSlot core i (fun x => { x with cur := none, nextLine := none, last := none, want := [] })
          | none => s
        s.modProc core pn (fun p => { p with wait := .ifsync 1 (s.ticks + 600) })
      else s
    | .ifsync _ _ =>
      let s := (s.modCluster (dieOf core) (clusterOf core) (fun k =>
        { k with invalidating := k.invalidating.filter (· != (core, pn)) })).wake core pn
      match c.slotOf pn with
      | some i => s.follow core i
      | none => s
    | _ => s)

/-! ### Header fields (R88 to R91) -/

/-- A field descriptor as the table holds it, bit 15 ignored. -/
def Core.layoutAt (c : Core) (i : Nat) : BitVec 16 := look 0 c.layout i

/-- The enabled fields of a layout: field number, clipped offset and width, and sign (R88, R89). -/
def Core.fields (c : Core) (lay : Nat) : List (Nat × Nat × Nat × Bool) :=
  (List.range 8).filterMap (fun f =>
    let x := c.layoutAt (lay * 8 + f)
    if x.getLsbD 14 then
      let o := (x.extractLsb' 0 7).toNat
      some (f, o, min ((x.extractLsb' 7 6).toNat + 1) (128 - o), x.getLsbD 13)
    else none)

/-- h[o + w - 1 : o] := v, in 128 bits. -/
def insertField (h o w v : Nat) : Nat := h % 2 ^ o + v % 2 ^ w * 2 ^ o + h / 2 ^ (o + w) * 2 ^ (o + w)

/-- HPACK (R89): reads g[A + f] for every enabled f. -/
def execHpack (w : BitVec 2) (d a b : BitVec 5) (s : State) : Answer :=
  let fs := (s.core s.ctx.core).fields ((s.g (s.rb b)).toNat % 16)
  s.issue w { reads := s.rb b :: fs.map (fun f => s.ra a + f.1), writes := [s.rd d, s.rd d + 1] } (fun t =>
    let h := fs.foldl (fun h f => insertField h f.2.1 f.2.2.1 (s.g (s.ra a + f.1)).toNat) 0
    (t.fly 2 [(s.rd d, word h), (s.rd d + 1, word (h / 2 ^ 64))] 0 none).advance)

/-- HUNPK (R89): writes g[D + f] for every enabled f. -/
def execHunpk (w : BitVec 2) (d a b : BitVec 5) (s : State) : Answer :=
  let fs := (s.core s.ctx.core).fields ((s.g (s.rb b)).toNat % 16)
  s.issue w { reads := [s.rb b, s.ra a, s.ra a + 1], writes := fs.map (fun f => s.rd d + f.1) } (fun t =>
    let h := pairNat (s.g (s.ra a + 1)) (s.g (s.ra a))
    let v (f : Nat × Nat × Nat × Bool) : Word :=
      let x := word (h / 2 ^ f.2.1 % 2 ^ f.2.2.1)
      if f.2.2.2 then sextN f.2.2.1 x else x
    (t.fly 2 (fs.map (fun f => (s.rd d + f.1, v f))) 0 none).advance)

/-- HLWR (R90, R91). -/
def execHlwr (w : BitVec 2) (a b : BitVec 5) (s : State) : Answer :=
  s.issue w { reads := [s.ra a, s.rb b] } (fun t =>
    (t.modCore s.ctx.core (fun c => { c with
      layout := put c.layout ((s.g (s.rb b)).toNat % 128) ((s.g (s.ra a)).setWidth 16 &&& 0x7FFF) })).advance)

/-- HLRD (R90): written 2 die cycles after issue. -/
def execHlrd (w : BitVec 2) (d a : BitVec 5) (s : State) : Answer :=
  s.issue w { reads := [s.ra a], writes := [s.rd d], var := true } (fun t =>
    (t.varResult 2 [(s.rd d, ((s.core s.ctx.core).layoutAt ((s.g (s.ra a)).toNat % 128)).setWidth 64)]).advance)

/-! ### Control registers (R15, R109, R110) -/

/-- A control register as RDCR reads it. -/
def State.controlRead (s : State) (n : Nat) : Word :=
  let p := s.me
  let c := s.core s.ctx.core
  match n with
  | 0x00 => p.xi.signExtend 64
  | 0x01 => word p.wsz
  | 0x02 => p.prio.setWidth 64
  | 0x03 => p.fctl.setWidth 64
  | 0x04 => p.tvec
  | 0x05 => p.cause.setWidth 64
  | 0x06 => p.fpc
  | 0x07 => p.faddr
  | 0x08 => p.finst.setWidth 64
  | 0x09 => word (p.repDone.toNat + 256 * p.repRemain.toNat)
  | 0x0A => s.cyc (dieOf s.ctx.core)
  | 0x0B => c.lcn.setWidth 64
  | 0x0C => c.jseed
  | 0x0D => p.srctr.setWidth 64
  | 0x0E => if p.schk then 1 else 0
  | 0x0F => p.depth.setWidth 64
  | 0x10 => p.depmax.setWidth 64
  | _ => p.vstat.setWidth 64

/-- TVEC and FPC hold bits [55:2]. -/
def vectorBits (x : Word) : Word := x &&& 0xFFFFFFFFFFFFFC

/-- A control register as WRCR writes it; RO fields and, on a compute core, KW fields are left. A write of REPST within
a repeat leaves the sequence at work as it is. -/
def Proc.controlWrite (p : Proc) (kernel rep : Bool) (n : Nat) (v : Word) : Proc :=
  match n with
  | 0x00 => { p with xi := v.setWidth 16 }
  | 0x02 => { p with prio := v.setWidth 7 }
  | 0x03 => { p with fctl := v.setWidth 9 &&& 0x1F3 }
  | 0x04 => { p with tvec := vectorBits v }
  | 0x05 => { p with cause := v.setWidth 8 }
  | 0x06 => { p with fpc := vectorBits v }
  | 0x07 => { p with faddr := v }
  | 0x08 => { p with finst := v.setWidth 32 }
  | 0x09 => if rep then p else { p with repDone := v.extractLsb' 0 6, repRemain := v.extractLsb' 8 7 }
  | 0x0D => { p with srctr := v.setWidth 40 }
  | 0x0E => { p with schk := v.getLsbD 0 }
  | 0x10 => if kernel then { p with depmax := v.setWidth 8 } else p
  | 0x11 => { p with vstat := v.setWidth 5 }
  | _ => p

/-- Accesses through tensor windows of a process that are not performed yet. -/
def Core.windowPending (c : Core) (pn : Nat) (classGOnly : Bool) : Bool :=
  c.reqs.any (fun r => r.pn == pn && !r.ended && r.phase != .performed && (match r.place with
    | .window w _ => !classGOnly || (r.kind == .store && (winSpec w).method == .classG)
    | _ => false))

/-- The waits of R110 for SRCTR and VSTAT. -/
def State.controlReady (s : State) (n : Nat) : Bool :=
  let c := s.core s.ctx.core
  match n with
  | 0x0D => !c.windowPending s.ctx.pn true && c.vecQ.all (fun v => v.pn != s.ctx.pn || v.started)
  | 0x11 => !c.windowPending s.ctx.pn false
  | _ => true

/-- RDCR (R109, R110): latency 1. -/
def execRdcr (w : BitVec 2) (d : BitVec 5) (c : BitVec 8) (s : State) : Answer :=
  s.issue w { writes := [s.rd d], ready := s.controlReady c.toNat } (fun t =>
    t.result 1 (s.rd d) (s.controlRead c.toNat) 0)

/-- WRCR (R17, R109, R110). -/
def execWrcr (w : BitVec 2) (a : BitVec 5) (c : BitVec 8) (s : State) : Answer :=
  s.issue w { reads := [s.ra a], ready := s.controlReady c.toNat } (fun t =>
    if s.inHandler && c.toNat == 0x04 then t.trap .prot 0
    else (t.modMe (fun p =>
      let q := p.controlWrite (isKernel s.ctx.core) s.ctx.rep.isSome c.toNat (s.g (s.ra a))
      if c.toNat = 0x02 then q.prioFrom p.prio s.ticks else q)).advance)

/-! ### Traps of the word itself (R38, R111) -/

/-- TRAP k (R111). -/
def execTrap (w : BitVec 2) (k : BitVec 14) (s : State) : Answer :=
  s.issue w {} (fun t => t.trap .trapi (k.setWidth 64))

/-- ILLEGAL_WORD (R38): the issue of a word that is no instruction raises ILL; a word that is one is not this event. -/
def execIllegalWord (word : BitVec 32) (s : State) : Answer :=
  if (decode word).isSome then .next s
  else if s.me.state != .running then .fault .noIssuer
  else .next ({ s with ctx := { s.ctx with word := word } }.trap .ill 0)

end Sys2Proof.Machine
end

