-- ==== Sys2Proof/Machine/Sched.lean ====
section
/-! DEFINITION. The hardware scheduler of a core: placements, departures, switches, rotation and slot 15 (R149 to
R153), and deadlines of sleeping processes (R158). -/

namespace Sys2Proof.Machine

/-! ### What a slot may do -/

/-- A process past its switch that is not on its way out: its slot may issue. -/
def Slot.settled (x : Slot) : Option Nat :=
  if x.switchEnd.isNone && x.leaving.isNone then x.proc else none

/-- A resident that is not on its way out, from the first cycle of its switch on (R149, R152). -/
def Slot.resident (x : Slot) : Option Nat := if x.leaving.isNone then x.proc else none

/-- States in which a resident is displaceable (R150). -/
def ProcState.isBlocked : ProcState → Bool
  | .blockedChan | .blockedFut | .blockedSync | .sleeping | .alt => true
  | .free | .ready | .running | .faulted | .ended => false

/-- The cycle from which a resident's present wait counts, if it is displaceable now (R150 step 3). -/
def Core.displaceable (c : Core) (now i : Nat) : Option Nat :=
  match (c.slot i).resident with
  | none => none
  | some pn =>
    if pn = 256 then none
    else
      let p := c.proc pn
      if p.state.isBlocked then (if p.waitSince ≤ now then some p.waitSince else none)
      else match p.tagSince with
        | some t =>
          if p.state == .running && p.tagRegs.any p.isPending && t + 64 ≤ now && pn != 255 then some t else none
        | none => none

/-- A RUNNING resident that a placement may pre-empt (R150 step 4). -/
def Core.preemptable (c : Core) (now i : Nat) : Bool :=
  match (c.slot i).resident with
  | none => false
  | some pn => pn < 255 && (c.proc pn).state == .running && (c.displaceable now i).isNone

/-- The best of the slots that qualify: lowest key first, lexicographically, then the lower slot. -/
def bestSlot (key : Nat → Option (Nat × Nat)) : Option Nat :=
  ((List.range 16).foldl (fun acc i =>
    match key i, acc with
    | none, _ => acc
    | some k, none => some (k, i)
    | some k, some (b, j) => if k.1 < b.1 || (k.1 == b.1 && k.2 < b.2) then some (k, i) else some (b, j))
    (none : Option ((Nat × Nat) × Nat))).map (fun r => r.2)

/-- A slot holds no process and none is on its way in. -/
def Slot.isEmpty (x : Slot) : Bool := x.proc.isNone && x.switchEnd.isNone

/-- The slot a placement takes for a husk of priority p, and whether its resident is displaced (R150); slot 15 is not for
it while handler or overflow work is pending (R153). -/
def Core.chooseSlot (c : Core) (now p : Nat) : Option (Nat × Option Leave) :=
  match (List.range 15).find? (fun i => (c.slot i).isEmpty) with
  | some i => some (i, none)
  | none =>
    if (c.slot 15).isEmpty && !c.slot15Work then some (15, none)
    else
      let prio (i : Nat) : Nat := ((c.proc ((c.slot i).proc.getD 0)).prioAt now).toNat
      let barred (i : Nat) : Bool := i == 15 && c.slot15Work
      match bestSlot (fun i => if barred i then none else (c.displaceable now i).map (fun t => (prio i, t))) with
      | some i => some (i, some .displace)
      | none =>
        match bestSlot (fun i =>
            if c.preemptable now i && !barred i && prio i < p then some (prio i, (c.slot i).since) else none) with
        | some i => some (i, some .preempt)
        | none => none

/-! ### Switches and departures (R11, R149, R150) -/

/-- A switch brings a process into an empty slot: it may issue from the fourth cycle on, and ROT counts from now. -/
def State.startSwitch (s : State) (core i pn : Nat) (running : Bool) : State :=
  let s := s.modCore core (fun c =>
    ((c.unlist pn).setProc pn { c.proc pn with
      state := if running then .running else (c.proc pn).state, rot := s.ticks, tagSince := none,
      inRep := false }).setSlot i
      { (c.slot i).emptied with proc := some pn, switchEnd := some (s.ticks + 4), since := s.ticks })
  s.follow core i

/-- What becomes of an outgoing process (R149, R151, R31). A blocked one keeps its state and its wait; one held at IFSYNC
will execute the IFSYNC again once its wait has ended (R100). One that leaves between repeats executes the REP again when it
is next resident (R25). -/
def State.leaveSlot (s : State) (core i pn : Nat) (why : Leave) : State :=
  let s := if (s.proc core pn).wait == .align then (s.leaveAlign core pn).unhold core pn else s
  let p := { s.proc core pn with inRep := false }
  let s := s.modSlot core i Slot.emptied
  let ready (p : Proc) (tail : Bool) : State :=
    s.modCore core (fun c =>
      let c := c.setProc pn { p with state := .ready, wait := .none, tagSince := none }
      if tail then c.pushTail pn else c.pushHead pn)
  match p.state with
  | .running =>
    if why == .displace && p.tagSince.isSome && p.tagRegs.any p.isPending then
      s.setProc core pn { p with state := .blockedFut, wait := .tag p.tagRegs, waitSince := s.ticks,
                                 tagSince := none }
    else ready p (why == .rotate || why == .yield)
  | .blockedSync =>
    match p.wait with
    | .ifsync _ _ => s.setProc core pn { p with pc := p.bpc, repDone := p.bDone, repRemain := p.bRemain }
    | _ => s.setProc core pn p
  | _ => s.setProc core pn p

/-- An outgoing resident may leave: its fixed-latency results are written, and it is not inside an instruction that
pre-emption does not divide (R11, R78, R165). -/
def Core.mayLeave (c : Core) (i : Nat) : Bool :=
  match (c.slot i).proc with
  | none => true
  | some pn => !c.inFlight pn && (!(c.proc pn).held || (c.proc pn).wait == .align)

/-- The departure of a slot's resident, and the switch of the process that takes the slot (R11, R150, R153). -/
def State.depart (s : State) (core i : Nat) : State :=
  let x := (s.core core).slot i
  match x.leaving, x.proc with
  | some (why, inc), some pn =>
    let s := s.leaveSlot core i pn why
    let s := s.modSlot core i Slot.emptied
    if why == .slot15 && pn < 255 then
      match (List.range 15).find? (fun j => ((s.core core).slot j).isEmpty) with
      | some j => s.startSwitch core j pn ((s.proc core pn).state == .ready)
      | none => s
    else if inc < 1024 && (s.proc core inc).state == .ready then
      if i = 15 && (s.core core).slot15Work then s.modCore core (fun c => c.pushHead inc) else s.startSwitch core i inc true
    else s
  | _, _ => s

/-- SLOT_DEPARTURE (R11, R150). -/
def execSlotDeparture (core slot : Nat) (s : State) : Answer :=
  .next (if slot < 16 && ((s.core core).slot slot).leaving.isSome && (s.core core).mayLeave slot then s.depart core slot
    else s)

/-- A trap raised while its process was a husk is delivered now that it is resident (R113). -/
def State.deliverLate (s : State) (core pn : Nat) : State :=
  let p := s.proc core pn
  match p.lateTrap with
  | some (c, a) => (s.setProc core pn { p with lateTrap := none }).trapAt core pn c a p.bpc p.binst
  | none => s

/-- SWITCH_END (R11): the incoming process may issue. -/
def execSwitchEnd (core slot : Nat) (s : State) : Answer :=
  .next (
    let x := (s.core core).slot slot
    match x.switchEnd, x.proc with
    | some t, some pn =>
      if t ≤ s.ticks then (s.modSlot core slot (fun x => { x with switchEnd := none })).deliverLate core pn else s
    | _, _ => s)

/-! ### Placement (R150) -/

/-- One placement, at most one a die cycle: a blocked resident whose results are written leaves at once; a RUNNING one at
its next instruction boundary. -/
def State.schedule (s : State) (core : Nat) : State :=
  let c := s.core core
  if c.schedAt == some s.ticks then s
  else match c.headReady with
    | none => s
    | some (p, h) =>
      match c.chooseSlot s.ticks p with
      | none => s
      | some (i, how) =>
        let s := s.modCore core (fun c => { c with schedAt := some s.ticks })
        match how with
        | none => s.startSwitch core i h true
        | some why =>
          let s := s.modCore core (fun c => (c.unlist h).setSlot i { c.slot i with leaving := some (why, h) })
          let out := (c.proc ((c.slot i).proc.getD 0)).state
          if out != .running && c.mayLeave i then s.depart core i else s

/-- SCHEDULER_PLACEMENT (R150). -/
def execSchedulerPlacement (core : Nat) (s : State) : Answer := .next (s.schedule core)

/-- PENDING_WAIT_EXPIRY (R150 step 3): a resident has waited 64 die cycles on a pending tag and is displaceable. -/
def execPendingWaitExpiry (core slot : Nat) (s : State) : Answer :=
  .next (match ((s.core core).slot slot).settled with
    | some pn =>
      match (s.proc core pn).tagSince with
      | some t => if t + 64 ≤ s.ticks then s.schedule core else s
      | none => s
    | none => s)

/-! ### Rotation (R152) -/

/-- ROT of a process: cycles in its slot, saturating at 16,384. -/
def State.rotOf (s : State) (p : Proc) : Nat := min (s.ticks - p.rot) 16384

/-- The resident that rotates, where R150 places nothing: ROT at its end and a waiter at its own priority. -/
def State.rotating (s : State) (core : Nat) : Option (Nat × Nat) :=
  let c := s.core core
  let places := match c.headReady with
    | some (p, _) => (c.chooseSlot s.ticks p).isSome
    | none => true
  if places || c.schedAt == some s.ticks then none
  else (List.range 16).findSome? (fun i =>
    match (c.slot i).settled with
    | some pn =>
      let p := c.proc pn
      if pn < 255 && p.state == .running && s.rotOf p == 16384 && !(i == 15 && c.slot15Work) then
        ((c.readyAt (p.prioAt s.ticks).toNat).head?).map (fun h => (i, h))
      else none
    | none => none)

/-- ROTATION (R152). -/
def execRotation (core : Nat) (s : State) : Answer :=
  .next (match s.rotating core with
    | some (i, h) => s.modCore core (fun c =>
        { (c.unlist h).setSlot i { c.slot i with leaving := some (.rotate, h) } with schedAt := some s.ticks })
    | none => s)

/-! ### Slot 15 (R153) -/

/-- SLOT15_HANDOVER (R153): for handler or overflow work the process in slot 15 leaves; with no handler work the overflow
process takes the empty slot. -/
def execSlot15Handover (core : Nat) (s : State) : Answer :=
  .next (
    let c := s.core core
    let x := c.slot 15
    match x.resident with
    | some pn =>
      if (pn < 255 && (c.handlerWork || c.overflowWork)) || (pn == 255 && c.handlerWork) then
        let s := s.modSlot core 15 (fun x => { x with leaving := some (.slot15, 1024) })
        if (c.proc pn).state != .running && c.mayLeave 15 then s.depart core 15 else s
      else s
    | none => if x.isEmpty && c.overflowWork && !c.handlerWork then s.startSwitch core 15 255 true else s)

/-! ### Deadlines (R158) -/

/-- SLEEP_DEADLINE (R158): CYC has reached the deadline. -/
def execSleepDeadline (core pn : Nat) (s : State) : Answer :=
  .next (match (s.proc core pn).wait with
    | .sleep t => if t.toNat ≤ (s.cyc (dieOf core)).toNat then s.wake core pn else s
    | _ => s)

end Sys2Proof.Machine
end

