-- ==== Sys2Proof/Machine/Memory.lean ====
section
/-! DEFINITION. Memory accesses from issue to completion: checks, store buffer and request table (R116 to R126), points of
service (R127 to R138), full/empty bits and waiting operations (R127 to R133), and the events of each. -/

namespace Sys2Proof.Machine

/-! ### What an access does at its word -/

/-- An AMO's new value and flags (R134, R136); numbers below 2^(8 n). -/
def amoNew (op n old b : Nat) : Nat × BitVec 5 :=
  let m := 2 ^ (8 * n)
  let sgn (x : Nat) : Int := if m / 2 ≤ x then (x : Int) - m else x
  let f := if n = 4 then fp32 else fp64
  match op with
  | 0 => ((old + b) % m, 0)
  | 1 => (Nat.land old b, 0)
  | 2 => (Nat.lor old b, 0)
  | 3 => (Nat.xor old b, 0)
  | 4 => (if sgn old ≤ sgn b then old else b, 0)
  | 5 => (if sgn old ≤ sgn b then b else old, 0)
  | 6 => (min old b, 0)
  | 7 => (max old b, 0)
  | 8 => (b, 0)
  | 9 =>
    let v := (f.decode old).add .rne (f.decode b)
    let r := f.convert .ieee .rne v.1
    (r.1, v.2 ||| r.2)
  | _ =>
    let x := f.decode old
    let y := f.decode b
    if x.isNan || y.isNan then (f.nanCode, if x.isSnan || y.isSnan then flagNV else 0)
    else ((f.convert .ieee .rne (if x.abs.lt y.abs then y.abs else x.abs)).1, 0)

/-- A load's or an AMO's register result (R122, R134, R138). -/
def extend (signed : Bool) (n v : Nat) : Word := if signed then sextN (8 * n) (word v) else word v

/-- The old value of an AMO in its register (R134). -/
def amoSigned (op : Nat) : Bool := op ≤ 8

/-- The new counter of an ITER claim (R166): data holds N and cmp holds 2 × PART above MINCH. -/
def claimChunk (n part2 minch c : Nat) : Nat :=
  let rem := n - min c n
  min rem (max ((rem + part2 - 1) / part2) minch)

/-- An access at its point of service, none when it has to wait for the word's bit. k is the key of its first byte, seen
the word as its path sees it. -/
def Memory.serve (m : Memory) (r : Req) (pid k : Nat) (seen : Word) : Option (Memory × Req) :=
  let w := k / 8
  let full := r.host || m.isFull w
  let done : Req := { r with phase := .performed, bit := full, poisoned := m.isPoisoned k }
  let tag (m : Memory) : Memory := if m.isPoisoned k then m else m.setTag (k / 64) r.job
  let write (v : Nat) (b : Option Bool) : Memory :=
    if m.isPoisoned k then m
    else
      let m := m.writeOn r.path pid r.job k r.size v
      match b with
      | some x => if r.host then m else m.setFull w x
      | none => m
  let old := m.read k r.size
  let part := seen.toNat / 256 ^ (k % 8) % 256 ^ r.size
  match r.kind with
  | .load signed => if r.fe && !full then none else some (m, { done with result := extend signed r.size part })
  | .store => some (write r.data.toNat (some true), done)
  | .readf => if full then some (m, { done with result := BitVec.ofNat 64 old }) else none
  | .take =>
    if full then
      some (if m.isPoisoned k then m else tag (m.setFull w false), { done with result := BitVec.ofNat 64 old })
    else none
  | .peek => some (m, { done with result := BitVec.ofNat 64 old })
  | .put => if full then none else some (write r.data.toNat (some true), done)
  | .fill => some (write r.data.toNat (some true), done)
  | .clear => some (write r.data.toNat (some false), done)
  | .ovwr => some (write r.data.toNat none, done)
  | .amo op =>
    let n := amoNew op r.size old (r.data.toNat % 256 ^ r.size)
    some (write n.1 none, { done with result := extend (amoSigned op) r.size old, flags := n.2 })
  | .cas =>
    some (if old = r.cmp.toNat % 256 ^ r.size then write (r.data.toNat % 256 ^ r.size) none else m,
      { done with result := extend true r.size old })
  | .iterClaim =>
    let c := old
    some (write (c + claimChunk r.data.toNat (r.cmp.toNat / 2 ^ 32) (r.cmp.toNat % 2 ^ 32) c) none,
      { done with result := BitVec.ofNat 64 c })

/-! ### Points of service -/

/-- Identity of a pool's server among wait lists, and of a memory server. -/
def poolServer (core : Nat) : Nat := 2 ^ 20 + core
def homeServer (die target : Nat) : Nat := die * 2 + serverOf target

/-- A request of a core by its tag. -/
def Core.req (c : Core) (tag : Nat) : Option Req := c.reqs.find? (fun r => r.tag == tag)

/-- The request replaced, or taken off the list. -/
def Core.setReq (c : Core) (r : Req) : Core := { c with reqs := c.reqs.map (fun x => if x.tag = r.tag then r else x) }
def Core.dropReq (c : Core) (tag : Nat) : Core := { c with reqs := c.reqs.filter (fun x => x.tag != tag) }

/-! ### Packets, and requests to other packages (R355, R359, R360) -/

/-- The package of a request's home. -/
def Req.homePkg (r : Req) : Nat := if r.homeIsDie then pkgOfDie r.home else pkgOf r.home

/-- The die whose point of service a request goes to. -/
def Req.serviceDie (r : Req) : Nat := if r.homeIsDie then r.home else dieOf r.home

/-- A request is at its home: of this package, or its packet has arrived. -/
def State.reqHere (s : State) (core : Nat) (r : Req) : Bool :=
  (r.homePkg == pkgOf core && !r.lost) || (match s.findPacket (.memory core r.tag) with
    | some i => (s.arrived i).isSome
    | none => false)

/-- Whether the island check bars a request from a die of its own package (R317, R358); the package's fabric control space is
reached at any die (R356). -/
def State.reqShut (s : State) (core : Nat) (r : Req) : Bool :=
  s.islandShut core r.serviceDie && (match r.place with
    | .fabric _ _ => false
    | _ => true)

/-- A request leaves its core: a packet when its home is in another package. One to a die of its own package that the island
check bars is discarded (R317, R358). -/
def State.sendReq (s : State) (core : Nat) (r : Req) : State :=
  let shut := s.reqShut core r
  let s := s.modCore core (fun c => c.setReq { r with phase := .sent, lost := shut })
  if shut then s.islandDrop (pkgOf core) r.job (pidOf core r.pn) r.ea
  else if r.homePkg == pkgOf core then s
  else s.sendFor r.job core (r.home * 512 + 256) (some (r.ea.toNat / 64)) (.memory core r.tag)

/-- The request's packet is taken off the network at its home; the request keeps its generation for the answer. -/
def State.landReq (s : State) (core : Nat) (r : Req) : State × Req :=
  match s.findPacket (.memory core r.tag) with
  | some i =>
    let q := { r with viaGen := (s.net[i]?.map (fun p => p.gen)).getD false }
    ((s.unpacket i).modCore core (fun c => c.setReq q), q)
  | none => (s, r)

/-- The packet of a request that its core withdraws from the network (R125). -/
def State.recallReq (s : State) (core : Nat) (r : Req) : State :=
  match s.findPacket (.memory core r.tag) with
  | some i => s.recall i
  | none => s

/-- A request that another package's home has performed, or refused, is answered: with its result, or with an
acknowledgement (R132, R360). -/
def State.answerReq (s : State) (core : Nat) (r : Req) : State :=
  if r.homePkg == pkgOf core then s
  else s.sendReply r.job (r.home * 512 + 256) core (some (r.ea.toNat / 64)) r.viaGen
    (if r.kind.buffered || r.phase == .refused then .ack else .answer core r.tag)

/-- The answer of a request has come back, and is taken off the network. -/
def State.answerHere (s : State) (core tag : Nat) : Bool :=
  match s.findPacket (.answer core tag) with
  | some i => (s.arrived i).isSome
  | none => true
def State.takeAnswer (s : State) (core tag : Nat) : State :=
  match s.findPacket (.answer core tag) with
  | some i => s.unpacket i
  | none => s

/-! ### Performing -/

/-- A performed store has nothing to deliver, unless its issuer waits for its target's answer (R119). -/
def State.finish (s : State) (core : Nat) (r : Req) : State :=
  s.modCore core (fun c =>
    if r.kind.buffered && !(r.mesh && r.blocks) then c.dropReq r.tag else c.setReq r)

/-- A store to a poisoned line is recorded as an item of the owner tag's job (R378). -/
def State.poisonStore (s : State) (pid k : Nat) : State :=
  s.invRecord (dieOfKey k) { item := 10, state := 2, reason := 0x28, job := s.mem.tag (k / 64), pid := pid,
                             started := false, itemid := byteAddress (k / 64 * 64), value := 0, cycle := 0 }

/-- A change to a core as a job's tenant sees it: the saved one while that tenant is saved (R319). -/
def State.onTenant (s : State) (core job : Nat) (f : State → State) : State :=
  let die := dieOf core
  if isKernel core || s.jobOf core == job then f s
  else match (s.die die).saved.find? (fun x => x.job == job) with
    | none => f s
    | some x =>
      let live := s.core core
      let t := f (s.setCore core (look {} x.cores core))
      let after := t.core core
      (t.setCore core live).modDie die (fun d => { d with saved := d.saved.map (fun (y : Saved) =>
        if y.job = job then { y with cores := put y.cores core after } else y) })

/-- An event of a request by its core's tag, where the request stands: on the core, or with a saved tenant (R319, R133). -/
def State.atTag (s : State) (core tag : Nat) (f : State → State) : State :=
  if ((s.core core).req tag).isSome || isKernel core then f s
  else match (s.die (dieOf core)).saved.find? (fun x => ((look {} x.cores core).req tag).isSome) with
    | some x => s.onTenant core x.job f
    | none => s

/-- The core a waiting request belongs to, live or saved. -/
def State.coreFor (s : State) (core job : Nat) : Core :=
  if isKernel core then s.core core
  else match (s.die (dieOf core)).saved.find? (fun x => x.job == job) with
    | some x => look {} x.cores core
    | none => s.core core

/-- Performs a request at a key if its word allows it. -/
def State.tryServe (s : State) (core : Nat) (r : Req) (k : Nat) : Option State :=
  let pid := pidOf core r.pn
  (s.mem.serve r pid k (s.wordSeen core r.pn r.path (k / 8))).map (fun x =>
    let s1 := if r.ended || !r.kind.readsData then s
      else if r.kind.isLoad then s.sawWord core r.pn r.path (k / 8)
      else s.remember core r.pn (k / 8) x.1.age
    let s2 := { s1 with mem := x.1 }
    let s3 := if x.2.poisoned && r.kind.writes && !r.kind.readsData then s2.poisonStore pid k else s2
    (s3.finish core x.2).answerReq core x.2)

/-- One scan of the waiting operations of a word, oldest first (R131). -/
def State.scanOnce (s : State) (die word : Nat) : List Waiter → State × Bool
  | [] => (s, false)
  | w :: ws =>
    if w.word != word then s.scanOnce die word ws
    else
      match (s.coreFor w.core w.job).req w.tag with
      | none => s.scanOnce die word ws
      | some r =>
        let k := word * 8 + r.ea.toNat % 8
        let go : Req := { r with phase := .sent }
        if (s.mem.serve go 0 k 0).isNone then s.scanOnce die word ws
        else
          let t := s.onTenant w.core w.job (fun u => (u.tryServe w.core go k).getD u)
          let t := t.modDie die (fun d => { d with waits := d.waits.filter (fun x => !(x == w)) })
          ((t.scanOnce die word ws).1, true)

/-- SYNC_RESCAN (R131): scans until a full pass performs nothing. -/
def State.rescanFuel (s : State) (die word : Nat) : Nat → State
  | 0 => s
  | n + 1 =>
    let r := s.scanOnce die word ((s.die die).waits)
    if r.2 then r.1.rescanFuel die word n else r.1
def State.rescan (s : State) (k : Nat) : State :=
  let die := dieOfKey k
  if (s.die die).waits.any (fun w => w.word == k / 8) then
    s.rescanFuel die (k / 8) ((s.die die).waits.length + 1)
  else s

/-- The waiting operations of every word of a run that has become EMPTY are scanned again (R131). -/
def State.rescanRange (s : State) (k n : Nat) : State :=
  (((s.die (dieOfKey k)).waits.map (fun w => w.word * 8)).filter (fun w => k ≤ w && w < k + n)).eraseDups.foldl
    (fun t w => t.rescan w) s

/-- A write by an engine, a message or a transfer: bytes on a path, the word FULL, waiting operations rescanned. -/
def State.writeBytes (s : State) (p : Path) (pid job k n v : Nat) : State :=
  if s.mem.isPoisoned k then s.poisonStore pid k
  else if isHostKey k then { s with mem := s.mem.writeOn p pid job k n v }
  else
    let was := s.mem.isFull (k / 8)
    let s := { s with mem := (s.mem.writeOn p pid job k n v).setFull (k / 8) true }
    if was then s else s.rescan k

/-- A request is refused to its core, to be sent again (R132, R319). -/
def State.refuseReq (s : State) (core : Nat) (r : Req) : State :=
  let q : Req := { r with phase := .refused, due := s.ticks + 64 * 2 ^ min r.tries 6, tries := r.tries + 1 }
  (s.modCore core (fun c => c.setReq q)).answerReq core q

/-- A request enters the wait list of its word, or is refused when the list is full (R131, R132). -/
def State.waitAt (s : State) (core : Nat) (r : Req) (k server limit : Nat) : State :=
  let die := dieOfKey k
  let counted (w : Waiter) : Bool := w.server == server && (server < 2 ^ 20 || w.core != server - 2 ^ 20)
  if ((s.die die).waits.filter counted).length < limit then
    (s.modCore core (fun c => c.setReq { r with phase := .waiting })).modDie die (fun d =>
      { d with waits := d.waits ++ [{ word := k / 8, core := core, tag := r.tag, server := server, job := r.job }] })
  else s.refuseReq core r

/-- A request at its point of service: performed, entered or refused; a change of the word's bit rescans. -/
def State.serveAt (s : State) (core : Nat) (r : Req) (k server limit : Nat) : State :=
  let was := s.mem.isFull (k / 8)
  match s.tryServe core r k with
  | some t => if t.mem.isFull (k / 8) == was then t else t.rescan k
  | none => s.waitAt core r k server limit

/-! ### Locations and order (R273 to R277) -/

/-- The pool offsets of the bytes of an element's access: stored bytes, then the scales of R76. -/
def windowBytes (w : Nat) (d : BitVec 256) (i : Nat) : List Nat :=
  (List.range (wdBytes w)).map (wdByte w d i + ·)
    ++ (if wdScales w d then [wdBlockAt d i, wdBandAt d i, wdBandAt d i + 1] else [])

/-- The words of the stored bytes and scales that a window access touches (R74). -/
def windowWords (core w : Nat) (d : BitVec 256) (o n : Nat) : List Nat :=
  ((windowElements w o n).flatMap (fun i => (windowBytes w d i).map (fun b => poolKey core b / 8))).eraseDups

/-- The words a request touches, as its home would find them now; none of an unmapped page. -/
def State.reqWords (s : State) (r : Req) : List Nat :=
  match r.place with
  | .bytes k => [k / 8]
  | .window w d => windowWords r.home w d (r.ea.toNat % 0x1000000) r.size
  | .nowhere =>
    match s.homeFind r.home r.target r.job r.ea.toNat with
    | some k => [k / 8]
    | none => ((s.globalKey r.home r.job r.ea.toNat).map (fun x => x.1 / 8)).toList
  | .fabric _ _ | .dieSpace _ _ => []

/-- Whether two requests touch a common word, and whether they touch common bytes of one. -/
def State.shareWord (s : State) (y r : Req) : Bool := (s.reqWords y).any (fun w => (s.reqWords r).contains w)
def State.shareByte (s : State) (y r : Req) : Bool :=
  s.shareWord y r && (match y.place, r.place with
    | .window _ _, _ | _, .window _ _ => true
    | _, _ => (y.ea.toNat % 8 < r.ea.toNat % 8 + r.size) && (r.ea.toNat % 8 < y.ea.toNat % 8 + y.size))

/-- Accesses to the issuing core's own pool. -/
def Req.ownPool (r : Req) : Bool := !r.global && !r.mesh && (match r.place with
  | .bytes k => 2 ^ 56 ≤ k
  | .window _ _ => true
  | _ => false)

/-- Accesses at mesh and global addresses, to which a region's restrictions apply (R204, R205). -/
def Req.leaves (r : Req) : Bool := r.mesh || r.global

/-- Whether the later access of one process must be performed after the earlier one (R276). -/
def orderedAfter (y r : Req) : Bool :=
  match y.order, r.order with
  | .strong, .strong => true
  | .unordered, _ => false
  | _, .unordered => false
  | _, _ => y.kind.acquire || r.kind.release

/-- The bytes of a word a store writes: offset in the word, and value. -/
def Req.byteOf (y : Req) (i : Nat) : Option Byte :=
  let o := y.ea.toNat % 8
  if o ≤ i && i < o + y.size then some (BitVec.ofNat 8 (y.data.toNat / 256 ^ (i - o))) else none

/-- A store that stands in the store buffer (R124). -/
def Req.inBuffer (y : Req) : Bool := y.kind.buffered && !y.ownPool && (y.phase == .buffered || y.phase == .sent)

/-- Store-buffer entries of a core older than an access, newest first (R125). A mesh store is none of them before its
target has accepted it (R119, R142); its target is asked before the access is performed (State.acceptMesh). -/
def State.olderStores (s : State) (core : Nat) (r : Req) : List Req :=
  ((s.core core).reqs.filter (fun y => y.tag < r.tag && y.inBuffer && (!y.mesh || y.accepted))).reverse

/-- Those that hold bytes of a load. -/
def State.covering (s : State) (core : Nat) (r : Req) : List Req :=
  (s.olderStores core r).filter (fun y => s.shareByte y r)

/-- The full/empty bit that the store-buffer entries of a load's word leave it with (R127, R128). -/
def State.bufferedBit (s : State) (core : Nat) (r : Req) : Bool :=
  (((s.olderStores core r).filter (fun y => s.shareWord y r)).findSome? (fun y => match y.kind with
    | .store => some true
    | .clear => some false
    | _ => none)).getD ((s.reqWords r).all s.mem.isFull)

/-- The bytes of a load that older store-buffer entries hold. -/
def State.forwarded (s : State) (core : Nat) (r : Req) : List (Option Byte) :=
  let ys := s.covering core r
  (List.range r.size).map (fun i => ys.findSome? (fun y => y.byteOf (r.ea.toNat % 8 + i)))

/-- Whether a plain load takes every byte from the store buffer (R125); on a page with FE = 1 only as its word is FULL
with those stores (R127). -/
def State.wholeCover (s : State) (core : Nat) (r : Req) : Bool :=
  r.kind.isLoad && !r.ownPool && (s.forwarded core r).all Option.isSome && (!r.fe || s.bufferedBit core r)

/-- An older access of the core that a request has to wait for. A store to the own pool is performed in the cycle after
its issue (R124), behind the process's own accesses to its words (R274) and its acquires (R276) only (log 7); a load waits
for the bytes of it that the store buffer holds, if it cannot take every byte from there (R125), and every other access for
a store to its word that a FENCE.C has followed (R278); the rest is R274, R276 and R277. -/
def State.blockedBy (s : State) (whole : Bool) (r y : Req) : Bool :=
  let same := s.shareWord y r
  let mine := y.pn == r.pn
  y.tag < r.tag && y.phase != .performed
    && (if r.ownPool && r.kind.buffered then mine && (orderedAfter y r || (y.ownPool && same))
      else (mine && orderedAfter y r && !(whole && y.kind.buffered && same))
        || (mine && same && !(r.kind.isLoad && y.kind.buffered))
        || (y.kind.buffered && r.kind.buffered && !y.ownPool && (same || (y.order == .strong && r.order == .strong)))
        || (r.kind.isLoad && !whole && y.kind.buffered && y.phase != .full && (mine || !y.ownPool) && s.shareByte y r)
        || (y.fencedC && !r.kind.isLoad && !r.kind.buffered && same))

/-- The fetcher serves the ITERs of one process in issue order: a later one claims only once the earlier have been
answered (R166). -/
def Req.behindIter (r y : Req) : Bool :=
  r.kind == .iterClaim && y.kind == .iterClaim && y.pn == r.pn && y.tag < r.tag && !y.ended

/-- Whether a request may be performed now. -/
def State.mayPerform (s : State) (core : Nat) (r : Req) : Bool :=
  let whole := s.wholeCover core r
  (s.core core).reqs.all (fun y => !s.blockedBy whole r y && !r.behindIter y)

/-! ### Arrival at the point of service -/

/-- A target core's answer to a request it refuses (R119). -/
def State.refuseMesh (s : State) (core : Nat) (r : Req) (c : Cause) : State :=
  s.modCore core (fun k => k.setReq { r with phase := .performed, fault := some (c, r.ea) })

/-- The cause with which the target core of a mesh access refuses it now (R119, R336); none of one it has accepted. -/
def State.meshCause (s : State) (r : Req) : Option Cause :=
  let t := s.core r.home
  if r.accepted then none
  else if !(t.gateV && t.gateJob.toNat == r.job) then some .prot
  else if t.gated then none
  else if !localOk t.part r.kind.writes (r.ea.toNat % 2 ^ 25) r.size then some .localbound
  else if r.ea.toNat % r.size != 0 then some .align
  else none

/-- What a mesh access waits for at its target, or what the target answers, before it takes or changes a byte (R119,
R385). -/
def State.atTarget (s : State) (core : Nat) (r : Req) (go : State → State) : State :=
  if (s.die (dieOf r.home)).isSaved r.job then s.refuseReq core r
  else match s.meshCause r with
    | some c => s.refuseMesh core r c
    | none =>
      if (s.core r.home).gated then (if (s.core r.home).wakeEnd.isNone then s.later (.coreWake r.home) else s) else go s

/-- A window access performed (R72 to R76): flags to VSTAT, class G values drawn from SRCTR. A store of several elements reads
every scale as it stands before its own writes (DESIGN CHOICE, log 29). -/
def State.performWindow (s : State) (core : Nat) (r : Req) (w : Nat) (d : BitVec 256) : State :=
  let c := s.core core
  let p := c.proc r.pn
  let es := (winSpec w).prog.width / 8
  let elems := windowElements w (r.ea.toNat % 0x1000000) r.size
  let poison := (elems.flatMap (windowBytes w d)).find? (fun o => s.mem.isPoisoned (poolKey core o))
  let (s, view) := s.viewOn core r.pn .c (windowWords core w d (r.ea.toNat % 0x1000000) r.size)
  if r.kind.isLoad then
    let reads := elems.map (fun i => windowRead view core w d i)
    let v := (reads.foldr (fun x acc => x.1 + 2 ^ (8 * es) * acc) 0)
    let signed := match r.kind with | .load b => b | _ => false
    let flags := reads.foldl (fun f x => f ||| x.2) 0
    (s.modLive core r.pn (fun p => p.orVstat flags)).finish core
      { r with phase := .performed, result := extend signed r.size v, poisoned := poison.isSome,
               cmp := word (poison.getD 0) }
  else
    let go := elems.zipIdx.foldl (fun (acc : State × BitVec 5) x =>
      let (t, fl) := acc
      let (i, j) := x
      let k := poolKey core (wdByte w d i)
      let v := (winSpec w).prog.decode (r.data.toNat / 2 ^ (8 * es * j) % 2 ^ (8 * es))
      let mode := methodMode (winSpec w).method c.jseed c.lcn (p.srctr.setWidth 64 + word j) (wdRow d i) (wdCol d i)
        (wdTseq d)
      let r1 := windowCode view core w d i mode v
      let e := k + wdBytes w - 1
      if t.mem.isPoisoned k || t.mem.isPoisoned e then (t.poisonStore (pidOf core r.pn) k, fl ||| r1.2)
      else
        let was := t.mem.isFull (k / 8) && t.mem.isFull (e / 8)
        let m := storeCode t.mem core (pidOf core r.pn) (s.jobOf core) w d i r1.1
        let t := { t with mem := (m.setFull (k / 8) true).setFull (e / 8) true }
        (if was then t else (t.rescan k).rescan e, fl ||| r1.2)) (s, 0)
    let draws := if (winSpec w).method == .classG then elems.length else 0
    (go.1.modLive core r.pn (fun p =>
      { p.orVstat go.2 with srctr := p.srctr + BitVec.ofNat 40 draws })).finish core { r with phase := .performed }

/-- A request of another die's walker: the home's frame table has no entry (R329). -/
def State.askHome (s : State) (core : Nat) (r : Req) : State :=
  if r.homeWait then s
  else (s.modCore core (fun c => c.setReq { r with homeWait := true })).modDie r.home (fun d => { d with
    walks := d.walks ++ [{ job := r.job, va := r.ea.toNat, asker := .home (serverOf r.target) core r.tag }] })

/-- A line of host memory is taken in exclusive state before an access (R348). -/
def State.ownHostLine (s : State) (k : Nat) : State :=
  s.modPkg (k / 2 ^ 44) (fun p =>
    if p.hostLines.any (fun e => e.1 == k / 64) then p
    else { p with hostLines := put p.hostLines (k / 64) (s.mem.bytes (k / 64 * 64) 64) })

/-- A request at a home that completes without being served: with a value, or as poisoned; it is answered. -/
def State.closeReq (s : State) (core : Nat) (r : Req) (poisoned : Bool) : State :=
  let q : Req := { r with phase := .performed, poisoned := poisoned, homeWait := false }
  (s.finish core q).answerReq core q

/-- A request in the sink completes as poisoned, and is answered. -/
def State.sinkReq (s : State) (core : Nat) (r : Req) (die : Nat) : State :=
  let x := (s.sink die 7 (pidOf core r.pn) r.job r.ea).landReq core r
  x.1.closeReq core x.2 true

/-- The request at its point of service, its key found (R119, R137, R143, R329). -/
def State.reach (s : State) (core : Nat) (r : Req) : State :=
  match r.place with
  | .window w d => s.performWindow core r w d
  | .fabric pkg off =>
    if r.kind.isLoad then s.finish core { r with phase := .performed, result := s.fabricRegister pkg off }
    else (s.registerWrite (r.home) 0 off r.data).finish core { r with phase := .performed }
  | .dieSpace die off =>
    if r.kind.isLoad then s.finish core { r with phase := .performed, result := s.dieRegister die off }
    else (s.registerWrite die 1 off r.data).finish core { r with phase := .performed }
  | .bytes k =>
    if r.mesh then s.atTarget core r (fun s => s.serveAt core r k (poolServer r.home) (if r.home = core then 2 ^ 20 else 64))
    else if r.ownPool then s.serveAt core r k (poolServer core) (2 ^ 20)
    else
      let s := if r.host then s.ownHostLine k else s
      s.serveAt core r k (homeServer r.home r.target) 4096
  | .nowhere =>
    if r.discarded then s.closeReq core { r with result := 0, bit := true } false
    else match s.homeFind r.home r.target r.job r.ea.toNat with
      | none => s.askHome core r
      | some k =>
        let s := if r.host then s.ownHostLine k else s
        s.serveAt core r k (homeServer r.home r.target) 4096

/-- A plain load that takes every byte from the store buffer: it needs no home, and any packet of it is recalled (R125). -/
def State.forwardLoad (s : State) (core : Nat) (r : Req) : State :=
  let v := (s.forwarded core r).foldr (fun b acc => (b.getD 0).toNat + 256 * acc) 0
  let signed := match r.kind with | .load b => b | _ => false
  (s.recallReq core r).finish core { r with phase := .performed, result := extend signed r.size v, early := true }

/-- Requests that never wait (MEMORY_REQUEST_ARRIVAL) and requests that may (SYNC_REQUEST_ARRIVAL). -/
def Req.plain (r : Req) : Bool :=
  match r.kind with
  | .load _ => !r.fe
  | .readf | .take | .put | .fill => false
  | .store | .peek | .clear | .ovwr | .amo _ | .cas | .iterClaim => true
def Req.syncs (r : Req) : Bool := r.kind.isSync || r.fe

/-- A request on its way arrives when every older access it is ordered after has been performed. -/
def State.arriveOne (s : State) (core tag : Nat) (which : Req → Bool) : State :=
  match (s.core core).req tag with
  | none => s
  | some r =>
    if r.phase == .sent && which r && !r.homeWait && r.due ≤ s.ticks && s.mayPerform core r then
      if s.wholeCover core r then (if r.mesh then s.atTarget core r (fun s => s.forwardLoad core r) else s.forwardLoad core r)
      else if !s.reqHere core r then s
      else if dieOf core != r.serviceDie && s.quarantines r.serviceDie r.job then s.sinkReq core r r.serviceDie
      else
        let x := s.landReq core r
        x.1.reach core x.2
    else s

/-- Older requests brought to their points of service first, in issue order, as far as their own order lets them. -/
def State.arriveFirst (s : State) (core : Nat) (which : Req → Bool) : State :=
  ((s.core core).reqs.filter which).foldl (fun t y =>
    (if y.phase == .buffered then t.sendReq core y else t).arriveOne core y.tag Req.plain) s

/-- The target of a mesh store that stands in the store buffer, and is held there by an older access of its process, accepts
it: loads of the core may take its bytes from there (R119, R125). -/
def State.acceptMesh (s : State) (core tag : Nat) : State :=
  match (s.core core).req tag with
  | none => s
  | some y =>
    if y.inBuffer && y.mesh && !(s.die (dieOf y.home)).isSaved y.job && !(s.core y.home).gated && (s.meshCause y).isNone then
      s.modCore core (fun c => c.setReq { y with accepted := true })
    else s

/-- The process's accesses that are not performed yet are performed, as far as their order lets them. -/
def State.settleOwn (s : State) (core pn : Nat) : State :=
  s.arriveFirst core (fun y => y.pn == pn && y.phase != .performed)

/-- An arrival. Before a load of bytes that a mesh store of the buffer holds, that store's target answers (R119, R125,
R142); before a store to the own pool, the process's older accesses it is held behind are performed (R124, R274). -/
def State.arrive (s : State) (core tag : Nat) (which : Req → Bool) : State :=
  match (s.core core).req tag with
  | none => s
  | some r =>
    let s :=
      if r.phase != .sent || !which r then s
      else if r.kind.isLoad then
        let held (y : Req) : Bool := y.tag < r.tag && y.inBuffer && y.mesh && s.shareByte y r
        ((s.core core).reqs.filter held).foldl (fun t y => t.acceptMesh core y.tag) (s.arriveFirst core held)
      else if r.ownPool && r.kind.buffered && r.due ≤ s.ticks && !s.mayPerform core r then
        s.arriveFirst core (fun y => y.tag < r.tag && y.pn == r.pn && y.phase != .performed)
      else s
    s.arriveOne core tag which

/-- Whether the writes of a process to its own pool that were issued before a tag are performed: stores, AMOs and CASes
(R282). -/
def Core.ownWritesDone (c : Core) (pn upto : Nat) : Bool :=
  c.reqs.all (fun r => r.pn != pn || upto ≤ r.tag || !r.ownPool || !r.kind.writes || r.phase == .performed)

/-- An instruction that reads its process's pool as that process's writes leave it (R78, R256, R300): it goes on once they are
performed, for which they do not have to be waited for but behind an acquire that is not performed (log 7). -/
def State.afterOwnWrites (t : State) (k : State → State) : State :=
  let u := t.settleOwn t.ctx.core t.ctx.pn
  if (u.core t.ctx.core).ownWritesDone t.ctx.pn (u.core t.ctx.core).nextTag then k u
  else t.block .blockedSync (.ownWrites (t.core t.ctx.core).nextTag)

/-- The instruction of a blocked process issues again. -/
def State.reissue (s : State) (core pn : Nat) : State :=
  (s.modProc core pn (fun q => { q with pc := q.bpc, repDone := q.bDone, repRemain := q.bRemain, inRep := false })).wake core pn

/-- An instruction that waits for its process's own writes issues again once they are performed. -/
def State.ownWritesGo (s : State) (core pn : Nat) : State :=
  match (s.proc core pn).wait with
  | .ownWrites upto =>
    let u := s.settleOwn core pn
    if (u.core core).ownWritesDone pn upto then u.reissue core pn else u
  | _ => s

/-- The words of a record in the scratchpad that an instruction of a process reads as one access (R78, R256). -/
def State.recordWords (s : State) (core pn : Nat) (a : Word) (n : Nat) : List Word :=
  (s.readRun core pn .c (poolKey core a.toNat) n).2

/-- The state after that read: it is remembered (R274), and a poisoned line of it gives its process POISON (R378). -/
def State.recordRead (s : State) (core pn : Nat) (a : Word) (n : Nat) : State :=
  let k := poolKey core a.toNat
  let t := (s.readRun core pn .c k n).1
  match s.mem.poisonIn k (8 * n) with
  | some l => t.poisonRead core pn (word (l * 64 % 2 ^ 21))
  | none => t

/-- MEMORY_REQUEST_ARRIVAL (R137): a store, load, AMO or CAS is performed in the location's single order. -/
def execMemoryRequestArrival (core tag : Nat) (s : State) : Answer := .next (s.arrive core tag Req.plain)

/-- SYNC_REQUEST_ARRIVAL (R131): a sync operation is performed, entered as a waiter, or refused. -/
def execSyncRequestArrival (core tag : Nat) (s : State) : Answer := .next (s.arrive core tag Req.syncs)

/-- HOME_WALK_COMPLETION (R329): the home's walker has read the PTE; the entry is filled and the request performed, or it
completes as poisoned with a MISMATCH report; that of a saved tenant's request too (R319). -/
def execHomeWalkCompletion (die idx : Nat) (s : State) : Answer :=
  .next (match takeAt (s.die die).walks idx with
    | none => s
    | some (w, rest) =>
      match w.asker with
      | .home server core tag =>
        if 16 ≤ idx then s
        else
          let s := s.modDie die (fun d => { d with walks := rest })
          s.atTag core tag (fun s => match (s.core core).req tag with
          | none => s
          | some r =>
            if server != serverOf r.target then s
            else match s.homeKey r.home r.target r.job r.ea.toNat with
              | (s, some k) =>
                let s := if r.host then s.ownHostLine k else s
                s.serveAt core { r with homeWait := false } k (homeServer r.home r.target) 4096
              | (s, none) => (s.mismatch r.home r.job r.ea.toNat).closeReq core r true)
      | _ => s)

/-- REQUEST_RETRY (R132): the core sends a refused request again. -/
def execRequestRetry (core tag : Nat) (s : State) : Answer :=
  .next (match (s.core core).req tag with
    | some r => if r.phase == .refused && r.due ≤ s.ticks then s.sendReq core r else s
    | none => s)

/-! ### Store buffer and request table (R124) -/

/-- Entries of the store buffer and of the request table in use. -/
def Core.bufferUsed (c : Core) : Nat :=
  (c.reqs.filter (fun r => r.kind.buffered && !r.ownPool && r.phase != .full && r.phase != .performed)).length
def Core.tableUsed (c : Core) : Nat :=
  (c.reqs.filter (fun r => !r.kind.buffered && !r.ownPool && r.phase != .full)).length

/-- Whether an access finds an entry. -/
def Core.entryFree (c : Core) (r : Req) : Bool :=
  r.ownPool || (if r.kind.buffered then c.bufferUsed < 64 else c.tableUsed < 128)

/-- An access that has its entry starts on its way: a store stands in the store buffer, a request is sent. -/
def State.startReq (s : State) (core : Nat) (r : Req) : State :=
  if r.kind.buffered && !r.ownPool then s.modCore core (fun c => c.setReq { r with phase := .buffered })
  else s.sendReq core r

/-- STORE_BUFFER_DRAIN (R124, R277): a store leaves the buffer. -/
def execStoreBufferDrain (core tag : Nat) (s : State) : Answer :=
  .next (match (s.core core).req tag with
    | some r =>
      if r.phase == .buffered && (r.order != .strong || (s.core core).reqs.all (fun y =>
          !(y.tag < r.tag && y.kind.buffered && y.order == .strong && y.phase != .performed))) then s.sendReq core r
      else s
    | none => s)

/-- BUFFER_ENTRY_FREED (R124): a waiting access is entered and its process continues at npc. -/
def execBufferEntryFreed (core tag : Nat) (s : State) : Answer :=
  .next (match (s.core core).req tag with
    | some r =>
      if r.phase == .full && (s.core core).entryFree r then
        let s := s.startReq core r
        if (s.proc core r.pn).wait == .bufferFull tag then
          (if r.blocks then s.modProc core r.pn (fun p => { p with wait := .access tag }) else s.wake core r.pn)
        else s
      else s
    | none => s)

/-! ### Issue -/

/-- The registers a request's result goes to. -/
def Req.dests (r : Req) : List Nat :=
  match r.kind with
  | .load _ | .readf | .take | .amo _ | .cas => [r.dest]
  | .peek => [r.dest, r.dest + 1]
  | .iterClaim => [r.dest, r.dest + 1, r.dest + 2, r.dest + 3]
  | .store | .put | .fill | .clear | .ovwr => []

/-- Sets or clears the pending tags of registers. -/
def Proc.pendAll (p : Proc) (ds : List Nat) (b : Bool) : Proc := ds.foldl (fun q d => q.setPending d b) p

/-- Whether a process has an open speculation region (R203). -/
def Core.regionOf (c : Core) (pn : Nat) : Bool := c.hold.owner == some pn && !c.hold.committing

/-- The bytes of a mesh or global load or PEEK that the newest held stores of its process's region cover (R204). -/
def Core.heldBytes (c : Core) (r : Req) : List (Option Byte) :=
  if !c.regionOf r.pn || !r.leaves || !(r.kind.isLoad || r.kind == .peek) then []
  else
    let held := c.hold.items.reverse.filterMap (fun x => match x with
      | .store y => if y.job == r.job && y.ea.toNat / 8 == r.ea.toNat / 8 then some y else none
      | _ => none)
    (List.range r.size).map (fun i => held.findSome? (fun y => y.byteOf (r.ea.toNat % 8 + i)))

/-- An access that passed its checks is entered for a process, by number; answers the state and its request. -/
def State.enterReq (s : State) (core : Nat) (r : Req) : State × Req :=
  let c := s.core core
  let r := { r with tag := c.nextTag, blocks := r.blocks || r.mesh, kept := c.heldBytes r
                    due := if r.ownPool && r.kind.buffered then s.ticks + 1 else s.ticks }
  let free := c.entryFree r
  let r := { r with phase := if free then .sent else .full }
  let s := s.modCore core (fun c => { c with nextTag := c.nextTag + 1, reqs := c.reqs ++ [r] })
  let s := s.modProc core r.pn (fun p => p.pendAll r.dests true)
  (if free then s.startReq core r else s, r)

/-- The wait of a process whose access was entered: for a free entry, for its answer, or none. -/
def Req.wait (r : Req) : Option Wait :=
  if r.phase == .full then some (.bufferFull r.tag) else if r.blocks then some (.access r.tag) else none

/-- A TLB miss: the die's walker is asked (R120, R326). -/
def State.askWalk (s : State) (core pn : Nat) (va job : Nat) : State :=
  s.modDie (dieOf core) (fun d => { d with walks := d.walks ++ [{ job := job, va := va, asker := .access core pn }] })

/-- A request resolved by locate, with the fields its place gives. -/
def placed (core : Nat) (r : Req) : Located → Req
  | .own off => { r with place := .bytes (poolKey core off), order := .pool, home := core }
  | .tensor w d => { r with place := .window w d, order := .pool, home := core }
  | .away q => q
  | .trap _ | .miss => r

/-- Bytes held in the hold buffer (R204). -/
def HoldItem.bytes : HoldItem → Nat
  | .store _ => 8
  | .message _ _ _ b => b
def Hold.room (h : Hold) (n : Nat) : Bool := h.items.length < 32 && (h.items.map HoldItem.bytes).sum + n ≤ 8192

/-- A store enters the hold buffer, in the order of the accesses of its core. -/
def Core.holdStore (c : Core) (r : Req) : Core :=
  { c with hold := { c.hold with items := c.hold.items ++ [.store { r with tag := c.nextTag }] }, nextTag := c.nextTag + 1 }

/-- Mesh and global addresses, to which a region's restrictions apply (R204, R205). -/
def Space.leaves : Space → Bool
  | .mesh _ _ _ | .global => true
  | _ => false

/-- A located access of a process: held in its region, or entered and waited for. -/
def State.enterLocated (t : State) (core : Nat) (r : Req) (l : Located) : State :=
  let r := placed core r l
  if r.kind.buffered && r.leaves && (t.core core).regionOf r.pn then
    if (t.core core).hold.room 8 then
      (t.modCore core (fun c => c.holdStore r)).advance
    else t.trap .specovf 0
  else
    let x := t.enterReq core r
    match x.2.wait with
    | some w => x.1.block .blockedSync w
    | none => x.1.advance

/-- A memory instruction's access: the checks of R116 to R121 and R205, then its effect (R123, R129, R135, R138). -/
def State.access (t : State) (r : Req) : State :=
  let core := t.ctx.core
  let r := { r with pn := t.ctx.pn, fpc := t.ctx.pc, finst := t.ctx.word, job := t.jobOf core }
  let bars := match r.kind with
    | .readf | .take | .put | .fill | .amo _ | .cas => true
    | _ => false
  if r.pn = 256 && r.kind.waits then t.trap .prot r.ea
  else if bars && (t.core core).regionOf r.pn && (spaceOf (isKernel core) r.ea).leaves then t.trap .prot r.ea
  else
    let t := match (t.core core).tlbFind r.job r.ea.toNat with
      | some e => if spaceOf (isKernel core) r.ea == Space.global then t.modCore core (fun c => c.tlbTouch e) else t
      | none => t
    match t.locate core r with
    | .trap c => t.trap c r.ea
    | .miss => (t.askWalk core r.pn r.ea.toNat r.job).block .blockedSync (.walk r)
    | l => t.enterLocated core r l

/-- After its walk a blocked access traps, or is entered; the process then waits for it or goes on (R120). An ITER issues
again, since the chunk of an earlier one may have come meanwhile (R166). -/
def State.resumeAccess (s : State) (core pn : Nat) (r : Req) : State :=
  match s.locate core r with
  | .trap c => s.trapBlocked core pn c r.ea
  | .miss => s.askWalk core pn r.ea.toNat r.job
  | l =>
    let r := placed core r l
    if r.kind == .iterClaim then s.reissue core pn
    else if r.kind.buffered && r.leaves && (s.core core).regionOf pn then
      if (s.core core).hold.room 8 then
        (s.modCore core (fun c => c.holdStore r)).wake core pn
      else s.trapBlocked core pn .specovf 0
    else
      let x := s.enterReq core r
      match x.2.wait with
      | some w => x.1.modProc core pn (fun p => { p with wait := w })
      | none => x.1.wake core pn

/-! ### Completions -/

/-- What the held stores of the issuer's region gave at issue, over what a load read (R204). -/
def Req.overlay (r : Req) (v : Nat) : Nat :=
  ((List.range r.size).map (fun i => match (r.kept.getD i none) with
    | some b => b.toNat
    | none => v / 256 ^ i % 256)).foldr (fun b acc => b + 256 * acc) 0

/-- The value a load or PEEK delivers. -/
def Req.loadValue (r : Req) : Word :=
  match r.kind with
  | .load signed => extend signed r.size (r.overlay (r.result.toNat % 256 ^ r.size))
  | .peek => word (r.overlay r.result.toNat)
  | _ => r.result

/-- An observation covers every write performed so far on every path (R141; log 7). -/
def State.observeAll (s : State) (core pn : Nat) : State :=
  s.modLive core pn (fun p => { p with observed := [Path.c, .v, .m, .y, .n, .s, .h].map (fun q => (q, s.mem.age)) })

/-- An edge of R279 hands over what XFENCEs have carried so far (R281; log 7). -/
def State.takeCarries (s : State) (core pn : Nat) : State := s.modLive core pn (fun p => { p with carried := s.carries })

/-- An acquire observes, and takes over what XFENCEs have carried so far (R279, R281; log 7). -/
def State.acquireAll (s : State) (core pn : Nat) : State := (s.observeAll core pn).takeCarries core pn

/-- An acquire, unless its page is UNORDERED (R276). -/
def Req.acquires (r : Req) : Bool := r.kind.acquire && r.order != .unordered

/-- A load of a STRONG location that read memory: what it read may be another core's store, and is then an edge from that
store (R277, R279). -/
def Req.readsStrong (r : Req) : Bool := r.kind.isLoad && r.order == .strong && !r.early

/-- The result of a request reaches its registers; flags reach FCTL (R17, R136). -/
def State.deliverResult (s : State) (core : Nat) (r : Req) : State :=
  let v := r.loadValue
  let s := s.modCore core (fun c => c.dropReq r.tag)
  if r.ended then s
  else
    let s := s.modLive core r.pn (fun p => p.orFctl r.flags)
    match r.kind with
    | .peek => (s.arriveReg core r.pn r.dest v).arriveReg core r.pn (r.dest + 1) (if r.bit then 1 else 0)
    | .load _ | .readf | .take | .amo _ | .cas => s.arriveReg core r.pn r.dest v
    | .store | .put | .fill | .clear | .ovwr | .iterClaim => s

/-- The address of the poisoned line of a request: of a window's load, the pool offset its cmp holds (R73, R144). -/
def Req.poisonLine (r : Req) : Word :=
  (match r.place with | .window _ _ => r.cmp | _ => r.ea) &&& ~~~(63 : Word)

/-- Poisoned data: the destination stays pending, and POISON is to be raised at the next boundary (R144). -/
def State.deliverPoison (s : State) (core : Nat) (r : Req) : State :=
  let s := s.modCore core (fun c => c.dropReq r.tag)
  if r.ended then s
  else s.poisonRead core r.pn r.poisonLine

/-- The record of an ended process's request that was performed before its withdrawal arrived (R133, R382). -/
def State.performedRecord (s : State) (core : Nat) (r : Req) : State :=
  s.invRecord (dieOf core) { item := 7, state := 1, reason := 0, job := r.job, pid := pidOf core r.pn, started := false,
                             itemid := r.ea, value := if r.kind == .readf || r.kind == .take then r.result else 0,
                             cycle := 0 }

/-- MEMORY_RESPONSE (R123, R136, R144): the answer of a load, PEEK, AMO or CAS reaches its core. -/
def execMemoryResponse (core tag : Nat) (s : State) : Answer :=
  .next (s.atTag core tag (fun s => match (s.core core).req tag with
    | some r =>
      if r.phase == .performed && r.fault.isNone && !(r.mesh && r.blocks && !r.answered) && s.answerHere core tag
        && (match r.kind with | .load _ | .peek | .amo _ | .cas => true | _ => false) then
        let s := s.takeAnswer core tag
        let s := if r.ended then s else if r.acquires then s.acquireAll core r.pn
          else if r.readsStrong then s.takeCarries core r.pn
          else if r.kind.isSync then s.observeAll core r.pn else s
        let s := if r.poisoned then s.deliverPoison core r else s.deliverResult core r
        (if r.withdrawn then s.performedRecord core r else s).reap core r.pn
      else s
    | none => s))

/-- MESH_ACCESS_ANSWER (R119): the target's answer reaches the issuer: it goes on, or its instruction traps. -/
def execMeshAccessAnswer (core tag : Nat) (s : State) : Answer :=
  .next (s.atTag core tag (fun s => match (s.core core).req tag with
    | some r =>
      if r.mesh && !r.answered && (r.phase == .performed || r.phase == .waiting) then
        match r.fault with
        | some (c, a) =>
          let s := s.modCore core (fun k => k.dropReq tag)
          let s := if r.release && !r.ended then s.modCore core (fun k => { k with hold := { k.hold with committing := false } })
            else s
          if r.ended then s.reap core r.pn
          else (s.modProc core r.pn (fun p => p.pendAll r.dests false)).trapBlocked core r.pn c a
        | none =>
          let s := s.modCore core (fun c => if r.kind.buffered then c.dropReq tag else c.setReq { r with answered := true })
          let blocking := match r.kind with | .readf | .take | .put | .fill => true | _ => false
          if !blocking && !r.ended && (s.proc core r.pn).wait == .access tag then s.wake core r.pn else s
      else s
    | none => s))

/-- SYNC_COMPLETION (R129, R130): the result is written and the process becomes RUNNING or READY. -/
def execSyncCompletion (core tag : Nat) (s : State) : Answer :=
  .next (s.atTag core tag (fun s => match (s.core core).req tag with
    | some r =>
      if r.phase == .performed && r.fault.isNone && s.answerHere core tag
        && (match r.kind with | .readf | .take | .put | .fill => true | _ => false) then
        let s := s.takeAnswer core tag
        let poison := r.poisoned && r.kind.readsData
        let s := if r.ended then s else if r.acquires then s.acquireAll core r.pn
          else if r.kind.isSync then s.observeAll core r.pn else s
        let s := if poison then s.deliverPoison core r else s.deliverResult core r
        let s := if r.ended then s else s.wake core r.pn
        (if r.withdrawn then s.performedRecord core r else s).reap core r.pn
      else s
    | none => s))

/-- The request of an ended process is removed before it was performed: its word is unchanged (R133). -/
def State.removeReq (s : State) (core : Nat) (r : Req) : State :=
  let s := (s.invRecord (dieOf core) { item := 7, state := 2, reason := r.why.toNat, job := r.job, pid := pidOf core r.pn,
                                       started := false, itemid := r.ea, value := 0, cycle := 0 }).modCore core
    (fun c => c.dropReq r.tag)
  let s := s.modDie r.serviceDie (fun d => { d with
    waits := d.waits.filter (fun w => !(w.core == core && w.tag == r.tag))
    saved := d.saved.map (fun (x : Saved) => { x with waits := x.waits.filter (fun w => !(w.core == core && w.tag == r.tag)) })
    walks := d.walks.filter (fun w => !(w.asker == .home (serverOf r.target) core r.tag)) })
  if r.phase == .waiting || r.homeWait then s.answerReq core { r with phase := .refused } else s

/-- SYNC_WITHDRAWAL (R133): the withdrawal of an ended process's request reaches the point of service, behind the request:
a waiting entry is removed with the word unchanged; a performed one stands and is recorded COMPLETE with the value it read.
A request that stands refused at its core is removed. -/
def execSyncWithdrawal (core tag : Nat) (s : State) : Answer :=
  .next (s.atTag core tag (fun s => match (s.core core).req tag with
    | some r =>
      if !r.withdrawn || ((r.phase == .sent || r.phase == .full) && !r.homeWait) then s
      else if r.phase == .performed then
        (((s.takeAnswer core tag).modCore core (fun c => c.dropReq tag)).performedRecord core r).reap core r.pn
      else (s.removeReq core r).reap core r.pn
    | none => s))

/-- The instruction word at an address as the cache or memory holds it, for FINST (R144). -/
def State.codeWord (s : State) (core pn : Nat) : BitVec 32 :=
  let p := s.proc core pn
  let addr := (if p.inRep then p.pc + 4 else p.pc).toNat
  match (s.core core).slotOf pn with
  | some i => (s.wordAt core i addr).getD 0
  | none => (s.wordAt core 16 addr).getD 0

/-- POISON_DELIVERY (R144, R297, R380): the cause is raised at the process's next instruction boundary. -/
def execPoisonDelivery (core pn : Nat) (s : State) : Answer :=
  let p := s.proc core pn
  .next (match p.asyncTrap with
    | some (c, a) =>
      if (p.state == .running || p.state == .ready) && !p.held then
        (s.modProc core pn (fun p => { p with asyncTrap := none })).trapAt core pn c a p.pc (s.codeWord core pn)
      else s
    | none => s)

/-! ### Walks (R120, R326) -/

/-- TLB_WALK_COMPLETION (R120, R325, R326): the walk's leaf enters the core's TLB, and the access that waits traps or
proceeds. -/
def execTlbWalkCompletion (die idx : Nat) (s : State) : Answer :=
  .next (match takeAt (s.die die).walks idx with
    | none => s
    | some (w, rest) =>
      if 16 ≤ idx then s
      else if w.stale then s.modDie die (fun d => { d with walks := rest ++ [{ w with stale := false }] })
      else match w.asker with
        | .access core pn =>
          let s := s.modDie die (fun d => { d with walks := rest })
          match (s.proc core pn).wait with
          | .walk r =>
            if r.ea.toNat != w.va then s
            else match s.walk die w.job w.va with
              | .fault c => s.trapBlocked core pn c r.ea
              | .leaf p large =>
                if p.getLsbD 0 then
                  (s.modCore core (fun c => c.tlbEnter w.job w.va p large)).resumeAccess core pn r
                else s.trapBlocked core pn (absentCause p) r.ea
          | .inlineCall _ _ _ _ va _ =>
            if va.toNat != w.va then s
            else match s.walk die w.job w.va with
              | .fault c => s.trapBlocked core pn c va
              | .leaf p large =>
                if p.getLsbD 0 then s.modCore core (fun c => c.tlbEnter w.job w.va p large)
                else s.trapBlocked core pn (absentCause p) va
          | .inlineReturn _ (some va) =>
            if va.toNat != w.va then s
            else match s.walk die w.job w.va with
              | .fault c => s.trapBlocked core pn c va
              | .leaf p large =>
                if p.getLsbD 0 then s.modCore core (fun c => c.tlbEnter w.job w.va p large)
                else s.trapBlocked core pn (absentCause p) va
          | .retryWalk va =>
            if va.toNat != w.va then s
            else match s.walk die w.job w.va with
              | .fault c => s.trapBlocked core pn c va
              | .leaf p large =>
                if p.getLsbD 0 then
                  (s.modCore core (fun c => c.tlbEnter w.job w.va p large)).reissue core pn
                else s.trapBlocked core pn (absentCause p) va
          | _ => s
        | _ => s)

end Sys2Proof.Machine
end

