-- ==== Sys2Proof/Machine/Access.lean ====
section
/-! DEFINITION. The memory instructions: loads and stores (R122, R123), sync operations (R128, R129), atomic operations
(R134 to R138) and fences (R139 to R141), with the releases of fences. -/

namespace Sys2Proof.Machine

/-! ### Loads, stores and sync operations -/

/-- The effective address of an M format access of n bytes (R117, R123). -/
def State.ea (s : State) (a : BitVec 5) (o : BitVec 11) (n : Nat) : Word := s.g (s.ra a) + imm o * BitVec.ofNat 64 n

/-- A load of n bytes (R123). -/
def State.loadOp (s : State) (w : BitVec 2) (d a : BitVec 5) (o : BitVec 11) (n : Nat) (signed : Bool) : Answer :=
  s.issue w { reads := [s.ra a], writes := [s.rd d], var := true } (fun t =>
    t.access { kind := .load signed, ea := s.ea a o n, size := n, dest := s.rd d })

/-- A store of the low n bytes of a register (R123), or a sync store (R129). -/
def State.storeOp (s : State) (w : BitVec 2) (r a : BitVec 5) (o : BitVec 11) (n : Nat) (k : AccessKind) (blocks : Bool) :
    Answer :=
  s.issue w { reads := [s.ra a, s.rd r] } (fun t =>
    t.access { kind := k, ea := s.ea a o n, size := n, data := s.g (s.rd r), blocks := blocks })

/-- READF, TAKE and PEEK (R129). -/
def State.syncLoad (s : State) (w : BitVec 2) (d a : BitVec 5) (o : BitVec 11) (k : AccessKind) (blocks : Bool) : Answer :=
  s.issue w { reads := [s.ra a], writes := if k == .peek then [s.rd d, s.rd d + 1] else [s.rd d], var := true } (fun t =>
    t.access { kind := k, ea := s.ea a o 8, size := 8, dest := s.rd d, blocks := blocks })

/-- An AMO (R135): 4 bytes where z is 1, else 8. -/
def State.amo (s : State) (w : BitVec 2) (d a b : BitVec 5) (z : BitVec 1) (op : Nat) : Answer :=
  s.issue w { reads := [s.ra a, s.rb b], writes := [s.rd d], var := true } (fun t =>
    t.access { kind := .amo op, ea := s.g (s.ra a), size := if z = 1 then 4 else 8, data := s.g (s.rb b),
               dest := s.rd d })

/-- LB (R122, R123). -/
def execLb (w : BitVec 2) (d a : BitVec 5) (o : BitVec 11) (s : State) : Answer := s.loadOp w d a o 1 true

/-- LH (R122, R123). -/
def execLh (w : BitVec 2) (d a : BitVec 5) (o : BitVec 11) (s : State) : Answer := s.loadOp w d a o 2 true

/-- LW (R122, R123). -/
def execLw (w : BitVec 2) (d a : BitVec 5) (o : BitVec 11) (s : State) : Answer := s.loadOp w d a o 4 true

/-- LD (R122, R123). -/
def execLd (w : BitVec 2) (d a : BitVec 5) (o : BitVec 11) (s : State) : Answer := s.loadOp w d a o 8 false

/-- LBU (R122, R123). -/
def execLbu (w : BitVec 2) (d a : BitVec 5) (o : BitVec 11) (s : State) : Answer := s.loadOp w d a o 1 false

/-- LHU (R122, R123). -/
def execLhu (w : BitVec 2) (d a : BitVec 5) (o : BitVec 11) (s : State) : Answer := s.loadOp w d a o 2 false

/-- LWU (R122, R123). -/
def execLwu (w : BitVec 2) (d a : BitVec 5) (o : BitVec 11) (s : State) : Answer := s.loadOp w d a o 4 false

/-- SB (R122, R123). -/
def execSb (w : BitVec 2) (r a : BitVec 5) (o : BitVec 11) (s : State) : Answer := s.storeOp w r a o 1 .store false

/-- SH (R122, R123). -/
def execSh (w : BitVec 2) (r a : BitVec 5) (o : BitVec 11) (s : State) : Answer := s.storeOp w r a o 2 .store false

/-- SW (R122, R123). -/
def execSw (w : BitVec 2) (r a : BitVec 5) (o : BitVec 11) (s : State) : Answer := s.storeOp w r a o 4 .store false

/-- SD (R122, R123). -/
def execSd (w : BitVec 2) (r a : BitVec 5) (o : BitVec 11) (s : State) : Answer := s.storeOp w r a o 8 .store false

/-- READF (R128, R129). -/
def execReadf (w : BitVec 2) (d a : BitVec 5) (o : BitVec 11) (s : State) : Answer := s.syncLoad w d a o .readf true

/-- TAKE (R128, R129). -/
def execTake (w : BitVec 2) (d a : BitVec 5) (o : BitVec 11) (s : State) : Answer := s.syncLoad w d a o .take true

/-- PEEK (R128, R129). -/
def execPeek (w : BitVec 2) (d a : BitVec 5) (o : BitVec 11) (s : State) : Answer := s.syncLoad w d a o .peek false

/-- PUT (R128, R129). -/
def execPut (w : BitVec 2) (r a : BitVec 5) (o : BitVec 11) (s : State) : Answer := s.storeOp w r a o 8 .put true

/-- FILL (R128, R129). -/
def execFill (w : BitVec 2) (r a : BitVec 5) (o : BitVec 11) (s : State) : Answer := s.storeOp w r a o 8 .fill true

/-- CLEAR (R128, R129). -/
def execClear (w : BitVec 2) (r a : BitVec 5) (o : BitVec 11) (s : State) : Answer := s.storeOp w r a o 8 .clear false

/-- OVWR (R128, R129). -/
def execOvwr (w : BitVec 2) (r a : BitVec 5) (o : BitVec 11) (s : State) : Answer := s.storeOp w r a o 8 .ovwr false

/-! ### Atomic operations -/

/-- AADD (R134, R135). -/
def execAadd (w : BitVec 2) (d a b : BitVec 5) (z : BitVec 1) (s : State) : Answer := s.amo w d a b z 0

/-- AAND (R134, R135). -/
def execAand (w : BitVec 2) (d a b : BitVec 5) (z : BitVec 1) (s : State) : Answer := s.amo w d a b z 1

/-- AOR (R134, R135). -/
def execAor (w : BitVec 2) (d a b : BitVec 5) (z : BitVec 1) (s : State) : Answer := s.amo w d a b z 2

/-- AXOR (R134, R135). -/
def execAxor (w : BitVec 2) (d a b : BitVec 5) (z : BitVec 1) (s : State) : Answer := s.amo w d a b z 3

/-- AMIN (R134, R135). -/
def execAmin (w : BitVec 2) (d a b : BitVec 5) (z : BitVec 1) (s : State) : Answer := s.amo w d a b z 4

/-- AMAX (R134, R135). -/
def execAmax (w : BitVec 2) (d a b : BitVec 5) (z : BitVec 1) (s : State) : Answer := s.amo w d a b z 5

/-- AMINU (R134, R135). -/
def execAminu (w : BitVec 2) (d a b : BitVec 5) (z : BitVec 1) (s : State) : Answer := s.amo w d a b z 6

/-- AMAXU (R134, R135). -/
def execAmaxu (w : BitVec 2) (d a b : BitVec 5) (z : BitVec 1) (s : State) : Answer := s.amo w d a b z 7

/-- ASWAP (R134, R135). -/
def execAswap (w : BitVec 2) (d a b : BitVec 5) (z : BitVec 1) (s : State) : Answer := s.amo w d a b z 8

/-- AFADD (R134, R135, R136). -/
def execAfadd (w : BitVec 2) (d a b : BitVec 5) (z : BitVec 1) (s : State) : Answer := s.amo w d a b z 9

/-- AFAMAX (R134, R135, R136). -/
def execAfamax (w : BitVec 2) (d a b : BitVec 5) (z : BitVec 1) (s : State) : Answer := s.amo w d a b z 10

/-- CAS (R138): g[D] is the compare value and the destination. -/
def execCas (w : BitVec 2) (d a b : BitVec 5) (z : BitVec 1) (s : State) : Answer :=
  s.issue w { reads := [s.ra a, s.rb b, s.rd d], writes := [s.rd d], var := true } (fun t =>
    t.access { kind := .cas, ea := s.g (s.ra a), size := if z = 1 then 4 else 8, data := s.g (s.rb b),
               cmp := s.g (s.rd d), dest := s.rd d })

/-! ### Fences (R139 to R141) -/

/-- A fence holds its process until the accesses it issued before are complete (R140). -/
def State.fence (s : State) (w : BitVec 2) (scope : Scope) : Answer :=
  s.issue w {} (fun t => t.noHandler 0 (fun t => t.block .blockedSync (.fence scope (s.core s.ctx.core).nextTag)))

/-- FENCE.C (R139, R140). -/
def execFenceC (w : BitVec 2) (s : State) : Answer := s.fence w .core

/-- FENCE.D (R139, R140). -/
def execFenceD (w : BitVec 2) (s : State) : Answer := s.fence w .die

/-- FENCE.G (R139, R140). -/
def execFenceG (w : BitVec 2) (s : State) : Answer := s.fence w .all

/-- The paths of R36. -/
def pathOf (n : Nat) : Path :=
  match n with
  | 0 => .c
  | 1 => .v
  | 2 => .m
  | 3 => .y
  | 4 => .n
  | 5 => .s
  | _ => .h

/-- The path codes of XFENCE, stepped in a repeat as register fields are (R26). -/
def State.pathA (s : State) (p : BitVec 3) : Nat := p.toNat + (match s.ctx.rep with | some o => o.2.1 | none => 0)
def State.pathB (s : State) (q : BitVec 3) : Nat := q.toNat + (match s.ctx.rep with | some o => o.2.2 | none => 0)

/-- XFENCE (R141): P = Q completes at once, as NOP does; a stepped path code of 7 or more is illegal (R26). -/
def execXfence (w : BitVec 2) (p q : BitVec 3) (s : State) : Answer :=
  s.issue w { legal := s.pathA p < 7 && s.pathB q < 7 } (fun t =>
    t.noHandler 0 (fun t =>
      if s.pathA p = s.pathB q then t.advance
      else t.block .blockedSync (.xfence (pathOf (s.pathA p)) (pathOf (s.pathB q)))))

/-- Whether the accesses of a process with tags below a bound are complete: performed, or their value bound (R140). -/
def Core.accessesDone (c : Core) (pn upto : Nat) : Bool :=
  c.reqs.all (fun r => r.pn != pn || upto ≤ r.tag || r.ended || r.phase == .performed)

/-- Whether the earlier accesses of a process are complete for a fence's scope (R140, R278). The processes of the core see
a store that stands in its store buffer (R125); a die's other cores read no other core's buffer, so for them a store is
complete once performed. -/
def Core.fenceDone (c : Core) (scope : Scope) (pn upto : Nat) : Bool :=
  c.reqs.all (fun r => r.pn != pn || upto ≤ r.tag || r.ended || r.phase == .performed || (scope == .core && r.inBuffer))

/-- What a fence makes the engine operations of its process see: FENCE.D for engines that read their die's memory, FENCE.G
for all (R282). -/
def Proc.fencedBy (p : Proc) (scope : Scope) (age : Nat) : Proc :=
  match scope with
  | .core => p
  | .die => { p with fencedDie := age }
  | .all => { p with fenced := age }

/-- The stores that a FENCE.C has left in the store buffer: later accesses of the core to their words come after them
(R278). -/
def Core.fencedStores (c : Core) (scope : Scope) (pn upto : Nat) : Core :=
  if scope == .core then
    { c with reqs := c.reqs.map (fun (r : Req) => if r.pn == pn && r.tag < upto && r.inBuffer then { r with fencedC := true } else r) }
  else c

/-- FENCE_RELEASE (R140): the earlier accesses are complete for the fence's scope. -/
def execFenceRelease (core pn : Nat) (s : State) : Answer :=
  .next (match (s.proc core pn).wait with
    | .fence scope upto =>
      if (s.core core).fenceDone scope pn upto then
        ((s.modCore core (fun c => c.fencedStores scope pn upto)).modProc core pn (fun p =>
          p.fencedBy scope s.mem.age)).wake core pn
      else s
    | _ => s)

/-- The age up to which a process has observed the writes of a path (R141). -/
def Proc.observedAge (p : Proc) (q : Path) : Nat :=
  (p.observed.filter (fun o => o.1 == q)).foldl (fun a o => max a o.2) 0

/-- XFENCE_RELEASE (R141, R281): the writes of P that the process has observed complete are visible on Q, to it and to
those that then acquire from it (State.acquireAll). -/
def execXfenceRelease (core pn : Nat) (s : State) : Answer :=
  .next (match (s.proc core pn).wait with
    | .xfence p q =>
      let e := (p, q, (s.proc core pn).observedAge p)
      ({ s with carries := e :: s.carries.filter (fun x => !(x.1 == p && x.2.1 == q && x.2.2 ≤ e.2.2)) }.modProc core pn
        (fun x => { x with carried := e :: x.carried })).wake core pn
    | _ => s)

end Sys2Proof.Machine
end

