-- ==== Sys2Proof/Machine/Channel.lean ====
section
/-! DEFINITION. Channel endpoints: handles and entries (R171 to R175), rendezvous (R176 to R184), ALT (R190 to R192), and
the instructions and events of each. -/

namespace Sys2Proof.Machine

/-! ### Endpoint entries (R171 to R173) -/

/-- The entry a handle names in a gate: valid, of the same generation. -/
def Core.epFind (c : Core) (handle : Nat) : Option Endpoint :=
  let e := look {} c.endpoints (handle % 2 ^ 20)
  if e.valid && e.gen.toNat == handle / 2 ^ 20 then some e else none

/-- The entry at a handle's index. -/
def State.ep (s : State) (core handle : Nat) : Endpoint := look {} (s.core core).endpoints (handle % 2 ^ 20)
def State.modEp (s : State) (core handle : Nat) (f : Endpoint → Endpoint) : State :=
  s.modCore core (fun c => { c with
    endpoints := put c.endpoints (handle % 2 ^ 20) (f (look {} c.endpoints (handle % 2 ^ 20))) })

/-- The handle of the entry at an index. -/
def Endpoint.handleAt (e : Endpoint) (index : Nat) : Nat := e.gen.toNat * 2 ^ 20 + index

/-- The core of the other end. -/
def Endpoint.peerCore (e : Endpoint) : Nat := e.ppkg.toNat * 2048 + e.pdie.toNat * 512 + e.pcore.toNat

/-- The process identifier of the other end. -/
def Endpoint.peerPid (e : Endpoint) : Nat := pidOf e.peerCore e.ppn.toNat

/-- Bits of an element type (R214). -/
def etypeBits (code : Nat) : Nat :=
  match code with
  | 0 | 9 => 64
  | 1 | 8 => 32
  | 2 | 7 => 16
  | 5 => 4
  | _ => 8

/-- LEN of a TILE endpoint (R172). -/
def Endpoint.len (e : Endpoint) : Nat :=
  8 * 2 ^ (e.shape.toNat / 4) * (8 * 2 ^ (e.shape.toNat % 4)) * etypeBits e.etype.toNat / 8

def Endpoint.isTile (e : Endpoint) : Bool := e.typ == 1
def Endpoint.isHost (e : Endpoint) : Bool := e.pkind == 2

/-- The logical device and host queue of a host endpoint (R350). -/
def Endpoint.hostDev (e : Endpoint) : Nat := e.ppkg.toNat % 16
def Endpoint.hostQueue (e : Endpoint) : Nat := e.pcore.toNat % 256

/-- An entry that raises PROT at every use: TYPE 3, PKIND 3, an unlisted ETYPE of a tile, a buffered tile above 4,096
bytes, or a host peer with another bit set (R172, R175, R214, R350). -/
def Endpoint.broken (e : Endpoint) : Bool :=
  e.typ == 3 || e.pkind == 3 || (e.isTile && 10 < e.etype.toNat) || (e.isTile && e.buffered && 4096 < e.len)
    || (e.isHost && (16 ≤ e.ppkg.toNat || 256 ≤ e.pcore.toNat || e.pdie != 0 || e.ppn != 0 || e.phandle != 0))

/-- A row of the table of R175. -/
structure ChanForm where
  dirIn : Bool
  typs : List (BitVec 2)
  mode : Option Bool
  inbox : Bool := false

def ChanForm.fits (f : ChanForm) (e : Endpoint) : Bool :=
  !e.broken && e.dirIn == f.dirIn && f.typs.contains e.typ && (f.mode.isNone || f.mode == some e.buffered)
    && (if f.inbox then e.pkind == 1 else e.pkind == 0 || e.pkind == 2)

/-- Checks 1 to 4 of R175; the entry, or none for PROT with FADDR the handle. -/
def Core.epCheck (c : Core) (handle pn : Nat) (f : ChanForm) (closedOk : Bool) : Option Endpoint :=
  match c.epFind handle with
  | none => none
  | some e =>
    if handle = 0 || e.owner.toNat != pn || !f.fits e || (e.state == 6 && !closedOk) then none else some e

/-- The handle in a register (R171). -/
def handleOf (x : Word) : Nat := x.toNat % 2 ^ 32
/-- The same as FADDR holds it. -/
def handleWord (h : Nat) : Word := word h

def stagingHandle : Nat := 0xFFFFFFFE
def loopbackHandle : Nat := 0xFFFFFFFF

/-! ### Order of a release (R180, R276) -/

/-- Whether the accesses a release orders are performed: those of a process before a tag that are not on UNORDERED
pages. -/
def Core.releaseHolds (c : Core) (pn upto : Nat) : Bool :=
  c.reqs.all (fun r => r.pn != pn || upto ≤ r.tag || r.ended || r.order == .unordered || r.phase == .performed)

/-! ### Bytes of tiles -/

/-- The 8-byte words of a list of bytes, as numbers. -/
def tileWords (bs : List Byte) : List Nat :=
  (List.range (bs.length / 8)).map (fun i =>
    ((bs.drop (8 * i)).take 8).foldr (fun b acc => b.toNat + 256 * acc) 0)

/-- An operand-slot pseudo-address: slot and offset (R79). -/
def slotAddr (a : Word) : Option (Nat × Nat) :=
  if 0x7F000000 ≤ a.toNat && a.toNat < 0x7F040000 then
    some ((a.toNat - 0x7F000000) / 8192, (a.toNat - 0x7F000000) % 8192)
  else none

/-- An operand slot's record (R252). -/
def Core.opslot (c : Core) (k : Nat) : OpSlot := look {} c.opslots k

/-- The last byte of a fill lands; without an owner the flag's setting is discarded (R252). -/
def Core.fillSlot (c : Core) (k : Nat) : Core :=
  if (c.opslot k).owner.isSome then { c with opslots := put c.opslots k { c.opslot k with filled := true } } else c

/-- Whether bytes lie in a claimed operand slot. -/
def Core.inClaimedSlot (c : Core) (a : Word) (n : Nat) : Bool :=
  match slotAddr a with
  | some (k, o) => o + n ≤ 8192 && (c.opslot k).owner.isSome
  | none => false

/-- Whether bytes lie in the scratchpad through window 0. -/
def Core.inScratchpad (c : Core) (a : Word) (n : Nat) : Bool := a.toNat < 0x1000000 && inScratch c.part a.toNat n

/-- Bytes landing in a core's pool, or in an operand slot, whose filled flag is set (R179). -/
def State.landTile (s : State) (core pid : Nat) (p : Path) (a : Word) (bs : List Byte) : State :=
  match slotAddr a with
  | some (k, o) =>
    { s with mem := s.mem.setBytes (operandKey core k o) bs }.modCore core (fun c => c.fillSlot k)
  | none =>
    (tileWords bs).zipIdx.foldl (fun t x => t.writeBytes p pid (s.jobOf core) (poolKey core (a.toNat + 8 * x.2)) 8 x.1) s

/-- A tile's bytes as path N reads them (R179, R300). -/
def State.tileBytes (s : State) (core pn : Nat) (a : Word) (n : Nat) : List Byte :=
  (s.readRun core pn .n (poolKey core a.toNat) (n / 8)).2.flatMap (fun v =>
    (List.range 8).map (fun j => BitVec.ofNat 8 (v.toNat / 256 ^ j)))

/-- The state after that read: it is remembered (R274), and a poisoned line of it gives its process POISON (R378). -/
def State.readTile (s : State) (core pn : Nat) (a : Word) (n : Nat) : State :=
  let t := (s.readRun core pn .n (poolKey core a.toNat) (n / 8)).1
  match s.mem.poisonIn (poolKey core a.toNat) n with
  | some l => t.poisonRead core pn (word (l * 64 % 2 ^ 21))
  | none => t

/-! ### ALT (R190 to R192) -/

/-- A message for a handle in the normal area, oldest first (R186, R191). -/
def Core.messageFor (c : Core) (handle : Nat) : Option Stored :=
  c.normal.find? (fun m => m.msg.kind.toNat ≤ 1 && m.msg.handle.toNat == handle)

/-- What a ready guard gives: closed and its CLOSE reason (R191). -/
def Core.guardReady (c : Core) (g : Guard) : Option (Bool × BitVec 8) :=
  match c.epFind g.handle with
  | none => none
  | some e =>
    if e.state == 6 then some (true, e.close)
    else if e.buffered then (if (c.messageFor g.handle).isSome then some (false, 0) else none)
    else if e.state == 1 || e.state == 4 then some (false, 0) else none

/-- The result of an ALTW if one is ready at a cycle. -/
def Core.altResult (c : Core) (a : AltSet) (now : Word) : Option Word :=
  match a.guards.findSome? (fun g => if g.enabled then (c.guardReady g).map (fun r => (g.tag, r)) else none) with
  | some (tag, closed, why) => some (word (tag.toNat + (if closed then 2 ^ 9 else 0) + why.toNat * 2 ^ 16))
  | none =>
    match a.timeout with
    | some (t, tag, true) => if t.toNat ≤ now.toNat then some (word (tag.toNat + 2 ^ 8)) else none
    | _ => none

/-- Registration of a process's enabled guards, or its end (R177); WPN and WSEQ change where it is recorded first. -/
def State.altRegister (s : State) (core pn : Nat) (on : Bool) : State :=
  ((s.proc core pn).altSet.guards.filter (fun g => g.enabled)).foldl (fun t g =>
    match (t.core core).epFind g.handle with
    | none => t
    | some e =>
      let n : BitVec 3 := if on then (if e.state == 0 then 3 else if e.state == 1 then 4 else e.state)
        else (if e.state == 3 then 0 else if e.state == 4 then 1 else e.state)
      t.modEp core g.handle (fun e =>
        if on && e.state == 0 then { e with state := n, wpn := BitVec.ofNat 8 pn, wseq := e.wseq + 1 }
        else { e with state := n })) s

/-- The end of an ALTW: registrations end, the set is emptied, and the result is written (R191). -/
def State.altEnd (s : State) (core pn : Nat) (res : Word) : State :=
  match (s.proc core pn).wait with
  | .alt dest =>
    let s := (s.altRegister core pn false).modProc core pn (fun p => { p with altSet := {} })
    (s.arriveReg core pn dest res).wake core pn
  | _ => s

/-- A waiting ALTW takes a guard that has become ready. -/
def State.altCheck (s : State) (core pn : Nat) : State :=
  match (s.proc core pn).wait with
  | .alt _ =>
    match (s.core core).altResult (s.proc core pn).altSet (s.cyc (dieOf core)) with
    | some r => s.altEnd core pn r
    | none => s
  | _ => s

/-- ALTB (R190, R195). -/
def execAltb (w : BitVec 2) (s : State) : Answer :=
  s.issue w {} (fun t => t.noHandler 0 (fun t => (t.modMe (fun p => { p with altSet := {} })).advance))

/-- ALTG (R175, R190): appends a channel guard. -/
def execAltg (w : BitVec 2) (a b : BitVec 5) (s : State) : Answer :=
  s.issue w { reads := [s.ra a, s.rb b] } (fun t =>
    let h := handleOf (s.g (s.ra a))
    let v := s.g (s.rb b)
    match (if t.gateShut s.ctx.core then none
      else (t.core s.ctx.core).epCheck h s.ctx.pn { dirIn := true, typs := [0, 1], mode := none } true) with
    | none => t.trap .prot (handleWord h)
    | some _ =>
      if s.inHandler || 16 ≤ s.me.altSet.guards.length then t.trap .prot (handleWord h)
      else (t.modMe (fun p => { p with altSet := { p.altSet with
        guards := p.altSet.guards ++ [{ handle := h, tag := v.extractLsb' 0 4, enabled := v.getLsbD 8 }] } })).advance)

/-- ALTT (R190): the time-out guard, replacing an earlier one. -/
def execAltt (w : BitVec 2) (a b : BitVec 5) (s : State) : Answer :=
  s.issue w { reads := [s.ra a, s.rb b] } (fun t => t.noHandler 0 (fun t =>
    let v := s.g (s.rb b)
    (t.modMe (fun p => { p with altSet := { p.altSet with
      timeout := some (s.g (s.ra a), v.extractLsb' 0 4, v.getLsbD 8) } })).advance))

/-- An enabled rendezvous guard, which a region bars (R205). -/
def Core.rendezvousGuard (c : Core) (a : AltSet) : Option Nat :=
  (a.guards.find? (fun g => g.enabled && (match c.epFind g.handle with
    | some e => !e.buffered
    | none => false))).map (fun g => g.handle)

/-- ALTW (R191, R205). -/
def execAltw (w : BitVec 2) (d : BitVec 5) (s : State) : Answer :=
  s.issue w { writes := [s.rd d], var := true } (fun t => t.noHandler 0 (fun t =>
    let core := s.ctx.core
    let c := t.core core
    let a := s.me.altSet
    match (if c.regionOf s.ctx.pn then c.rendezvousGuard a else none) with
    | some h => t.trap .prot (handleWord h)
    | none =>
      let armed := match a.timeout with | some (_, _, e) => e | none => false
      if !(armed || a.guards.any (fun g => g.enabled)) then
        (t.arriveReg core s.ctx.pn (s.rd d) (~~~0)).advance
      else
        let t := ((t.pendDest (s.rd d)).block .alt (.alt (s.rd d))).altRegister core s.ctx.pn true
        t.altCheck core s.ctx.pn))

/-- ALT_TIMEOUT (R191). -/
def execAltTimeout (core pn : Nat) (s : State) : Answer := .next (s.altCheck core pn)

/-! ### Host queues (R351) -/

/-- Where a host queue's bytes lie: host memory of the package. -/
def hostKey (pkg addr : Nat) : Nat := storeKey (pkg * 4) 3 addr

/-- Bytes written to host memory on path H. -/
def State.hostWrite (s : State) (pkg pid job addr : Nat) (bs : List Byte) : State :=
  (tileWords bs).zipIdx.foldl (fun t x =>
    let k := hostKey pkg (addr + 8 * x.2)
    let t := t.ownHostLine k
    { t with mem := t.mem.writeOn .h pid job k 8 x.1 }) s

/-- The bytes of doublewords. -/
def bytesOfWords (ws : List Word) : List Byte :=
  (ws.map (fun w => (List.range 8).map (fun i => BitVec.ofNat 8 (w.toNat / 256 ^ i)))).flatten

def hostQueueAt (p : Pkg) (dev q : Nat) : HostQueue := look {} p.hostq (dev * 256 + q)
def State.modHostQueue (s : State) (pkg dev q : Nat) (f : HostQueue → HostQueue) : State :=
  s.modPkg pkg (fun p => { p with hostq := put p.hostq (dev * 256 + q) (f (hostQueueAt p dev q)) })

/-- The address of an entry of a ring. -/
def HostQueue.entryAt (q : HostQueue) (k : Nat) : Nat := q.base + 64 + k % 2 ^ q.log * q.entrySize

/-- A send to the host: its entry, then TAIL; none while the ring has no room. -/
def State.hostPut (s : State) (core handle pn : Nat) (words : List Word) (body : List Byte) : Option State :=
  let e := s.ep core handle
  let pkg := pkgOf core
  let q := hostQueueAt (s.pkg pkg) e.hostDev e.hostQueue
  if !q.used || !q.toHost || 2 ^ q.log ≤ q.tail - q.head then none
  else
    let m : Msg := { kind := if e.isTile then 1 else 0, sender := BitVec.ofNat 31 (pidOf core pn), words := words,
                     body := body }
    let payload := if e.isTile then body else bytesOfWords (words.take 1)
    let s := s.hostWrite pkg (pidOf core pn) (s.jobOf core) (q.entryAt q.tail) (bytesOfWords m.header ++ payload)
    let s := s.hostWrite pkg (pidOf core pn) (s.jobOf core) (q.base + 8) (bytesOfWords [word (q.tail + 1)])
    some (s.modHostQueue pkg e.hostDev e.hostQueue (fun q => { q with
      tail := q.tail + 1, owners := q.owners ++ [(core, handle)] }))

/-! ### Rendezvous (R176 to R182) -/

/-- The offset, or the word, that the sender brought, and the receiver's offset, of a transfer: the recorded side's lies
in WDATA (R172). -/
def Endpoint.fromWait (e : Endpoint) : Bool := e.before == 2
def Endpoint.srcData (e : Endpoint) : Word := if e.fromWait then e.xferData else e.wdata
def Endpoint.dstData (e : Endpoint) : Word := if e.fromWait then e.wdata else e.xferData

/-- 64-byte steps of a tile (R178); 0 for a word. -/
def Endpoint.steps (e : Endpoint) : Nat := if e.isTile then (e.len + 63) / 64 else 0

/-- The second side has arrived: the transfer starts (R177, R178). A tile's bytes are read, and its sender released, by
the release answer; a host sender's bytes are read from its ring when the transfer ends. -/
def State.startXfer (s : State) (core handle : Nat) (data : Word) : State :=
  let e := s.ep core handle
  let s := s.modEp core handle (fun e => { e with
    before := e.state, state := 5, xferData := data, xferDone := s.ticks + 6 + e.steps, bytes := none })
  if e.isTile && !e.isHost then
    { s with net := s.net ++ [{ src := core, dst := e.xferSrc, at_ := pkgOf core, job := s.jobOf core,
                                gen := (s.pkg (pkgOf core)).gen, retryAt := some (s.ticks + 4 + e.steps),
                                body := .release e.xferBack false 0 (some handle) }] }
  else s

/-- A refusal or release answer on its way to an OUT end. -/
def State.sendRelease (s : State) (core dst back : Nat) (fault : Bool) (why : BitVec 8) : State :=
  s.sendPacket core dst none (.release back fault why none)

/-- An event at a MOVING endpoint: held in arrival order, or sent on once the move has ended (R184). -/
def State.heldAt (s : State) (core handle : Nat) (p : Packet) : State :=
  match (s.ep core handle).newPlace with
  | some there => { s with net := s.net ++ [{ p with dst := there, at_ := pkgOf core, hop := 0, inj := some core,
                                                     gen := (s.pkg (pkgOf core)).gen, reply := none }] }
  | none => s.modCore core (fun c => { c with
      held := put c.held (handle % 2 ^ 20) (look [] c.held (handle % 2 ^ 20) ++ [p]) })

/-- An offer at the rendezvous point (R177). An offer to an entry that is absent is refused as one to a CLOSED entry. -/
def State.offerAt (s : State) (core handle src back : Nat) (data : Word) : State :=
  match (s.core core).epFind handle with
  | none => s.sendRelease core src back true 0
  | some e =>
    let goes (n : BitVec 3) : State := s.modEp core handle (fun e => { e with
      state := n, wdata := data, xferSrc := src, xferBack := back })
    match e.state.toNat with
    | 0 => goes 1
    | 2 => (s.modEp core handle (fun e => { e with xferSrc := src, xferBack := back })).startXfer core handle data
    | 3 => (goes 4).altCheck core e.wpn.toNat
    | 7 => s.heldAt core handle
        { src := src, dst := core, at_ := pkgOf core, job := s.jobOf core, body := .offer handle back data }
    | 6 => s.sendRelease core src back true e.close
    | _ => s

/-- An OUT end whose send waits (R176, R185): OFFERED, with its issuer. -/
def Endpoint.offered (e : Endpoint) (pn : Nat) : Endpoint :=
  { e with state := 1, wpn := BitVec.ofNat 8 pn, wseq := e.wseq + 1, engine := false, killed := none, bytes := none }

/-- The offer of a waiting sender leaves once the accesses before it are performed (R176, R180); a send held at a MOVING
end is OFFERED only then (R184). -/
def State.offerLeaves (s : State) (core pn : Nat) : State :=
  match (s.proc core pn).wait with
  | .offering handle data upto =>
    let e := s.ep core handle
    if !(s.core core).releaseHolds pn upto || e.state == 7 || e.buffered then s
    else
      let s := if e.state == 1 then s else s.modEp core handle (fun e => e.offered pn)
      let s := s.modEp core handle (fun e => { e with xferData := data })
      let sent := s.modProc core pn (fun p => { p with wait := .sending handle })
      if e.isHost then
        let body := if e.isTile then s.tileBytes core pn data e.len else []
        let sent := if e.isTile then sent.readTile core pn data e.len else sent
        (sent.hostPut core handle pn [data] body).getD s
      else if e.peerCore = core then sent.offerAt core e.phandle.toNat core handle data
      else sent.sendPacket core e.peerCore none (.offer e.phandle.toNat handle data)
  | _ => s

/-- An IN end whose receive is recorded (R177): WDATA changes for a tile only. -/
def Endpoint.awaits (e : Endpoint) (pn : Nat) (off : Word) : Endpoint :=
  { e with state := 2, wpn := BitVec.ofNat 8 pn, wseq := e.wseq + 1, wdata := if e.isTile then off else e.wdata }

/-- A receive arrives at its own gate (R177, R180); at a MOVING end it waits for the end of the move (R184). -/
def State.receiveArrives (s : State) (core pn : Nat) : State :=
  match (s.proc core pn).wait with
  | .recording handle off dest upto =>
    let e := s.ep core handle
    if !(s.core core).releaseHolds pn upto || e.buffered then s
    else
      let waits := s.modProc core pn (fun p => { p with wait := .receiving handle dest })
      match e.state.toNat with
      | 0 => waits.modEp core handle (fun e => { e.awaits pn off with engine := false })
      | 1 => (waits.modEp core handle (fun e => { e with engine := false })).startXfer core handle off
      | 6 => (s.modProc core pn (fun p => { p with closeReason := e.close.setWidth 32 }.setPending dest false)).trapBlocked
          core pn .prot (handleWord handle)
      | _ => s
  | _ => s

/-- The step of a send, receive or sheaf operation that waits for the accesses before it (R180). -/
def State.chanOrdered (s : State) (core pn : Nat) : State := (s.offerLeaves core pn).receiveArrives core pn

/-- SEND and a rendezvous TSEND, their checks passed (R176). -/
def State.rendezvousSend (t : State) (handle : Nat) (data : Word) : State :=
  let core := t.ctx.core
  let pn := t.ctx.pn
  let t := if (t.ep core handle).state == 7 then t else t.modEp core handle (fun e => e.offered pn)
  (t.block .blockedChan (.offering handle data (t.core core).nextTag)).offerLeaves core pn

/-- A rendezvous RECV or TRECV, its checks passed (R177). -/
def State.rendezvousRecv (t : State) (handle : Nat) (off : Word) (dest : Nat) : State :=
  let core := t.ctx.core
  let pn := t.ctx.pn
  ((t.pendDest dest).block .blockedChan (.recording handle off dest (t.core core).nextTag)).receiveArrives core pn

/-- OFFER_ARRIVAL (R177); one to a core outside its job is refused (R336). -/
def execOfferArrival (pkt : Nat) (s : State) : Answer :=
  .next (match s.arrived pkt with
    | some p =>
      match p.body with
      | .offer handle back data =>
        if s.foreign p then (s.unpacket pkt).sendRelease p.dst p.src back true 0
        else (s.unpacket pkt).offerAt p.dst handle p.src back data
      | _ => s
    | none => s)

/-! ### Closing (R183) -/

/-- A process waiting at a closed endpoint is released, and its instruction raises PROT with the CLOSE reason kept for
the fault message. -/
def State.closeTrap (s : State) (core pn handle : Nat) (why : BitVec 8) : State :=
  (s.modProc core pn (fun p => { p with closeReason := why.setWidth 32 })).trapBlocked core pn .prot (handleWord handle)

/-- The destination register of a receive leaves its pending state when its instruction traps. -/
def State.dropDest (s : State) (core pn : Nat) : State :=
  match (s.proc core pn).wait with
  | .receiving _ d | .receivingB _ d _ | .recording _ _ d _ | .alt d | .staged d =>
    s.modProc core pn (fun p => p.setPending d false)
  | _ => s

/-- Whether a process waits at a handle. -/
def Wait.at (w : Wait) (handle : Nat) : Bool :=
  match w with
  | .offering h _ _ | .sending h | .recording h _ _ _ | .receiving h _ | .receivingB h _ _ | .credit h _ => h == handle
  | _ => false

/-- Whether a message is addressed to a handle. -/
def Msg.for (m : Msg) (handle : Nat) : Bool := m.kind.toNat ≤ 1 && m.handle.toNat == handle

/-- The staging ring without the messages for a handle: the units of one that is not the oldest become free with the next
one, since staged messages are freed in staging order (R187). -/
def dropStaged (handle : Nat) : List Stored → Nat → List Stored
  | [], _ => []
  | m :: ms, extra =>
    if m.msg.for handle then dropStaged handle ms (if extra = 0 then 0 else extra + m.units + m.skipped)
    else { m with skipped := m.skipped + (extra - 1) } :: dropStaged handle ms 1

/-- Messages of the inbox that are addressed to a closed IN end are freed, in both of its areas; their credits are not
returned (R183). -/
def State.dropMessages (s : State) (core handle : Nat) : State :=
  s.modCore core (fun c =>
    let staging := dropStaged handle c.staging 0
    { c with
      normal := c.normal.filter (fun m => !m.msg.for handle), staging := staging
      stageTail := match staging.getLast? with
        | some m => m.first + m.units
        | none => c.stageTail })

/-- The reason an operation of a core ends with: that of the teardown of its job, where one has reached it, else the given
one (R232, R354). -/
def State.reasonAt (s : State) (core : Nat) (why : BitVec 8) : BitVec 8 :=
  (s.tearReason (dieOf core) (s.jobOf core)).getD why

/-- The vector operation that waits at a closed endpoint is to end FAILED with reason CLOSED (R216), or with that of the
teardown that closed it (R232); the first reason stands (R354). -/
def State.vecClosed (s : State) (core handle : Nat) : State :=
  let why := s.reasonAt core 0x44
  s.modCore core (fun c => { c with vecQ := c.vecQ.map (fun v =>
    match v.waiting with
    | some (h, _) =>
      if h = handle then { v with waiting := none, reason := if v.reason = 0 then why else v.reason } else v
    | none => v) })

/-- The record of a sender that was killed while its offer was under way, once the fate of the offer is known: COMPLETE by a
transfer, or FAILED with the reason of its end (R181, R382). -/
def State.killedRecord (s : State) (core handle : Nat) (done : Bool) : State :=
  match (s.ep core handle).killed with
  | none => s
  | some reason =>
    (s.modEp core handle (fun e => { e with killed := none })).invRecord (dieOf core)
      { item := 5, state := if done then 1 else 2, reason := if done then 0 else reason.toNat, job := s.jobOf core,
        pid := pidOf core (s.ep core handle).owner.toNat, started := false, itemid := word handle, value := 0, cycle := 0 }

/-- The vector operation whose tile came in a poisoned message is to end FAILED with reason POISON (R378). -/
def State.vecPoisoned (s : State) (core handle : Nat) : State :=
  s.modCore core (fun c => { c with vecQ := c.vecQ.map (fun v =>
    match v.waiting with
    | some (h, _) => if h = handle then { v with waiting := none, reason := 0x28 } else v
    | none => v) })

/-- The endpoint becomes CLOSED now. -/
def State.closeNow (s : State) (core handle : Nat) (why : BitVec 8) : State :=
  let e := s.ep core handle
  let pn := e.owner.toNat
  let s := (s.modEp core handle (fun e => { e with state := 6, close := why, closing := 0 })).killedRecord core handle false
  let s := if e.engine then s.vecClosed core handle else s
  if !e.dirIn then
    if e.state == 1 && (s.proc core pn).wait.at handle && !e.engine then s.closeTrap core pn handle why else s
  else
    let s := s.dropMessages core handle
    match e.state.toNat with
    | 2 => if (s.proc core pn).wait.at handle && !e.engine then (s.dropDest core pn).closeTrap core pn handle why else s
    | 1 => if e.isHost then s else s.sendRelease core e.xferSrc e.xferBack true why
    | 4 => (if e.isHost then s else s.sendRelease core e.xferSrc e.xferBack true why).altCheck core pn
    | 3 => s.altCheck core pn
    | _ => s

/-- A close of an endpoint: at once, at the end of its transfer or move, or for an OUT end with its offer under way when
the withdrawal has been decided (R177, R183). The first close stands (R354). -/
def State.closeEp (s : State) (core handle : Nat) (why : BitVec 8) : State :=
  let e := s.ep core handle
  if e.state == 6 || e.closing != 0 then s
  else if e.state == 5 || e.state == 7 then s.modEp core handle (fun e => { e with closing := why })
  else if !e.dirIn && !e.buffered && !e.isHost && e.state == 1
      && (match (s.proc core e.owner.toNat).wait with
        | .sending h => h == handle
        | _ => e.engine && (s.core core).vecQ.any (fun v => v.left && v.waiting == some (handle, 2))) then
    (s.modEp core handle (fun e => { e with closing := why })).sendPacket core e.peerCore none
      (.offerWithdrawal e.phandle.toNat handle .close)
  else s.closeNow core handle why

/-- The end of a transfer or of a sender's wait: IDLE, or what a close or move that waits makes of it (R177, R184). A CLOSED
end stays so (R183). -/
def Endpoint.rest (e : Endpoint) : Endpoint :=
  if e.state == 6 then e
  else if e.state == 7 then { e with before := 0 }
  else if e.closing != 0 then { e with state := 6, close := e.closing, closing := 0 }
  else if e.moving then { e with before := 0, state := 7, moving := false }
  else { e with state := 0 }

/-! ### Releases and withdrawals (R176, R181) -/

/-- A channel operand of the vector operation at work has been received, or its tile has been taken (R216). -/
def State.vecOperand (s : State) (core handle : Nat) (bs : List Byte) : State :=
  s.modCore core (fun c => { c with vecQ := c.vecQ.map (fun v =>
    match v.waiting with
    | some (h, role) =>
      if h != handle then v
      else if role = 2 then { v with waiting := none, sent := true }
      else { v with waiting := none, tiles := put v.tiles role bs }
    | none => v) })

/-- The bytes of a tile that an OUT end sends: the vector unit's result, or bytes of the scratchpad, which stand with the end
where its sender has been killed (R300). -/
def State.sentTile (s : State) (core : Nat) (e : Endpoint) (src : Word) (n : Nat) : List Byte :=
  if e.engine then (((s.core core).vecQ.head?).map (fun v => look [] v.tiles 2)).getD []
  else e.bytes.getD (s.tileBytes core e.owner.toNat src n)

/-- A tile's bytes are read at its OUT end for the IN end that its transfer is at work on (R178). -/
def State.takeTile (s : State) (p : Packet) (handle : Nat) (tile : Option Nat) : State :=
  let core := p.dst
  let e := s.ep core handle
  match tile with
  | some h =>
    let x := s.ep p.src h
    let t := if e.engine || x.bytes.isSome || e.bytes.isSome then s else s.readTile core e.owner.toNat x.srcData x.len
    t.modEp p.src h (fun y => { y with bytes := some (x.bytes.getD (s.sentTile core e x.srcData x.len)) })
  | none => s

/-- A release answer at an OUT end: a tile's bytes have been read, and the sender goes on, or its instruction raises
PROT. -/
def State.releaseAt (s : State) (p : Packet) (handle : Nat) (fault : Bool) (why : BitVec 8) (tile : Option Nat) : State :=
  let core := p.dst
  let e := s.ep core handle
  let pn := e.owner.toNat
  let s := (s.takeTile p handle tile).killedRecord core handle (!fault)
  let waits := (s.proc core pn).wait == .sending handle && !e.engine
  let s := if e.engine then (if fault then s.vecClosed core handle else s.vecOperand core handle []) else s
  if fault then
    let s := s.modEp core handle Endpoint.rest
    if waits then s.closeTrap core pn handle why else s
  else
    let s := s.modEp core handle Endpoint.rest
    if waits then (s.acquireAll core pn).wake core pn else s

/-- A release answer at its gate: at a MOVING end a tile's bytes are read, and the answer is held, or follows the end (R184). -/
def State.releaseArrives (s : State) (p : Packet) (handle : Nat) (fault : Bool) (why : BitVec 8) (tile : Option Nat) : State :=
  if (s.ep p.dst handle).state == 7 then
    (s.takeTile p handle tile).heldAt p.dst handle { p with body := .release handle fault why none }
  else s.releaseAt p handle fault why tile

/-- RELEASE_ANSWER (R176, R178). -/
def execReleaseAnswer (pkt : Nat) (s : State) : Answer :=
  .next (match s.arrived pkt with
    | some p =>
      match p.body with
      | .release handle fault why tile => (s.unpacket pkt).releaseArrives p handle fault why tile
      | _ => s
    | none => s)

/-- The receiver of a word or tile whose bytes have landed goes on (R178, R180). -/
def State.receiverDone (s : State) (core handle : Nat) (v : Word) : State :=
  let pn := (s.ep core handle).owner.toNat
  match (s.proc core pn).wait with
  | .receiving h d =>
    if h == handle then ((s.arriveReg core pn d v).acquireAll core pn).wake core pn else s
  | _ => s

/-- The host ring entry an IN endpoint's transfer reads, and the step of HEAD past it (R351). -/
def State.hostHead (s : State) (core : Nat) (e : Endpoint) : State :=
  let pkg := pkgOf core
  let q := hostQueueAt (s.pkg pkg) e.hostDev e.hostQueue
  (s.modHostQueue pkg e.hostDev e.hostQueue (fun q => { q with head := q.head + 1 })).hostWrite pkg 0 0 q.base
    (bytesOfWords [word (q.head + 1)])

/-- The next entry of a host ring acts as an offer at its rendezvous endpoint (R351), unless that is CLOSED or MOVING. -/
def State.hostOffer (s : State) (core handle : Nat) : State :=
  let e := s.ep core handle
  let pkg := pkgOf core
  let q := hostQueueAt (s.pkg pkg) e.hostDev e.hostQueue
  if !q.used || q.toHost || q.tail ≤ q.head || e.state == 6 || e.state == 7 then s
  else
    let data := if e.isTile then word (q.entryAt q.head + 64) else
      BitVec.ofNat 64 (s.mem.read (hostKey pkg (q.entryAt q.head + 64)) 8)
    s.offerAt core handle core 0 data

/-- TRANSFER_END (R178, R179): the receiver is released, and the release answer of a word is sent. -/
def execTransferEnd (core index : Nat) (s : State) : Answer :=
  let e := s.ep core index
  let handle := e.handleAt index
  .next (
    if e.state != 5 || s.ticks < e.xferDone || (e.isTile && !e.isHost && e.bytes.isNone) then s
    else
      let pn := e.owner.toNat
      let bs := if e.isHost then s.mem.bytes (hostKey (pkgOf core) e.srcData.toNat) e.len else e.bytes.getD []
      let s := s.modEp core handle (fun e => { e.rest with bytes := none })
      let s := match s.tearReason (dieOf core) (s.jobOf core) with
        | some why => s.invRecord (dieOf core)
            { item := 5, state := 2, reason := why.toNat, job := s.jobOf core, pid := pidOf core pn, started := true,
              itemid := word handle, value := 0, cycle := 0 }
        | none => s
      let s := if e.isTile && !e.engine then s.landTile core (pidOf core pn) .n e.dstData bs else s
      let s := if e.engine then s.vecOperand core handle bs
        else s.receiverDone core handle (if e.isTile then 0 else e.srcData)
      if e.isHost then (s.hostHead core e).hostOffer core handle
      else if e.isTile then s
      else if e.xferSrc = core then
        s.releaseArrives { src := core, dst := core, at_ := pkgOf core, job := s.jobOf core,
                           body := .release e.xferBack false 0 none } e.xferBack false 0 none
      else s.sendRelease core e.xferSrc e.xferBack false 0)

/-- What a withdrawal that found its offer recorded does at the sender (R181, R183). -/
def State.offerWithdrawn (s : State) (core handle : Nat) (why : Why) : State :=
  let pn := (s.ep core handle).owner.toNat
  let waits := (s.proc core pn).wait == .sending handle
  match why with
  | .close =>
    let reason := (s.ep core handle).closing
    let s := if (s.ep core handle).engine then s.vecClosed core handle else s
    let s := (s.modEp core handle Endpoint.rest).killedRecord core handle false
    if waits then s.closeTrap core pn handle reason else s
  | .deadlock a =>
    let s := (s.modEp core handle (fun e => { e.rest with killed := none })).invRecord (dieOf core)
      { item := 5, state := 2, reason := 0x14, job := s.jobOf core, pid := pidOf core pn, started := false,
        itemid := word handle, value := 0, cycle := 0 }
    if waits then s.trapBlocked core pn .deadlock a else s
  | .kill reason =>
    (s.modEp core handle (fun e => { e.rest with killed := none })).invRecord (dieOf core)
      { item := 5, state := 2, reason := reason.toNat, job := s.jobOf core, pid := pidOf core pn, started := false,
        itemid := word handle, value := 0, cycle := 0 }

/-- A withdrawal of an offer at the rendezvous point (R177, R181). One that finds no record of its offer is refused: the
answer to the offer is at work or on its way, and decides how the operation ends (State.releaseAt). -/
def State.withdrawAt (s : State) (p : Packet) (handle back : Nat) (why : Why) : State :=
  match (s.core p.dst).epFind handle with
  | none => s
  | some e =>
    if e.state == 7 then s.heldAt p.dst handle p
    else if e.xferBack == back && e.xferSrc == p.src && (e.state == 1 || e.state == 4) then
      (s.modEp p.dst handle (fun e => { e with state := if e.state == 1 then 0 else 3 })).offerWithdrawn p.src back why
    else s

/-- Whether a receive's record still stands: at the endpoint, or at one that moves, where no offer is held (R177, R181). -/
def State.recvStands (s : State) (core k : Nat) : Bool :=
  let e := s.ep core k
  e.state == 2 || (e.state == 7 && e.before == 2 && !(look [] (s.core core).held (k % 2 ^ 20)).any (fun p =>
    match p.body with | .offer _ _ _ => true | _ => false))

/-- CHANNEL_WITHDRAWAL (R181). -/
def execChannelWithdrawal (pkt : Nat) (s : State) : Answer :=
  .next (match s.arrived pkt with
    | some p =>
      match p.body with
      | .offerWithdrawal handle back why => (s.unpacket pkt).withdrawAt p handle back why
      | _ => s
    | none => s)

end Sys2Proof.Machine
end

