-- ==== Sys2Proof/Machine/Inbox.lean ====
section
/-! DEFINITION. The channel instructions (R174 to R176, R199), buffered channels and the inbox (R185 to R189), active
messages (R193 to R197), overflow and replay (R198 to R202), and speculation regions (R203 to R207). -/

namespace Sys2Proof.Machine

/-! ### Room in the inbox (R187) -/

/-- Whether a unit of the normal area belongs to a message. -/
def Core.unitUsed (c : Core) (u : Nat) : Bool := c.normal.any (fun m => m.first ≤ u && u < m.first + m.units)

/-- The lowest run of free units of the normal area. -/
def Core.normalRun (c : Core) (n : Nat) : Option Nat :=
  (List.range (normalUnits c.part)).find? (fun u =>
    u + n ≤ normalUnits c.part && (List.range n).all (fun i => !c.unitUsed (u + i)))

/-- The units of the staging ring in use. -/
def Core.stagedUnits (c : Core) : Nat := (c.staging.map (fun m => m.units + m.skipped)).sum

/-- Where a message goes in the staging ring: first unit and skipped units. -/
def Core.stagingRun (c : Core) (n : Nat) : Option (Nat × Nat) :=
  let x := if c.stageTail + n ≤ 64 then (c.stageTail, 0) else (0, 64 - c.stageTail)
  if n ≤ 64 && c.stagedUnits + n + x.2 ≤ 64 then some x else none

/-- A message's bytes as they stand in its units (R188). -/
def Msg.image (m : Msg) : List Byte :=
  let b := bytesOfWords m.header ++ m.body
  b ++ List.replicate (m.units * 64 - b.length) 0

/-- A message's image written into the pool on path N. -/
def State.writeImage (s : State) (core off : Nat) (m : Msg) : State :=
  (tileWords m.image).zipIdx.foldl (fun t x =>
    t.writeBytes .n m.sender.toNat m.job (poolKey core (off + 8 * x.2)) 8 x.1) s

/-- A message is known by sender and destination to the core that owes its credit. -/
def Msg.owes (m : Msg) : Nat × Nat × Nat := (m.sender.toNat, if m.kind.toNat ≤ 1 then m.handle.toNat else 0, m.back)

/-- The credit of a message that has been received, handled or discarded returns to its sender (R186). -/
def State.creditBack (s : State) (core : Nat) (m : Msg) : State :=
  if m.fromHost || m.back = 0 then s
  else s.sendPacket core (m.sender.toNat / 256) none (.credit m.back)

/-! ### The overflow process's forms (R199) -/

/-- The waiting overflow process takes the oldest staged message it has not taken. -/
def State.overflowTake (s : State) (core : Nat) : State :=
  match (s.proc core 255).wait, (s.core core).staging.find? (fun m => !m.returned) with
  | .staged d, some m =>
    let s := s.modCore core (fun c => { c with
      staging := modFirst (fun x => !x.returned) (fun x => { x with returned := true }) c.staging
      lastStaged := some m.first })
    (s.arriveReg core 255 d (word (stagingBase (s.core core).part + m.first * 64))).wake core 255
  | _, _ => s

/-- Frees the staged message last returned, whose credit the overflow process then holds. -/
def State.freeStaged (s : State) (core : Nat) : State :=
  match (s.core core).lastStaged with
  | none => s
  | some u =>
    match takeFirst (fun m => m.returned && m.first == u) (s.core core).staging with
    | some (m, rest) => s.modCore core (fun c => { c with
        staging := rest, lastStaged := none, owed := c.owed ++ [m.msg.owes] })
    | none => s.modCore core (fun c => { c with lastStaged := none })

/-! ### Arrival (R187, R197, R198) -/

/-- A message enters the staging ring; none when the ring has no room. -/
def State.stage (s : State) (core : Nat) (m : Msg) (reason : BitVec 4) : Option State :=
  let c := s.core core
  (c.stagingRun m.units).map (fun x =>
    let m := { m with reason := reason }
    let s := s.modCore core (fun c => { c with
      staging := c.staging ++ [{ msg := m, first := x.1, units := m.units, skipped := x.2 }]
      stageTail := x.1 + m.units })
    (s.writeImage core (stagingBase c.part + x.1 * 64) m).overflowTake core)

/-- A buffered receive takes its message: the word or tile, the units and the credit (R186). -/
def State.takeMessage (s : State) (core : Nat) (m : Stored) : State :=
  (s.modCore core (fun c => { c with normal := c.normal.filter (fun x => x.first != m.first) })).creditBack core m.msg

/-- The first poisoned line of the units of a message of the normal area, as its pool offset (R378). -/
def State.poisonedUnit (s : State) (core : Nat) (m : Stored) : Option Word :=
  (s.mem.poisonIn (poolKey core (inboxBase (s.core core).part + m.first * 64)) (m.units * 64)).map (fun l =>
    word (l * 64 % 2 ^ 21))

/-- A waiting buffered receive, its message present, completes (R186). One whose message stands in a poisoned line takes
POISON, its destination still pending (R144, R378). -/
def State.buffered (s : State) (core handle : Nat) : State :=
  let e := s.ep core handle
  let pn := e.owner.toNat
  match (s.core core).messageFor handle with
  | none => s
  | some m =>
    if e.engine then
      let t := (s.modEp core handle Endpoint.rest).takeMessage core m
      if (s.poisonedUnit core m).isSome then t.vecPoisoned core handle else t.vecOperand core handle m.msg.body
    else match (s.proc core pn).wait with
      | .receivingB h d off =>
        if h != handle then s
        else if (s.poisonedUnit core m).isSome then
          ((((s.modEp core handle Endpoint.rest).takeMessage core m).poisonRead core pn
            ((s.poisonedUnit core m).getD 0)).acquireAll core pn).wake core pn
        else
          let s := (s.modEp core handle Endpoint.rest).takeMessage core m
          let s := if e.isTile then s.landTile core (pidOf core pn) .n off (m.msg.body.take e.len) else s
          let v := if e.isTile then 0 else m.msg.words.getD 0 0
          ((s.arriveReg core pn d v).acquireAll core pn).wake core pn
      | _ => s

/-- A message takes units of the normal area, and a receive or an ALT that waits for it goes on. -/
def State.enterNormal (s : State) (core u : Nat) (m : Msg) : State :=
  let c := s.core core
  let s := s.modCore core (fun c => { c with normal := c.normal ++ [{ msg := m, first := u, units := m.units }] })
  let s := s.writeImage core (inboxBase c.part + u * 64) m
  if 2 ≤ m.kind.toNat then s
  else
    let h := m.handle.toNat
    match c.epFind h with
    | none => s
    | some e => if e.state == 2 then s.buffered core h else if e.state == 3 then s.altCheck core e.wpn.toNat else s

/-- Whether a message is addressed to a CLOSED endpoint of a core (R183). -/
def State.closedFor (s : State) (core : Nat) (m : Msg) : Bool :=
  m.kind.toNat ≤ 1 && ((s.core core).epFind m.handle.toNat).any (fun e => e.state == 6)

/-- A message at a core: freed at a closed endpoint, sent on where its endpoint has moved, or given units; none when it is
refused (R183, R184, R187, R198). -/
def State.receiveMessage (s : State) (core : Nat) (m : Msg) : Option State :=
  let c := s.core core
  let e := if m.kind.toNat ≤ 1 then c.epFind m.handle.toNat else none
  if s.closedFor core m then some s
  else match e.bind (fun e => e.newPlace) with
    | some there => some (s.sendPacket core there none (.message m))
    | none =>
      if c.divert then s.stage core m 1
      else match c.normalRun m.units with
        | some u => some (s.enterNormal core u m)
        | none => (s.modCore core (fun c => { c with divert := true })).stage core m 1

/-- Whether a core's launch counts it as done (R162). -/
def State.coreDone (s : State) (core : Nat) : Bool :=
  match (s.core core).launch with
  | some l => (s.die l.die).running.any (fun r => r.id == l.id && !r.undone.contains core)
  | none => false

/-- The DONEMSG report of a message that a done core cannot receive (R202). -/
def State.undeliverable (s : State) (core : Nat) (m : Msg) : State :=
  s.report core { kind := 4, cause := Cause.donemsg.code, pid := m.sender, job := BitVec.ofNat 16 (s.jobOf core),
                  more := [BitVec.ofNat 512 (packWords m.header)] }

/-- MESSAGE_ARRIVAL (R187, R198, R202): at a done core the message is discarded with a DONEMSG report; one to a core outside
its job is refused, and freed there (R336). -/
def execMessageArrival (pkt : Nat) (s : State) : Answer :=
  .next (match s.arrived pkt with
    | some p =>
      match p.body with
      | .message m =>
        if s.foreign p then s.unpacket pkt
        else if s.coreDone p.dst then
          ((s.unpacket pkt).creditBack p.dst m).undeliverable p.dst m
        else match (s.unpacket pkt).receiveMessage p.dst m with
          | some t => t
          | none => { s with net := s.net.set pkt { p with
              retryAt := some (s.ticks + 64 * 2 ^ min p.tries 6), tries := p.tries + 1 } }.modCore p.dst (fun c =>
                { c with divert := true })
      | _ => s
    | none => s)

/-! ### Buffered sends (R185, R193) -/

/-- An active record's control doubleword in the scratchpad, as its sender reads it (R193). -/
def State.activeControl (s : State) (core pn : Nat) (a : Word) : Word := (s.recordWords core pn a 1).headD 0

/-- The message a send builds (R185, R188, R193). -/
def State.buildMessage (s : State) (core pn handle : Nat) (src : Word) : Msg :=
  let e := s.ep core handle
  let m : Msg := { sender := BitVec.ofNat 31 (pidOf core pn), handle := e.phandle, back := handle, job := s.jobOf core }
  if e.typ == 2 then
    let ws := (s.readRun core pn .n (poolKey core src.toNat) 8).2
    let ctl := ws.getD 0 0
    let args := ws.drop 1
    if ctl.getLsbD 0 then { m with kind := 3, hidx := ctl.extractLsb' 8 6, words := args, handle := 0 }
    else
      let n := 4 * ((ctl.extractLsb' 1 4).toNat + 1)
      let code := (s.tileBytes core pn (src + 64) 64).take n
      { m with kind := 2, nm1 := ctl.extractLsb' 1 4, words := args, handle := 0,
               body := code ++ List.replicate (64 - n) 0 }
  else if e.isTile then { m with kind := 1, body := s.tileBytes core pn src e.len }
  else { m with kind := 0, words := [src] }

/-- The state after the bytes of a send's message have been read (R274, R378). -/
def State.readMessage (s : State) (core pn handle : Nat) (src : Word) : State :=
  let e := s.ep core handle
  if e.typ == 2 then s.readTile core pn src 128 else if e.isTile then s.readTile core pn src e.len else s

/-- The message of a departing sender leaves once the accesses before it are performed (R185). -/
def State.messageLeaves (s : State) (core pn : Nat) : State :=
  match (s.proc core pn).wait with
  | .departing handle src upto =>
    if !(s.core core).releaseHolds pn upto then s
    else
      let e := s.ep core handle
      let m := s.buildMessage core pn handle src
      let s := s.readMessage core pn handle src
      if e.isHost then
        match s.hostPut core handle pn m.words m.body with
        | some t => t.wake core pn
        | none => s
      else (s.sendPacket core e.peerCore none (.message m)).wake core pn
  | _ => s

/-- MESSAGE_DEPARTURE (R185). -/
def execMessageDeparture (core pn : Nat) (s : State) : Answer := .next (s.messageLeaves core pn)

/-- Bytes a held send takes of the hold buffer (R204). -/
def Msg.heldBytes (m : Msg) : Nat :=
  match m.kind.toNat with
  | 1 => 64 + m.body.length
  | 2 => 128
  | _ => 64

/-- A held item of a send (R204), its bytes read at issue; the process's earlier writes to its pool are performed by then
(R300). -/
def State.holdSend (s : State) (core pn handle : Nat) (src : Word) : HoldItem :=
  let m := s.buildMessage core pn handle src
  .message handle m (s.ep core handle).peerCore m.heldBytes

/-- A send's item enters the hold buffer, its bytes read. -/
def State.holdItem (s : State) (core pn handle : Nat) (src : Word) (x : HoldItem) : State :=
  (s.readMessage core pn handle src).modCore core (fun c => { c with hold := { c.hold with items := c.hold.items ++ [x] } })

/-- A credit is taken (R185 step 2). -/
def State.takeCredit (s : State) (core handle : Nat) : State :=
  s.modEp core handle (fun e => { e with credit := e.credit - 1 })

/-- A buffered send, its checks passed (R185, R204). -/
def State.bufferedSend (t : State) (handle : Nat) (src : Word) : State :=
  let core := t.ctx.core
  let pn := t.ctx.pn
  let region := (t.core core).regionOf pn
  let item := t.holdSend core pn handle src
  if region && !(t.core core).hold.room item.bytes then t.trap .specovf 0
  else if (t.ep core handle).state == 7 then t.block .blockedChan (.offering handle src 0)
  else if (t.ep core handle).credit == 0 then
    (t.modEp core handle (fun e => { e.offered pn with wdata := src })).block .blockedChan (.credit handle src)
  else
    let t := t.takeCredit core handle
    if region then (t.holdItem core pn handle src item).advance
    else t.block .blockedSync (.departing handle src (t.core core).nextTag)

/-- A waiting buffered send takes a credit (R185, R204). -/
def State.sendGoes (s : State) (core pn handle : Nat) (src : Word) : State :=
  if (s.core core).regionOf pn then
    let item := s.holdSend core pn handle src
    if (s.core core).hold.room item.bytes then
      ((s.takeCredit core handle).holdItem core pn handle src item).wake core pn
    else s.trapBlocked core pn .specovf 0
  else (s.takeCredit core handle).modProc core pn (fun p => { p with
    state := if p.state == .blockedChan then .blockedSync else p.state
    wait := .departing handle src (s.core core).nextTag })

/-- A buffered operation held at a MOVING end goes on once the move has ended (R184): a send takes a credit or waits for
one, a receive takes its message or waits. -/
def State.bufferedGoes (s : State) (core pn : Nat) : State :=
  match (s.proc core pn).wait with
  | .offering handle src _ =>
    let e := s.ep core handle
    if !e.buffered || e.state == 7 then s
    else if e.credit == 0 then
      (s.modEp core handle (fun e => { e.offered pn with wdata := src })).modProc core pn (fun p => { p with
        wait := .credit handle src })
    else s.sendGoes core pn handle src
  | .recording handle off dest _ =>
    let e := s.ep core handle
    if !e.buffered || e.state == 7 then s
    else
      let s := s.modProc core pn (fun p => { p with wait := .receivingB handle dest off })
      if ((s.core core).messageFor handle).isSome then s.buffered core handle
      else s.modEp core handle (fun e => { e.awaits pn off with engine := false })
  | _ => s

/-- A credit at a buffered OUT end, and the sender that waits for it (R185). -/
def State.creditAt (s : State) (core handle : Nat) : State :=
  let s := s.modEp core handle (fun e => { e with
    credit := if e.credit.toNat ≤ e.dm1.toNat then e.credit + 1 else e.credit })
  let e := s.ep core handle
  let pn := e.owner.toNat
  if e.state != 1 || e.engine then s
  else match (s.proc core pn).wait with
    | .credit h src =>
      if h % 2 ^ 20 != handle % 2 ^ 20 then s
      else
        (s.modEp core handle Endpoint.rest).sendGoes core pn h src
    | _ => s

/-- CREDIT_RETURN (R185). -/
def execCreditReturn (pkt : Nat) (s : State) : Answer :=
  .next (match s.arrived pkt with
    | some p =>
      match p.body with
      | .credit handle =>
        let e := s.ep p.dst handle
        let s := s.unpacket pkt
        match e.newPlace with
        | some there => s.sendPacket p.dst there none (.credit handle)
        | none => if e.valid then s.creditAt p.dst handle else s
      | _ => s
    | none => s)

/-! ### The channel instructions (R174, R175) -/

/-- The checks of R175 common to the sends and receives, then the operation on the entry. FADDR of a region's refusal is
the handle where the instruction has no address. -/
def State.chanOp (t : State) (handle : Nat) (f : ChanForm) (addr : Option Word) (body : Endpoint → State) : State :=
  match (if t.gateShut t.ctx.core then none else (t.core t.ctx.core).epCheck handle t.ctx.pn f false) with
  | none => t.trap .prot (handleWord handle)
  | some e =>
    if !e.buffered && (t.core t.ctx.core).regionOf t.ctx.pn then t.trap .prot (addr.getD (handleWord handle))
    else body e

/-- A tile address (R175 checks 6 and 7). -/
def State.tileAddr (t : State) (a : Word) (n unit : Nat) (slots : Bool) (body : State) : State :=
  let c := t.core t.ctx.core
  if !(c.inScratchpad a n || (slots && c.inClaimedSlot a n)) then t.trap .localbound a
  else if a.toNat % unit != 0 then t.trap .align a
  else body

/-- SEND (R176). -/
def execSend (w : BitVec 2) (a b : BitVec 5) (s : State) : Answer :=
  s.issue w { reads := [s.ra a, s.rb b] } (fun t =>
    let h := handleOf (s.g (s.ra a))
    t.chanOp h { dirIn := false, typs := [0], mode := some false } none (fun _ => t.rendezvousSend h (s.g (s.rb b))))

/-- SENDB (R185). -/
def execSendb (w : BitVec 2) (a b : BitVec 5) (s : State) : Answer :=
  s.issue w { reads := [s.ra a, s.rb b] } (fun t =>
    let h := handleOf (s.g (s.ra a))
    t.chanOp h { dirIn := false, typs := [0], mode := some true } none (fun _ => t.bufferedSend h (s.g (s.rb b))))

/-- SENDH (R193). -/
def execSendh (w : BitVec 2) (a b : BitVec 5) (s : State) : Answer :=
  s.issue w { reads := [s.ra a, s.rb b] } (fun t =>
    let h := handleOf (s.g (s.ra a))
    let x := s.g (s.rb b)
    t.chanOp h { dirIn := false, typs := [2], mode := some true, inbox := true } (some x) (fun _ =>
      t.tileAddr x 128 64 false (t.afterOwnWrites (fun t =>
        if (t.activeControl s.ctx.core s.ctx.pn x &&& ~~~(0x3F1F : Word)) != 0 then t.trap .prot x
        else t.bufferedSend h x))))

/-- The message of an image that the loop-back form may insert; none where KIND or UNITS do not fit (R199). -/
def State.replayImage (s : State) (core : Nat) (a : Word) : Option Msg :=
  let rd (i : Nat) : Word := BitVec.ofNat 64 (s.mem.read (poolKey core (a.toNat + 8 * i)) 8)
  let h := rd 0
  let kind := h.extractLsb' 0 4
  let units := (h.extractLsb' 8 7).toNat
  let handle : BitVec 32 := (rd 1).setWidth 32
  let len := match (s.core core).epFind handle.toNat with
    | some e => if e.isTile then e.len else (units - 1) * 64
    | none => (units - 1) * 64
  let m : Msg := { kind := kind, sender := h.extractLsb' 16 31, hidx := h.extractLsb' 48 6, nm1 := h.extractLsb' 54 4,
                   job := s.jobOf core }
  let r : Option Msg := match kind.toNat with
    | 0 => some { m with handle := handle, words := [rd 2] }
    | 1 => some { m with handle := handle, body := s.mem.bytes (poolKey core (a.toNat + 64)) len }
    | 2 => some { m with words := (List.range 7).map (fun i => rd (i + 1)),
                         body := s.mem.bytes (poolKey core (a.toNat + 64)) 64 }
    | 3 => some { m with words := (List.range 7).map (fun i => rd (i + 1)) }
    | _ => none
  r.filter (fun m => m.units == units)

/-- The bytes of an image: the units its header names (R188, R199). -/
def State.replayBytes (s : State) (core : Nat) (a : Word) : Nat :=
  64 * max 1 (s.mem.read (poolKey core a.toNat) 8 / 2 ^ 8 % 2 ^ 7)

/-- The replayed message enters the normal area, bypassing divert mode, once there is room; its credit is the one the
overflow process holds for it (R199). One for a CLOSED endpoint is freed (R183). -/
def State.replay (s : State) (core : Nat) : State :=
  match (s.proc core 255).wait with
  | .loopback a =>
    match s.replayImage core a with
    | none => s
    | some m =>
      match (s.core core).normalRun m.units with
      | none => s
      | some u =>
        let mine (o : Nat × Nat × Nat) : Bool := o.1 == m.owes.1 && o.2.1 == m.owes.2.1
        let (back, s) := match takeFirst mine (s.core core).owed with
          | some (o, rest) => (o.2.2, s.modCore core (fun c => { c with owed := rest }))
          | none => (0, s)
        (if s.closedFor core m then s else s.enterNormal core u { m with back := back }).wake core 255
  | _ => s

/-- TSEND on the loop-back handle (R199): the image as the overflow process's earlier stores left it. One in a poisoned line
is not replayed, and its process takes POISON (R378). -/
def State.loopbackSend (t : State) (a : Word) : State :=
  let core := t.ctx.core
  t.afterOwnWrites (fun t =>
    let n := t.replayBytes core a
    t.tileAddr a n 64 false (
      if (t.mem.poisonIn (poolKey core a.toNat) n).isSome then (t.recordRead core 255 a (n / 8)).advance
      else if (t.replayImage core a).isNone then t.trap .prot a
      else (t.block .blockedChan (.loopback a)).replay core))

/-- TSEND (R176, R185, R199). -/
def execTsend (w : BitVec 2) (a b : BitVec 5) (s : State) : Answer :=
  s.issue w { reads := [s.ra a, s.rb b] } (fun t =>
    let h := handleOf (s.g (s.ra a))
    let x := s.g (s.rb b)
    if h = loopbackHandle && s.ctx.pn = 255 then t.loopbackSend x
    else t.chanOp h { dirIn := false, typs := [1], mode := none } (some x) (fun e =>
      t.tileAddr x e.len 32 false (
        if !e.buffered then t.rendezvousSend h x
        else if (t.core s.ctx.core).regionOf s.ctx.pn then t.afterOwnWrites (fun t => t.bufferedSend h x)
        else t.bufferedSend h x)))

/-- A receive on a buffered IN end (R186). -/
def State.bufferedRecv (t : State) (handle : Nat) (off : Word) (dest : Nat) : State :=
  let core := t.ctx.core
  let pn := t.ctx.pn
  if (t.ep core handle).state == 7 then (t.pendDest dest).block .blockedChan (.recording handle off dest 0)
  else
    let t := (t.pendDest dest).block .blockedChan (.receivingB handle dest off)
    if ((t.core core).messageFor handle).isSome then t.buffered core handle
    else t.modEp core handle (fun e => { e.awaits pn off with engine := false })

/-- RECV on the staging and loop-back handles (R199). -/
def State.overflowRecv (t : State) (handle d : Nat) : State :=
  let core := t.ctx.core
  let t := t.freeStaged core
  if handle = stagingHandle then ((t.pendDest d).block .blockedChan (.staged d)).overflowTake core
  else
    let empty := (t.core core).staging.isEmpty
    let t := if empty then t.modCore core (fun c => { c with divert := false }) else t
    (t.arriveReg core 255 d (if empty then 1 else 0)).advance

/-- RECV (R177, R186, R199). -/
def execRecv (w : BitVec 2) (d a : BitVec 5) (s : State) : Answer :=
  s.issue w { reads := [s.ra a], writes := [s.rd d], var := true } (fun t =>
    let h := handleOf (s.g (s.ra a))
    if (h = stagingHandle || h = loopbackHandle) && s.ctx.pn = 255 then t.overflowRecv h (s.rd d)
    else t.chanOp h { dirIn := true, typs := [0], mode := none } none (fun e =>
      if e.buffered then t.bufferedRecv h 0 (s.rd d) else t.rendezvousRecv h 0 (s.rd d)))

/-- TRECV (R177, R179, R186). -/
def execTrecv (w : BitVec 2) (a b : BitVec 5) (s : State) : Answer :=
  s.issue w { reads := [s.ra a, s.rb b] } (fun t =>
    let h := handleOf (s.g (s.ra a))
    let x := s.g (s.rb b)
    t.chanOp h { dirIn := true, typs := [1], mode := none } (some x) (fun e =>
      t.tileAddr x e.len 32 true (if e.buffered then t.bufferedRecv h x 0 else t.rendezvousRecv h x 0)))

/-! ### Active messages (R194, R197) -/

/-- The handler's registers: a0 to a6 hold the arguments, a7 SENDER (R194). -/
def handlerRegs (m : Msg) (gp : Word) : List Word :=
  [0, 0, 0, gp, 0] ++ ((m.words ++ List.replicate 7 0).take 7) ++ [m.sender.setWidth 64] ++ List.replicate 3 0

/-- HANDLER_START (R194, R197): the oldest active message of the normal area starts in slot 15, or, where its table entry
is not in use, moves to the staging ring; while the ring has no room it keeps its place, and no later one is handled
(log 12). A handler whose message stands in a poisoned line takes POISON (R378). -/
def execHandlerStart (core : Nat) (s : State) : Answer :=
  .next (
    let c := s.core core
    match c.nextActive with
    | none => s
    | some m =>
      if c.unhandled m.msg then
        match s.stage core m.msg 2 with
        | some t => t.modCore core (fun c => { c with normal := c.normal.filter (fun x => x.first != m.first) })
        | none => s
      else if !(c.slot 15).isEmpty then s
      else
          let entry := look 0 c.handlers m.msg.hidx.toNat
          let inl := m.msg.kind = 2
          let pc := if inl then word (inboxBase c.part + m.first * 64 + 64) else vectorBits (entry.extractLsb' 0 64)
          let gp := if inl then 0 else entry.extractLsb' 64 64
          let p : Proc := { state := .running, pc := pc, prio := 127, wsz := 16, regs := handlerRegs m.msg gp,
                            pend := List.replicate 16 false,
                            asyncTrap := (s.poisonedUnit core m).map (fun a => (.poison, a)) }
          (((s.modCore core (fun c => { c with handler := some m })).setProc core 256 p).acquireAll core 256).startSwitch
            core 15 256 true)

/-- Whether an inline handler of n words from a base has issued past its last one, by a skip or a REP too (R194). -/
def Proc.pastCode (p : Proc) (base n : Nat) : Bool :=
  p.state == .running && (let a := if p.inRep then p.pc.toNat + 4 else p.pc.toNat
    a < base || base + 4 * n ≤ a)

/-- Whether the handler is at its last word and that is a REP, whose repeated word lies past it (R24, R194). -/
def State.lastIsRep (s : State) (core base n : Nat) : Bool :=
  let p := s.proc core 256
  p.state == .running && p.pc.toNat == base + 4 * (n - 1)
    && (BitVec.ofNat 32 (s.mem.read (poolKey core p.pc.toNat) 4)).extractLsb' 24 6 == 0x15

/-- Whether the handler at work is inline and what it issues next lies past its last word (R194). -/
def State.codeOver (s : State) (core : Nat) : Bool :=
  match (s.core core).inlineCode with
  | some (base, n) => (s.proc core 256).pastCode base n || s.lastIsRep core base n
  | none => false

/-- HANDLER_END (R194): an inline handler has issued past its last word. -/
def execHandlerEnd (core : Nat) (s : State) : Answer :=
  .next (match (s.core core).inlineCode with
    | some _ => if s.codeOver core then s.endHandler core else s
    | none => s)

/-! ### Speculation regions (R203 to R207) -/

/-- SPECB (R203). -/
def execSpecb (w : BitVec 2) (s : State) : Answer :=
  s.issue w {} (fun t =>
    let c := t.core s.ctx.core
    if 255 ≤ s.ctx.pn || c.hold.owner == some s.ctx.pn then t.trap .prot 0
    else if c.hold.owner.isSome then t.block .blockedSync .specb
    else (t.modCore s.ctx.core (fun c => { c with hold := { owner := some s.ctx.pn } })).advance)

/-- The processes that wait for the hold buffer, the one that has waited longest first (log 12). -/
def Core.specWaiter (c : Core) : Option Nat :=
  ((c.procs.filter (fun e => e.2.wait == .specb)).foldl (fun acc e =>
    match acc with
    | none => some (e.2.waitSince, e.1)
    | some (t, pn) => if e.2.waitSince < t then some (e.2.waitSince, e.1) else some (t, pn))
    (none : Option (Nat × Nat))).map (fun r => r.2)

/-- HOLD_BUFFER_FREED (R203): a waiting SPECB opens its region. -/
def execHoldBufferFreed (core : Nat) (s : State) : Answer :=
  .next (
    let c := s.core core
    match c.hold.owner, c.specWaiter with
    | none, some pn => (s.modCore core (fun c => { c with hold := { owner := some pn } })).wake core pn
    | _, _ => s)

/-- The region of a process ends without its items; their credits return (R206, R207). -/
def State.abortRegion (s : State) (core pn : Nat) : State :=
  let h := (s.core core).hold
  if h.owner != some pn then s
  else
    let s := s.modCore core (fun c => { c with hold := {} })
    h.items.foldl (fun t x => match x with
      | .message handle _ _ _ => t.creditAt core handle
      | .store _ => t) s

/-- ABORT (R206). -/
def execAbort (w : BitVec 2) (s : State) : Answer :=
  s.issue w {} (fun t => t.noHandler 0 (fun t => (t.abortRegion s.ctx.core s.ctx.pn).advance))

/-- COMMIT (R206): NOP when the issuer has no region open. -/
def execCommit (w : BitVec 2) (s : State) : Answer :=
  s.issue w {} (fun t => t.noHandler 0 (fun t =>
    if (t.core s.ctx.core).hold.owner == some s.ctx.pn then
      (t.modCore s.ctx.core (fun c => { c with hold := { c.hold with committing := true } })).block .blockedSync .commit
    else t.advance))

/-- Committed stores that have not left their core, or whose target has not answered. -/
def Core.committed (c : Core) (pn : Nat) : Bool :=
  c.reqs.all (fun r => !(r.pn == pn && r.release && (r.phase == .full || r.phase == .buffered || r.mesh)))

/-- COMMIT_COMPLETION (R206): the next held item leaves in held order, a message once every store before it is performed;
when the last one has left the core, COMMIT completes. -/
def execCommitCompletion (core : Nat) (s : State) : Answer :=
  .next (
    let c := s.core core
    match c.hold.owner with
    | none => s
    | some pn =>
      if !c.hold.committing then s
      else match c.hold.items with
        | .store r :: rest =>
          if c.entryFree r then
            ((s.enterReq core { r with release := true }).1).modCore core (fun c => { c with
              hold := { c.hold with items := rest } })
          else s
        | .message handle m dst _ :: rest =>
          if c.releaseHolds pn c.nextTag then
            let t := s.modCore core (fun c => { c with hold := { c.hold with items := rest } })
            if (s.ep core handle).isHost then (t.hostPut core handle pn m.words m.body).getD s
            else t.sendPacket core dst none (.message m)
          else s
        | [] =>
          if c.committed pn then (s.modCore core (fun c => { c with hold := {} })).wake core pn else s)

/-- What waits for earlier accesses, or for room in the normal area, goes on as soon as it can (R180, R199). -/
def State.proceed (s : State) (core pn : Nat) : State :=
  let s := (s.chanOrdered core pn).bufferedGoes core pn
  if pn = 255 then s.replay core else s

end Sys2Proof.Machine
end

