-- ==== Sys2Proof/Machine/Future.lean ====
section
/-! DEFINITION. Future tables, their handles and words (R236 to R239), completion and LATE (R235, R239, R246), and the
future instructions (R240 to R245). -/

namespace Sys2Proof.Machine

/-! ### Handles and words (R236, R237) -/

def futureHandle (core entry gen : Nat) : Nat := core * 512 + gen * 64 + entry
def handleEntry (h : Nat) : Nat := h % 64
def handleGen (h : Nat) : Nat := h / 64 % 8
def handleCore (h : Nat) : Nat := h / 512

/-- A future word: HANDLE, STATE, LATE, FLAGS, ENG, REASON and XDATA. -/
def futureWord (handle state : Nat) (late : Bool) (flags : BitVec 5) (eng reason xdata : Nat) : Word :=
  word (handle + state * 2 ^ 32 + (if late then 2 ^ 35 else 0) + flags.toNat * 2 ^ 36 + eng * 2 ^ 41 + reason * 2 ^ 48
    + xdata * 2 ^ 56)

def Core.future (c : Core) (entry : Nat) : Future := look {} c.futures entry
def State.modFuture (s : State) (core entry : Nat) (f : Future → Future) : State :=
  s.modCore core (fun c => { c with futures := put c.futures entry (f (c.future entry)) })

/-- The handle of an entry. -/
def Core.handleFor (c : Core) (core entry : Nat) : Nat := futureHandle core entry (c.future entry).gen.toNat

/-- The word of a PENDING future (R237). -/
def Core.pendingWord (c : Core) (core entry : Nat) : Word :=
  let f := c.future entry
  futureWord (c.handleFor core entry) 0 f.late 0 f.engine.toNat 0 0

/-- The PENDING future of a process whose target a register is (R239, R240). -/
def Core.futureOf (c : Core) (pn reg : Nat) : Option Nat :=
  (c.futures.find? (fun e => e.2.used && e.2.ownerLive && e.2.owner == pn && e.2.target == reg && reg != 0)).map
    (fun e => e.1)

/-- Whether the table has a free entry (R208). -/
def Core.futureFree (c : Core) : Bool := !c.freeOrder.isEmpty

/-- A new entry for a process, the free one freed longest ago; the target register holds its word (R239). -/
def State.allocFuture (s : State) (core pn target eng : Nat) (promise : Option Word) : State × Nat :=
  let c := s.core core
  let e := c.freeOrder.headD 0
  let g := if (c.future e).gen == 7 then 1 else (c.future e).gen + 1
  let f : Future := { used := true, gen := g, owner := pn, target := target, engine := BitVec.ofNat 4 eng,
                      promise := promise }
  let s := s.setCore core { c with futures := put c.futures e f, freeOrder := c.freeOrder.drop 1 }
  (s.modProc core pn (fun p => (p.setReg target ((s.core core).pendingWord core e)).setPending target true), e)

/-- The path of an engine's writes (R281). -/
def enginePath (eng : Nat) : Path :=
  match eng with
  | 0 => .v
  | 1 => .y
  | 2 => .m
  | _ => .s

/-- The process that waits in FWAIT for a handle, of a job whose tenant may be saved (R319): changed if it still waits. -/
def State.onWaiter (s : State) (job pid handle : Nat) (f : State → Nat → Nat → Nat → State) : State :=
  let core := pid / 256
  let pn := pid % 256
  s.onTenant core job (fun t => match (t.proc core pn).wait with
    | .future h d _ => if h = handle then f t core pn d else t
    | _ => t)

/-- A waiter of a future is released with a result, having observed the writes of the operation (R241). -/
def State.releaseWaiter (s : State) (job pid handle : Nat) (res : Word) (seen : Option (Path × Nat)) : State :=
  s.onWaiter job pid handle (fun t core pn d => (t.modProc core pn (fun p =>
    let p := p.setReg d res
    match seen with
    | some (q, a) => p.observe q a
    | none => p)).wake core pn)

/-- A waiter of a future that has become LATE traps (R241). -/
def State.lateWaiter (s : State) (job pid handle : Nat) : State :=
  s.onWaiter job pid handle (fun t core pn _ => t.trapBlocked core pn .late (handleWord handle))

/-- A copy that is not complete by its promise (R235). -/
def State.isLate (s : State) (core entry : Nat) : Bool :=
  let f := (s.core core).future entry
  f.used && !f.late && (match f.promise with
    | some p => p.toNat < (s.cyc (dieOf core)).toNat
    | none => false)

/-- The entry becomes LATE, and its waiting FWAITs raise LATE (R235, R241). -/
def State.markLate (s : State) (core entry : Nat) : State :=
  if s.isLate core entry then
    let c := s.core core
    let h := c.handleFor core entry
    let mine := c.waiters.filter (fun w => w.1 == entry)
    let s := (s.modFuture core entry (fun f => { f with late := true })).modCore core (fun c => { c with
      waiters := c.waiters.filter (fun w => w.1 != entry) })
    mine.foldl (fun t w => t.lateWaiter (s.jobOf core) w.2.2 h) s
  else s

/-- An operation ends (R239): its status reaches the target register and every waiter; the entry is free and keeps it. One
that ends after its promise's cycle is LATE (R235). A started engine operation that ends while its job is torn down ends
FAILED with the teardown's reason, and is recorded (R232, R248, R383). -/
def State.endFuture (s : State) (core entry state : Nat) (reason : BitVec 8) (flags : BitVec 5) (xdata : BitVec 8) : State :=
  let s := s.markLate core entry
  let c := s.core core
  let f := c.future entry
  let torn := if state = 1 && f.engine.toNat < 3 then s.tearReason (dieOf core) (s.jobOf core) else none
  let state := if torn.isSome then 2 else state
  let reason := torn.getD reason
  if !f.used then s
  else
    let st := futureWord (c.handleFor core entry) state f.late flags f.engine.toNat reason.toNat xdata.toNat
    let path := enginePath f.engine.toNat
    let mine := c.waiters.filter (fun w => w.1 == entry)
    let s := s.setCore core { c with
      futures := put c.futures entry { f with used := false, status := st, age := s.mem.age }
      freeOrder := c.freeOrder ++ [entry]
      waiters := c.waiters.filter (fun w => w.1 != entry) }
    let s := if torn.isSome then
        s.invRecord (dieOf core) { item := f.engine.toNat + 1, state := 2, reason := reason.toNat, job := s.jobOf core,
                                   pid := pidOf core f.owner, started := true, itemid := word (c.handleFor core entry),
                                   value := 0, cycle := 0 }
      else s
    let s := if f.ownerLive then
        (s.modProc core f.owner (fun p => { p with
          regObs := (f.target, path, s.mem.age) :: p.regObs.filter (fun o => o.1 != f.target) })).arriveReg
          core f.owner f.target st
      else s
    mine.foldl (fun t w => t.releaseWaiter (s.jobOf core) w.2.2 (c.handleFor core entry) st (some (path, s.mem.age))) s

/-- The record of an item that ends FAILED, or that an end of its process or context finds (R382). -/
def State.itemEnds (s : State) (core item state : Nat) (reason : BitVec 8) (pn : Nat) (started : Bool) (id : Word) : State :=
  s.invRecord (dieOf core) { item := item, state := state, reason := reason.toNat, job := s.jobOf core,
                             pid := pidOf core pn, started := started, itemid := id, value := 0, cycle := 0 }

/-- Whether a reason names an event that ends operations from outside: KILLED, TEARDOWN, LDRESET, HOSTRESET, CLOSED (R238). -/
def fromOutside (reason : BitVec 8) : Bool := 0x40 ≤ reason.toNat && reason.toNat ≤ 0x44

/-- An engine operation ends FAILED, with its record (R238, R382). One that had started, and fails of itself, ends with the
reason of the teardown that has reached it (R232, R383). -/
def State.failFuture (s : State) (core entry item : Nat) (reason : BitVec 8) (flags : BitVec 5) (xdata : BitVec 8)
    (started : Bool) : State :=
  let c := s.core core
  let reason := if started && !fromOutside reason && (c.future entry).engine.toNat < 3 then s.reasonAt core reason else reason
  (s.itemEnds core item 2 reason (c.future entry).owner started (word (c.handleFor core entry))).endFuture core entry 2
    reason flags xdata

/-! ### LATE (R235) -/

/-- LATE_MARK (R235, R241). -/
def execLateMark (core entry : Nat) (s : State) : Answer := .next (s.markLate core entry)

/-! ### Requests to a table (R241, R243) -/

/-- An FWAIT at the owning table; none where the waiter pool is full. -/
def State.futureAsk (s : State) (job handle pid : Nat) : Option State :=
  let core := handleCore handle
  let c := s.core core
  let f := c.future (handleEntry handle)
  if f.gen.toNat != handleGen handle then
    some (s.releaseWaiter job pid handle (word (handle + 4 * 2 ^ 32)) none)
  else if f.used && f.late then some (s.lateWaiter job pid handle)
  else if f.used then
    if c.waiters.length < 128 then
      some ((s.modCore core (fun c => { c with waiters := c.waiters ++ [(handleEntry handle, handleGen handle, pid)] })).onWaiter
        job pid handle (fun t who pn d => t.modProc who pn (fun p => { p with wait := .future handle d true })))
    else none
  else some (s.releaseWaiter job pid handle f.status (some (enginePath f.engine.toNat, f.age)))

/-- A queued operation is removed and ends CANCELLED; one that has started, ended or expired is left (R243). -/
def State.futureCancel (s : State) (handle : Nat) : State :=
  let core := handleCore handle
  let e := handleEntry handle
  let c := s.core core
  let f := c.future e
  if !f.used || f.gen.toNat != handleGen handle then s
  else
    let ends (t : State) : State := t.endFuture core e 3 0 0 0
    match f.engine.toNat with
    | 0 =>
      if c.vecQ.any (fun v => v.entry == e && !v.started) then
        ends ((s.setCore core { c with vecQ := c.vecQ.filter (fun v => v.entry != e) }).sweepCrossings core)
      else s
    | 1 =>
      if c.copyQ.any (fun v => v.entry == e && !v.started) then
        ends (s.setCore core { c with copyQ := c.copyQ.filter (fun v => v.entry != e) })
      else s
    | 2 =>
      if c.tasks.any (fun v => v.entry == e && !v.started) then
        ends ((s.setCore core { c with tasks := c.tasks.filter (fun v => v.entry != e) }.freeSlots).modDie (dieOf core) (fun d =>
          { d with grants := d.grants.filter (· != core) }))
      else s
    | 3 =>
      let d := dieOf core
      if (s.die d).launchQ.any (fun q => q.core == core && q.entry == e) then
        ends (s.modDie d (fun x => { x with launchQ := x.launchQ.filter (fun q => !(q.core == core && q.entry == e)) }))
      else s
    | _ =>
      let d := dieOf core
      let isPub (o : SheafOp) : Bool := match o with | .pub k _ n _ _ => k == core && n == e | _ => false
      let waits := c.procs.find? (fun p => match p.2.wait with | .sheafRelease _ _ _ _ _ n _ => n == e + 1 | _ => false)
      match waits with
      | some (pn, _) => ends (s.wake core pn)
      | none =>
        if (s.die d).sheafQ.any isPub then
          ends (s.modDie d (fun x => { x with sheafQ := x.sheafQ.filter (fun o => !isPub o) }))
        else s

/-- FUTURE_TABLE_REQUEST (R241, R243): an FWAIT refused by a full waiter pool is sent again as R132 states. -/
def execFutureTableRequest (pkt : Nat) (s : State) : Answer :=
  .next (match s.arrived pkt with
    | some p =>
      match p.body with
      | .futureWait handle pid =>
        match (s.unpacket pkt).futureAsk p.job handle pid with
        | some t => t
        | none => { s with net := s.net.set pkt { p with
            retryAt := some (s.ticks + 64 * 2 ^ min p.tries 6), tries := p.tries + 1 } }
      | .futureCancel handle => (s.unpacket pkt).futureCancel handle
      | _ => s
    | none => s)

/-! ### The instructions (R240) -/

/-- Checks of R240 on a handle: it names a future table of a die the job holds; one of another core is reached through the
gate (R336). -/
def State.futureOk (s : State) (core handle : Nat) : Bool :=
  handle != 0 && handleCore handle % 512 < 256 && (handleCore handle == core || !s.gateShut core) && s.holds (s.jobOf core) (dieOf (handleCore handle))

/-- The use of a future instruction: a register that is the target of a PENDING future is not waited for (R240). -/
def State.futureUse (s : State) (writes : List Nat) (a : BitVec 5) : Use :=
  let fut := (s.core s.ctx.core).futureOf s.ctx.pn (s.ra a)
  { reads := if fut.isSome then [] else [s.ra a], writes := writes, var := true }

/-- A future instruction of a process, not of a handler, on a handle that passes R240. -/
def State.onHandle (t : State) (x : Word) (body : Nat → State) : State :=
  let h := handleOf x
  if t.inHandler || !t.futureOk t.ctx.core h then t.trap .prot (handleWord h) else body h

/-- FWAIT (R241). -/
def execFwait (w : BitVec 2) (d a : BitVec 5) (s : State) : Answer :=
  s.issue w (s.futureUse [s.rd d] a) (fun t =>
    t.onHandle (s.g (s.ra a)) (fun h =>
      let pid := pidOf s.ctx.core s.ctx.pn
      let b := t.block .blockedFut (.future h (s.rd d) false)
      if handleCore h = s.ctx.core then
        (b.futureAsk (b.jobOf s.ctx.core) h pid).getD (b.sendPacket s.ctx.core (handleCore h) none (.futureWait h pid))
      else b.sendPacket s.ctx.core (handleCore h) none (.futureWait h pid)))

/-- FTEST (R242). -/
def execFtest (w : BitVec 2) (d a : BitVec 5) (s : State) : Answer :=
  s.issue w (s.futureUse [s.rd d] a) (fun t =>
    t.noHandler (handleWord (handleOf (s.g (s.ra a)))) (fun t =>
      let c := t.core s.ctx.core
      let v := match c.futureOf s.ctx.pn (s.ra a) with
        | some e => c.pendingWord s.ctx.core e
        | none => s.g (s.ra a)
      (t.varResult 2 [(s.rd d, v)]).advance))

/-- FCANCEL (R243). -/
def execFcancel (w : BitVec 2) (a : BitVec 5) (s : State) : Answer :=
  s.issue w (s.futureUse [] a) (fun t =>
    t.onHandle (s.g (s.ra a)) (fun h =>
      let t := t.advance
      if handleCore h = s.ctx.core then t.futureCancel h
      else t.sendPacket s.ctx.core (handleCore h) none (.futureCancel h)))

/-- FPASS (R244). -/
def execFpass (w : BitVec 2) (d a : BitVec 5) (s : State) : Answer :=
  s.issue w (s.futureUse [s.rd d] a) (fun t =>
    t.noHandler (handleWord (handleOf (s.g (s.ra a)))) (fun t =>
      let core := s.ctx.core
      let pn := s.ctx.pn
      let x := s.g (s.ra a)
      match (t.core core).futureOf pn (s.ra a) with
      | some e =>
        ((t.modFuture core e (fun f => { f with target := s.rd d })).modMe (fun p =>
          ((p.setReg (s.rd d) x).setPending (s.rd d) true).setPending (s.ra a) false)).advance
      | none => (t.modMe (fun p => p.setReg (s.rd d) x)).advance))

/-- FPROM (R245); of a saved tenant's future, the promise its save holds (log 25). -/
def execFprom (w : BitVec 2) (d a : BitVec 5) (s : State) : Answer :=
  s.issue w (s.futureUse [s.rd d] a) (fun t =>
    t.onHandle (s.g (s.ra a)) (fun h =>
      let f := (t.coreFor (handleCore h) (t.jobOf s.ctx.core)).future (handleEntry h)
      let v : Word := if f.gen.toNat = handleGen h then f.promise.getD (~~~0) else ~~~0
      (t.modMe (fun p => p.setReg (s.rd d) v)).advance))

end Sys2Proof.Machine
end

