-- ==== Sys2Proof/Machine/Engine.lean ====
section
/-! DEFINITION. Engine registers, active and shadow (R209 to R212, R251, R292), and window descriptor loads (R77, R78). -/

namespace Sys2Proof.Machine

/-! ### Register maps -/

/-- The vector unit's registers (R211). -/
def VecRegs.read (v : VecRegs) (n : Nat) : Word :=
  match n with
  | 0 => v.dst
  | 1 => v.aux
  | 2 => word (v.pred.toNat + v.tseq.toNat * 2 ^ 16)
  | 3 => v.smax.setWidth 64
  | _ => word (v.lasts.toNat + v.lastr.toNat * 2 ^ 32)
def VecRegs.write (v : VecRegs) (n : Nat) (x : Word) : VecRegs :=
  match n with
  | 0 => { v with dst := x }
  | 1 => { v with aux := x }
  | 2 => { v with pred := x.extractLsb' 0 3, tseq := x.extractLsb' 16 16 }
  | 3 => { v with smax := x.extractLsb' 0 32 }
  | _ => v

/-- The copy engine's registers (R212). -/
def CopyRegs.read (c : CopyRegs) (n : Nat) : Word :=
  match n with
  | 0 => c.len.setWidth 64
  | 1 => c.rows.setWidth 64
  | 2 => c.spitch
  | 3 => c.dpitch
  | 4 => c.rect.setWidth 64
  | _ => c.slack.setWidth 64
def CopyRegs.write (c : CopyRegs) (n : Nat) (x : Word) : CopyRegs :=
  match n with
  | 0 => { c with len := x.extractLsb' 0 32 }
  | 1 => { c with rows := x.extractLsb' 0 16 }
  | 2 => { c with spitch := x }
  | 3 => { c with dpitch := x }
  | 4 => { c with rect := x.extractLsb' 0 32 }
  | _ => { c with slack := x.extractLsb' 0 32 }

/-- A bank's depth and state as registers 0x00 and 0x01 show them (R251). -/
def Bank.status (b : Bank) : Word := word (b.depth + b.state.toNat * 2 ^ 12)

/-- The array's registers (R251, R272). -/
def State.arrayRead (s : State) (core n : Nat) : Word :=
  let c := s.core core
  let d := s.die (dieOf core)
  if n = 0 then c.bank0.status
  else if n = 1 then c.bank1.status
  else if n = 2 then word c.tasks.length
  else if n = 3 then word (c.holds.toNat + c.holdcyc.toNat * 2 ^ 32)
  else if n = 4 then d.gbud.setWidth 64
  else if n = 5 then d.gramp.setWidth 64
  else if n = 6 then word (d.gprev + d.gallow * 2 ^ 20)
  else if n < 0x30 then (c.opslot (n - 0x10)).sblk
  else (c.opslot (n - 0x30)).sband.setWidth 64
/-- EWR's and EWRA's effect on them. GBUD, GRAMP and LAND keep their values whichever core writes, a kernel core too: R251
says how a kernel core sets them, not what its EWR does (DESIGN CHOICE, log 28). -/
def State.arrayWrite (s : State) (core n : Nat) (x : Word) : State :=
  s.modCore core (fun c =>
    if 0x10 ≤ n && n < 0x30 then
      { c with opslots := put c.opslots (n - 0x10) { c.opslot (n - 0x10) with sblk := x } }
    else if 0x30 ≤ n && n < 0x50 then
      { c with opslots := put c.opslots (n - 0x30) { c.opslot (n - 0x30) with sband := x.extractLsb' 0 16 } }
    else c)

/-- Whether a core's package is a live member of a sheaf bound to the core's job (R291, R292). -/
def State.sheafMember (s : State) (core : Nat) : Bool :=
  let p := s.pkg (pkgOf core)
  p.formed && !s.gateShut core && p.sheafJob.toNat == s.jobOf core

/-- The sheaf interface's registers (R292). -/
def State.sheafRead (s : State) (core pn n : Nat) : Word :=
  let d := s.die (dieOf core)
  let p := s.pkg (pkgOf core)
  match n with
  | 0 => word d.applied
  | 1 => (s.proc core pn).bidx.setWidth 64
  | 2 => look 0 d.board (s.proc core pn).bidx.toNat
  | 3 => word (p.seat.toNat + p.seats.toNat * 2 ^ 5 + (if s.sheafMember core then 2 ^ 15 else 0))
  | 4 => p.land.setWidth 64
  | _ => word d.sheafQ.length
def State.sheafWrite (s : State) (core pn n : Nat) (x : Word) : State :=
  if n = 1 then s.modProc core pn (fun p => { p with bidx := x.extractLsb' 0 13 }) else s

/-! ### Active and shadow sets (R210) -/

/-- Dirty shadow registers are copied into the active set, at the completion of an operation. -/
def Core.vecSync (c : Core) : Core :=
  { c with vecA := c.vecDirty.foldl (fun a n => a.write n (c.vecS.read n)) c.vecA, vecDirty := [] }
def Core.copySync (c : Core) : Core :=
  { c with copyA := c.copyDirty.foldl (fun a n => a.write n (c.copyS.read n)) c.copyA, copyDirty := [] }

/-- EWR's effect on the vector unit and the copy engine. -/
def Core.vecWrite (c : Core) (n : Nat) (x : Word) : Core :=
  let c := { c with vecS := c.vecS.write n x, vecDirty := if n < 4 then insertKey c.vecDirty n else c.vecDirty }
  if c.vecQ.any (fun v => v.started) then c else c.vecSync
def Core.copyWrite (c : Core) (n : Nat) (x : Word) : Core :=
  let c := { c with copyS := c.copyS.write n x, copyDirty := insertKey c.copyDirty n }
  if c.copyQ.any (fun v => v.started) then c else c.copySync

/-- EWRA's effect: both sets. -/
def Core.vecWriteBoth (c : Core) (n : Nat) (x : Word) : Core :=
  { c with vecS := c.vecS.write n x, vecA := c.vecA.write n x, vecDirty := c.vecDirty.filter (· != n) }
def Core.copyWriteBoth (c : Core) (n : Nat) (x : Word) : Core :=
  { c with copyS := c.copyS.write n x, copyA := c.copyA.write n x, copyDirty := c.copyDirty.filter (· != n) }

/-- EWR (R209, R210, R251, R292). -/
def execEwr (w : BitVec 2) (a : BitVec 5) (e : BitVec 4) (n : BitVec 8) (s : State) : Answer :=
  s.issue w { reads := [s.ra a] } (fun t =>
    let core := s.ctx.core
    let x := s.g (s.ra a)
    let t := match e.toNat with
      | 0 => t.modCore core (fun c => c.vecWrite n.toNat x)
      | 1 => t.modCore core (fun c => c.copyWrite n.toNat x)
      | 2 => t.arrayWrite core n.toNat x
      | _ => t.sheafWrite core s.ctx.pn n.toNat x
    t.advance)

/-- EWRA (R209, R210, R251, R292). -/
def execEwra (w : BitVec 2) (a : BitVec 5) (e : BitVec 4) (n : BitVec 8) (s : State) : Answer :=
  s.issue w { reads := [s.ra a] } (fun t =>
    let core := s.ctx.core
    let c := t.core core
    let x := s.g (s.ra a)
    match e.toNat with
    | 0 =>
      if !c.vecQ.isEmpty then t.trap .prot (n.setWidth 64)
      else (t.modCore core (fun c => c.vecWriteBoth n.toNat x)).advance
    | 1 =>
      if !c.copyQ.isEmpty then t.trap .prot (n.setWidth 64)
      else (t.modCore core (fun c => c.copyWriteBoth n.toNat x)).advance
    | 2 => (t.arrayWrite core n.toNat x).advance
    | _ => (t.sheafWrite core s.ctx.pn n.toNat x).advance)

/-- An engine register as ERD reads it: from 0x80 upward the shadow copy. -/
def State.engineRead (s : State) (core pn e n : Nat) : Word :=
  let c := s.core core
  match e with
  | 0 => (if n < 0x80 then c.vecA else c.vecS).read (n % 0x80)
  | 1 => (if n < 0x80 then c.copyA else c.copyS).read (n % 0x80)
  | 2 => s.arrayRead core (n % 0x80)
  | _ => s.sheafRead core pn (n % 0x80)

/-- ERD (R209): written 2 die cycles after issue. -/
def execErd (w : BitVec 2) (d : BitVec 5) (e : BitVec 4) (n : BitVec 8) (s : State) : Answer :=
  s.issue w { writes := [s.rd d], var := true } (fun t =>
    (t.varResult 2 [(s.rd d, s.engineRead s.ctx.core s.ctx.pn e.toNat n.toNat)]).advance)

/-! ### Addresses of an engine (R119, R224, R229, R329) -/

/-- Where an engine's access leads. -/
inductive EngineAt where
  | at (key : Nat)
  | zero                     -- a DISCARDED page reads as zero
  | poison
  | cause (c : Cause)
  | wait                     -- the target's tenant is saved, the target wakes, or the packet is on its way
  deriving DecidableEq, Repr

/-- The leaf of a global address through the issuing core's TLB and the die's walker, checked. -/
def State.engineLeaf (s : State) (core va : Nat) (n : Needs) : State × (Word ⊕ Cause) :=
  let job := s.jobOf core
  if !isKernel core && !(s.core core).gateV then (s, .inr .prot) else
  let check (s : State) (p : Word) (large : Bool) : State × (Word ⊕ Cause) :=
    match leafCause p large n with
    | some c => (s, .inr c)
    | none => (s, .inl p)
  match (s.core core).tlbFind job va with
  | some e => check (s.modCore core (fun c => c.tlbTouch e)) e.leaf e.large
  | none =>
    match s.walk (dieOf core) job va with
    | .fault c => (s, .inr c)
    | .leaf p large =>
      if p.getLsbD 0 then check (s.modCore core (fun c => c.tlbEnter job va p large)) (tlbLeaf p large) large
      else (s, .inr (absentCause p))

/-- The key of a global address for an engine. A copy's rule on targets, and VSCALE's, is allowed by the caller. -/
def State.engineKey (s : State) (core va : Nat) (n : Needs) (allowed : Nat → Bool) : State × EngineAt :=
  match s.engineLeaf core va n with
  | (s, .inr c) => (s, .cause c)
  | (s, .inl p) =>
    if !allowed (pteTarget p) then (s, .cause .prot)
    else if pteOwn p == 3 then (s, .zero)
    else match s.crosses core (pteHome p) (s.jobOf core) (va / 64) (2 * va) 2 (word va) (.engine core va) with
      | (s, .away) => (s, .wait)
      | (s, .sunk) => (s, .poison)
      | (s, .there) => match s.homeKey (pteHome p) (pteTarget p) (s.jobOf core) va with
        | (s, some k) => (if pteTarget p = 3 then s.ownHostLine k else s, .at k)
        | (s, none) => (s.mismatch (pteHome p) (s.jobOf core) va, .poison)

/-- The key of a mesh address for an engine: what the target core answers (R119). -/
def State.engineMesh (s : State) (core t off n : Nat) (write : Bool) : State × EngineAt :=
  let job := s.jobOf core
  let c := s.core t
  let name := 2 ^ 21 * t + off                 -- stands for the address: no global address is so low
  if s.gateShut core then (s, .cause .prot)
  else match s.crosses core (dieOf t) job 0 (2 * name) 2 (word name) (.engine core name) with
    | (s, .away) => (s, .wait)
    | (s, .sunk) => (s, .poison)
    | (s, .there) =>
      if (s.die (dieOf t)).isSaved job then (s, .wait)
      else if !(c.gateV && c.gateJob.toNat == job) then (s, .cause .prot)
      else if c.gated then (if c.wakeEnd.isNone then s.later (.coreWake t) else s, .wait)
      else if !localOk c.part write off n then (s, .cause .localbound)
      else (s, .at (poolKey t off))

/-! ### Window descriptors (R77, R78) -/

/-- WSET (R78): the record is read whole, at issue, every earlier store of the process in it: the spec fixes only when the
descriptor changes (DESIGN CHOICE, log 28). In a poisoned line it is a free value, and its process takes POISON (R378).
The process issues nothing until the descriptor is loaded. -/
def execWset (w : BitVec 2) (a n : BitVec 5) (s : State) : Answer :=
  s.issue w { reads := [s.ra a], legal := s.rb n < 8 } (fun t =>
    let core := s.ctx.core
    let x := s.g (s.ra a)
    if x.toNat % 32 != 0 then t.trap .align x
    else if !(t.core core).inScratchpad x 32 then t.trap .localbound x
    else t.afterOwnWrites (fun t =>
      let d := BitVec.ofNat 256 (packWords (t.recordWords core s.ctx.pn x 4)) &&& wdMask
      let t := t.recordRead core s.ctx.pn x 4
      (t.advance.modMe (fun p => { p with held := true, wait := .wset (s.ticks + 8) })).modCore core (fun c => { c with
        wsetOps := c.wsetOps ++ [(s.ctx.pn, s.rb n, d, s.ticks + 8)] })))

/-- WSET_COMPLETION (R78): the descriptor changes whole, and its process goes on. -/
def execWsetCompletion (core : Nat) (s : State) : Answer :=
  .next (match (s.core core).wsetOps with
    | [] => s
    | (pn, n, d, _) :: rest =>
      let s := s.modCore core (fun c => { c with wdesc := put c.wdesc n d, wsetOps := rest })
      match (s.proc core pn).wait with
      | .wset _ => s.modProc core pn (fun p => { p with held := false, wait := .none })
      | _ => s)

end Sys2Proof.Machine
end

