-- ==== Sys2Proof/Machine/Copy.lean ====
section
/-! DEFINITION. The copy engine: the instructions CPY and CPYM and their checks (R226 to R228, R233), promises (R234), and
the start, page faults, arrivals and completion of a copy (R228 to R233). -/

namespace Sys2Proof.Machine

/-! ### Kinds of address (R226, R227) -/

inductive CopyKind where
  | pool | slot | mesh | global | other
  deriving DecidableEq, Repr

def copyKind (a : Word) : CopyKind :=
  match spaceOf false a with
  | .window 0 _ => .pool
  | .operand => .slot
  | .mesh _ _ _ => .mesh
  | .global => .global
  | .window _ _ | .lowNone | .none | .physical => .other

/-- The pairs of R227 for CPY. -/
def copyPair (src dst : CopyKind) : Bool :=
  match src, dst with
  | .pool, .global | .pool, .mesh | .pool, .pool | .pool, .slot => true
  | .global, .pool | .global, .global => true
  | _, _ => false

/-- The core a mesh address names. -/
def meshCore (core : Nat) (a : Word) : Nat := coreAt (pkgOf core) (a.toNat / 2 ^ 30 % 32) (a.toNat / 2 ^ 25 % 32)

/-! ### Geometry (R212, R228, R233) -/

/-- The values of the copy engine's registers an operation starts with. -/
structure Geometry where
  len : Nat
  rows : Nat
  spitch : Int
  dpitch : Int
  rect : BitVec 32
  slack : Nat
  deriving DecidableEq, Repr

def CopyRegs.geometry (c : CopyRegs) : Geometry :=
  { len := c.len.toNat, rows := c.rows.toNat, spitch := c.spitch.toInt, dpitch := c.dpitch.toInt, rect := c.rect,
    slack := c.slack.toNat }

/-- The set a queued operation will start with: the shadow value where it is dirty (R228). -/
def Core.copyNext (c : Core) : Geometry :=
  (c.copyDirty.foldl (fun a n => a.write n (c.copyS.read n)) c.copyA).geometry

/-- The cores of a rectangle of C.RECT, none where the word is unaligned or has another bit set (R161, R233). -/
def rectCores (pkg : Nat) (r : BitVec 32) : Option (List Nat) :=
  let n := r.toNat
  let x0 := n % 32
  let y0 := n / 2 ^ 8 % 32
  let lw := n / 2 ^ 16 % 8
  let lh := n / 2 ^ 20 % 8
  if r &&& ~~~(0x00771F1F : BitVec 32) != 0 || 5 < lw || 5 < lh || x0 % 2 ^ lw != 0 || y0 % 2 ^ lh != 0 then none
  else some ((List.range (2 ^ lh)).flatMap (fun y => (List.range (2 ^ lw)).map (fun x => coreAt pkg (x0 + x) (y0 + y))))

/-- The first byte of the rows that lies outside a range of addresses. -/
def rowsOutside (base : Int) (pitch : Int) (len : Nat) (lo hi : Int) : List Nat → Option Int
  | [] => none
  | r :: rs =>
    let a := base + r * pitch
    if a < lo then some a
    else if hi < a + len then some (max a hi)
    else rowsOutside base pitch len lo hi rs

/-- The bytes of a pool that copies may read and write (R118). -/
def readableSize (part : BitVec 23) : Nat := (partScratch part + partAcc part + partInb part) * 16384

/-- The first address of a row outside its region: source rows, then destination rows (R228). -/
def State.copyOutside (s : State) (core : Nat) (multi : Bool) (a b : Word) (g : Geometry) : Option Word :=
  let rows := if g.len = 0 then [] else List.range g.rows
  let src := match copyKind a with
    | .pool => rowsOutside a.toNat g.spitch g.len 0 (readableSize (s.core core).part) rows
    | _ => none
  let dst := match copyKind b with
    | .pool => rowsOutside b.toNat g.dpitch g.len 0 (scratchSize (s.core core).part) rows
    | .slot =>
      let base : Nat := b.toNat - (b.toNat - 0x7F000000) % 8192
      rowsOutside b.toNat g.dpitch g.len base (base + 8192) rows
    | .mesh =>
      if multi then none
      else
        let off : Nat := b.toNat % 2 ^ 25
        (rowsOutside (off : Int) g.dpitch g.len 0 (scratchSize (s.core (meshCore core b)).part) rows).map (fun x =>
          x + ((b.toNat - off : Nat) : Int))
    | _ => none
  match src with
  | some x => some (wordOfInt x)
  | none => dst.map wordOfInt

/-- The checks of R227, R228, R231, R233 and R336: cause and FADDR of the first that fails. -/
def State.copyFault (s : State) (core : Nat) (multi : Bool) (a b : Word) (g : Geometry) : Option (Cause × Word) :=
  let src := copyKind a
  let dst := copyKind b
  let job := s.jobOf core
  let held (t : Nat) : Bool := s.holds job (dieOf t)
  if src != .pool && (multi || src != .global) then some (.prot, a)
  else if (if multi then dst != .pool && dst != .slot else !copyPair src dst) then some (.prot, b)
  else if !multi && dst == .mesh && (isKernel core || s.gateShut core || !held (meshCore core b)) then some (.prot, b)
  else if multi && (match rectCores (pkgOf core) g.rect with
      | some cs => s.gateShut core || !cs.all held
      | none => true) then some (.prot, g.rect.setWidth 64)
  else if a.toNat % 8 != 0 then some (.align, a)
  else if b.toNat % 8 != 0 || g.len % 8 != 0 || g.spitch % 8 != 0 || g.dpitch % 8 != 0 then some (.align, b)
  else (s.copyOutside core multi a b g).map (fun x => (.localbound, x))

/-! ### Promises (R234) -/

/-- The rows of the table: die cycles and bytes a die cycle. -/
def promiseRow (k : Nat) : Nat × Nat :=
  match k with
  | 0 => (16, 64)
  | 1 => (64, 32)
  | 2 => (256, 32)
  | 3 => (400, 32)
  | 4 => (1200, 16)
  | _ => (2400, 8)

/-- The row of one end. -/
def State.endRow (s : State) (core : Nat) (a : Word) : Nat :=
  match copyKind a with
  | .mesh => if meshCore core a = core then 0 else if dieOf (meshCore core a) = dieOf core then 1 else 2
  | .global =>
    match (s.core core).tlbFind (s.jobOf core) a.toNat with
    | some e => if pteTarget e.leaf < 2 then 3 else if pteTarget e.leaf = 2 then 4 else 5
    | none => 3
  | _ => 0

/-- The row of a rectangle. -/
def State.rectRow (core : Nat) (g : Geometry) : Nat :=
  match rectCores (pkgOf core) g.rect with
  | some cs => if cs.all (fun t => dieOf t == dieOf core) then 1 else 2
  | none => 1

/-- The promise of a copy accepted now. -/
def State.promise (s : State) (core : Nat) (multi : Bool) (a b : Word) (g : Geometry) : Word :=
  let c := (s.cyc (dieOf core)).toNat
  let before := match (s.core core).copyP with
    | some (p, e) => if (s.core core).copyQ.any (fun o => o.entry == e) then p.toNat else c
    | none => c
  let r := promiseRow (max (s.endRow core a) (if multi then State.rectRow core g else s.endRow core b))
  word (max c before + r.1 + (g.len * g.rows + r.2 - 1) / r.2 + g.slack)

/-! ### The instructions (R226, R228, R233) -/

/-- A copy instruction. -/
def State.copyIssue (s : State) (w : BitVec 2) (d a b : BitVec 5) (multi : Bool) : Answer :=
  let core := s.ctx.core
  let c := s.core core
  s.issue w { reads := [s.ra a, s.rb b], writes := [s.rd d], var := true,
              ready := c.copyQ.length < 16 && c.futureFree } (fun t =>
    let x := s.g (s.ra a)
    let y := s.g (s.rb b)
    let g := c.copyNext
    match t.copyFault core multi x y g with
    | some (e, f) => t.trap e f
    | none =>
      let p := t.promise core multi x y g
      let f := t.allocFuture core s.ctx.pn (s.rd d) 1 (some p)
      (f.1.modCore core (fun c => { c with
        copyQ := c.copyQ ++ [{ multi := multi, src := x, dst := y, pn := s.ctx.pn, entry := f.2, promise := p, upto := (t.core core).nextTag }]
        copyP := some (p, f.2) })).advance)

/-- CPY (R226 to R228, R234). -/
def execCpy (w : BitVec 2) (d a b : BitVec 5) (s : State) : Answer := s.copyIssue w d a b false

/-- CPYM (R226, R227, R233, R234). -/
def execCpym (w : BitVec 2) (d a b : BitVec 5) (s : State) : Answer := s.copyIssue w d a b true

/-! ### The end of a copy (R210, R229, R239) -/

def State.setCopyHead (s : State) (core : Nat) (o : CopyOp) : State :=
  s.modCore core (fun c => { c with copyQ := o :: c.copyQ.drop 1 })

/-- The copy at the head ends: its status word and the shadow copies. -/
def State.copyEnd (s : State) (core : Nat) (o : CopyOp) (reason : BitVec 8) : State :=
  let s := (s.modCore core (fun c => { c with copyQ := c.copyQ.drop 1 })).sweepCrossings core
  let s := if reason = 0 then s.endFuture core o.entry 1 0 0 0 else s.failFuture core o.entry 2 reason 0 0 o.started
  s.modCore core Core.copySync

/-! ### Words -/

def CopyOp.total (o : CopyOp) : Nat := o.len / 8 * o.rows

/-- The addresses of word k, rows then words ascending. -/
def CopyOp.srcAt (o : CopyOp) (k : Nat) : Word :=
  o.src + wordOfInt ((k / (o.len / 8) : Nat) * o.spitch) + word (8 * (k % (o.len / 8)))
def CopyOp.dstAt (o : CopyOp) (base : Word) (k : Nat) : Word :=
  base + wordOfInt ((k / (o.len / 8) : Nat) * o.dpitch) + word (8 * (k % (o.len / 8)))

def copyReads : Needs := { r := true, w := false, x := false, writes := false, sync := false }
def copyWrites : Needs := { r := false, w := true, x := false, writes := true, sync := false }

/-- The key of a source or destination word on this core's side. -/
def State.copyKey (s : State) (core : Nat) (a : Word) (write : Bool) : State × EngineAt :=
  match copyKind a with
  | .pool => (s, .at (poolKey core a.toNat))
  | .mesh => s.engineMesh core (meshCore core a) (a.toNat % 2 ^ 25) 8 write
  | _ => s.engineKey core a.toNat (if write then copyWrites else copyReads) (fun _ => true)

/-- Why a move stops. -/
inductive CopyStop where
  | done
  | page (c : Cause) (a : Word)
  | fail (reason : BitVec 8)
  | wait
  deriving DecidableEq, Repr

/-- A cause the engine meets: those of fault service stop the copy, the others end it (R229). -/
def CopyStop.of (c : Cause) (a : Word) : CopyStop :=
  match c with
  | .page | .stack | .own => .page c a
  | _ => .fail c.code

/-- One word: read on path Y, which the read is remembered by (R274), and written on path Y. -/
def State.copyWord (s : State) (core : Nat) (o : CopyOp) (k : Nat) : State × CopyStop :=
  let a := o.srcAt k
  let b := o.dstAt o.dst k
  let write (s : State) (v : Nat) : State × CopyStop :=
    match slotAddr b with
    | some (i, off) => ({ s with mem := s.mem.write (operandKey core i off) 8 v }, .done)
    | none =>
      match s.copyKey core b true with
      | (s, .at q) => (s.writeBytes .y (pidOf core o.pn) (s.jobOf core) q 8 v, .done)
      | (s, .zero) => (s, .done)
      | (s, .poison) => (s, .fail Cause.poison.code)
      | (s, .cause c) => (s, .of c b)
      | (s, .wait) => (s, .wait)
  match s.copyKey core a false with
  | (s, .at q) =>
    if s.mem.isPoisoned q then (s, .fail Cause.poison.code)
    else
      write (s.sawWord core o.pn .y (q / 8)) (s.readSeen core o.pn .y q 8)
  | (s, .zero) => write s 0
  | (s, .poison) => (s, .fail Cause.poison.code)
  | (s, .cause c) => (s, .of c a)
  | (s, .wait) => (s, .wait)

/-- Words in ascending order from one place on, up to the first that stops the copy; answers the words moved. -/
def State.copyMove (s : State) (core : Nat) (o : CopyOp) : Nat → Nat → State × Nat × CopyStop
  | 0, k => (s, k, .done)
  | n + 1, k =>
    match s.copyWord core o k with
    | (t, .done) => t.copyMove core o n (k + 1)
    | (t, stop) => (t, k, stop)

/-! ### Start (R228, R233) -/

/-- The source words of a multicast, read once, up to a poisoned one, and the state after those reads (R274). -/
def State.copySource (s : State) (core : Nat) (o : CopyOp) : Nat → Nat → State × List Word × Bool
  | 0, _ => (s, [], true)
  | n + 1, k =>
    let q := poolKey core (o.srcAt k).toNat
    if s.mem.isPoisoned q then (s, [], false)
    else
      let r := (s.sawWord core o.pn .y (q / 8)).copySource core o n (k + 1)
      (r.1, s.wordSeen core o.pn .y (q / 8) :: r.2.1, r.2.2)

/-- The copy at the head starts: its registers are captured and checked again. -/
def State.copyStart (s : State) (core : Nat) (o : CopyOp) : State :=
  let g := (s.core core).copyA.geometry
  let o := { o with len := g.len, rows := g.rows, spitch := g.spitch, dpitch := g.dpitch, rect := g.rect }
  match s.copyFault core o.multi o.src o.dst g with
  | some (c, _) => s.copyEnd core o c.code
  | none =>
    if o.total = 0 then s.copyEnd core o 0
    else if !o.multi && copyKind o.dst == .slot && !(s.core core).inClaimedSlot o.dst 1 then
      s.copyEnd core o Cause.localbound.code
    else
      let o := { o with started := true }
      if o.multi then
        let r := s.copySource core o o.total 0
        r.1.setCopyHead core { o with words := r.2.1, reason := if r.2.2 then 0 else Cause.poison.code }
      else s.setCopyHead core o

/-- COPY_START (R208, R228): when no copy is executing, the next one starts, its process's earlier writes to its pool
performed (R282). -/
def execCopyStart (core : Nat) (s : State) : Answer :=
  .next (match (s.core core).copyQ with
    | o :: _ =>
      if o.started then s
      else
        let t := s.settleOwn core o.pn
        if (t.core core).ownWritesDone o.pn o.upto then t.copyStart core o else t
    | [] => s)

/-! ### Page faults (R229, R341) -/

/-- COPY_PAGE_FAULT (R229): the copy stops at a word whose page needs service, and its message goes to a kernel core. -/
def execCopyPageFault (core : Nat) (s : State) : Answer :=
  .next (match (s.core core).copyQ with
    | o :: _ =>
      if !o.started || o.multi || o.fault.isSome then s
      else match s.copyMove core o (o.total - o.moved) o.moved with
        | (t, k, .page c a) =>
          (t.setCopyHead core { o with moved := k, fault := some (c, a) }).report core
            { kind := 2, cause := c.code, pid := BitVec.ofNat 31 (pidOf core o.pn), job := BitVec.ofNat 16 (s.jobOf core),
              faddr := a, extra := BitVec.ofNat 32 ((s.core core).handleFor core o.entry) }
        | _ => s
    | [] => s)

/-! ### Multicast (R233) -/

/-- A core of the rectangle may take the bytes: none, or why it refuses. -/
def State.copyRefusal (s : State) (core t : Nat) (o : CopyOp) : Option Cause :=
  let c := s.core t
  let rows := List.range o.rows
  if s.gateShut core || !(c.gateV && c.gateJob.toNat == s.jobOf core) then some .prot
  else match slotAddr o.dst with
    | some _ => if c.inClaimedSlot o.dst 1 then none else some .localbound
    | none =>
      if (rowsOutside o.dst.toNat o.dpitch o.len 0 (scratchSize c.part) rows).isSome then some .localbound else none

/-- The words of a multicast reach one core. -/
def State.copyLand (s : State) (core t : Nat) (o : CopyOp) : State :=
  let s := o.words.zipIdx.foldl (fun s x =>
    let b := o.dstAt o.dst x.2
    match slotAddr b with
    | some (i, off) => { s with mem := s.mem.write (operandKey t i off) 8 x.1.toNat }
    | none => s.writeBytes .y (pidOf core o.pn) (s.jobOf core) (poolKey t b.toNat) 8 x.1.toNat) s
  match slotAddr o.dst with
  | some (i, _) =>
    if o.reason = 0 then s.modCore t (fun c => c.fillSlot i) else s
  | none => s

/-- CPYM_ARRIVAL (R119, R233): the bytes arrive at one core of the rectangle, which takes or refuses them. Those to another
die pass the island check (R317), and a die that tears the job down takes none (R383). -/
def execCpymArrival (core target : Nat) (s : State) : Answer :=
  .next (match (s.core core).copyQ with
    | o :: _ =>
      let inRect := match rectCores (pkgOf core) o.rect with
        | some cs => cs.contains target
        | none => false
      if !o.started || !o.multi || !inRect || o.cores.any (fun c => c.1 == target)
        || (s.die (dieOf target)).isSaved (s.jobOf core) then s
      else if (s.core target).gated then
        (if (s.core target).wakeEnd.isNone then s.later (.coreWake target) else s)
      else match s.crosses core (dieOf target) (s.jobOf core) 0 (2 ^ 22 * target) 2 (word (2 ^ 21 * target))
          (.engine core (2 ^ 21 * target)) with
        | (s, .away) => s
        | (s, .sunk) => s.setCopyHead core { o with cores := o.cores ++ [(target, some .prot)] }
        | (s, .there) =>
          let r := s.copyRefusal core target o
          let s := if r.isNone then s.copyLand core target o else s
          s.setCopyHead core { o with cores := o.cores ++ [(target, r)] }
    | [] => s)

/-- The outcome of a multicast that has reached every core. -/
def CopyOp.multiReason (o : CopyOp) : BitVec 8 :=
  if o.reason != 0 then o.reason
  else if o.cores.any (fun c => c.2 == some .prot) then Cause.prot.code
  else if o.cores.any (fun c => c.2.isSome) then Cause.localbound.code
  else 0

/-! ### Completion (R228 to R233) -/

/-- The last word of a fill lands, and its slot is filled (R228, R252). -/
def State.copyFilled (s : State) (core : Nat) (o : CopyOp) : State :=
  match slotAddr o.dst with
  | some (i, _) => s.modCore core (fun c => c.fillSlot i)
  | none => s

/-- COPY_COMPLETION (R228, R229, R233): the words that remain are moved, or the word that ends the copy FAILED is
reached. -/
def execCopyCompletion (core : Nat) (s : State) : Answer :=
  .next (match (s.core core).copyQ with
    | o :: _ =>
      if !o.started then s
      else if o.multi then
        match rectCores (pkgOf core) o.rect with
        | some cs => if cs.all (fun t => o.cores.any (fun c => c.1 == t)) then s.copyEnd core o o.multiReason else s
        | none => s
      else if o.fault.isSome then s
      else match s.copyMove core o (o.total - o.moved) o.moved with
        | (t, _, .done) => (t.copyFilled core o).copyEnd core o 0
        | (t, _, .fail r) => t.copyEnd core o r
        | (t, k, .wait) => t.setCopyHead core { o with moved := k }
        | (_, _, .page _ _) => s
    | [] => s)

end Sys2Proof.Machine
end

