-- ==== Sys2Proof/Machine/VectorMath.lean ====
section
/-! DEFINITION. The arithmetic of the vector unit: element types (R214), the correctly rounded functions of R219, and the
writing of exact results into a destination type (R219, R222). -/

namespace Sys2Proof.Machine

/-! ### Element types (R214) -/

inductive EType where
  | float (f : Fmt)
  | int (width : Nat) (signed : Bool)
  deriving DecidableEq, Repr

def etypeOf (code : Nat) : Option EType :=
  match code with
  | 0 => some (.float fp64)
  | 1 => some (.float fp32)
  | 2 => some (.float bf16)
  | 3 => some (.float e4m3)
  | 4 => some (.float e5m2)
  | 5 => some (.float e2m1)
  | 6 => some (.int 8 true)
  | 7 => some (.int 16 true)
  | 8 => some (.int 32 true)
  | 9 => some (.int 64 true)
  | 10 => some (.int 8 false)
  | _ => none

def EType.width : EType → Nat
  | .float f => f.width
  | .int w _ => w
def EType.isInt : EType → Bool
  | .float _ => false
  | .int _ _ => true

/-- A code as an exact value; NaNs of the 8-bit formats raise NV like signalling ones (R219). -/
def EType.decode (t : EType) (code : Nat) : Val :=
  match t with
  | .float f => match f.decode code with
    | .nan s => .nan (s || f.width == 8)
    | v => v
  | .int w sg => .ofInt (if sg && 2 ^ (w - 1) ≤ code then (code : Int) - 2 ^ w else code)

/-- The range of an integer type. -/
def EType.range : EType → Int × Int
  | .int w true => (-(2 ^ (w - 1)), 2 ^ (w - 1) - 1)
  | .int w false => (0, 2 ^ w - 1)
  | .float _ => (0, 0)

/-- An exact value written into a type (R219, R222): exactly an integer, or a real result. -/
def EType.encode (t : EType) (sat : Bool) (mode : Mode) (exactInt : Bool) (v : Val) : Nat × BitVec 5 :=
  match t with
  | .float f => f.convert (.sat sat) mode v
  | .int w _ =>
    let (lo, hi) := t.range
    let wrap (z : Int) : Nat := (z % 2 ^ w).toNat
    if exactInt then
      match v with
      | .fin n m e =>
        let z := scaled n m e (min e 0)
        if z < lo then (wrap (if sat then lo else z), if sat then flagOF else 0)
        else if hi < z then (wrap (if sat then hi else z), if sat then flagOF else 0)
        else (wrap z, 0)
      | _ => (0, flagNV)
    else
      let r := toIntRange .rne lo hi 0 v
      (wrap r.1, r.2)

/-- Whether a destination draws class G values (R222). -/
def EType.draws : EType → Bool
  | .float f => f.width != 64
  | .int _ _ => false

/-! ### Functions (R219) -/

/-- A real that is not exact: its sign, and m with m · 2^e < |x| < (m + 1) · 2^e. -/
structure Real where
  neg : Bool
  m : Nat
  e : Int

/-- The sum of x^(2i+1) / (2i+1) for i below a count, in units of 2^-p, x in the same units. -/
def oddSeries (p : Nat) (x2 : Nat) : Nat → Nat → Nat → Nat
  | 0, _, _ => 0
  | n + 1, k, t => t / k + oddSeries p x2 n (k + 2) (t * x2 / 2 ^ p)

/-- 2 artanh(a / b) in units of 2^-p, a below b / 2. -/
def artanh2 (p a b : Nat) : Nat :=
  let x := a * 2 ^ p / b
  2 * oddSeries p (x * x / 2 ^ p) (p / 2) 1 x

/-- ln 2 in units of 2^-p. -/
def ln2At (p : Nat) : Nat := artanh2 p 1 3

/-- The sum of r^k / k! in units of 2^-p, r in the same units. -/
def expSeries (p : Nat) (r : Int) : Nat → Nat → Int → Int
  | 0, _, _ => 0
  | n + 1, k, t => t + expSeries p r n (k + 1) (t * r / 2 ^ p / (k + 1 : Nat))

/-- e^x to p bits for x = z · 2^-p: the scaled value and its binary exponent. -/
def expAt (p : Nat) (z : Int) : Nat × Int :=
  let l : Int := ln2At p
  let n := (2 * z + l) / (2 * l)
  let r := z - n * l
  ((expSeries p r (p / 2) 0 (2 ^ p)).toNat, n - p)

/-- The floor of an approximate positive value (v ± 2^14) · 2^e to 100 bits fewer, none where the error spans one. -/
def settle (v : Nat) (e : Int) : Option (Nat × Int) :=
  let lo := (v - 2 ^ 14) / 2 ^ 100
  if lo = (v + 2 ^ 14) / 2 ^ 100 then some (lo, e + 100) else none

/-- The first precision that settles a value. -/
def settleFrom (f : Nat → Nat × Int) : List Nat → Nat × Int
  | [] => (0, 0)
  | p :: ps => match settle (f p).1 (f p).2 with
    | some r => r
    | none => settleFrom f ps

/-- e^x for a finite x other than 0 (R219). -/
def expReal (neg : Bool) (m : Nat) (e : Int) : Real :=
  if topExp m e < -200 then
    if neg then ⟨false, 2 ^ 190 - 1, -190⟩ else ⟨false, 2 ^ 190, -190⟩
  else if 11 ≤ topExp m e then ⟨false, 1, if neg then -5000 else 5000⟩
  else
    let r := settleFrom (fun p => expAt p (scaled neg m (e + p) (min (e + p) 0) / 2 ^ (-(min (e + p) 0)).toNat)) [512, 1024, 2048]
    ⟨false, r.1, r.2⟩

/-- ln x for a finite x above 0 other than 1 (R219). -/
def lnReal (m : Nat) (e : Int) : Real :=
  let top := topExp m e
  let b := Nat.log2 m
  let f (p : Nat) : Int := top * ln2At p + artanh2 p (m - 2 ^ b) (m + 2 ^ b)
  let r := settleFrom (fun p => ((f p).natAbs, -(p : Int))) [512, 1024, 2048]
  ⟨f 512 < 0, r.1, r.2⟩

/-- 1 / √x for a finite x above 0. -/
def rsqReal (m : Nat) (e : Int) : Nat × Int × Bool :=
  let k := 400 + 2 * Nat.log2 m + (e % 2).toNat
  let q := 2 ^ k / m
  let r := isqrt q
  (r, (-e - k) / 2, !(r * r == q && 2 ^ k % m == 0))

/-- A function's result: an exact value, or one to be rounded from below. -/
inductive FnValue where
  | exact (v : Val)
  | real (neg : Bool) (m : Nat) (e : Int) (sticky : Bool)

/-- VEXP, VLOG, VRCP and VRSQ on a value (R219). -/
def vecFunction (fn : Nat) (v : Val) : FnValue × BitVec 5 :=
  let nan (f : BitVec 5) : FnValue × BitVec 5 := (.exact (.nan false), f)
  match v with
  | .nan sg => nan (if sg then flagNV else 0)
  | .inf neg =>
    match fn with
    | 8 => (.exact (if neg then .fin false 0 0 else .inf false), 0)
    | 9 => if neg then nan flagNV else (.exact (.inf false), 0)
    | 10 => (.exact (.fin neg 0 0), 0)
    | _ => if neg then nan flagNV else (.exact (.fin false 0 0), 0)
  | .fin neg m e =>
    if m = 0 then
      match fn with
      | 8 => (.exact (.fin false 1 0), 0)
      | 9 => (.exact (.inf true), flagDZ)
      | _ => (.exact (.inf neg), flagDZ)
    else match fn with
      | 8 =>
        let r := expReal neg m e
        (.real r.neg r.m r.e true, 0)
      | 9 =>
        if neg then nan flagNV
        else if scaled false m e (min e 0) = scaled false 1 0 (min e 0) then (.exact (.fin false 0 0), 0)
        else
          let r := lnReal m e
          (.real r.neg r.m r.e true, 0)
      | 10 =>
        let (q, x, st) := quot 1 0 m e
        (.real neg q x st, 0)
      | _ =>
        if neg then nan flagNV
        else
          let (q, x, st) := rsqReal m e
          (.real false q x st, 0)

/-- A function's result written into a float type. -/
def Fmt.encodeFn (f : Fmt) (sat : Bool) (mode : Mode) (r : FnValue) : Nat × BitVec 5 :=
  match r with
  | .exact v => f.convert (.sat sat) mode v
  | .real neg m e st => f.round (.sat sat) mode neg m e st

end Sys2Proof.Machine
end

