-- ==== Sys2Proof/Machine/Vector.lean ====
section
/-! DEFINITION. The vector unit: shape records (R213 to R215), channel operands (R216), the instructions (R217), element
results (R218 to R224) and the start and completion of an operation (R208, R220, R225). -/

namespace Sys2Proof.Machine

/-! ### Shape records (R213 to R215) -/

/-- A shape record as the unit reads it: extents at or beyond RANK are 1, strides 0. -/
structure Shape where
  base : Word
  etype : Nat
  rank : Nat
  sat : Bool
  cls : Nat
  ext : List Nat
  str : List Int
  deriving DecidableEq, Repr

def shapeOf (r : BitVec 256) : Shape :=
  let rank := (r.extractLsb' 72 8).toNat
  { base := r.extractLsb' 0 64, etype := (r.extractLsb' 64 8).toNat, rank := rank, sat := r.getLsbD 80,
    cls := (r.extractLsb' 81 2).toNat
    ext := (List.range 4).map (fun i => if i < rank then (r.extractLsb' (96 + 16 * i) 16).toNat else 1)
    str := (List.range 4).map (fun i => if i < rank then (r.extractLsb' (160 + 24 * i) 24).toInt else 0) }

/-- The record names an endpoint (R216), by its handle; other bits of such a BASE are ignored (DESIGN CHOICE, log 13). -/
def Shape.isChan (x : Shape) : Bool := x.base.getLsbD 63
def Shape.handle (x : Shape) : Nat := handleOf x.base

def Shape.type (x : Shape) : EType := (etypeOf x.etype).getD (.int 8 false)
def Shape.count (x : Shape) : Nat := x.ext.foldl (· * ·) 1

/-- The indices of the element at a linear place, dimension 0 fastest, and the place of indices. -/
def indexAt : List Nat → Nat → List Nat
  | [], _ => []
  | e :: es, l => l % e :: indexAt es (l / e)
def linearAt : List Nat → List Nat → Nat
  | e :: es, i :: is => i + e * linearAt es is
  | _, _ => 0

/-- The linear offset of an element. -/
def Shape.offset (x : Shape) (idx : List Nat) : Int :=
  (List.zipWith (fun (i : Nat) (s : Int) => (i : Int) * s) idx x.str).foldl (· + ·) 0

/-- The byte at which an offset lies. -/
def Shape.byteAt (x : Shape) (o : Int) : Int :=
  (x.base.toNat : Int) + (if x.type.width = 4 then o / 2 else o * (x.type.width / 8 : Nat))

/-- The smallest and largest byte a record can touch, none where it has no element. -/
def Shape.bounds (x : Shape) : Option (Int × Int) :=
  if x.ext.contains 0 then none
  else
    let far := List.zipWith (fun (e : Nat) (s : Int) => ((e : Int) - 1) * s) x.ext x.str
    let lo := far.foldl (fun acc d => acc + min 0 d) 0
    let hi := far.foldl (fun acc d => acc + max 0 d) 0
    some (x.byteAt lo, x.byteAt hi + ((x.type.width + 7) / 8 - 1 : Nat))

/-- RANK, CLASS and ETYPE are listed (R215). -/
def Shape.formed (x : Shape) : Bool := 1 ≤ x.rank && x.rank ≤ 4 && x.cls != 3 && (etypeOf x.etype).isSome

def Shape.aligned (x : Shape) : Bool := x.isChan || x.type.width = 4 || x.base.toNat % (x.type.width / 8) == 0

def Shape.inside (x : Shape) (part : BitVec 23) : Bool :=
  x.isChan || (match x.bounds with
    | some (lo, hi) => 0 ≤ lo && hi < (scratchSize part : Int)
    | none => true)

/-- Byte ranges of two records overlap, and the records are not equal (R215). -/
def Shape.clash (d x : Shape) : Bool :=
  if d.isChan || x.isChan then false
  else match d.bounds, x.bounds with
    | some (dl, dh), some (xl, xh) =>
      dl ≤ xh && xl ≤ dh && !(d.base == x.base && d.etype == x.etype && d.ext == x.ext && d.str == x.str)
    | _, _ => false

/-- Every extent of a source equals the destination's or is 1 (R218). -/
def fitsExt (src dst : List Nat) : Bool := (List.zipWith (fun e f => e == f || e == 1) src dst).all id

/-- Dimensions 0 and 1 exchanged (R223). -/
def swap01 {α : Type} : List α → List α
  | x :: y :: r => y :: x :: r
  | r => r

/-! ### Members (R218, R223) -/

/-- Two-source members, float members, reductions. -/
def twoSources (fn : Nat) : Bool := fn ≤ 5 || fn == 17 || fn == 18 || fn == 20 || fn == 21
def floatOnly (fn : Nat) : Bool := 8 ≤ fn && fn ≤ 11
def reduction (fn : Nat) : Bool := 13 ≤ fn && fn ≤ 15

/-- The roles of the sources a member uses: 0 and 1 of g[A] and g[B], 3 the mask. -/
def sourceRoles (fn : Nat) : List Nat := if fn = 17 then [0, 1, 3] else if twoSources fn then [0, 1] else [0]

def VecOp.shape (v : VecOp) (role : Nat) : Shape := shapeOf (look 0 v.recs role)

/-- A source's shape as the member uses it: VTRANS exchanges its dimensions. -/
def VecOp.source (v : VecOp) (role : Nat) : Shape :=
  let x := v.shape role
  if v.fn = 19 then { x with ext := swap01 x.ext, str := swap01 x.str } else x

/-- The rules of a member on extents, types and predicate (R218 to R223). -/
def VecOp.extentsOk (v : VecOp) : Bool :=
  let d := v.shape 2
  let a := v.source 0
  let b := v.source 1
  let typed := if floatOnly v.fn then !a.type.isInt && !d.type.isInt else true
  let shaped := match v.fn with
    | 13 | 14 | 15 => d.ext.headD 1 == 1 && fitsExt (a.ext.drop 1) (d.ext.drop 1)
    | 18 => v.regs.pred.toNat ≤ 5 && fitsExt a.ext d.ext && fitsExt b.ext d.ext
    | 19 => 2 ≤ d.rank && fitsExt a.ext d.ext
    | 20 => a.rank == 1 && b.type.isInt && b.ext == d.ext
    | 21 => a.ext == b.ext && b.type.isInt && d.rank == 1
    | 22 => !a.ext.contains 0
    | _ => (sourceRoles v.fn).all (fun r => fitsExt (v.source r).ext d.ext)
  typed && shaped

/-! ### Reading elements (R216, R219, R225) -/

/-- A code in dense bytes. -/
def denseCode (bs : List Byte) (width l : Nat) : Nat :=
  if width = 4 then (bs.getD (l / 2) 0).toNat / (if l % 2 = 0 then 1 else 16) % 16
  else ((bs.drop (l * (width / 8))).take (width / 8)).foldr (fun b acc => b.toNat + 256 * acc) 0

/-- Dense bytes of codes. -/
def packCodes (width : Nat) (codes : List Nat) : List Byte :=
  if width = 4 then
    (List.range ((codes.length + 1) / 2)).map (fun i =>
      BitVec.ofNat 8 (codes.getD (2 * i) 0 % 16 + 16 * (codes.getD (2 * i + 1) 0 % 16)))
  else (codes.map (fun c => (List.range (width / 8)).map (fun i => BitVec.ofNat 8 (c / 256 ^ i)))).flatten

/-- The key of an operand's element in the scratchpad. -/
def Shape.keyAt (x : Shape) (core : Nat) (idx : List Nat) : Nat := poolKey core (x.byteAt (x.offset idx)).toNat

/-- The element of an operand at indices, as a code; none where its word is poisoned. A received tile is dense (R216), so
VTRANS, which exchanges its source's dimensions, exchanges them back (R223). n is its free value; the memory is the one
path V sees (State.vecView). -/
def State.vecCode (s : State) (core : Nat) (v : VecOp) (role : Nat) (x : Shape) (idx : List Nat) (n : Nat) : Option Nat :=
  let w := x.type.width
  if x.isChan then
    if role = 2 then some (Config.unstated n % 2 ^ w)
    else some (denseCode (look [] v.tiles role) w
      (if v.fn = 19 then linearAt (v.shape role).ext (swap01 idx) else linearAt x.ext idx))
  else
    let o := x.offset idx
    let k := x.keyAt core idx
    if s.mem.isPoisoned k then none
    else
      let y := s.mem.read k ((w + 7) / 8)
      some (if w = 4 then y / (if o % 2 = 0 then 1 else 16) % 16 else y)

/-- The element as an exact value. -/
def State.vecVal (s : State) (core : Nat) (v : VecOp) (role : Nat) (x : Shape) (idx : List Nat) (n : Nat) : Option Val :=
  (s.vecCode core v role x idx n).map x.type.decode

/-- Indices under broadcast (R218). -/
def under (ext idx : List Nat) : List Nat := List.zipWith (fun e i => if e = 1 then 0 else i) ext idx

/-! ### Element results (R219, R221, R223) -/

/-- An exact result: its value, its flags, and whether it is an integer of integer sources. -/
structure Exact where
  val : Val
  flags : BitVec 5 := 0
  int : Bool := false

def nanFlags (vs : List Val) : BitVec 5 := if vs.any Val.isSnan then flagNV else 0

/-- The exact sum of values, in no order (R221). -/
def sumVals (vs : List Val) : Val × BitVec 5 :=
  if vs.any Val.isNan then (.nan false, nanFlags vs)
  else
    let infs := vs.filter Val.isInf
    if infs.any Val.neg? && infs.any (fun v => !v.neg?) then (.nan false, flagNV)
    else match vs with
      | [] => (.fin false 0 0, 0)
      | x :: xs => (xs.foldl (fun acc y => (acc.add .rne y).1) x, 0)

/-- The largest of values, −∞ of none (R221). -/
def maxVals (vs : List Val) : Val × BitVec 5 :=
  if vs.any Val.isNan then (.nan false, nanFlags vs)
  else match vs with
    | [] => (.inf true, 0)
    | x :: xs => (xs.foldl (fun acc y => acc.minMax true y) x, 0)

/-- A predicate of VCMP (R223). -/
def vecCompare (pred : Nat) (a b : Val) : Bool × BitVec 5 :=
  let nan := a.isNan || b.isNan
  let r := match pred with
    | 0 => a.eq b
    | 1 => !(a.eq b)
    | 2 => a.lt b
    | 3 => a.lt b || a.eq b
    | 4 => b.lt a
    | _ => b.lt a || a.eq b
  (if nan then pred == 1 else r, if nan && (2 ≤ pred || a.isSnan || b.isSnan) then flagNV else 0)

/-- An integer result has no signed zero. -/
def Exact.ofInts (ints : Bool) (r : Val × BitVec 5) : Exact :=
  { val := if ints && r.1.isZero then .fin false 0 0 else r.1, flags := r.2, int := ints }

/-- The element result of the arithmetic members from their operands' values, all of integer types or not. -/
def vecArith (v : VecOp) (ints : Bool) (a b c : Val) : Exact :=
  match v.fn with
  | 0 => .ofInts ints (a.add .rne b)
  | 1 => .ofInts ints (a.add .rne b.negate)
  | 2 => .ofInts ints (a.mul b)
  | 3 => .ofInts ints (Val.fma .rne a b c)
  | 4 => .ofInts ints (a.minMax true b, nanFlags [a, b])
  | 5 => .ofInts ints (a.minMax false b, nanFlags [a, b])
  | 6 => .ofInts ints (a.abs, nanFlags [a])
  | 7 => .ofInts ints (a.negate, nanFlags [a])
  | 16 =>
    let r := a.mul (fp32.decode (match v.scale with | some (x, _) => x.toNat | none => 0))
    { val := r.1, flags := r.2 }
  | 17 => .ofInts ints (a, nanFlags [a])
  | 18 =>
    let r := vecCompare v.regs.pred.toNat a b
    { val := .ofInt (if r.1 then 1 else 0), flags := r.2, int := true }
  | _ => .ofInts ints (a, nanFlags [a])

/-- The element result of a reduction (R221). -/
def vecReduce (v : VecOp) (ints : Bool) (vs : List Val) : Exact :=
  match v.fn with
  | 13 => .ofInts ints (sumVals vs)
  | 14 =>
    let r := maxVals vs
    { val := r.1, flags := r.2, int := ints && !vs.isEmpty }
  | _ =>
    let r := if vs.isEmpty then (.fin false 0 0, 0) else maxVals (vs.map Val.abs)
    { val := r.1, flags := r.2, int := ints }

/-- The rounding of the element at indices of the destination (R222). -/
def State.vecMode (s : State) (core : Nat) (v : VecOp) (d : Shape) (idx : List Nat) : Mode :=
  if !d.type.draws then .rne
  else match d.cls with
    | 1 => classG (s.core core).jseed (s.core core).lcn (v.stream.setWidth 64 + word (linearAt d.ext idx))
    | 2 => classA (idx.getD 1 0) (idx.getD 0 0) v.regs.tseq.toNat
    | _ => .rne

/-- An exact result written into the destination (R219). An empty VRMAX writes −∞ so: the flags of the ±infinity
column of R63 are its only ones, and NV for an integer type (R221). -/
def State.vecEncode (s : State) (core : Nat) (v : VecOp) (d : Shape) (idx : List Nat) (x : Exact) :
    Nat × BitVec 5 :=
  let r := d.type.encode d.sat (s.vecMode core v d idx) x.int x.val
  (r.1, r.2 ||| x.flags)

/-- A destination element of an operation but VSCAT: its code and flags, none where a source is poisoned. -/
def State.vecElement (s : State) (core : Nat) (v : VecOp) (idx : List Nat) (n : Nat) : Option (Nat × BitVec 5) :=
  let d := v.shape 2
  let a := v.source 0
  let b := v.source 1
  let rd (role : Nat) (x : Shape) (i : List Nat) : Option Val := s.vecVal core v role x i (n + role)
  let out (x : Exact) : Nat × BitVec 5 := s.vecEncode core v d idx x
  let zero : Val := .fin false 0 0
  if reduction v.fn then
    let e0 := a.ext.headD 0
    let vs := (List.range e0).map (fun k => s.vecVal core v 0 a (k :: (under a.ext idx).drop 1) (n + 4 * k))
    if vs.all Option.isSome then
      some (s.vecEncode core v d idx (vecReduce v a.type.isInt (vs.filterMap id)))
    else none
  else if floatOnly v.fn then
    (rd 0 a (under a.ext idx)).map (fun x =>
      let r := vecFunction v.fn x
      match d.type with
      | .float f =>
        let c := f.encodeFn d.sat (s.vecMode core v d idx) r.1
        (c.1, c.2 ||| r.2)
      | .int _ _ => (0, 0))
  else match v.fn with
    | 20 =>
      match rd 1 b idx with
      | some (.fin neg m e) =>
        let i := scaled neg m e 0
        if i < 0 || (a.ext.headD 0 : Int) ≤ i then some ((out { val := zero, int := true }).1, flagNV)
        else (rd 0 a [i.toNat]).map (fun x => out (.ofInts a.type.isInt (x, nanFlags [x])))
      | some _ => some (0, 0)
      | none => none
    | 22 => (rd 0 a [0, 0, 0, 0]).map (fun x => out (.ofInts a.type.isInt (x, nanFlags [x])))
    | 17 =>
      match rd 0 a (under a.ext idx), rd 1 b (under b.ext idx), rd 3 (v.source 3) (under (v.source 3).ext idx) with
      | some x, some y, some m =>
        some (if m.isZero then out (vecArith v b.type.isInt y y y) else out (vecArith v a.type.isInt x x x))
      | _, _, _ => none
    | _ =>
      match rd 0 a (under a.ext idx), (if twoSources v.fn then rd 1 b (under b.ext idx) else some zero),
        (if v.fn = 3 then rd 2 d idx else some zero) with
      | some x, some y, some z =>
        let ints := a.type.isInt && (!twoSources v.fn || b.type.isInt) && (v.fn != 3 || d.type.isInt)
        some (out (vecArith v ints x y z))
      | _, _, _ => none

/-! ### Whole results -/

/-- What an operation computes: codes by linear place of the destination, flags, and whether it ran to its end. -/
structure VecResult where
  codes : List (Nat × Nat) := []
  flags : BitVec 5 := 0
  whole : Bool := true

/-- The free values one element may draw. -/
def vecStride : Nat := 2 ^ 20

/-- Elements in ascending linear order, up to the first poisoned one (R225). -/
def State.vecElements (s : State) (core : Nat) (v : VecOp) : List Nat → VecResult → VecResult
  | [], r => r
  | j :: js, r =>
    match s.vecElement core v (indexAt (v.shape 2).ext j) (s.free + vecStride * j) with
    | some (c, f) => s.vecElements core v js { r with codes := r.codes ++ [(j, c)], flags := r.flags ||| f }
    | none => { r with whole := false }

/-- VSCAT's elements in ascending linear order of its sources (R223). Under class G an element takes the stream value of its
place in the destination, and SRCTR advances by the destination's count: R65 leaves both open (DESIGN CHOICE, log 29). -/
def State.vecScatter (s : State) (core : Nat) (v : VecOp) : List Nat → VecResult → VecResult
  | [], r => r
  | j :: js, r =>
    let a := v.source 0
    let b := v.source 1
    let d := v.shape 2
    let idx := indexAt a.ext j
    let n := s.free + vecStride * j
    match s.vecVal core v 0 a idx n, s.vecVal core v 1 b idx (n + 1) with
    | some x, some (.fin neg m e) =>
      let i := scaled neg m e 0
      if i < 0 || (d.ext.headD 0 : Int) ≤ i then s.vecScatter core v js { r with flags := r.flags ||| flagNV }
      else
        let c := s.vecEncode core v d [i.toNat, 0, 0, 0] (.ofInts a.type.isInt (x, nanFlags [x]))
        s.vecScatter core v js { r with codes := r.codes ++ [(i.toNat, c.1)], flags := r.flags ||| c.2 }
    | some _, some _ => s.vecScatter core v js r
    | _, _ => { r with whole := false }

def VecOp.empty (v : VecOp) : Bool := (v.shape 2).ext.contains 0

/-- The words of the scratchpad that hold a source's elements at indices. -/
def Shape.wordsAt (x : Shape) (core : Nat) (at_ : List (List Nat)) : List Nat :=
  if x.isChan then [] else (at_.map (fun i => x.keyAt core i / 8)).eraseDups

/-- The words an operation reads: of VGATH's first source the elements its indices name, of VBCAST's the first (R223). -/
def State.vecWords (s : State) (core : Nat) (v : VecOp) (role : Nat) : List Nat :=
  let x := v.source role
  let all := (List.range x.count).map (indexAt x.ext)
  x.wordsAt core (
    if v.fn = 22 then [[0, 0, 0, 0]]
    else if v.fn = 20 && role = 0 then
      let b := v.source 1
      ((List.range b.count).map (indexAt b.ext)).filterMap (fun i => match s.vecVal core v 1 b i 0 with
        | some (.fin neg m e) => if 0 ≤ scaled neg m e 0 && scaled neg m e 0 < (x.ext.headD 0 : Int) then
            some [(scaled neg m e 0).toNat] else none
        | _ => none)
    else all)

/-- Memory as an operation's reads on path V see it, and the state after those reads (R225, R274). -/
def State.vecView (s : State) (core : Nat) (v : VecOp) : State × Memory :=
  if v.empty then (s, s.mem)
  else
    let roles := if v.fn = 20 then [1] else sourceRoles v.fn ++ (if v.fn = 3 then [2] else [])
    let r := s.viewOn core v.pn .v (roles.flatMap (s.vecWords core v)).eraseDups
    if v.fn = 20 then r.1.viewOn core v.pn .v ({ r.1 with mem := r.2 }.vecWords core v 0) else r

def State.vecCompute (s : State) (core : Nat) (v : VecOp) : VecResult :=
  if v.empty then {}
  else if v.fn = 21 then s.vecScatter core v (List.range (v.source 0).count) {}
  else s.vecElements core v (List.range (v.shape 2).count) {}

/-- The write of a code at a linear place of the destination. -/
def vecWrite (core : Nat) (d : Shape) (j c : Nat) : Write :=
  let o := d.offset (indexAt d.ext j)
  let w := d.type.width
  { key := poolKey core (d.byteAt o).toNat, n := (w + 7) / 8, value := c,
    nibble := if w = 4 then some (o % 2 != 0) else none }

/-- One write of an engine on a path: the bytes, or a nibble of a byte; the word becomes FULL. -/
def State.engineWrite (s : State) (p : Path) (pid job : Nat) (w : Write) : State :=
  let v := match w.nibble with
    | none => w.value
    | some hi =>
      let old := (s.mem.byte w.key).toNat
      if hi then old % 16 + 16 * (w.value % 16) else old / 16 * 16 + w.value % 16
  s.writeBytes p pid job w.key w.n v

/-! ### The end of an operation (R210, R220, R239) -/

def State.setVecHead (s : State) (core : Nat) (v : VecOp) : State :=
  s.modCore core (fun c => { c with vecQ := v :: c.vecQ.drop 1 })

/-- The operation at the head ends: flags to VSTAT, LASTS and LASTR of a completed VSCALE, the status word, and the
shadow copies. -/
def State.vecEnd (s : State) (core : Nat) (v : VecOp) (reason : BitVec 8) (flags : BitVec 5) : State :=
  let live := ((s.core core).future v.entry).ownerLive
  let s := (s.modCore core (fun c => { c with vecQ := c.vecQ.drop 1 })).sweepCrossings core
  let s := if live then s.modProc core v.pn (fun p => p.orVstat flags) else s
  let s := match v.scale with
    | some (x, y) => if reason = 0 then s.modCore core (fun c => { c with
        vecA := { c.vecA with lasts := x, lastr := y }, vecS := { c.vecS with lasts := x, lastr := y } }) else s
    | none => s
  let s := if reason = 0 then s.endFuture core v.entry 1 0 flags 0
    else s.failFuture core v.entry 1 reason flags 0 v.started
  s.modCore core Core.vecSync

/-! ### VSCALE's amax word (R224) -/

inductive Swap where
  | wait
  | fail (reason : BitVec 8)
  | got (value : Nat)

/-- ASWAP.W of +0 at the amax word on path V: a release of the issuing process and an acquire, unless its page is UNORDERED
(R135, R224, R276); words of pools are ordered as RELEASE. -/
def State.amaxSwap (s : State) (core : Nat) (v : VecOp) : State × Swap :=
  let a := v.b
  let ordered := match spaceOf (isKernel core) a with
    | .global => (match (s.engineLeaf core a.toNat (AccessKind.amo 8).needs).2 with
      | .inl p => pteOrd p ≤ 1
      | .inr _ => false)
    | _ => true
  let swap (s : State) (k : Nat) : State × Swap :=
    if s.mem.isPoisoned k then (s, .fail Cause.poison.code)
    else
      let old := s.mem.read k 4
      let t := { s with mem := s.mem.writeOn .v (pidOf core v.pn) (s.jobOf core) k 4 0 }
      (if ordered && ((s.core core).future v.entry).ownerLive then t.acquireAll core v.pn else t, .got old)
  let serve (x : State × EngineAt) : State × Swap :=
    match x with
    | (s, .at k) => swap s k
    | (s, .zero) => (s, .got 0)
    | (s, .poison) => (s, .fail Cause.poison.code)
    | (s, .cause c) => (s, .fail c.code)
    | (s, .wait) => (s, .wait)
  if ordered && !(s.core core).releaseHolds v.pn v.upto then (s, .wait)
  else match spaceOf (isKernel core) a with
    | .window 0 off => swap s (poolKey core off)
    | .mesh x y off => serve (s.engineMesh core (coreAt (pkgOf core) x y) off 4 true)
    | .global => serve (s.engineKey core a.toNat (AccessKind.amo 8).needs (fun t => t != 3))
    | _ => (s, .fail Cause.prot.code)

/-- The factor s and 1 / s, with the flags of forming s (R224). -/
def scaleFactor (smax : BitVec 32) (amax : Nat) : BitVec 32 × BitVec 32 × BitVec 5 :=
  let one : Val := .fin false 1 0
  let x := fp32.decode amax
  let (c, f) : Nat × BitVec 5 :=
    if x.isNan then (fp32.nanCode, flagNV)
    else if x.isZero || x.isInf then ((fp32.convert .ieee .rne one).1, 0)
    else fp32.div .ieee .rne (fp32.decode smax.toNat) x.abs
  (BitVec.ofNat 32 c, BitVec.ofNat 32 (fp32.div .ieee .rne one (fp32.decode c)).1, f)

/-! ### Start (R210, R215, R216, R222, R224) -/

/-- Addresses of the records an operation uses, by role. -/
def VecOp.addresses (v : VecOp) : List (Nat × Word) :=
  (sourceRoles v.fn).map (fun r => (r, if r = 0 then v.a else if r = 1 then v.b else v.regs.aux)) ++ [(2, v.regs.dst)]

/-- The records an operation uses, as path V reads them, and the state after those reads (R274); what a poisoned line holds
is a free value. -/
def State.shapeRecords (s : State) (core pn : Nat) : List (Nat × Word) → State × AMap (BitVec 256)
  | [] => (s, [])
  | (role, a) :: rest =>
    let x := s.readRun core pn .v (poolKey core a.toNat) 4
    let r := x.1.shapeRecords core pn rest
    (r.1, put r.2 role (BitVec.ofNat 256 (packWords x.2)))

/-- The checks of R215 before the extents; the reason of the first that fails. A record in a poisoned line has no fields
(R378). -/
def VecOp.recordFault (v : VecOp) (c : Core) (poisoned : Bool) : Option Cause :=
  let own := v.addresses.filter (fun x => 2 ≤ x.1)
  let shapes := v.addresses.map (fun x => v.shape x.1)
  if own.any (fun x => x.2.toNat % 32 != 0) then some .align
  else if own.any (fun x => !c.inScratchpad x.2 32) then some .localbound
  else if poisoned then some .poison
  else if !shapes.all Shape.formed then some .prot
  else if !shapes.all Shape.aligned then some .align
  else if !shapes.all (fun x => x.inside c.part) then some .localbound
  else none

/-- The checks of R215 that follow: extents and overlap, and those of R216 on channel operands. -/
def VecOp.operandFault (v : VecOp) (c : Core) (shut : Bool) : Bool :=
  let gate (b : Bool) : Bool := b && !shut
  let d := v.shape 2
  let chanOk (r : Nat) : Bool :=
    let x := v.shape r
    !x.isChan || gate (match c.epCheck x.handle v.pn { dirIn := r != 2, typs := [1], mode := none } false with
      | some e => e.etype.toNat == x.etype && e.len == x.count * x.type.width / 8
      | none => false)
  !v.extentsOk || (sourceRoles v.fn).any (fun r => d.clash (v.shape r)) || !(v.addresses.all (fun x => chanOk x.1))

/-- The operation at the head of the queue starts. The record checks come before an empty destination's end, which needs
none of the later ones: the spec orders the two nowhere (DESIGN CHOICE, log 13). -/
def State.vecStart (s : State) (core : Nat) (v : VecOp) : State :=
  let c := s.core core
  let v : VecOp := { v with regs := c.vecA }
  let poisoned := v.addresses.any (fun x => (s.mem.poisonIn (poolKey core x.2.toNat) 32).isSome)
  let (s, recs) := s.shapeRecords core v.pn v.addresses
  let v : VecOp := { v with recs := recs }
  match v.recordFault c poisoned with
  | some e => s.vecEnd core v e.code 0
  | none =>
    if !v.empty && v.operandFault c (s.gateShut core) then s.vecEnd core v Cause.prot.code 0
    else
      let p := s.proc core v.pn
      let d := v.shape 2
      let live := (c.future v.entry).ownerLive
      let takes := d.cls == 1 && d.type.draws
      let stream := if live then p.srctr else BitVec.ofNat 40 (Config.unstated s.free)
      let begin_ (s : State) (v : VecOp) : State :=
        let s := { s with free := s.free + 4 }
        let s := if live && takes then s.modProc core v.pn (fun p => { p with srctr := p.srctr + BitVec.ofNat 40 d.count })
          else s
        s.setVecHead core { v with started := true, stream := stream }
      if v.fn = 16 then
        match s.amaxSwap core v with
        | (s, .wait) => s
        | (s, .fail r) => s.vecEnd core v r 0
        | (s, .got x) =>
          let f := scaleFactor v.regs.smax x
          begin_ s { v with scale := some (f.1, f.2.1), flags := f.2.2 }
      else begin_ s v

/-- VECTOR_OPERATION_START (R208, R215): when no operation is executing, the next one starts, its process's earlier writes to
its pool performed (R282). -/
def execVectorOperationStart (core : Nat) (s : State) : Answer :=
  .next (match (s.core core).vecQ with
    | v :: _ =>
      if v.started then s
      else
        let t := s.settleOwn core v.pn
        if (t.core core).ownWritesDone v.pn v.upto then t.vecStart core v else t
    | [] => s)

/-! ### Channel operands (R216) -/

/-- The unit receives a tile as a TRECV of the issuing process would: it is recorded, or finds its sender waiting, once the
accesses before it are performed (R177, R180, R186). The tile has no place in the scratchpad, so WDATA stays. -/
def State.vecReceive (s : State) (core : Nat) (v : VecOp) (role : Nat) : State :=
  let h := (v.shape role).handle
  let e := s.ep core h
  let waits := (s.setVecHead core { v with waiting := some (h, role) }).modEp core h (fun e => { e with
    wpn := BitVec.ofNat 8 v.pn, engine := true })
  let recorded := waits.modEp core h (fun e => { e with state := 2, wseq := e.wseq + 1 })
  if e.state == 6 then s.vecEnd core v (s.reasonAt core 0x44) v.flags
  else if e.buffered then
    if e.state != 0 then s
    else if ((s.core core).messageFor h).isSome then waits.buffered core h
    else recorded
  else if !(s.core core).releaseHolds v.pn v.upto then s
  else if e.state == 0 then recorded
  else if e.state == 1 then waits.startXfer core h 0
  else s

/-- The unit sends its result as a TSEND of the issuing process would (R176, R185): the OUT end is OFFERED while the send
waits, for a credit, or for the accesses before it (R180) and its release. -/
def State.vecSend (s : State) (core : Nat) (v : VecOp) : State :=
  let h := (v.shape 2).handle
  let e := s.ep core h
  let body := look [] v.tiles 2
  let offered := (s.setVecHead core { v with waiting := some (h, 2) }).modEp core h (fun e => { e.offered v.pn with
    engine := true })
  if e.state == 6 then s.vecEnd core v (s.reasonAt core 0x44) v.flags
  else if e.state == 0 && !(e.buffered && e.credit != 0) then offered
  else if e.state != 0 && !(e.state == 1 && e.engine) then s
  else if (e.buffered && e.credit == 0) || !(s.core core).releaseHolds v.pn v.upto then s
  else if e.buffered then
    let m : Msg := { kind := 1, sender := BitVec.ofNat 31 (pidOf core v.pn), handle := e.phandle, back := h,
                     job := s.jobOf core, body := body }
    let t := ((s.takeCredit core h).modEp core h (fun e => { e.rest with engine := false })).setVecHead core
      { v with waiting := none, sent := true }
    if e.isHost then (t.hostPut core h v.pn [] body).getD s else t.sendPacket core e.peerCore none (.message m)
  else
    let t := s.setVecHead core { v with left := true }
    if e.isHost then (t.hostPut core h v.pn [] body).getD s
    else if e.peerCore = core then t.offerAt core e.phandle.toNat core h 0
    else t.sendPacket core e.peerCore none (.offer e.phandle.toNat h 0)

/-- Whether an operation's channel destination still waits to send. -/
def VecOp.offering (v : VecOp) : Bool := v.waiting.any (fun w => w.2 == 2) && !v.left

/-- A role whose channel operand is not received yet. -/
def VecOp.missing (v : VecOp) : Option Nat :=
  (sourceRoles v.fn).find? (fun r => (v.shape r).isChan && !v.tiles.any (fun t => t.1 == r))

/-- The result into a channel destination's tile. -/
def State.vecTile (s : State) (v : VecOp) (r : VecResult) : List Byte :=
  let d := v.shape 2
  packCodes d.type.width ((List.range d.count).map (fun j =>
    match r.codes.reverse.find? (fun x => x.1 == j) with
    | some x => x.2
    | none => Config.unstated (s.free + vecStride * j + 2) % 2 ^ d.type.width))

/-- The result written: at once in the scratchpad, or into the tile that the unit then sends. -/
def State.vecFinish (s : State) (core : Nat) (v : VecOp) : State :=
  let d := v.shape 2
  let seen := s.vecView core v
  let r := { seen.1 with mem := seen.2 }.vecCompute core v
  let flags := v.flags ||| r.flags
  let t := { seen.1 with free := seen.1.free + vecStride * (d.count + (v.source 0).count) }
  if d.isChan && !v.empty then
    if !r.whole then t.vecEnd core v Cause.poison.code flags
    else t.setVecHead core { v with flags := flags, tiles := put v.tiles 2 (s.vecTile v r) }
  else
    let t := (r.codes.map (fun x => vecWrite core d x.1 x.2)).foldl (fun t w =>
      t.engineWrite .v (pidOf core v.pn) (s.jobOf core) w) t
    t.vecEnd core v (if r.whole then 0 else Cause.poison.code) flags

/-- The next thing a started operation does: end, receive an operand, send, or write its result. -/
def State.vecStep (s : State) (core : Nat) (v : VecOp) : State :=
  if v.reason != 0 then (if v.waiting.isSome then s else s.vecEnd core v v.reason v.flags)
  else if v.offering then s.vecSend core v
  else if v.waiting.isSome then s
  else if v.sent then s.vecEnd core v 0 v.flags
  else if v.tiles.any (fun t => t.1 == 2) then s.vecSend core v
  else match (if v.empty then none else v.missing) with
    | some r => s.vecReceive core v r
    | none => s.vecFinish core v

/-- VECTOR_OPERATION_COMPLETION (R216, R219 to R225): a started operation goes on, and completes unless a channel operand
keeps it waiting. -/
def execVectorOperationCompletion (core : Nat) (s : State) : Answer :=
  .next (match (s.core core).vecQ with
    | v :: _ => if v.started then s.vecStep core v else s
    | [] => s)

/-! ### The instructions (R217) -/

/-- The check of VSCALE's amax address at issue (R224, R336). -/
def State.amaxFault (s : State) (core : Nat) (a : Word) : Option Cause :=
  match spaceOf (isKernel core) a with
  | .window 0 off => if inScratch (s.core core).part off 4 then (if a.toNat % 4 != 0 then some .align else none)
      else some .localbound
  | .mesh x y _ =>
    let t := coreAt (pkgOf core) x y
    if isKernel core || s.gateShut core || !s.holds (s.jobOf core) (dieOf t) then some .prot
    else if a.toNat % 4 != 0 then some .align else none
  | .global => if a.toNat % 4 != 0 then some .align else none
  | _ => some .prot

/-- The check of a record address at issue. -/
def Core.recordFault (c : Core) (a : Word) : Option Cause :=
  if !c.inScratchpad a 32 then some .localbound else if a.toNat % 32 != 0 then some .align else none

/-- A vector instruction. -/
def State.vecIssue (s : State) (w : BitVec 2) (d a b : BitVec 5) (fn : Nat) : Answer :=
  let core := s.ctx.core
  let c := s.core core
  let two := twoSources fn || fn == 16
  s.issue w { reads := if two then [s.ra a, s.rb b] else [s.ra a], writes := [s.rd d], var := true,
              ready := c.vecQ.length < 8 && c.futureFree } (fun t =>
    let x := s.g (s.ra a)
    let y := s.g (s.rb b)
    match c.recordFault x with
    | some e => t.trap e x
    | none =>
      match (if fn = 16 then s.amaxFault core y else if two then c.recordFault y else none) with
      | some e => t.trap e y
      | none =>
        let f := t.allocFuture core s.ctx.pn (s.rd d) 0 none
        (f.1.modCore core (fun c => { c with
          vecQ := c.vecQ ++ [{ fn := fn, a := x, b := y, pn := s.ctx.pn, entry := f.2, upto := c.nextTag }] })).advance)

/-- VADD (R217, R218, R219). -/
def execVadd (w : BitVec 2) (d a b : BitVec 5) (s : State) : Answer := s.vecIssue w d a b 0

/-- VSUB (R217, R218, R219). -/
def execVsub (w : BitVec 2) (d a b : BitVec 5) (s : State) : Answer := s.vecIssue w d a b 1

/-- VMUL (R217, R218, R219). -/
def execVmul (w : BitVec 2) (d a b : BitVec 5) (s : State) : Answer := s.vecIssue w d a b 2

/-- VFMA (R217, R218, R219). -/
def execVfma (w : BitVec 2) (d a b : BitVec 5) (s : State) : Answer := s.vecIssue w d a b 3

/-- VMAX (R217, R218, R219). -/
def execVmax (w : BitVec 2) (d a b : BitVec 5) (s : State) : Answer := s.vecIssue w d a b 4

/-- VMIN (R217, R218, R219). -/
def execVmin (w : BitVec 2) (d a b : BitVec 5) (s : State) : Answer := s.vecIssue w d a b 5

/-- VABS (R217, R218, R219). -/
def execVabs (w : BitVec 2) (d a b : BitVec 5) (s : State) : Answer := s.vecIssue w d a b 6

/-- VNEG (R217, R218, R219). -/
def execVneg (w : BitVec 2) (d a b : BitVec 5) (s : State) : Answer := s.vecIssue w d a b 7

/-- VEXP (R217, R218, R219). -/
def execVexp (w : BitVec 2) (d a b : BitVec 5) (s : State) : Answer := s.vecIssue w d a b 8

/-- VLOG (R217, R218, R219). -/
def execVlog (w : BitVec 2) (d a b : BitVec 5) (s : State) : Answer := s.vecIssue w d a b 9

/-- VRCP (R217, R218, R219). -/
def execVrcp (w : BitVec 2) (d a b : BitVec 5) (s : State) : Answer := s.vecIssue w d a b 10

/-- VRSQ (R217, R218, R219). -/
def execVrsq (w : BitVec 2) (d a b : BitVec 5) (s : State) : Answer := s.vecIssue w d a b 11

/-- VCVT (R217, R218, R219). -/
def execVcvt (w : BitVec 2) (d a b : BitVec 5) (s : State) : Answer := s.vecIssue w d a b 12

/-- VRSUM (R217, R218, R221). -/
def execVrsum (w : BitVec 2) (d a b : BitVec 5) (s : State) : Answer := s.vecIssue w d a b 13

/-- VRMAX (R217, R218, R221). -/
def execVrmax (w : BitVec 2) (d a b : BitVec 5) (s : State) : Answer := s.vecIssue w d a b 14

/-- VAMAX (R217, R218, R221). -/
def execVamax (w : BitVec 2) (d a b : BitVec 5) (s : State) : Answer := s.vecIssue w d a b 15

/-- VSCALE (R217, R218, R224). -/
def execVscale (w : BitVec 2) (d a b : BitVec 5) (s : State) : Answer := s.vecIssue w d a b 16

/-- VSEL (R217, R218, R223). -/
def execVsel (w : BitVec 2) (d a b : BitVec 5) (s : State) : Answer := s.vecIssue w d a b 17

/-- VCMP (R217, R218, R223). -/
def execVcmp (w : BitVec 2) (d a b : BitVec 5) (s : State) : Answer := s.vecIssue w d a b 18

/-- VTRANS (R217, R218, R223). -/
def execVtrans (w : BitVec 2) (d a b : BitVec 5) (s : State) : Answer := s.vecIssue w d a b 19

/-- VGATH (R217, R218, R223). -/
def execVgath (w : BitVec 2) (d a b : BitVec 5) (s : State) : Answer := s.vecIssue w d a b 20

/-- VSCAT (R217, R218, R223). -/
def execVscat (w : BitVec 2) (d a b : BitVec 5) (s : State) : Answer := s.vecIssue w d a b 21

/-- VBCAST (R217, R218, R223). -/
def execVbcast (w : BitVec 2) (d a b : BitVec 5) (s : State) : Answer := s.vecIssue w d a b 22

end Sys2Proof.Machine
end

