-- ==== Sys2Proof/Machine/Matrix.lean ====
section
/-! DEFINITION. The matrix array: slot claims (R253, R254), tile tasks from their queue to their end (R255 to R267, R397),
the governor (R271, R272) and merges of banks (R266). -/

namespace Sys2Proof.Machine

/-! ### Records (R255) -/

def Task.bit (t : Task) (i : Nat) : Bool := t.record.getLsbD i
def Task.zero (t : Task) : Bool := t.bit 8
def Task.out (t : Task) : Bool := t.bit 9
def Task.bf16 (t : Task) : Bool := t.bit 10
def Task.hold (t : Task) : Bool := t.bit 11
def Task.p0 (t : Task) : Nat := if t.bit 32 then 1 else 0
def Task.np2 (t : Task) : Bool := t.bit 33
def Task.bank (t : Task) : Bool := t.bit 34
def Task.xofs (t : Task) : Nat := (t.record.extractLsb' 64 24).toNat
def Task.outaddr (t : Task) : Word := t.record.extractLsb' 128 64
def Task.opitch (t : Task) : Nat := (t.record.extractLsb' 192 16).toNat
def Task.deps (t : Task) : List Nat :=
  ((List.range 4).map (fun i => (t.record.extractLsb' (256 + 32 * i) 32).toNat)).filter (· != 0)

def Task.isCount4 (t : Task) : Bool := t.op == 0
def Task.isDrain4 (t : Task) : Bool := t.op == 4
def Task.isFp4 (t : Task) : Bool := t.isCount4 || t.isDrain4
def Task.isMac (t : Task) : Bool := 1 ≤ t.op && t.op ≤ 3

/-- Panels a COUNT4 counts, and the bank of its panel k (R265). -/
def Task.panels (t : Task) : Nat := if t.np2 then 2 else 1
def Task.bankOf (t : Task) (k : Nat) : Bool := t.bank != (k == 1)

/-- Bytes of the accumulator tile. -/
def Task.tileSize (t : Task) : Nat := if t.isFp4 then 8192 else if t.isMac then 4096 else 0

/-- Bytes of an output row. -/
def Task.rowSize (t : Task) : Nat := if t.bf16 then 64 else 128

def Core.bankAt (c : Core) (b : Bool) : Bank := if b then c.bank1 else c.bank0
def Core.setBank (c : Core) (b : Bool) (x : Bank) : Core := if b then { c with bank1 := x } else { c with bank0 := x }

/-- The task with a sequence number. -/
def Core.task (c : Core) (seq : Nat) : Option Task := c.tasks.find? (fun t => t.seq == seq)
def Core.setTask (c : Core) (t : Task) : Core := { c with tasks := c.tasks.map (fun x => if x.seq = t.seq then t else x) }

/-! ### Slot claims (R252 to R254) -/

/-- MCLAIM (R253, R254). -/
def execMclaim (w : BitVec 2) (d a : BitVec 5) (s : State) : Answer :=
  s.issue w { reads := [s.ra a], writes := [s.rd d], var := true, legal := !isKernel s.ctx.core } (fun t =>
    let core := s.ctx.core
    let pn := s.ctx.pn
    let m := (s.g (s.ra a)).toNat % 2 ^ 32
    let c := t.core core
    let mine := (List.range 32).filter (fun n => m.testBit n)
    if mine.all (fun n => (c.opslot n).owner.isNone || (c.opslot n).owner == some pn) then
      let slots := mine.foldl (fun o n =>
        let x := c.opslot n
        put o n (if x.owner.isNone then { x with owner := some pn, filled := false, releaseAt := none }
          else { x with releaseAt := none })) c.opslots
      ((t.modCore core (fun c => { c with opslots := slots })).varResult 2 [(s.rd d, word m)]).advance
    else (t.varResult 2 [(s.rd d, 0)]).advance)

/-- MREL (R254). -/
def execMrel (w : BitVec 2) (a : BitVec 5) (s : State) : Answer :=
  s.issue w { reads := [s.ra a], legal := !isKernel s.ctx.core } (fun t =>
    (t.modCore s.ctx.core (fun c => c.releaseSlots s.ctx.pn ((s.g (s.ra a)).toNat % 2 ^ 32))).advance)

/-- MTASK (R247, R256): the record is read as one access, every earlier store of the process in it; in a poisoned line it
is a free value, and its process takes POISON (R378). -/
def execMtask (w : BitVec 2) (d a : BitVec 5) (s : State) : Answer :=
  let core := s.ctx.core
  let c := s.core core
  s.issue w { reads := [s.ra a], writes := [s.rd d], var := true, legal := !isKernel core,
              ready := c.tasks.length < 8 && c.futureFree } (fun t =>
    let x := s.g (s.ra a)
    if !c.inScratchpad x 64 then t.trap .localbound x
    else if x.toNat % 64 != 0 then t.trap .align x
    else t.afterOwnWrites (fun t =>
      let r : BitVec 512 := BitVec.ofNat 512 (packWords (t.recordWords core s.ctx.pn x 8))
      let t := t.recordRead core s.ctx.pn x 8
      let f := t.allocFuture core s.ctx.pn (s.rd d) 2 none
      (f.1.modCore core (fun c => { c with
        tasks := c.tasks ++ [{ record := r, pn := s.ctx.pn, entry := f.2, seq := c.taskSeq }]
        taskSeq := c.taskSeq + 1 })).advance))

/-- MMERGE (R266). -/
def execMmerge (w : BitVec 2) (d a b : BitVec 5) (s : State) : Answer :=
  s.issue w { reads := [s.ra a, s.rb b], writes := [s.rd d], var := true, legal := !isKernel s.ctx.core } (fun t =>
    let core := s.ctx.core
    let seq := (t.core core).taskSeq
    ((t.pendDest (s.rd d)).modCore core (fun c => { c with
      merges := c.merges ++ [{ pn := s.ctx.pn, seq := seq }], taskSeq := seq + 1 })).block .blockedSync
      (.merge (s.rd d) ((s.g (s.ra a)).getLsbD 0) ((s.g (s.rb b)).getLsbD 0) seq))

/-! ### The end of a task (R258, R265, R267) -/

/-- Requests of a task that its end removes; a drain that is asked for still empties its bank, and a tile is zeroed though
its task, under HOLD, has completed (R265, R397). -/
def DrainReq.drops (seq : Nat) : DrainReq → Bool
  | .output q => q == seq
  | .zero _ _ _ _ | .drain _ _ => false

/-- A task leaves the queue; its slots may become free. -/
def State.dropTask (s : State) (core : Nat) (t : Task) : State :=
  (s.modCore core (fun c =>
    let k : Core := { c with
      tasks := c.tasks.filter (fun x => x.seq != t.seq)
      drainQ := (if c.drainEnd.isSome then c.drainQ.take 1 else [])
        ++ (if c.drainEnd.isSome then c.drainQ.drop 1 else c.drainQ).filter (fun r => !r.drops t.seq) }
    k.freeSlots)).modDie (dieOf core) (fun d => { d with
    grants := d.grants.filter (· != core) })

def State.taskDone (s : State) (core : Nat) (t : Task) : State :=
  (s.dropTask core t).endFuture core t.entry 1 0 t.flags t.xdata
def State.taskFails (s : State) (core : Nat) (t : Task) (reason : BitVec 8) : State :=
  (s.dropTask core t).failFuture core t.entry 3 reason t.flags t.xdata t.started

/-- A task that has counted everything and whose drains and output are written completes. -/
def State.taskMayEnd (s : State) (core seq : Nat) : State :=
  match (s.core core).task seq with
  | some t => if t.started && t.counted && t.drains = 0 && !t.outReq then s.taskDone core t else s
  | none => s

/-! ### The drain unit's queue (R247) -/

/-- An idle drain unit takes its next request: 32 die cycles. -/
def State.drainKick (s : State) (core : Nat) : State :=
  s.modCore core (fun c =>
    if c.drainEnd.isNone && !c.drainQ.isEmpty then { c with drainEnd := some (s.ticks + 32), drainMark := false } else c)
def State.askDrain (s : State) (core : Nat) (r : DrainReq) : State :=
  (s.modCore core (fun c => { c with drainQ := c.drainQ ++ [r] })).drainKick core

/-- The request being served ends. -/
def State.drainPop (s : State) (core : Nat) : State :=
  (s.modCore core (fun c => { c with drainQ := c.drainQ.drop 1, drainEnd := none, drainMark := false })).drainKick core

/-- A write of the array on path M: n bytes, FULL. -/
def State.arrayPut (s : State) (core pn : Nat) (off n v : Nat) : State :=
  s.writeBytes .m (pidOf core pn) (s.jobOf core) (poolKey core off) n v

/-- An accumulator tile as +0 and FULL (R397). -/
def State.zeroTile (s : State) (core pn xofs size : Nat) : State :=
  (List.range (size / 8)).foldl (fun s i => s.arrayPut core pn (xofs + 8 * i) 8 0) s

/-! ### Counting (R259 to R262, R265) -/

/-- The four block scales of a panel in a slot's side band. -/
def sideScales (x : OpSlot) (p : Nat) : BitVec 32 := x.sblk.extractLsb' (32 * p) 32

/-- Panel k of a task starts: its tag is captured and its bank counts for 32 die cycles. -/
def State.startPanel (s : State) (core : Nat) (t : Task) (k : Nat) : State :=
  let c := s.core core
  let b := t.bankOf k
  let p := t.p0 + k
  let a := c.opslot t.slotA
  let x := c.opslot t.slotB
  (s.modCore core (fun c => (c.setBank b { c.bankAt b with
    state := 1, depth := 0, counts := [], tagA := sideScales a p, tagB := sideScales x p,
    bands := x.sband ++ a.sband }).setTask { t with started := true, panel := k, paused := false })).modCore core
    (fun c => { c with counting := some (t.seq, b, s.ticks, s.ticks + 32) })

/-- The task starts (R257, R397). -/
def State.startTask (s : State) (core : Nat) (t : Task) : State :=
  let s := s.modDie (dieOf core) (fun d => { d with grants := d.grants.filter (· != core) })
  let t := { t with started := true }
  let s := s.modCore core (fun c => c.setTask t)
  if t.isMac then
    let s := if t.zero then s.zeroTile core t.pn t.xofs t.tileSize else s
    s.modCore core (fun c => { c with counting := some (t.seq, false, s.ticks, s.ticks + 64) })
  else
    let s := if t.zero then s.askDrain core (.zero t.seq t.xofs t.tileSize t.pn) else s
    if t.isCount4 then s.startPanel core t 0
    else
      let t := { t with counted := true, drains := 1, outReq := t.out }
      let s := s.modCore core (fun c => (c.setTask t).setBank t.bank { c.bankAt t.bank with state := 3 })
      let s := s.askDrain core (.drain t.seq t.bank)
      if t.out then s.askDrain core (.output t.seq) else s

/-! ### Choice (R257, R258) -/

/-- A dependence as its owning table shows it: PENDING, or its end state. An entry that no future has used is not PENDING,
and has no end state; the table of a saved tenant answers after its restore (R319). -/
def State.depState (s : State) (core handle : Nat) : Nat :=
  if !s.futureOk core handle then 4
  else if !isKernel (handleCore handle) && (s.die (dieOf (handleCore handle))).isSaved (s.jobOf core) then 0
  else
    let f := (s.core (handleCore handle)).future (handleEntry handle)
    if f.gen.toNat != handleGen handle then 4
    else if f.used then 0
    else max 1 (f.status.toNat / 2 ^ 32 % 8)

/-- Byte ranges of two accumulator tiles overlap; a task of an unlisted kind has none. -/
def tilesMeet (a b : Task) : Bool := a.tileSize != 0 && b.tileSize != 0 && a.xofs < b.xofs + b.tileSize && b.xofs < a.xofs + a.tileSize

/-- The conditions of R257 on a queued task. -/
def State.eligible (s : State) (core : Nat) (t : Task) : Bool :=
  let c := s.core core
  let older := c.tasks.filter (fun x => x.seq < t.seq)
  let bank := (c.bankAt t.bank).state
  (!t.usesSlots || ((c.opslot t.slotA).filled && (c.opslot t.slotB).filled))
    && t.deps.all (fun h => s.depState core h != 0)
    && older.all (fun x => (x.isFp4 && t.isFp4) || !tilesMeet x t)
    && (!t.isFp4 || older.all (fun x => !x.isFp4 || x.started))
    && c.merges.all (fun m => m.result.isSome || t.seq < m.seq)
    && (!t.usesSlots || (c.counting.isNone && !c.tasks.any (fun x => x.paused)))
    && (!t.isCount4 || bank != 3)
    && (!t.isDrain4 || (bank != 1 && bank != 3))

/-- A task's output rows lie in the scratchpad. -/
def Core.outputFits (c : Core) (t : Task) : Bool :=
  (List.range 32).all (fun i => c.inScratchpad (t.outaddr + word (i * t.opitch)) t.rowSize)

/-- The accumulator tile lies in the accumulator region (R307). -/
def accumulatorHolds (part : BitVec 23) (off n : Nat) : Bool :=
  regionOf part off == .accumulator && regionOf part (off + n - 1) == .accumulator

/-- The checks of R258: the reason of the first that fails. -/
def State.taskFault (s : State) (core : Nat) (t : Task) : Option (BitVec 8) :=
  let c := s.core core
  if t.deps.any (fun h => 2 ≤ s.depState core h) then some 0x45
  else if 5 ≤ t.op || (t.isCount4 && ((t.p0 == 1 && t.np2) || (t.hold && t.out))) then some Cause.prot.code
  else if t.usesSlots && ((c.opslot t.slotA).owner.isNone || (c.opslot t.slotB).owner.isNone) then
    some Cause.localbound.code
  else if t.xofs % t.tileSize != 0 then some Cause.align.code
  else if !accumulatorHolds c.part t.xofs t.tileSize then some Cause.localbound.code
  else if t.out && (t.outaddr.toNat % 64 != 0 || t.opitch % 64 != 0) then some Cause.align.code
  else if t.out && (t.opitch < t.rowSize || !c.outputFits t) then some Cause.localbound.code
  else if t.isCount4 && ((List.range t.panels).any (fun k => (c.bankAt (t.bankOf k)).state == 2)) then some 0x46
  else if t.isDrain4 && (c.bankAt t.bank).state == 0 then some 0x46
  else none

/-- TASK_CHOICE (R257, R258): the oldest task that may start is chosen; it fails, starts, or asks the governor. -/
def execTaskChoice (core : Nat) (s : State) : Answer :=
  .next (
    let c := s.core core
    if c.tasks.any (fun t => t.chosen && !t.started) then s
    else match c.tasks.find? (fun t => !t.started && s.eligible core t) with
      | none => s
      | some t =>
        match s.taskFault core t with
        | some r => s.taskFails core t r
        | none =>
          let t := { t with chosen := true }
          if t.isDrain4 then s.startTask core t
          else (s.modCore core (fun c => c.setTask t)).modDie (dieOf core) (fun d => { d with
            grants := insertKey d.grants core }))

/-! ### The governor (R271, R272) -/

/-- Cores of a die that have a record. -/
def State.coresOf (s : State) (die : Nat) : List (Nat × Core) := s.cores.filter (fun e => dieOf e.1 == die)

/-- Busy cycles of a core's cells in a window that ends at a cycle, up to another: those of the interval at work. -/
def Core.busyIn (c : Core) (start end_ : Nat) : Nat :=
  match c.counting with
  | some (_, _, f, e) => min e end_ - max f start
  | none => 0

/-- Busy cycles a core's running task will still use in the window after the interval at work. -/
def Core.busyLater (c : Core) (now end_ : Nat) : Nat :=
  match c.counting with
  | some (q, _, _, e) =>
    match c.task q with
    | some t => if t.isCount4 && t.panel + 1 < t.panels then min 32 (end_ - e) else 0
    | none => 0
  | none => if c.tasks.any (fun t => t.paused) then min 32 (end_ - now) else 0

/-- K of R271. -/
def State.committedBusy (s : State) (die : Nat) : Nat :=
  let d := s.die die
  let w := d.windowStart
  d.busy + ((s.coresOf die).map (fun e => e.2.busyIn w (w + 1024) + e.2.busyLater s.ticks (w + 1024))).foldl (· + ·) 0

/-- Busy cycles of a task. -/
def Task.busy (t : Task) : Nat := if t.isMac then 64 else 32 * t.panels

/-- GOVERNOR_GRANT (R257, R271, R272): the chosen task starts, or is held for this die cycle. -/
def execGovernorGrant (core : Nat) (s : State) : Answer :=
  .next (
    let die := dieOf core
    match (s.core core).tasks.find? (fun t => t.chosen && !t.started) with
    | none => s
    | some t =>
      let d := s.die die
      if s.committedBusy die + min t.busy (d.windowStart + 1024 - s.ticks) ≤ d.gallow then s.startTask core t
      else if t.heldAt == some s.ticks then s
      else s.modCore core (fun c => { c.setTask { t with heldAt := some s.ticks } with
        holds := if t.heldAt.isNone then c.holds + 1 else c.holds, holdcyc := c.holdcyc + 1 }))

/-- GOVERNOR_WINDOW (R271): a new window, with the busy cycles of the last one and the new allowance. -/
def execGovernorWindow (die : Nat) (s : State) : Answer :=
  .next (
    let d := s.die die
    let w := d.windowStart
    if s.ticks < w + 1024 then s
    else
      let u := d.busy + ((s.coresOf die).map (fun e => e.2.busyIn w (w + 1024))).foldl (· + ·) 0
      s.setDie die { d with gprev := u, gallow := min d.gbud.toNat (u + d.gramp.toNat), busy := 0, windowStart := w + 1024 })

/-- The interval at work ends: its cycles count in its window. -/
def State.countingEnds (s : State) (core : Nat) : State :=
  let die := dieOf core
  let n := (s.core core).busyIn (s.die die).windowStart s.ticks
  (s.modCore core (fun c => { c with counting := none })).modDie die (fun d => { d with busy := d.busy + n })

/-! ### Panels (R260 to R262, R270) -/

/-- Half-values of magnitude codes, quarters of product codes, and the product code of a magnitude (R260). -/
def halfValue (m : Nat) : Nat := [0, 1, 2, 3, 4, 6, 8, 12].getD m 0
def quarters : List Nat := [1, 2, 3, 4, 6, 8, 9, 12, 16, 18, 24, 32, 36, 48, 64, 72, 96, 144]
def productCode (x y : Nat) : Option Nat := quarters.findIdx? (· == halfValue (x % 8) * halfValue (y % 8))

/-- The 256 element codes of a panel of a row of a slot: rows are 256 bytes of nibbles (R69). -/
def Memory.rowCodes (m : Memory) (core slot row p : Nat) : List Nat :=
  (m.bytes (operandKey core slot (256 * row + 128 * p)) 128).flatMap (fun x => [x.toNat % 16, x.toNat / 16])

/-- The signed counters of one cell after a panel, from its row of A and its row of B. -/
def cellCounts (xs ys : List Nat) : List Int :=
  (xs.zip ys).foldl (fun acc e =>
    match productCode e.1 e.2 with
    | some c => acc.set c (acc.getD c 0 + (if e.1 / 8 = e.2 / 8 then 1 else -1))
    | none => acc) (List.replicate 18 0)

/-- The counters of every cell, the zero ones left out. -/
def Memory.panelCounts (m : Memory) (core a b p : Nat) : AMap Int :=
  let rows (slot : Nat) : List (List Nat) := (List.range 32).map (fun i => m.rowCodes core slot i p)
  let ys := rows b
  let cells := (rows a).flatMap (fun x => ys.map (fun y => cellCounts x y))
  (cells.zipIdx.flatMap (fun e => e.1.zipIdx.map (fun x => (18 * e.2 + x.2, x.1)))).filter (fun e => e.2 != 0)

/-- Whether a line of a slot that a task counts is poisoned: of a COUNT4, the panel's half of each row (R262, R270). -/
def Memory.slotPoisoned (m : Memory) (core slot : Nat) (panel : Option Nat) : Bool :=
  (List.range 128).any (fun l => (panel.isNone || panel == some (l / 2 % 2)) && m.isPoisoned (operandKey core slot (64 * l)))

/-- CONA and CONB (R255). -/
def Core.conClear (c : Core) (t : Task) : Core :=
  let clear (c : Core) (n : Nat) : Core := { c with opslots := put c.opslots n { c.opslot n with filled := false } }
  let c := if t.bit 12 then clear c t.slotA else c
  if t.bit 13 then clear c t.slotB else c

/-- A task ends FAILED with reason POISON while it counts: its bank is EMPTY (R270). -/
def State.countPoisoned (s : State) (core : Nat) (t : Task) : State :=
  let s := match (s.core core).counting with
    | some (q, b, _, _) =>
      if q = t.seq then
        let s := s.countingEnds core
        if t.isCount4 then s.modCore core (fun c => c.setBank b {}) else s
      else s
    | none => s
  s.taskFails core t Cause.poison.code

/-- PANEL_END (R262, R265): the panel's counts stand in its bank, which is HELD or asks for its drain; then the next
panel, a pause, or the end of counting. -/
def execPanelEnd (core : Nat) (s : State) : Answer :=
  .next (match (s.core core).counting with
    | none => s
    | some (q, b, _, e) =>
      match (s.core core).task q with
      | none => s
      | some t =>
        if !t.isCount4 || s.ticks < e then s
        else if s.mem.slotPoisoned core t.slotA (some (t.p0 + t.panel)) || s.mem.slotPoisoned core t.slotB (some (t.p0 + t.panel))
          then s.countPoisoned core t
        else
          let last := t.panels ≤ t.panel + 1
          let counts := s.mem.panelCounts core t.slotA t.slotB (t.p0 + t.panel)
          let s := s.countingEnds core
          let s := s.modCore core (fun c => c.setBank b { c.bankAt b with
            state := if t.hold then 2 else 3, depth := 256, counts := counts })
          let t := { t with drains := if t.hold then t.drains else t.drains + 1, counted := last,
                            outReq := last && t.out, paused := false }
          let s := s.modCore core (fun c => c.setTask t)
          let s := if t.hold then s else s.askDrain core (.drain q b)
          if last then
            let s := s.modCore core (fun c => c.conClear t)
            let s := if t.out then s.askDrain core (.output q) else s
            s.taskMayEnd core q
          else if ((s.core core).bankAt (t.bankOf 1)).state == 3 then
            s.modCore core (fun c => c.setTask { t with paused := true })
          else s.startPanel core t 1)

/-! ### Multiply-add (R259) -/

/-- The format of a MAC kind's elements, and products in a die cycle. -/
def macType (op : Nat) : EType := if op = 1 then .float bf16 else if op = 2 then .float e4m3 else .float e5m2
def macWide (op : Nat) : Nat := if op = 1 then 2 else 4

/-- The elements of a row of a slot: 64 counting cycles of them. -/
def Memory.rowValues (m : Memory) (core slot row op : Nat) : List Val :=
  let n := (macType op).width / 8
  (List.range (64 * macWide op)).map (fun k => (macType op).decode (m.read (operandKey core slot (256 * row + n * k)) n))

/-- Infinities of both signs. -/
def infsClash (vs : List Val) : Bool := vs.any (fun v => v.isInf && v.neg?) && vs.any (fun v => v.isInf && !v.neg?)

/-- One counting cycle of a cell: an exact sum of products and accumulator, one rounding; infinities of both signs raise
NV beside a NaN too. -/
def macCycle (acc : Nat) (xs : List (Val × Val)) : Nat × BitVec 5 :=
  let a := fp32.decode acc
  let ps := xs.map (fun x => x.1.mul x.2)
  let inputs := nanFlags (a :: (xs.map (fun x => x.1) ++ xs.map (fun x => x.2)))
  let addends := a :: ps.map (fun p => p.1)
  let sum := sumVals addends
  let r := fp32.convert .ieee .rne sum.1
  (r.1, ps.foldl (fun f p => f ||| p.2) (inputs ||| sum.2 ||| r.2 ||| (if infsClash addends then flagNV else 0)))

/-- A cell's accumulator after its counting cycles, n products each, from its value before. -/
def macCell (n acc : Nat) (xs : List (Val × Val)) : Nat × BitVec 5 :=
  (List.range 64).foldl (fun r cyc =>
    let x := macCycle r.1 ((xs.drop (n * cyc)).take n)
    (x.1, r.2 ||| x.2)) (acc, 0)

/-- The cells of a multiply-add task, row by row, each with its flags. -/
def Memory.macCells (m : Memory) (core : Nat) (t : Task) : List (Nat × BitVec 5) :=
  let rows (slot : Nat) : List (List Val) := (List.range 32).map (fun i => m.rowValues core slot i t.op)
  let ys := rows t.slotB
  ((rows t.slotA).flatMap (fun x => ys.map (fun y => x.zip y))).zipIdx.map (fun e =>
    macCell (macWide t.op) (m.read (poolKey core (t.xofs + 4 * e.2)) 4) e.1)

/-- MAC_COUNTING_END (R259, R270): the accumulators are written, and the output asked for or the task complete. A task that
ends by POISON writes none of them (DESIGN CHOICE, log 29). -/
def execMacCountingEnd (core : Nat) (s : State) : Answer :=
  .next (match (s.core core).counting with
    | none => s
    | some (q, _, _, e) =>
      match (s.core core).task q with
      | none => s
      | some t =>
        let at_ (cell : Nat) : Nat := t.xofs + 4 * cell
        if !t.isMac || s.ticks < e then s
        else if s.mem.slotPoisoned core t.slotA none || s.mem.slotPoisoned core t.slotB none
            || (List.range 1024).any (fun cell => s.mem.isPoisoned (poolKey core (at_ cell))) then s.countPoisoned core t
        else
          let cells := s.mem.macCells core t
          let s := s.countingEnds core
          let s := cells.zipIdx.foldl (fun s x => s.arrayPut core t.pn (at_ x.2) 4 x.1.1) s
          let t := { t with counted := true, outReq := t.out, flags := cells.foldl (fun f x => f ||| x.2) t.flags }
          let s := s.modCore core (fun c => (c.setTask t).conClear t)
          if t.out then s.askDrain core (.output q) else s.taskMayEnd core q)

/-! ### Drains (R263, R270, R397) -/

/-- The term a drain adds to a cell: none where a block scale is NaN. -/
def drainTerm (b : Bank) (cell : Nat) : Option Int :=
  let i := cell / 32
  let j := cell % 32
  let sum : Int := (quarters.zipIdx.map (fun x => look 0 b.counts (18 * cell + x.2) * (x.1 : Int))).foldl (· + ·) 0
  match scaleOf (b.tagA.extractLsb' (8 * (i / 8)) 8).toNat, scaleOf (b.tagB.extractLsb' (8 * (j / 8)) 8).toNat with
  | some (ma, ea), some (mb, eb) => some (sum * ma * mb * 2 ^ (ea + eb + 14).toNat)
  | _, _ => none

/-- One cell of a drain: its accumulator word, and OVF and NANSCALE; none where the word is poisoned. -/
def State.drainCell (s : State) (core : Nat) (t : Task) (b : Bank) (cell : Nat) : Option (State × BitVec 8) :=
  let k := poolKey core (t.xofs + 8 * cell)
  if s.mem.isPoisoned k then none
  else match drainTerm b cell with
    | none => some ({ s with mem := s.mem.setFull (k / 8) false }, 2)
    | some x =>
      let v := (s.mem.word (k / 8)).toInt + x
      let hi : Int := 2 ^ 63 - 1
      let lo : Int := -(2 ^ 63)
      let r := if hi < v then (hi, 1) else if v < lo then (lo, 1) else (v, 0)
      some ({ s with mem := s.mem.writeOn .m (pidOf core t.pn) (s.jobOf core) k 8 (wordOfInt r.1).toNat }, r.2)

/-- The cells in drain order (R270): columns, and the rows of each, ascending. Which rows of the column are written when a
poisoned word stops the drain is left open (DESIGN CHOICE, log 29). -/
def drainOrder : List Nat := (List.range 1024).map (fun n => n % 32 * 32 + n / 32)

/-- Cells drained in order, up to a poisoned word. -/
def State.drainCells (s : State) (core : Nat) (t : Task) (b : Bank) : List Nat → BitVec 8 → State × BitVec 8 × Bool
  | [], x => (s, x, true)
  | c :: cs, x =>
    match s.drainCell core t b c with
    | some (s', y) => s'.drainCells core t b cs (x ||| y)
    | none => (s, x, false)

/-- DRAIN (R263): the bank being served is added into the accumulators. -/
def execDrain (core : Nat) (s : State) : Answer :=
  .next (
    let c := s.core core
    match c.drainQ, c.drainEnd with
    | .drain q b :: _, some _ =>
      match c.task q with
      | none => s.modCore core (fun c => { c with drainMark := true })
      | some t =>
        if c.drainMark then s
        else
          let r := s.drainCells core t (c.bankAt b) drainOrder 0
          r.1.modCore core (fun c => { c.setTask { t with
            xdata := t.xdata ||| r.2.1, lastBand := (c.bankAt b).bands, poisoned := !r.2.2 } with drainMark := true })
    | _, _ => s)

/-- A counting that paused for a bank goes on once its drain has ended (R265). -/
def State.resumePaused (s : State) (core : Nat) : State :=
  match (s.core core).tasks.find? (fun t => t.paused) with
  | some t => if ((s.core core).bankAt (t.bankOf 1)).state != 3 then s.startPanel core t 1 else s
  | none => s

/-- DRAIN_END (R263, R265, R270): the bank is EMPTY; its task may complete, or ends FAILED at a poisoned word. -/
def execDrainEnd (core : Nat) (s : State) : Answer :=
  .next (
    let c := s.core core
    match c.drainQ, c.drainEnd with
    | .drain q b :: _, some e =>
      if s.ticks < e || !c.drainMark then s
      else
        let s := s.modCore core (fun c => c.setBank b {})
        match c.task q with
        | none => (s.drainPop core).resumePaused core
        | some t =>
          let s := s.drainPop core
          if t.poisoned then ((s.countPoisoned core t).drainKick core).resumePaused core
          else
            let s := s.modCore core (fun c => c.setTask { t with drains := t.drains - 1 })
            (s.taskMayEnd core q).resumePaused core
    | _, _ => s)

/-- TILE_ZEROING (R397): the drain unit has written the tile as +0. -/
def execTileZeroing (core : Nat) (s : State) : Answer :=
  .next (
    let c := s.core core
    match c.drainQ, c.drainEnd with
    | .zero _ xofs size pn :: _, some e =>
      if s.ticks < e then s else (s.drainPop core).zeroTile core pn xofs size
    | _, _ => s)

/-! ### Output (R259, R264, R71) -/

/-- The FP4 output value of an accumulator word: its exact value, and NV (R71). -/
def fp4Value (empty : Bool) (xa : Int) (a b : Val) : Val × BitVec 5 :=
  let nan : Val × BitVec 5 := (.nan false, flagNV)
  if empty || a.isNan || b.isNan then nan
  else if a.isInf || b.isInf then
    if xa = 0 then nan else (.inf ((xa < 0) != (a.neg? != b.neg?)), 0)
  else
    let r := ((Val.mul (.fin (xa < 0) xa.natAbs (-16)) a).1.mul b).1
    if r.isZero then (.fin false 0 0, 0) else (r, 0)

/-- An output element: its code and flags. -/
def State.outputElement (s : State) (core : Nat) (t : Task) (cell : Nat) : Nat × BitVec 5 :=
  let f := if t.bf16 then Sys2Proof.Machine.bf16 else fp32
  if t.isMac then
    let x := s.mem.read (poolKey core (t.xofs + 4 * cell)) 4
    if t.bf16 then f.convert (.sat false) .rne (fp32.decode x) else (x, 0)
  else
    let k := poolKey core (t.xofs + 8 * cell)
    let v := fp4Value (!s.mem.isFull (k / 8)) (s.mem.word (k / 8)).toInt
      (Sys2Proof.Machine.bf16.decode (t.lastBand.extractLsb' 0 16).toNat)
      (Sys2Proof.Machine.bf16.decode (t.lastBand.extractLsb' 16 16).toNat)
    let r := f.convert .ieee .rne v.1
    (r.1, v.2 ||| r.2)

/-- OUTPUT_WRITE_END (R259, R264): the output tile is written and the task completes. -/
def execOutputWriteEnd (core : Nat) (s : State) : Answer :=
  .next (
    let c := s.core core
    match c.drainQ, c.drainEnd with
    | .output q :: _, some e =>
      match c.task q with
      | none => if s.ticks < e then s else s.drainPop core
      | some t =>
        let tile := t.tileSize / 1024
        if s.ticks < e then s
        else if (List.range 1024).any (fun cell => s.mem.isPoisoned (poolKey core (t.xofs + tile * cell))) then
          (s.drainPop core).taskFails core t Cause.poison.code
        else
          let n := if t.bf16 then 2 else 4
          let outs := (List.range 1024).map (fun cell => s.outputElement core t cell)
          let s := outs.zipIdx.foldl (fun s x =>
            s.arrayPut core t.pn (t.outaddr.toNat + x.2 / 32 * t.opitch + x.2 % 32 * n) n x.1.1) s
          let t := { t with outReq := false, flags := outs.foldl (fun f x => f ||| x.2) t.flags }
          ((s.modCore core (fun c => c.setTask t)).drainPop core).taskMayEnd core q
    | _, _ => s)

/-! ### Merges (R266) -/

/-- The sum of two banks' counters. -/
def addCounts (a b : AMap Int) : AMap Int :=
  (b.foldl (fun m e => put m e.1 (look 0 m e.1 + e.2)) a).filter (fun e => e.2 != 0)

/-- The merge of one bank into the other. -/
def mergeBanks (dst src : Bank) (tsel : Bool) : Bank :=
  let n := dst.depth + src.depth
  let take := src.state == 2 && (dst.state == 0 || tsel)
  { state := if 0 < n then 2 else 0, depth := n, counts := addCounts dst.counts src.counts
    tagA := if take then src.tagA else dst.tagA, tagB := if take then src.tagB else dst.tagB
    bands := if take then src.bands else dst.bands }

/-- The merge a process waits for is performed, or raises DEPTHFAULT. -/
def State.mergeNow (s : State) (core : Nat) (m : Merge) : State :=
  match (s.proc core m.pn).wait with
  | .merge d dst tsel _ =>
    let c := s.core core
    let n := c.bank0.depth + c.bank1.depth
    if 2047 < n then
      ((s.modCore core (fun c => { c with merges := c.merges.filter (fun x => x.seq != m.seq) })).modProc core m.pn (fun p =>
        p.setPending d false)).trapBlocked core m.pn .depthfault (word n)
    else
      let b := mergeBanks (c.bankAt dst) (c.bankAt (!dst)) tsel
      s.modCore core (fun c => { (c.setBank dst b).setBank (!dst) {} with
        merges := c.merges.map (fun x => if x.seq = m.seq then { x with result := some (n, s.ticks + 4) } else x) })
  | _ => s

/-- The result of a performed merge is written, and its process released. -/
def State.mergeEnds (s : State) (core : Nat) (m : Merge) (n : Nat) : State :=
  let s := s.modCore core (fun c => { c with merges := c.merges.filter (fun x => x.seq != m.seq) })
  match (s.proc core m.pn).wait with
  | .merge d _ _ _ => (s.arriveReg core m.pn d (word n)).wake core m.pn
  | _ => s

/-- MMERGE_PERFORM (R266): the oldest waiting MMERGE whose conditions hold merges the banks, and a merge performed 4 die
cycles ago writes its result. -/
def execMmergePerform (core : Nat) (s : State) : Answer :=
  .next (
    let c := s.core core
    match c.merges.find? (fun m => match m.result with | some (_, t) => t ≤ s.ticks | none => false) with
    | some m => s.mergeEnds core m ((m.result.map (fun r => r.1)).getD 0)
    | none =>
      match c.merges.find? (fun m => m.result.isNone) with
      | some m =>
        if c.tasks.all (fun t => m.seq < t.seq) && c.drainQ.isEmpty && c.drainEnd.isNone then s.mergeNow core m else s
      | none => s)

end Sys2Proof.Machine
end

