-- ==== Sys2Proof/Machine/Sheaf.lean ====
section
/-! DEFINITION. The sheaf: its instructions (R291 to R295), die queues, frames and the token (R285 to R288, R364 to R367),
the board replicas and landings (R289, R290), leaving (R296, R297) and formation (R363). -/

namespace Sys2Proof.Machine

/-! ### Operations of processes (R288, R293, R294) -/

def SheafOp.core : SheafOp → Nat
  | .st c _ _ _ _ | .cas c _ _ _ _ _ | .pub c _ _ _ _ => c
def SheafOp.pn : SheafOp → Nat
  | .st _ p _ _ _ | .cas _ p _ _ _ _ | .pub _ p _ _ _ => p
def SheafOp.isPub : SheafOp → Bool
  | .pub _ _ _ _ _ => true
  | _ => false

/-- The SSN at which a sheaf accepts no further operation (R297, R367). -/
def ssnLimit : Nat := 2 ^ 48 - 2 ^ 24

/-- The first check of R291 that fails. op: 0 SHPUB, 1 SHST, 2 SHCAS. -/
def State.sheafCheck (s : State) (core op : Nat) (a b : Word) : Option (Cause × Word) :=
  if !s.sheafMember core then some (.prot, 0)
  else if op != 0 then
    if 65536 ≤ a.toNat then some (.prot, a) else if a.toNat % 8 != 0 then some (.align, a) else none
  else if b.toNat / 2 ^ 39 != 0 then some (.prot, b)
  else if 64 ≤ b.toNat / 2 ^ 32 then some (.prot, b)
  else if b.toNat % 2 ^ 32 % 64 != 0 then some (.align, b)
  else if a.toNat % 64 != 0 then some (.align, a)
  else if !inScratch (s.core core).part a.toNat ((b.toNat / 2 ^ 32 + 1) * 64) then some (.localbound, a)
  else none

/-- A waiting operation enters its die's queue once R288 holds and the queue has room. -/
def State.sheafEnters (s : State) (core pn : Nat) : State :=
  match (s.proc core pn).wait with
  | .sheafRelease op d x y z entry upto =>
    let die := dieOf core
    if (s.core core).releaseHolds pn upto && (s.die die).sheafQ.length < 256
        && (s.pkg (pkgOf core)).nextSsn ≤ ssnLimit then
      let o : SheafOp := match op with
        | 0 => .pub core pn (entry - 1) x y
        | 1 => .st core pn d (x.toNat / 8) y
        | _ => .cas core pn d (x.toNat / 8) y z
      (s.modDie die (fun e => { e with sheafQ := e.sheafQ ++ [o] })).wake core pn
    else s
  | _ => s

/-- An operation whose checks passed waits for R288 and for room. -/
def State.sheafWait (t : State) (op d : Nat) (x y z : Word) (entry : Nat) : State :=
  let core := t.ctx.core
  (t.block .blockedSync (.sheafRelease op d x y z entry (t.core core).nextTag)).sheafEnters core t.ctx.pn

/-- SHPUB (R291, R294). -/
def execShpub (w : BitVec 2) (d a b : BitVec 5) (s : State) : Answer :=
  let core := s.ctx.core
  s.issue w { reads := [s.ra a, s.rb b], writes := [s.rd d], var := true, ready := (s.core core).futureFree } (fun t =>
    let x := s.g (s.ra a)
    let y := s.g (s.rb b)
    match t.sheafCheck core 0 x y with
    | some (c, f) => t.trap c f
    | none =>
      let r := t.allocFuture core s.ctx.pn (s.rd d) 5 none
      r.1.sheafWait 0 (s.rd d) x y 0 (r.2 + 1))

/-- SHST and SHCAS, their checks passed (R293). -/
def State.sheafBoard (t : State) (op d : Nat) (x y z : Word) : State :=
  match t.sheafCheck t.ctx.core op x y with
  | some (c, f) => t.trap c f
  | none => (t.pendDest d).sheafWait op d x y z 0

/-- SHST (R291, R293). -/
def execShst (w : BitVec 2) (d a b : BitVec 5) (s : State) : Answer :=
  s.issue w { reads := [s.ra a, s.rb b], writes := [s.rd d], var := true } (fun t =>
    t.sheafBoard 1 (s.rd d) (s.g (s.ra a)) (s.g (s.rb b)) 0)

/-- SHCAS (R291, R293): g[D] is the compare value and the destination. -/
def execShcas (w : BitVec 2) (d a b : BitVec 5) (s : State) : Answer :=
  s.issue w { reads := [s.ra a, s.rb b, s.rd d], writes := [s.rd d], var := true } (fun t =>
    t.sheafBoard 2 (s.rd d) (s.g (s.ra a)) (s.g (s.rb b)) (s.g (s.rd d)))

/-- SHACQ (R291, R295). -/
def execShacq (w : BitVec 2) (a : BitVec 5) (s : State) : Answer :=
  let core := s.ctx.core
  let x := s.g (s.ra a)
  let applied := (s.die (dieOf core)).applied
  let target := if x.getLsbD 63 then applied else x.toNat % 2 ^ 48
  s.issue w { reads := [s.ra a] } (fun t =>
    t.noHandler (word target) (fun t =>
      if !t.sheafMember core then t.trap .prot 0
      else if applied < target then t.block .blockedSync (.sheafAcquire target)
      else (t.acquireAll core s.ctx.pn).advance))

/-! ### Waiters of a die -/

/-- Every process of a die, as core and number. -/
def State.procsOf (s : State) (die : Nat) : List (Nat × Nat) :=
  (s.cores.filter (fun e => dieOf e.1 == die)).flatMap (fun e => e.2.procs.map (fun p => (e.1, p.1)))

/-- The processes of tenants saved on a die that wait for something: job, core, number and the wait. -/
def State.savedWaits (s : State) (die : Nat) : List (Nat × Nat × Nat × Wait) :=
  (s.die die).saved.flatMap (fun x => x.cores.flatMap (fun e => e.2.procs.map (fun p => (x.job, e.1, p.1, p.2.wait))))

/-- SHACQs whose target the die has applied are released (R295). -/
def State.acquireDone (s : State) (die : Nat) : State :=
  let n := (s.die die).applied
  (s.procsOf die).foldl (fun t e => match (t.proc e.1 e.2).wait with
    | .sheafAcquire target => if target ≤ n then (t.acquireAll e.1 e.2).wake e.1 e.2 else t
    | _ => t) s

/-- Waiting SHACQs of a die, those of saved tenants too, end with PROT, FADDR the target (R297). -/
def State.acquireFails (s : State) (die : Nat) : State :=
  let t := (s.procsOf die).foldl (fun t e => match (t.proc e.1 e.2).wait with
    | .sheafAcquire target => t.trapBlocked e.1 e.2 .prot (word target)
    | _ => t) s
  (s.savedWaits die).foldl (fun t e => match e.2.2.2 with
    | .sheafAcquire target => t.onTenant e.2.1 e.1 (fun u => u.trapBlocked e.2.1 e.2.2.1 .prot (word target))
    | _ => t) t

/-! ### Results (R293, R294) -/

/-- A publication or board operation ends FAILED, with its record: its SSN once it has entered a frame, else its future
handle (R296, R297, R381, R382). -/
def State.sheafFails (s : State) (o : SheafOp) (ssn : Nat) (reason : BitVec 8) : State :=
  let core := o.core
  match o with
  | .pub _ pn entry _ _ =>
    let id := if ssn = 0 then word ((s.core core).handleFor core entry) else word ssn
    (s.itemEnds core 4 2 reason pn (ssn != 0) id).endFuture core entry 2 reason 0 0
  | .st _ pn _ _ _ | .cas _ pn _ _ _ _ => s.itemEnds core 4 2 reason pn (ssn != 0) (word ssn)

/-- The sheaf is lost to an operation: PROT is raised at the next boundary of a board operation's process (R297). -/
def State.sheafLost (s : State) (o : SheafOp) (ssn : Nat) : State :=
  let s := s.sheafFails o ssn 0x47
  match o with
  | .st c pn _ off _ | .cas c pn _ off _ _ =>
    s.modLive c pn (fun p => { p with asyncTrap := some (p.asyncTrap.getD (.prot, word (off * 8))) })
  | .pub _ _ _ _ _ => s

/-- The end of a publication whose process has ended: it is recorded already and delivered to no register, but its future
ends, and the waiters of it are released (R246, R296). -/
def State.orphanPub (s : State) (job core pn entry state : Nat) (reason : BitVec 8) : State :=
  s.onTenant core job (fun t =>
    let f := (t.core core).future entry
    if f.used && f.engine == 5 && f.owner == pn && !f.ownerLive then t.endFuture core entry state reason 0 0 else t)

/-- One operation of a frame at a replica: the board, and the result where the issuer's die applies it (R289, R293). -/
def State.applyOp (s : State) (die job ssn pos : Nat) (landed ended : Bool) (o : SheafOp) : State :=
  let mine := dieOf o.core == die && !ended
  match o with
  | .st c pn d off v =>
    let s := s.modDie die (fun e => { e with board := put e.board off v })
    if mine then s.onTenant c job (fun t => t.arriveReg c pn d (word (ssn + pos * 2 ^ 48))) else s
  | .cas c pn d off v cmp =>
    let old := look 0 (s.die die).board off
    let s := if old = cmp then s.modDie die (fun e => { e with board := put e.board off v }) else s
    if mine then s.onTenant c job (fun t => t.arriveReg c pn d old) else s
  | .pub c pn entry _ _ =>
    if dieOf c != die then s
    else if ended then s.orphanPub job c pn entry (if landed then 1 else 2) (if landed then 0 else 0x48)
    else s.onTenant c job (fun t => if landed then t.endFuture c entry 1 0 0 0 else t.sheafFails o ssn 0x48)

/-- Results of a frame's operations, in order of position. -/
def State.applyOps (s : State) (die : Nat) (f : Frame) (landed : Bool) : State :=
  f.ops.zipIdx.foldl (fun t e => t.applyOp die f.job f.ssn e.2 landed (f.ended.contains e.2) e.1) s

/-- The frame a package holds under an SSN. -/
def Pkg.frame (p : Pkg) (ssn : Nat) : Option Frame := p.got.find? (fun f => f.ssn == ssn)

/-- The lowest SSN that every replica of a package has applied. -/
def State.appliedByAll (s : State) (pkg : Nat) : Nat :=
  min (min (s.die (4 * pkg)).applied (s.die (4 * pkg + 1)).applied)
    (min (s.die (4 * pkg + 2)).applied (s.die (4 * pkg + 3)).applied)

/-- A member keeps its last 4,096 applied frames (R287). -/
def State.pruneFrames (s : State) (pkg : Nat) : State :=
  let n := s.appliedByAll pkg
  s.modPkg pkg (fun p => { p with got := p.got.filter (fun f => n < f.ssn + 4096) })

/-- FRAME_APPLY (R287, R289, R290): a replica applies the frame after the last; a publication's landing comes first. At
the last SSN the package asks for a new formation (R367). -/
def execFrameApply (die : Nat) (s : State) : Answer :=
  let pkg := pkgOfDie die
  let p := s.pkg pkg
  let n := (s.die die).applied + 1
  .next (if !p.formed then s
    else match p.frame n with
      | none => s
      | some f =>
        if f.ops.any SheafOp.isPub && p.landed < n then s
        else
          let s := (((s.modDie die (fun d => { d with applied := n })).applyOps die f
            (!p.landFault.contains n)).acquireDone die).pruneFrames pkg
          if n = ssnLimit && s.appliedByAll pkg = n && p.formAt.isNone then s.later (.sheafForm pkg) else s)

/-! ### Landing (R290) -/

/-- The die of a package whose job records name a job: the lowest. -/
def State.dieWithJob (s : State) (pkg job : Nat) : Nat :=
  ((List.range 4).find? (fun i => (s.die (4 * pkg + i)).jobs.any (fun r => r.2.valid && r.2.job.toNat == job))).elim
    (4 * pkg) (fun i => 4 * pkg + i)

/-- The key of a landing word, or the cause its write would raise. -/
def State.landingKey (s : State) (pkg die job va : Nat) : Nat ⊕ Cause :=
  if spaceOf false (word va) != .global then .inr .prot
  else match s.walk die job va with
    | .fault c => .inr c
    | .leaf p large =>
      match leafCause p large { r := false, w := true, x := false, writes := true, sync := false } with
      | some c => .inr c
      | none =>
        if pteHome p / 4 != pkg then .inr .prot
        else .inl (storeKey (pteHome p) (pteTarget p) (pteFrame p * 65536 + va % pageSize large))

/-- Bytes as a number, little-endian. -/
def bytesNat : List Byte → Nat
  | [] => 0
  | b :: bs => b.toNat + 256 * bytesNat bs

/-- Eight-byte words written in order on path S. -/
def State.landWords (s : State) (pid job : Nat) : List Nat → List Byte → State
  | k :: ks, bs => (s.writeBytes .s pid job k 8 (bytesNat (bs.take 8))).landWords pid job ks (bs.drop 8)
  | [], _ => s

/-- LANDING (R290): the landing writes of the next publication, all of them or none. -/
def execLanding (pkg : Nat) (s : State) : Answer :=
  let p := s.pkg pkg
  let n := s.appliedByAll pkg + 1
  .next (if !p.formed || n ≤ p.landed then s
    else match p.frame n with
      | none => s
      | some f =>
        match f.ops with
        | .pub c pn _ _ desc :: _ =>
          let job := p.sheafJob.toNat
          let die := s.dieWithJob pkg job
          let base := p.land.toNat + desc.toNat % 2 ^ 32
          let addrs := (List.range (f.bytes.length / 8)).map (fun i => base + 8 * i)
          let keys := addrs.map (s.landingKey pkg die job)
          let bad := (addrs.zip keys).findSome? (fun e => match e.2 with
            | .inr cause => some (e.1, cause)
            | .inl _ => none)
          let s := s.modPkg pkg (fun p => { p with landed := n })
          match bad with
          | some (va, cause) =>
            (s.modPkg pkg (fun p => { p with landFault := n :: p.landFault })).reportDie die
              { kind := 5, cause := cause.code, pid := BitVec.ofNat 31 (pidOf c pn), job := BitVec.ofNat 16 job,
                faddr := word va, extra := BitVec.ofNat 32 n }
          | none =>
            s.landWords (pidOf c pn) job (keys.filterMap (fun k => match k with
              | .inl x => some x
              | .inr _ => none)) f.bytes
        | _ => s)

/-! ### Leaving (R296, R297) -/

/-- Operations of a package in frames that its own replicas have not applied, with their frames. -/
def State.sheafOutstanding (s : State) (pkg : Nat) : List (SheafOp × Frame) :=
  let fs := (s.frames.filter (fun f => f.pkg == pkg && f.token.isNone
      && !(s.pkg pkg).got.any (fun g => g.ssn == f.ssn))) ++ (s.pkg pkg).got.filter (fun f => f.pkg == pkg)
  fs.flatMap (fun f => (f.ops.zipIdx.filter (fun e =>
    !f.ended.contains e.2 && (s.die (dieOf e.1.core)).applied < f.ssn)).map (fun e => (e.1, f)))

/-- Publications of a package in such frames whose processes have ended, with their jobs. -/
def State.orphanPubs (s : State) (pkg : Nat) : List (SheafOp × Nat) :=
  let fs := (s.frames.filter (fun f => f.pkg == pkg && f.token.isNone)) ++ (s.pkg pkg).got.filter (fun f => f.pkg == pkg)
  fs.flatMap (fun f => (f.ops.zipIdx.filter (fun e =>
    f.ended.contains e.2 && e.1.isPub && (s.die (dieOf e.1.core)).applied < f.ssn)).map (fun e => (e.1, f.job)))

/-- Marks every result still to come in frames as discarded. -/
def Frame.endAll (p : SheafOp → Frame → Bool) (f : Frame) : Frame :=
  { f with ended := f.ended ++ ((f.ops.zipIdx.filter (fun e => p e.1 f && !f.ended.contains e.2)).map (fun e => e.2)) }
def State.endInFrames (s : State) (pkg : Nat) (p : SheafOp → Frame → Bool) : State :=
  let s := { s with frames := s.frames.map (fun (f : Frame) => if f.pkg = pkg then f.endAll p else f) }
  s.modPkg pkg (fun k => { k with got := k.got.map (fun (f : Frame) => if f.pkg = pkg then f.endAll p else f) })

/-- The operation that a wait to enter a die's queue stands for. -/
def Wait.sheafOp (w : Wait) (core pn : Nat) : Option SheafOp :=
  match w with
  | .sheafRelease op d x y z entry _ =>
    Option.some (match op with
      | 0 => .pub core pn (entry - 1) x y
      | 1 => .st core pn d (x.toNat / 8) y
      | _ => .cas core pn d (x.toNat / 8) y z)
  | _ => Option.none

/-- Operations that wait to enter a queue of a die lose the sheaf, those of saved tenants too. -/
def State.waitersLost (s : State) (die : Nat) : State :=
  let t := (s.procsOf die).foldl (fun t e => match (t.proc e.1 e.2).wait.sheafOp e.1 e.2 with
    | some o => (t.sheafLost o 0).wake e.1 e.2
    | none => t) s
  (s.savedWaits die).foldl (fun t e => match e.2.2.2.sheafOp e.2.1 e.2.2.1 with
    | some o => t.onTenant e.2.1 e.1 (fun u => (u.sheafLost o 0).wake e.2.1 e.2.2.1)
    | none => t) t

/-- Operations queued at a die, and those a saved tenant has queued there, lose the sheaf. -/
def State.queueLost (s : State) (die : Nat) : State :=
  let d := s.die die
  let t := s.modDie die (fun e => { e with sheafQ := [], saved := e.saved.map (fun (x : Saved) => { x with sheafQ := [] }) })
  let t := d.sheafQ.foldl (fun t o => t.sheafLost o 0) t
  d.saved.foldl (fun t x => x.sheafQ.foldl (fun t o => t.onTenant o.core x.job (fun u => u.sheafLost o 0)) t) t

def dies4 (pkg : Nat) : List Nat := [4 * pkg, 4 * pkg + 1, 4 * pkg + 2, 4 * pkg + 3]

/-- Operations in frames of the package end lost; waiting SHACQs end with PROT (R297). -/
def State.framesLost (s : State) (pkg : Nat) : State :=
  let out := s.sheafOutstanding pkg
  let s := (s.orphanPubs pkg).foldl (fun t e => match e.1 with
    | .pub c pn entry _ _ => t.orphanPub e.2 c pn entry 2 0x47
    | _ => t) s
  let s := (out.foldl (fun t e => t.onTenant e.1.core e.2.job (fun u => u.sheafLost e.1 e.2.ssn)) s).endInFrames pkg
    (fun _ _ => true)
  (dies4 pkg).foldl (fun t d => t.acquireFails d) s

/-- The package leaves the sheaf. -/
def State.sheafLeave (s : State) (pkg : Nat) : State :=
  let p := s.pkg pkg
  if !p.formed then s
  else
    let s := s.setPkg pkg { p with formed := false, token := false, live := p.live &&& ~~~(1#32 <<< p.seat.toNat) }
    let s := s.framesLost pkg
    (dies4 pkg).foldl (fun t d => (t.waitersLost d).queueLost d) s

/-- SHEAF_LEAVE (R297): a gap that cannot be repaired, a failed link, or two frames under one SSN. -/
def execSheafLeave (pkg : Nat) (s : State) : Answer := .next (s.sheafLeave pkg)

/-- LIGHT_LOSS (R362). -/
def execLightLoss (pkg : Nat) (s : State) : Answer := .next (s.sheafLeave pkg)

/-- SHEAF_LEAVE_REQUEST (R363): LEAVE is written. -/
def execSheafLeaveRequest (pkg : Nat) (s : State) : Answer := .next (s.sheafLeave pkg)

/-- The end of a process reaches its sheaf operations: one not yet in a frame is removed and fails; one in a frame is applied
everywhere, its result is discarded and it is recorded COMPLETE under its SSN (R296, R382). The queue of the die is the
resident tenant's; a saved one's stands with its save. -/
def State.sheafEnds (s : State) (core pn : Nat) (reason : BitVec 8) : State :=
  let die := dieOf core
  let job := s.jobOf core
  let mine (o : SheafOp) : Bool := o.core == core && o.pn == pn && !(s.die die).isSaved job
  let inFrame (o : SheafOp) (f : Frame) : Bool := o.core == core && o.pn == pn && f.job == job
  let gone := (s.die die).sheafQ.filter mine
  let s := s.modDie die (fun d => { d with sheafQ := d.sheafQ.filter (fun o => !mine o) })
  let s := gone.foldl (fun t o => t.sheafFails o 0 reason) s
  let s := match (s.proc core pn).wait.sheafOp core pn with
    | some o => s.sheafFails o 0 reason
    | none => s
  let late := (s.sheafOutstanding (pkgOf core)).filter (fun e => inFrame e.1 e.2)
  (late.foldl (fun t e => t.itemEnds core 4 1 0 pn true (word e.2.ssn)) s).endInFrames (pkgOf core) inFrame

/-! ### Frames and the token (R285, R286, R364) -/

/-- The bytes of a publication, a multiple of 64 of them, 8 at a time on path S, as they stand when its frame is built
(R294), and the state after those reads (R274). -/
def State.pubBytes (s : State) (core pn off n : Nat) : State × List Byte :=
  let r := s.readRun core pn .s (poolKey core off) (n / 8)
  (r.1, bytesOfWords r.2)

/-- The next frame of a die's queue: up to 64 board operations, or one publication; a publication whose source is
poisoned fails and makes no frame. -/
def State.takeFrame (s : State) (pkg die : Nat) : State :=
  let q := (s.die die).sheafQ
  let p := s.pkg pkg
  match q with
  | [] => s
  | .pub c pn entry src desc :: rest =>
    let n := (desc.toNat / 2 ^ 32 + 1) * 64
    let s := s.modDie die (fun d => { d with sheafQ := rest })
    if (List.range n).any (fun i => s.mem.isPoisoned (poolKey c (src.toNat + i))) then
      s.sheafFails (.pub c pn entry src desc) 0 0x28
    else
      let (s, bytes) := s.pubBytes c pn src.toNat n
      let f : Frame := { ssn := p.nextSsn, pkg := pkg, pos := p.seat.toNat, job := s.jobOf c,
                         ops := [.pub c pn entry src desc], bytes := bytes }
      { s with frames := s.frames ++ [f] }.modPkg pkg (fun p => { p with nextSsn := p.nextSsn + 1 })
  | q =>
    let ops := (q.takeWhile (fun o => !o.isPub)).take 64
    let job := (ops.head?.map (fun o => s.jobOf o.core)).getD 0
    let f : Frame := { ssn := p.nextSsn, pkg := pkg, pos := p.seat.toNat, job := job, ops := ops }
    ({ s with frames := s.frames ++ [f] }.modDie die (fun d => { d with sheafQ := q.drop ops.length })).modPkg pkg
      (fun p => { p with nextSsn := p.nextSsn + 1 })

/-- Rounds of a turn: a frame from every die with queued operations, in the order given, up to 16 frames (R286). -/
def State.fillFrames (s : State) (pkg : Nat) : Nat → List Nat → State
  | _, [] => s
  | 0, _ => s
  | n + 1, i :: rest =>
    if (s.die (4 * pkg + i)).sheafQ.isEmpty || ssnLimit < (s.pkg pkg).nextSsn then s.fillFrames pkg (n + 1) rest
    else (s.takeFrame pkg (4 * pkg + i)).fillFrames pkg n rest

/-- The dies of one turn: 16 rounds over the four dies, each in the order the schedule names. -/
def turnOrder (order : List Nat) : List Nat :=
  let once := (order.map (· % 4)).foldl (fun l i => if l.contains i then l else l ++ [i]) []
  let all := once ++ (List.range 4).filter (fun i => !once.contains i)
  (List.replicate 16 all).flatten

/-- The live position after a position, wrapping. -/
def nextLive (live : BitVec 32) (pos : Nat) : Nat :=
  (((List.range 32).map (fun i => (pos + 1 + i) % 32)).find? (fun i => live.getLsbD i)).getD pos

/-- The holder sends its frames, then the token frame. -/
def State.transmit (s : State) (pkg : Nat) (order : List Nat) : State :=
  let s := s.fillFrames pkg 16 (turnOrder order)
  let p := s.pkg pkg
  let next := nextLive p.live p.seat.toNat
  let f : Frame := { ssn := p.nextSsn - 1, pkg := pkg, pos := p.seat.toNat, token := some { live := p.live, next := next } }
  { s with frames := s.frames ++ [f] }.modPkg pkg (fun p => { p with token := false, holder := next, silentSince := s.ticks })

/-- Whether a frame comes by the stars that two packages share: each sheaf has its own (R362). -/
def State.sameStars (s : State) (pkg other : Nat) : Bool := (s.pkg pkg).star == (s.pkg other).star

/-- Whether a frame may arrive at a package now: sent on its stars, not yet arrived, and nothing sent there after it has. -/
def State.canHear (s : State) (pkg idx : Nat) : Option Frame :=
  match s.frames[idx]? with
  | some f =>
    if s.sameStars pkg f.pkg && !f.heard.contains pkg && !(s.frames.drop (idx + 1)).any (fun g => g.heard.contains pkg) then
      some f
    else none
  | none => none

/-- A frame has arrived; frames that every member has passed leave the plane, but for first tokens. -/
def State.hear (s : State) (pkg idx : Nat) : State :=
  let fs := s.frames.mapIdx (fun i f => if i = idx then { f with heard := pkg :: f.heard } else f)
  let members := (s.pkgs.filter (fun e => e.2.formed)).map (fun e => e.1)
  let passed (i m : Nat) : Bool := (fs.drop i).any (fun f => f.heard.contains m)
  let keep := fs.zipIdx.filter (fun e =>
    (match e.1.token with | some t => t.first | none => false)
      || !(members.filter (s.sameStars e.1.pkg)).all (passed e.2))
  { s with frames := keep.map (fun e => e.1) }

/-- The token frame that names a package and may arrive at it now. -/
def State.tokenFor (s : State) (pkg : Nat) : Option (Nat × Frame × Token) :=
  (List.range s.frames.length).findSome? (fun i => match s.canHear pkg i with
    | some f =>
      match f.token with
      | some t => if !t.first && t.next == (s.pkg pkg).seat.toNat then some (i, f, t) else none
      | none => none
    | none => none)

/-- TOKEN_ARRIVAL (R286, R364): the token frame that names a package, or a token it already holds, lets it transmit. -/
def execTokenArrival (pkg : Nat) (order : List Nat) (s : State) : Answer :=
  let p := s.pkg pkg
  .next (if !p.formed then s
    else if p.token then s.transmit pkg order
    else match s.tokenFor pkg with
      | none => s
      | some (idx, f, t) =>
        if !t.live.getLsbD p.seat.toNat then (s.hear pkg idx).sheafLeave pkg
        else ((s.hear pkg idx).setPkg pkg { p with
          live := t.live, holder := t.next, nextSsn := max p.nextSsn (f.ssn + 1), token := true,
          silentSince := s.ticks }).transmit pkg order)

/-- A frame enters those a package holds; a different one under its SSN makes the package leave (R366). -/
def State.keepFrame (s : State) (pkg : Nat) (f : Frame) : State :=
  match (s.pkg pkg).frame f.ssn with
  | some g =>
    if g.pkg == f.pkg && g.ops == f.ops && g.bytes == f.bytes then s else s.sheafLeave pkg
  | none =>
    if f.ssn ≤ s.appliedByAll pkg then s
    else s.modPkg pkg (fun p => { p with got := p.got ++ [{ f with heard := [] }] })

/-- FRAME_RECEIPT (R287, R364 to R366): a frame arrives. A damaged one is held for repair, a sender's own is taken from
its copy; a token frame for another member carries the live mask and the last SSN. -/
def execFrameReceipt (pkg idx : Nat) (intact : Bool) (s : State) : Answer :=
  let p := s.pkg pkg
  .next (if !p.formed then s
    else match s.canHear pkg idx with
      | none => s
      | some f =>
        let s := (s.hear pkg idx).modPkg pkg (fun p => { p with
          nextSsn := max p.nextSsn (f.ssn + 1), silentSince := s.ticks })
        match f.token with
        | none => if intact || f.pkg = pkg then s.keepFrame pkg f else s
        | some t =>
          if t.first || !intact || t.next == p.seat.toNat then s
          else if !t.live.getLsbD p.seat.toNat then s.sheafLeave pkg
          else s.modPkg pkg (fun p => { p with live := t.live, holder := t.next }))

/-- FRAME_REPAIR (R287): a missing frame comes from a member that holds it, or from its sender. -/
def execFrameRepair (pkg source ssn : Nat) (s : State) : Answer :=
  let p := s.pkg pkg
  .next (if !p.formed || !(s.pkg source).formed || !s.sameStars pkg source || pkg = source || p.nextSsn ≤ ssn || (p.frame ssn).isSome then s
    else
      match (s.pkg source).frame ssn with
      | some f => s.keepFrame pkg f
      | none =>
        match s.frames.find? (fun f => f.pkg == source && f.ssn == ssn && f.token.isNone) with
        | some f => s.keepFrame pkg f
        | none => s)

/-- SILENCE_TIMEOUT (R365): after its ranked silence a member takes the token from the position last named. -/
def State.silenceDue (s : State) (pkg : Nat) : Option Nat :=
  let p := s.pkg pkg
  let pos := p.seat.toNat
  if p.formed && p.holder != pos && p.live.getLsbD pos then
    some (p.silentSince + 67200 * (1 + ((List.range pos).filter (fun i => i != p.holder && p.live.getLsbD i)).length))
  else none
def execSilenceTimeout (pkg : Nat) (s : State) : Answer :=
  .next (match s.silenceDue pkg with
    | some t =>
      if t ≤ s.ticks then
        s.modPkg pkg (fun p => { p with
          live := p.live &&& ~~~(1#32 <<< p.holder), token := true, holder := p.seat.toNat, silentSince := s.ticks })
      else s
    | none => s)

/-! ### Formation (R363, R367) -/

/-- A join frame is known, by its package and position. -/
def Pkg.joined (p : Pkg) (source pos : Nat) : Pkg :=
  { p with joins := p.joins.filter (fun e => e.1 != source) ++ [(source, pos)] }

/-- SHEAF_FORM (R363): FORM is written; the package sends its first join frame. -/
def execSheafForm (pkg : Nat) (s : State) : Answer :=
  .next (s.modPkg pkg (fun p => { p.joined pkg p.pos.toNat with
    formAt := some s.ticks, joinAt := s.ticks + 65536, starter := none }))

/-- JOIN_FRAME_SEND (R363). -/
def execJoinFrameSend (pkg : Nat) (s : State) : Answer :=
  .next (
    let p := s.pkg pkg
    if p.formAt.isSome && p.joinAt ≤ s.ticks then
      s.setPkg pkg { p.joined pkg p.pos.toNat with joinAt := s.ticks + 65536 }
    else s)

/-- JOIN_FRAME_RECEIPT (R363): ignored after the first token. -/
def execJoinFrameReceipt (pkg source : Nat) (s : State) : Answer :=
  .next (
    let q := s.pkg source
    if pkg != source && s.sameStars pkg source && q.formAt.isSome && (s.pkg pkg).starter.isNone then
      s.modPkg pkg (fun p => p.joined source q.pos.toNat)
    else s)

/-- The eligible positions: those that exactly one package has named. -/
def Pkg.eligible (p : Pkg) : BitVec 32 :=
  BitVec.ofNat 32 (((List.range 32).filter (fun i => (p.joins.filter (fun e => e.2 == i)).length == 1)).foldl
    (fun m i => m + 2 ^ i) 0)

/-- A package follows a first token: replicas zeroed, APPLIED 0, next SSN 1, FORMED (R363 step 5). -/
def State.formed (s : State) (pkg starter : Nat) (t : Token) : State :=
  let s := s.framesLost pkg
  let s := s.modPkg pkg (fun p => { p with
    formed := true, seat := p.pos, seats := p.nm1, live := t.live, formAt := none, starter := some starter, joins := [], token := t.next == p.pos.toNat,
    nextSsn := 1, holder := t.next, silentSince := s.ticks, got := [], landed := 0, landFault := [] })
  (dies4 pkg).foldl (fun t d => t.modDie d (fun e => { e with board := [], applied := 0 })) s

/-- Whether a package is due to send the first token. -/
def State.startsSheaf (s : State) (pkg : Nat) : Bool :=
  let p := s.pkg pkg
  match p.formAt with
  | some t => t + 1050000 ≤ s.ticks && p.eligible.getLsbD p.pos.toNat && p.eligible.toNat % 2 ^ p.pos.toNat == 0
  | none => false

/-- FIRST_TOKEN_SEND (R363 step 3): the starter's first token names the next position (R364). -/
def execFirstTokenSend (pkg : Nat) (s : State) : Answer :=
  .next (if s.startsSheaf pkg then
    let p := s.pkg pkg
    let pos := p.pos.toNat
    let t : Token := { live := p.eligible, next := nextLive p.eligible pos, first := true }
    let f : Frame := { ssn := 0, pkg := pkg, pos := pos, token := some t, heard := [pkg] }
    { s with frames := s.frames ++ [f] }.formed pkg pos t
  else s)

/-- FIRST_TOKEN_RECEIPT (R363 steps 4 and 5): a package that is forming, or that follows a higher position's token,
follows this one; one left out of the mask does not become a member. -/
def execFirstTokenReceipt (pkg source : Nat) (s : State) : Answer :=
  .next (
    let p := s.pkg pkg
    let first (f : Frame) : Bool := f.pkg == source && s.sameStars pkg source && !f.heard.contains pkg && (match f.token with
      | some t => t.first
      | none => false)
    match s.frames.findIdx? first with
    | none => s
    | some idx =>
      match s.frames[idx]? with
      | some f =>
        match f.token with
        | some t =>
          let lower := match p.starter with
            | some q => decide (f.pos < q)
            | none => p.formAt.isSome
          let s := s.hear pkg idx
          if !lower then s
          else if t.live.getLsbD p.pos.toNat then s.formed pkg f.pos t
          else (s.sheafLeave pkg).modPkg pkg (fun p => { p with formAt := none, starter := some f.pos, joins := [] })
        | none => s
      | none => s)

/-- FORMATION_TIMEOUT (R363 step 6). -/
def execFormationTimeout (pkg : Nat) (s : State) : Answer :=
  .next (match (s.pkg pkg).formAt with
    | some t => if t + 4200000 ≤ s.ticks then s.modPkg pkg (fun p => { p with formAt := none, joins := [] }) else s
    | none => s)

end Sys2Proof.Machine
end

