-- ==== Sys2Proof/Machine/Ending.lean ====
section
/-! DEFINITION. The end of a process (R149): by STOP (R156), and by GKILL or a teardown with all that it leaves at other
places (R126, R133, R181, R207, R232, R239, R254, R296, R338). -/

namespace Sys2Proof.Machine

/-- The husk of a process that has ended, its window kept until its results have arrived. -/
def Proc.endedHusk (p : Proc) : Proc :=
  { p with
    state := .ended, wait := .none, inRep := false, moving := false, held := false, tagSince := none, altSet := {},
    iter := { gen := p.iter.gen + 1 }, pastNests := p.iter :: p.pastNests, asyncTrap := none, lateTrap := none }

/-- Futures of a process that has ended: their status will be discarded, and their targets are no longer pending (R239). -/
def Core.orphan (c : Core) (pn : Nat) : Core :=
  let mine := c.futures.filter (fun e => e.2.used && e.2.ownerLive && e.2.owner == pn)
  { c.setProc pn ((c.proc pn).pendAll (mine.map (fun e => e.2.target)) false) with
    futures := c.futures.map (fun (e : Nat × Future) =>
      if e.2.used && e.2.owner == pn then (e.1, { e.2 with ownerLive := false }) else e) }

/-- STOP (R156): the slot is freed at once, the fetcher entry and an open region are gone, slots are released; results
still outstanding arrive. -/
def State.stopProc (s : State) (core pn : Nat) : State :=
  let s := if (s.core core).regionOf pn then s.abortRegion core pn else s
  let s := s.modCore core (fun c =>
    let c := ((c.freeSlotOf pn).unlist pn).orphan pn
    { (c.setProc pn (c.proc pn).endedHusk).releaseSlots pn (2 ^ 32 - 1) with
      reqs := c.reqs.map (fun (r : Req) => if r.pn = pn && !r.delivers then { r with ended := true } else r) })
  s.reap core pn

/-- An inventory record of a rendezvous or a message that an end finds (R382). -/
def State.itemOf (s : State) (core pn item state : Nat) (reason : BitVec 8) (handle : Nat) : State :=
  s.itemEnds core item state reason pn false (word handle)

/-- The bytes of a started tile transfer, read while the process that sent them still stands (R182, R300). -/
def State.tileRead (s : State) (core handle : Nat) (e : Endpoint) : State :=
  let x := s.ep e.peerCore e.phandle.toNat
  if x.state == 5 && x.isTile && x.bytes.isNone && x.xferSrc == core && x.xferBack == handle && !e.engine then
    s.modEp e.peerCore e.phandle.toNat (fun y => { y with bytes := some (s.sentTile core e x.srcData x.len) })
  else s

/-- The source bytes of a tile whose offer is under way, read while the process that made it still stands (R300). -/
def State.tileKept (s : State) (core handle : Nat) (e : Endpoint) : State :=
  if e.isTile && !e.engine then
    s.modEp core handle (fun y => { y with bytes := some (s.tileBytes core e.owner.toNat e.xferData e.len) })
  else s

/-- What the end of a waiting process does to its channel operation (R181). -/
def State.endChannel (s : State) (core pn : Nat) (reason : BitVec 8) : State :=
  match (s.proc core pn).wait with
  | .sending handle =>
    let e := s.ep core handle
    let s := s.modEp core handle (fun e => { e with killed := some reason })
    if e.isHost then s
    else ((s.tileRead core handle e).tileKept core handle e).sendPacket core e.peerCore none
      (.offerWithdrawal e.phandle.toNat handle (.kill reason))
  | .offering handle _ _ => (s.modEp core handle Endpoint.rest).itemOf core pn 5 2 reason handle
  | .recording handle _ _ _ => s.itemOf core pn 5 2 reason handle
  | .receiving handle _ =>
    if s.recvStands core handle then (s.modEp core handle Endpoint.rest).itemOf core pn 5 2 reason handle
    else s.itemOf core pn 5 1 0 handle
  | .receivingB handle _ _ => s.modEp core handle Endpoint.rest
  | .credit handle _ => (s.modEp core handle Endpoint.rest).itemOf core pn 6 2 reason handle
  | .departing handle _ _ => (s.creditAt core handle).itemOf core pn 6 2 reason handle
  | .alt _ => s.altRegister core pn false
  | _ => s

/-- Operations of a process still queued at an engine end FAILED (R232, R267). -/
def State.endEngines (s : State) (core pn : Nat) (reason : BitVec 8) : State :=
  let c := s.core core
  let vs := c.vecQ.filter (fun v => v.pn == pn && !v.started)
  let ys := c.copyQ.filter (fun v => v.pn == pn && !v.started)
  let ts := c.tasks.filter (fun t => t.pn == pn && !t.started)
  let s := (s.modCore core (fun c => { c with
    vecQ := c.vecQ.filter (fun v => !(v.pn == pn && !v.started))
    copyQ := c.copyQ.filter (fun v => !(v.pn == pn && !v.started)) })).sweepCrossings core
  let s := vs.foldl (fun t v => t.failFuture core v.entry 1 reason v.flags 0 false) s
  let s := ys.foldl (fun t v => t.failFuture core v.entry 2 reason 0 0 false) s
  ts.foldl (fun t v => t.taskFails core v reason) s

/-- The registration of a process at a future table is taken back. -/
def State.endFutureWait (s : State) (core pn : Nat) : State :=
  let pid := pidOf core pn
  match (s.proc core pn).wait with
  | .future h _ _ =>
    let asks := s.net.filter (fun p => match p.body with
      | .futureWait _ q => q == pid
      | _ => false)
    (asks.foldl (fun t p => match t.findPacket p.body with
      | some i => t.recall i
      | none => t) s).onTenant (handleCore h) (s.jobOf core) (fun t => t.modCore (handleCore h) (fun c => { c with
          waiters := c.waiters.filter (fun w => w.2.2 != pid) }))
  | _ => s

/-- Waits at the die: its walker, its launch unit, an alignment entry, an IFSYNC. -/
def State.endDieWaits (s : State) (core pn : Nat) : State :=
  let die := dieOf core
  let s := s.modDie die (fun d => { d with
    walks := d.walks.filter (fun w => !(w.asker == .access core pn))
    launchReqs := d.launchReqs.filter (fun r => match r with | .patch c p _ _ => !(c == core && p == pn)) })
  (s.modCluster die (clusterOf core) (fun k => { k with
    invalidating := k.invalidating.filter (· != (core, pn)) })).leaveAlign core pn

/-- Whether the request of a process is one that R133 withdraws. -/
def Req.withdrawable (r : Req) : Bool :=
  match r.kind with
  | .readf | .take | .put | .fill => true
  | _ => r.fe && r.kind.isLoad

/-- GKILL or teardown ends a process (R338): everything R149 names. -/
def State.killProc (s : State) (core pn : Nat) (reason : BitVec 8) : State :=
  let p := s.proc core pn
  if p.state == .free || p.state == .ended then s
  else
    let s := ((((s.endChannel core pn reason).sheafEnds core pn reason).endEngines core pn reason).endFutureWait core
      pn).endDieWaits core pn
    let s := s.abortRegion core pn
    let s := s.modCore core (fun c =>
      let c := (((c.freeSlotOf pn).unlist pn).orphan pn).detach pn
      { c.setProc pn { (c.proc pn).endedHusk with pend := List.replicate (c.proc pn).wsz false } with
        reqs := c.reqs.map (fun (r : Req) =>
          if r.pn = pn && r.withdrawable then { r with withdrawn := true, why := reason } else r) })
    let s := match (s.core core).launch with
      | some l => s.modDie l.die (fun d => { d with running := d.running.map (fun (r : Running) =>
          if r.id = l.id && pn < 255 then { r with killed := true } else r) })
      | none => s
    s.reap core pn

/-- STOP (R154, R156, R194): it ends the process, or the handler. -/
def execStop (w : BitVec 2) (s : State) : Answer :=
  s.issue w {} (fun t => if t.inHandler then t.endHandler s.ctx.core else t.stopProc s.ctx.core s.ctx.pn)

end Sys2Proof.Machine
end

