-- ==== Sys2Proof/Machine/Process.lean ====
section
/-! DEFINITION. Process instructions (R154 to R160), the barrier unit (R161 to R163), the iteration fetcher (R164 to R166)
and deadlock probes (R167 to R170). -/

namespace Sys2Proof.Machine

/-! ### START (R155) -/

/-- START (R155): the tiller's numbers are found and g[D] is written by START_COMPLETION. -/
def execStart (w : BitVec 2) (d a b : BitVec 5) (s : State) : Answer :=
  let x := s.g (s.ra a)
  s.issue w { reads := [s.ra a, s.rb b], writes := [s.rd d], var := true } (fun t => t.noHandler x (fun t =>
    if x.toNat % 4 != 0 then t.trap .align x
    else
      let p := s.me
      ((t.pendDest (s.rd d)).modCore s.ctx.core (fun c => { c with
        starts := c.starts ++ [{ pn := s.ctx.pn, dest := s.rd d, entry := x, arg := s.g (s.rb b), gp := p.reg 3,
                                 prio := p.prio, wsz := p.wsz, depmax := p.depmax, last := s.ticks + 8 }] })).advance))

/-- The lowest free process number from 0 to 254 (R145). -/
def Core.freeNumber (c : Core) : Option Nat := (List.range 255).find? (fun n => (c.proc n).state == .free)

/-- Whether a range of the register region, in units of 128 bytes, meets the window of no process. -/
def Core.windowFree (c : Core) (base units : Nat) : Bool :=
  c.procs.all (fun e => e.2.state == .free || 256 ≤ e.1
    || e.2.wbase.toNat + e.2.wsz / 16 ≤ base || base + units ≤ e.2.wbase.toNat)

/-- The lowest free window of W registers, aligned to its size, above the husk array (R147; log 16). -/
def Core.allocWindow (c : Core) (wsz : Nat) : Option Nat :=
  let units := wsz / 16
  let top := partReg c.part * 128
  ((List.range ((top - 128) / units)).map (fun i => 128 + i * units)).find? (fun b => c.windowFree b units)

/-- Arguments of a new window: a0 is register 5, a1 register 6, gp register 3, sp register 2 (R35). -/
def windowWith (wsz : Nat) (vals : List (Nat × Word)) : List Word :=
  vals.foldl (fun l e => l.set e.1 e.2) (List.replicate wsz 0)

/-- The result of a START reaches its register, unless its process has been killed; the tiller comes to be in either case
(R155; log 24). -/
def State.startResult (s : State) (core : Nat) (x : Start) (v : Word) : State :=
  if x.ended then s else s.arriveReg core x.pn x.dest v

/-- The creation of a tiller. -/
def State.completeStart (s : State) (core : Nat) (x : Start) : State :=
  let c := s.core core
  match c.freeNumber with
  | none => s.startResult core x (~~~0)
  | some n =>
    match c.allocWindow x.wsz with
    | none => s.startResult core x (~~~1)
    | some b =>
      let p : Proc := {
        state := .ready, pc := pc56 x.entry, prio := x.prio, wsz := x.wsz, wbase := BitVec.ofNat 12 b, depmax := x.depmax
        regs := windowWith x.wsz [(5, x.arg), (6, word x.pn), (3, x.gp)], pend := List.replicate x.wsz false }
      (s.modCore core (fun c => (c.setProc n p).pushTail n)).startResult core x (word n)

/-- START_COMPLETION (R155). -/
def execStartCompletion (core pn : Nat) (s : State) : Answer :=
  .next (match takeFirst (fun x => x.pn == pn) (s.core core).starts with
    | some (x, rest) => (s.modCore core (fun c => { c with starts := rest })).completeStart core x
    | none => s)

/-! ### PRI, SLEEPC, WHO (R157, R158, R160) -/

/-- PRI (R157). -/
def execPri (w : BitVec 2) (a : BitVec 5) (s : State) : Answer :=
  s.issue w { reads := [s.ra a] } (fun t => (t.modMe (fun p =>
    { p with prio := (s.g (s.ra a)).setWidth 7 }.prioFrom p.prio s.ticks)).advance)

/-- SLEEPC (R158). -/
def execSleepc (w : BitVec 2) (a : BitVec 5) (s : State) : Answer :=
  let x := s.g (s.ra a)
  s.issue w { reads := [s.ra a] } (fun t => t.noHandler x (fun t =>
    if x.toNat ≤ (s.cyc (dieOf s.ctx.core)).toNat then t.advance else t.block .sleeping (.sleep x)))

/-- The value of WHO (R160). -/
def State.whoValue (s : State) (core pn : Nat) : Word :=
  let k := isKernel core
  let l := (s.core core).launch.getD {}
  word (pn + coordX core * 2 ^ 16 + coordY core * 2 ^ 24 + dieOf core % 4 * 2 ^ 32
    + (if k then (idxOf core - 256) * 2 ^ 34 else 0) + pkgOf core * 2 ^ 36
    + (if k then 0 else l.rx % 32 * 2 ^ 48 + l.ry % 32 * 2 ^ 56) + (if k then 2 ^ 63 else 0))

/-- WHO (R160); a handler has no process number, and what PN reads there is free (log 7). -/
def execWho (w : BitVec 2) (d : BitVec 5) (s : State) : Answer :=
  s.issue w { writes := [s.rd d], var := true } (fun t =>
    if s.inHandler then
      ((t.varResult 2 [(s.rd d, t.whoValue s.ctx.core (Config.unstated s.free % 256))]).drawn).advance
    else (t.varResult 2 [(s.rd d, t.whoValue s.ctx.core s.ctx.pn)]).advance)

/-! ### The barrier unit (R161 to R163) -/

/-- The launch a core belongs to, with its barrier unit. -/
def State.launchOf (s : State) (core : Nat) : Option (LaunchRef × Running) :=
  match (s.core core).launch with
  | some l => ((s.die l.die).running.find? (fun r => r.id == l.id)).map (fun r => (l, r))
  | none => none

/-- DONE (R162). -/
def execDone (w : BitVec 2) (s : State) : Answer :=
  s.issue w {} (fun t => t.noHandler 0 (fun t =>
    if (t.launchOf s.ctx.core).isNone then t.trap .prot 0
    else t.block .blockedSync (.doneBarrier (t.core s.ctx.core).nextTag false)))

/-- A sub-rectangle's origin and size, relative to the launch; none where the descriptor is not legal (R161). -/
def subRect (l : LaunchRef) (d : Word) : Option (Nat × Nat × Nat × Nat) :=
  let n := d.toNat
  let x0 := n % 32
  let y0 := n / 2 ^ 8 % 32
  let lw := n / 2 ^ 16 % 8
  let lh := n / 2 ^ 20 % 8
  if d &&& ~~~(if d.getLsbD 31 then 0x807FFFFF else 0x771F1F : Word) != 0 then none
  else if d.getLsbD 31 then some (0, 0, l.wm1 + 1, l.hm1 + 1)
  else if lw ≤ 5 && lh ≤ 5 && x0 % 2 ^ lw == 0 && y0 % 2 ^ lh == 0 && x0 + 2 ^ lw ≤ l.wm1 + 1
      && y0 + 2 ^ lh ≤ l.hm1 + 1 then some (x0, y0, 2 ^ lw, 2 ^ lh)
  else none

/-- The counter of a sub-rectangle: its cores that are not done. -/
def barrierCount (l : LaunchRef) (r : Running) (x0 y0 w h : Nat) : Nat :=
  (r.undone.filter (fun c =>
    l.x0 + x0 ≤ coordX c && coordX c < l.x0 + x0 + w && l.y0 + y0 ≤ coordY c && coordY c < l.y0 + y0 + h)).length

/-- BWAIT (R163). -/
def execBwait (w : BitVec 2) (a : BitVec 5) (s : State) : Answer :=
  let x := s.g (s.ra a)
  s.issue w { reads := [s.ra a] } (fun t => t.noHandler x (fun t =>
    match t.launchOf s.ctx.core with
    | none => t.trap .prot 0
    | some (l, r) =>
      match subRect l x with
      | none => t.trap .prot x
      | some (x0, y0, m, n) =>
        if barrierCount l r x0 y0 m n = 0 then (t.acquireAll s.ctx.core s.ctx.pn).advance
        else t.block .blockedSync (.barrier (x.setWidth 32))))

/-- BARRIER_ACK (R162): once the earlier accesses of a DONE are performed its core is marked done, and the barrier unit
acknowledges. -/
def execBarrierAck (core pn : Nat) (s : State) : Answer :=
  .next (match (s.proc core pn).wait with
    | .doneBarrier upto _ =>
      if !(s.core core).accessesDone pn upto then s
      else match s.launchOf core with
        | some (l, _) =>
          (s.modDie l.die (fun d => { d with running := d.running.map (fun (r : Running) =>
            if r.id = l.id then { r with undone := r.undone.filter (· != core) } else r) })).wake core pn
        | none => s.wake core pn
    | _ => s)

/-- BWAIT_RELEASE (R163): the counter has reached zero; the completion is an acquire. -/
def execBwaitRelease (core pn : Nat) (s : State) : Answer :=
  .next (match (s.proc core pn).wait with
    | .barrier d =>
      match s.launchOf core with
      | some (l, r) =>
        match subRect l (d.setWidth 64) with
        | some (x0, y0, m, n) =>
          if barrierCount l r x0 y0 m n = 0 then (s.acquireAll core pn).wake core pn else s
        | none => s
      | none => s
    | _ => s)

/-! ### The iteration fetcher (R164 to R166) -/

/-- The entry a nest record gives; extents at or beyond RANK are 1. -/
def nestEntry (r : BitVec 512) : IterEntry :=
  let rank := (r.extractLsb' 192 3).toNat
  let e (i : Nat) : Nat := if i < rank then (r.extractLsb' (64 + 32 * i) 32).toNat else 1
  { caddr := r.extractLsb' 0 64, e0 := e 0, e1 := e 1, e2 := e 2, e3 := e 3, rank := rank,
    part := (r.extractLsb' 208 16).toNat, minch := (r.extractLsb' 224 32).toNat, exhausted := false }

/-- N, the product of the extents. -/
def IterEntry.count (e : IterEntry) : Nat := e.e0 * e.e1 * e.e2 * e.e3

/-- Check 3 of R165. -/
def IterEntry.ok (e : IterEntry) : Bool :=
  1 ≤ e.rank && e.rank ≤ 4 && e.e0 != 0 && e.e1 != 0 && e.e2 != 0 && e.e3 != 0 && e.part != 0 && e.minch != 0
    && e.count ≤ 2 ^ 62

/-- The claim of an entry as an access. -/
def IterEntry.claim (e : IterEntry) (dest : Nat) : Req :=
  { kind := .iterClaim, ea := e.caddr, size := 8, data := word e.count, cmp := word (2 * e.part * 2 ^ 32 + e.minch),
    dest := dest }

/-- The ITERs of a process that wait for a claim, in issue order. -/
def Core.claims (c : Core) (pn : Nat) : List Req :=
  c.reqs.filter (fun r => r.pn == pn && r.kind == .iterClaim && !r.ended)

/-- A new nest; the one before is kept while ITERs issued under it still wait (R165, R166). -/
def Proc.newNest (p : Proc) (c : Core) (pn : Nat) (e : IterEntry) : Proc :=
  { p with
    iter := { e with gen := p.iter.gen + 1 }
    pastNests := (p.iter :: p.pastNests).filter (fun o => (c.claims pn).any (fun r => r.nest == o.gen)) }

/-- The nest that a request counts in, and the change of it. -/
def Proc.nestOf (p : Proc) (n : Nat) : IterEntry :=
  if p.iter.gen = n then p.iter else (p.pastNests.find? (fun e => e.gen == n)).getD {}
def Proc.setNest (p : Proc) (e : IterEntry) : Proc :=
  if p.iter.gen = e.gen then { p with iter := e }
  else { p with pastNests := p.pastNests.map (fun o => if o.gen = e.gen then e else o) }

/-- NESTSET (R165): the record is read as one access, every earlier store of the process in it; in a poisoned line its
process takes POISON (R378), the entry unchanged. A handler's fetcher entry is its own, since it has no process number
(log 24). -/
def execNestset (w : BitVec 2) (a : BitVec 5) (s : State) : Answer :=
  let x := s.g (s.ra a)
  let core := s.ctx.core
  s.issue w { reads := [s.ra a] } (fun t =>
    if !(t.core core).inScratchpad x 64 then t.trap .localbound x
    else if x.toNat % 64 != 0 then t.trap .align x
    else t.afterOwnWrites (fun t =>
      if (t.mem.poisonIn (poolKey core x.toNat) 64).isSome then (t.recordRead core s.ctx.pn x 8).advance
      else
      let e := nestEntry (BitVec.ofNat 512 (packWords (t.recordWords core s.ctx.pn x 8)))
      let t := t.recordRead core s.ctx.pn x 8
      if !e.ok then t.trap .prot x
      else if e.caddr.toNat % 8 != 0 then t.trap .align e.caddr
      else if spaceOf (isKernel core) e.caddr != .global then t.trap .prot e.caddr
      else match t.locate core { e.claim 0 with job := t.jobOf core } with
        | .trap c => t.trap c e.caddr
        | .miss => (t.askWalk core s.ctx.pn e.caddr.toNat (t.jobOf core)).block .blockedSync (.retryWalk e.caddr)
        | .away r =>
          if 2 ≤ r.target then t.trap .prot e.caddr
          else (t.modMe (fun p => p.newNest (t.core core) s.ctx.pn e)).advance
        | .own _ | .tensor _ _ => t.trap .prot e.caddr))

/-- What an ITER writes for index l (R166). -/
def IterEntry.index (e : IterEntry) (d l : Nat) : List (Nat × Word) :=
  [(d, word l), (d + 1, word (l % e.e0)), (d + 2, word (l / e.e0 % e.e1)),
   (d + 3, word (l / (e.e0 * e.e1) % e.e2 + (if e.rank = 4 then l / (e.e0 * e.e1 * e.e2) * 2 ^ 32 else 0)))]

/-- What an entry answers now: −1 when it is exhausted, the next index of its chunk, or none when it has to claim. -/
def IterEntry.answer (e : IterEntry) (d : Nat) : Option (IterEntry × List (Nat × Word)) :=
  if e.exhausted && e.next = e.stop then some (e, [(d, ~~~0), (d + 1, 0), (d + 2, 0), (d + 3, 0)])
  else if e.next < e.stop then some ({ e with next := e.next + 1 }, e.index d e.next)
  else none

/-- ITER (R166): answered from the local chunk, or by a claim. Behind an earlier ITER that still waits, it waits for the
chunk that one gets, and claims when that is used up (log 24). -/
def execIter (w : BitVec 2) (d : BitVec 5) (s : State) : Answer :=
  let n := s.rd d
  s.issue w { writes := [n, n + 1, n + 2, n + 3], var := true } (fun t =>
    match (if ((s.core s.ctx.core).claims s.ctx.pn).isEmpty then s.me.iter.answer n else none) with
    | some (e, vs) => ((t.modMe (fun p => { p with iter := e })).varResult 2 vs).advance
    | none => t.access { s.me.iter.claim n with nest := s.me.iter.gen })

/-- An ITER's indexes reach its registers. -/
def State.iterDone (s : State) (core pn : Nat) (e : IterEntry) (vs : List (Nat × Word)) : State :=
  vs.foldl (fun t v => t.arriveReg core pn v.1 v.2) (s.modProc core pn (fun p => p.setNest e))

/-- The ITERs that waited behind a claim are answered from its chunk, in issue order, as far as it goes. -/
def State.serveIters (s : State) (core pn : Nat) : List Req → State
  | [] => s
  | r :: rs =>
    match ((s.proc core pn).nestOf r.nest).answer r.dest with
    | none => s
    | some (e, vs) =>
      let s := ((s.recallReq core r).modCore core (fun c => c.dropReq r.tag)).iterDone core pn e vs
      (if (s.proc core pn).wait == .bufferFull r.tag then s.wake core pn else s).serveIters core pn rs

/-- ITER_CLAIM_RESPONSE (R166): the claim's old counter reaches the fetcher. -/
def execIterClaimResponse (core pn : Nat) (s : State) : Answer :=
  .next (match (s.core core).reqs.find? (fun r => r.pn == pn && r.kind == .iterClaim && r.phase == .performed) with
    | none => s
    | some r =>
      if r.fault.isSome || !s.answerHere core r.tag then s
      else
        let s := s.takeAnswer core r.tag
        if r.poisoned then (s.deliverPoison core r).reap core pn
        else
          let s := s.modCore core (fun c => c.dropReq r.tag)
          if r.ended then s.reap core pn
          else
            let e := (s.proc core pn).nestOf r.nest
            let c := r.result.toNat
            let k := claimChunk e.count (2 * e.part) e.minch c
            let e := if k = 0 then { e with exhausted := true } else { e with next := c, stop := c + k }
            match e.answer r.dest with
            | some (e, vs) =>
              let s := s.iterDone core pn e vs
              s.serveIters core pn ((s.core core).claims pn)
            | none => s)

/-! ### Deadlock probes (R167 to R170) -/

/-- Whether a time-out guard of a set is armed (R190). -/
def AltSet.armed (a : AltSet) : Bool := match a.timeout with | some (_, _, on) => on | none => false

/-- The wait edges of a process: handles of the endpoints at which it is recorded as the waiting side, in a rendezvous or
as an enabled guard; none while a time-out guard is armed (R167). -/
def State.waitEdges (s : State) (core pn : Nat) : List Nat :=
  let p := s.proc core pn
  if 255 ≤ pn || p.altSet.armed then []
  else
    let at_ (h : Nat) (st : BitVec 3) : Bool := match (s.core core).epFind h with
      | some e => e.pkind == 0 && e.state == st
      | none => false
    let rendezvous (h : Nat) (st : BitVec 3) : List Nat := if at_ h st && !(s.ep core h).buffered then [h] else []
    match p.wait with
    | .offering h _ _ | .sending h => rendezvous h 1
    | .receiving h _ => rendezvous h 2
    | .alt _ => (p.altSet.guards.filter (fun g => g.enabled && at_ g.handle 3)).map (fun g => g.handle)
    | _ => []

/-- A probe leaves along a wait edge, to the core of the peer. -/
def State.sendProbe (s : State) (core pn h origin seq hops : Nat) (record : List (Nat × Nat)) (trunc : Bool) : State :=
  let e := s.ep core h
  s.sendPacket core e.peerCore none (.probe origin seq h e.wseq.toNat (pidOf core pn) hops record trunc)

/-- PROBE_SEND (R168): a wait has lasted another 4,096 die cycles. -/
def execProbeSend (core pn : Nat) (s : State) : Answer :=
  let p := s.proc core pn
  .next (if p.wait == .none || s.ticks < p.probeAt then s
    else (s.waitEdges core pn).foldl (fun t h => t.sendProbe core pn h (pidOf core pn) p.waitSince 0 [] false)
      (s.modProc core pn (fun p => { p with probeAt := p.probeAt + 4096 })))

/-- The handle on which the origin of a returned probe is blocked: of an ALT's, the one whose edge leads to the process that
the probe passed first (R112, R170; log 30). -/
def State.deadlockEdge (s : State) (core pn h : Nat) (record : List (Nat × Nat)) : Nat :=
  match (s.proc core pn).wait with
  | .offering k _ _ | .sending k | .receiving k _ => k
  | _ =>
    let first := match record with | (y, _) :: _ => y | [] => pidOf core pn
    ((s.waitEdges core pn).find? (fun k => (s.ep core k).peerPid == first)).getD h

/-- DEADLOCK is to be raised in a waiting process: its record is withdrawn first (R170, R181). -/
def State.deadlock (s : State) (core pn h : Nat) : State :=
  match (s.proc core pn).wait with
  | .offering k _ _ =>
    ((s.modEp core k Endpoint.rest).itemOf core pn 5 2 0x14 k).trapBlocked core pn .deadlock (handleWord h)
  | .sending k =>
    let e := s.ep core k
    s.sendPacket core e.peerCore none (.offerWithdrawal e.phandle.toNat k (.deadlock (handleWord h)))
  | .receiving k _ =>
    if s.recvStands core k then
      (((s.modEp core k Endpoint.rest).itemOf core pn 5 2 0x14 k).dropDest core pn).trapBlocked core pn
        .deadlock (handleWord h)
    else s
  | .alt _ => ((s.altRegister core pn false).dropDest core pn).trapBlocked core pn .deadlock (handleWord h)
  | _ => s

/-- The report of R170 with the probe's record (R341). -/
def State.deadlockReport (s : State) (core pn h hops : Nat) (record : List (Nat × Nat)) (trunc : Bool) : State :=
  let p := s.proc core pn
  let entry (l : List (Nat × Nat)) : BitVec 512 := BitVec.ofNat 512 (packWords (l.map (fun e => word (e.1 + e.2 * 2 ^ 32))))
  s.report core
    { kind := 3, cause := Cause.deadlock.code, pid := BitVec.ofNat 31 (pidOf core pn), job := BitVec.ofNat 16 (s.jobOf core),
      fpc := p.bpc, faddr := handleWord h, finst := p.binst, extra := BitVec.ofNat 32 (hops % 256 + (if trunc then 256 else 0)),
      more := [entry (record.take 8), entry ((record.drop 8).take 8)] }

/-- PROBE_ARRIVAL (R169): dropped, reported, or forwarded along the wait edges of the peer. -/
def execProbeArrival (pkt : Nat) (s : State) : Answer :=
  .next (match s.arrived pkt with
    | none => s
    | some p =>
      match p.body with
      | .probe origin seq h hseq fromPid hops record trunc =>
        let s := s.unpacket pkt
        let xc := fromPid / 256
        let xp := fromPid % 256
        let e := s.ep xc h
        if !(s.waitEdges xc xp).contains h || e.wseq.toNat != hseq then s
        else
          let y := e.peerPid
          let yc := y / 256
          let yp := y % 256
          let q := s.proc yc yp
          if y = origin then
            if q.wait != .none && q.waitSince = seq && q.reported != seq then
              let k := s.deadlockEdge yc yp h record
              ((s.modProc yc yp (fun q => { q with reported := seq })).deadlockReport yc yp k hops record trunc).deadlock
                yc yp k
            else s
          else if origin ≤ y || 255 ≤ hops then s
          else
            (s.waitEdges yc yp).foldl (fun t k =>
              t.sendProbe yc yp k origin seq (hops + 1)
                (if record.length < 16 then record ++ [(y, k)] else record) (trunc || 16 ≤ record.length)) s
      | _ => s)

end Sys2Proof.Machine
end

