-- ==== Sys2Proof/Machine/Launch.lean ====
section
/-! DEFINITION. Launches: records and LPATCH (R303 to R306), LARM with its inline call and return (R308, R309), the start
and the end of a launch (R312 to R315). -/

namespace Sys2Proof.Machine

/-! ### Records (R303) -/

abbrev LRec := BitVec 1024

def lrEntry (r : LRec) : Word := r.extractLsb' 0 56 |>.setWidth 64
def lrWsz (r : LRec) : Nat := 16 * 2 ^ (r.extractLsb' 56 2).toNat
def lrValid (r : LRec) : Bool := r.getLsbD 63
def lrPrio (r : LRec) : BitVec 7 := r.extractLsb' 64 7
def lrDepmax (r : LRec) : BitVec 8 := r.extractLsb' 72 8
def lrX0 (r : LRec) : Nat := (r.extractLsb' 80 5).toNat
def lrY0 (r : LRec) : Nat := (r.extractLsb' 85 5).toNat
def lrWm1 (r : LRec) : Nat := (r.extractLsb' 90 5).toNat
def lrHm1 (r : LRec) : Nat := (r.extractLsb' 95 5).toNat
def lrPx0 (r : LRec) : Nat := (r.extractLsb' 100 5).toNat
def lrPy0 (r : LRec) : Nat := (r.extractLsb' 105 5).toNat
def lrPwm1 (r : LRec) : Nat := (r.extractLsb' 110 5).toNat
def lrPhm1 (r : LRec) : Nat := (r.extractLsb' 115 5).toNat
def lrPart (r : LRec) : BitVec 23 := r.extractLsb' 128 23
def lrJob (r : LRec) : Nat := (r.extractLsb' 160 16).toNat
def lrSpbase (r : LRec) : Nat := (r.extractLsb' 192 56).toNat
def lrSplog (r : LRec) : Nat := (r.extractLsb' 248 5).toNat
def lrLcnb (r : LRec) : BitVec 22 := r.extractLsb' 256 22
def lrShbase (r : LRec) : Nat := (r.extractLsb' 320 56).toNat
def lrShlen (r : LRec) : Nat := (r.extractLsb' 384 20).toNat
def lrArg (r : LRec) (i : Nat) : Word := r.extractLsb' (512 + 64 * i) 64

/-- The bits of the record that hold a field; the rest read zero, bits [1:0] of ENTRY and the reserved bits of PART among
them (R6, R303, R307). -/
def lrMask : LRec :=
  BitVec.ofNat 1024 ((2 ^ 58 - 4) + 2 ^ 63 + (2 ^ 7 - 1) * 2 ^ 64 + (2 ^ 48 - 1) * 2 ^ 72 + 0x7F7F7F * 2 ^ 128
    + (2 ^ 16 - 1) * 2 ^ 160 + (2 ^ 61 - 1) * 2 ^ 192 + (2 ^ 22 - 1) * 2 ^ 256 + (2 ^ 56 - 1) * 2 ^ 320
    + (2 ^ 20 - 1) * 2 ^ 384 + (2 ^ 512 - 1) * 2 ^ 512)

/-- Bits lo and up of a number replaced, n of them. -/
def setBits {w : Nat} (x : BitVec w) (lo n v : Nat) : BitVec w :=
  BitVec.ofNat w (x.toNat - x.toNat / 2 ^ lo % 2 ^ n * 2 ^ lo + v % 2 ^ n * 2 ^ lo)

def State.lrec (s : State) (die i : Nat) : LRec := look 0 (s.die die).lrecs i
def State.setLrec (s : State) (die i : Nat) (r : LRec) : State :=
  s.modDie die (fun d => { d with lrecs := put d.lrecs i r })

/-- Whether a side of a rectangle lies within that of another. -/
def inRange (x0 wm1 px0 pwm1 : Nat) : Bool := px0 ≤ x0 && x0 + wm1 ≤ px0 + pwm1
/-- The rectangle lies within the permitted one, and that in the mesh (R303). -/
def lrRectOk (r : LRec) : Bool :=
  inRange (lrX0 r) (lrWm1 r) (lrPx0 r) (lrPwm1 r) && inRange (lrY0 r) (lrHm1 r) (lrPy0 r) (lrPhm1 r)
    && lrPx0 r + lrPwm1 r ≤ 31 && lrPy0 r + lrPhm1 r ≤ 31

/-! ### LPATCH (R305, R306) -/

/-- LPATCH (R306, R336): the process is held until the launch unit has performed or refused the write. -/
def execLpatch (w : BitVec 2) (a b : BitVec 5) (s : State) : Answer :=
  let x := s.g (s.ra a)
  s.issue w { reads := [s.ra a, s.rb b] } (fun t => t.noHandler x (fun t =>
    if t.gateShut s.ctx.core then t.trap .prot x
    else (t.block .blockedSync .launchUnit).modDie (dieOf s.ctx.core) (fun d => { d with
      launchReqs := d.launchReqs ++ [.patch s.ctx.core s.ctx.pn x (s.g (s.rb b))] })))

/-- The fields of a rectangle word: origin, width − 1, height − 1 (R306). -/
def rectWord (v : Word) : Option (Nat × Nat × Nat × Nat) :=
  if v &&& ~~~(0x1F1F1F1F : Word) != 0 then none
  else
    let n := v.toNat
    some (n % 32, n / 2 ^ 8 % 32, n / 2 ^ 16 % 32, n / 2 ^ 24 % 32)

/-- A record with one field written, or the fault of R306. -/
def patched (r : LRec) (job : Nat) (sel v : Word) : LRec ⊕ Word :=
  let field := sel.toNat / 2 ^ 16 % 16
  if sel &&& ~~~(0xF03FF : Word) != 0 || 10 ≤ field || !lrValid r || lrJob r != job then .inr sel
  else if field < 8 then .inl (setBits r (512 + 64 * field) 64 v.toNat)
  else if field = 8 then .inl (setBits r 64 7 v.toNat)
  else match rectWord v with
    | none => .inr v
    | some (x, y, wm1, hm1) =>
      let n := setBits r 80 20 (x + y * 2 ^ 5 + wm1 * 2 ^ 10 + hm1 * 2 ^ 15)
      if inRange x wm1 (lrPx0 r) (lrPwm1 r) && inRange y hm1 (lrPy0 r) (lrPhm1 r) then .inl n else .inr v

/-- LAUNCH_UNIT_REQUEST (R306): the launch unit performs the oldest LPATCH of the die, or refuses it. -/
def execLaunchUnitRequest (die : Nat) (s : State) : Answer :=
  .next (match (s.die die).launchReqs with
    | [] => s
    | .patch core pn sel v :: rest =>
      let s := s.modDie die (fun d => { d with launchReqs := rest })
      let i := sel.toNat % 1024
      match patched (s.lrec die i) (s.jobOf core) sel v with
      | .inl r => (s.setLrec die i r).wake core pn
      | .inr f => s.trapBlocked core pn .prot f)

/-! ### LARM (R308, R309) -/

/-- The status word an inline call writes (R308, R311). -/
def inlineStatus : Word := 0x0100060100000000

/-- The four stores of an inline call's frame, located, or the first that faults, with its address (R308). -/
def State.frameReqs (s : State) (core pn : Nat) (f : Word) (vals : List Word) : List (Req × Located) :=
  vals.zipIdx.map (fun e =>
    let r : Req := { pn := pn, kind := .store, ea := f + word (8 * e.2), size := 8, data := e.1, job := s.jobOf core,
                     fpc := (s.proc core pn).bpc, finst := (s.proc core pn).binst }
    (r, s.locate core r))

/-- The registers of an inline call: the arguments, then sp, lk, and g[D] last. -/
def Proc.inlineRegs (p : Proc) (d : Nat) (args : List Word) (f ret : Word) : Proc :=
  let p := args.zipIdx.foldl (fun q e => q.setReg (5 + e.2) e.1) p
  ((p.setReg 2 f).setReg 1 ret).setReg d inlineStatus

/-- The return address of an inline call. -/
def Proc.inlineReturn (p : Proc) (rep : Bool) : Word := pc56 (p.bpc + (if rep then 8 else 4))

/-- An inline call at work: it traps, waits for a walk, or stores its frame and transfers (R308). -/
def State.inlineCall (s : State) (core pn d : Nat) (sel : Word) (args : List Word) (entry : Word) (rep : Bool) : State :=
  let p := s.proc core pn
  let ret := p.inlineReturn rep
  let f := p.reg 2 - 32
  let rs := s.frameReqs core pn f [ret, p.reg 1, f, 0]
  let bad := rs.findSome? (fun e => match e.2 with | .trap c => some (c, e.1.ea) | _ => none)
  let miss := rs.findSome? (fun e => match e.2 with | .miss => some e.1.ea | _ => none)
  let held := (s.core core).regionOf pn && !(rs.all (fun e => (placed core e.1 e.2).ownPool))
  match bad, miss with
  | some (c, a), _ => s.trapBlocked core pn c a
  | none, some va =>
    (s.askWalk core pn va.toNat (s.jobOf core)).modProc core pn (fun q => { q with
      wait := .inlineCall d sel args entry va rep })
  | none, none =>
    if held && !((s.core core).hold.items.length + 4 ≤ 32 && ((s.core core).hold.items.map HoldItem.bytes).sum + 32 ≤ 8192) then
      s.trapBlocked core pn .specovf 0
    else
      let s := s.modProc core pn (fun q => { q.inlineRegs d args f ret with
        depth := q.depth + 1, pc := pc56 entry, inRep := false, repDone := 0, repRemain := 0 })
      let step (acc : State × Option Wait) (e : Req × Located) : State × Option Wait :=
        let r := placed core e.1 e.2
        if held && !r.ownPool then
          (acc.1.modCore core (fun c => c.holdStore r), acc.2)
        else
          let x := acc.1.enterReq core r
          (x.1, match x.2.wait with | some w => some w | none => acc.2)
      match rs.foldl step (s, none) with
      | (t, some w) => t.modProc core pn (fun q => { q with wait := w })
      | (t, none) => t.wake core pn

/-- An inline call whose walk has ended goes on (R120, R308). -/
def State.inlineResumes (s : State) (core pn : Nat) : State :=
  match (s.proc core pn).wait with
  | .inlineCall d sel args entry _ rep =>
    if (s.die (dieOf core)).walks.any (fun w => w.asker == .access core pn) then s
    else s.inlineCall core pn d sel args entry rep
  | _ => s

/-- LARM with a register in A (R308): the queued path, or the inline call. -/
def State.arm (t : State) (d : Nat) (sel : Word) : State :=
  let core := t.ctx.core
  let die := dieOf core
  let r := t.lrec die (sel.toNat % 1024)
  if 1024 ≤ sel.toNat then t.trap .prot sel
  else if !lrValid r || lrJob r != t.jobOf core then t.trap .prot sel
  else if (t.die die).launchQ.length < 64 then
    let f := t.allocFuture core t.ctx.pn d 3 none
    (f.1.modDie die (fun x => { x with
      launchQ := x.launchQ ++ [{ id := x.nextLaunch, record := r, core := core, entry := f.2, pn := t.ctx.pn }]
      nextLaunch := x.nextLaunch + 1 })).advance
  else if t.me.depmax.toNat ≤ t.me.depth.toNat then t.trap .launchdepth sel
  else
    let args := (List.range 8).map (lrArg r)
    let b := t.block .blockedSync (.inlineCall d sel args (lrEntry r) 0 t.ctx.rep.isSome)
    b.inlineCall core t.ctx.pn d sel args (lrEntry r) t.ctx.rep.isSome

/-- LARM (R308); A = g0 with a non-zero D raises PROT (R309). The registers of the inline path are waited for when the
queue is full. -/
def execLarm (w : BitVec 2) (d a : BitVec 5) (s : State) : Answer :=
  let room := (s.die (dieOf s.ctx.core)).launchQ.length < 64
  let inl := !room && a != 0
  s.issue w { reads := [s.ra a] ++ (if inl then [2, 1] else [])
              writes := [s.rd d] ++ (if inl then [1, 2, 5, 6, 7, 8, 9, 10, 11, 12] else [])
              var := true, ready := a == 0 || !room || (s.core s.ctx.core).futureFree } (fun t =>
    let x := s.g (s.ra a)
    t.noHandler x (fun t =>
      if a == 0 then t.trap .prot 0
      else if t.gateShut s.ctx.core then t.trap .prot x
      else t.arm (s.rd d) x))

/-- What a read of the stack comes to. -/
inductive StackRead where
  | got (s : State) (v : Word)
  | trap (s : State) (c : Cause) (a : Word)
  | wait (s : State)         -- an EMPTY word, an earlier access, or a target core that is not there yet
  | walk (va : Word)
  deriving Repr

/-- A word a process reads of its stack in one step (R309; log 15), as a load of it reads it: behind the accesses that a load
waits for, from the store buffer and the held stores of its region, else on path C. A poisoned one raises POISON there
(R144). -/
def State.stackWord (s : State) (core pn : Nat) (r : Req) : StackRead :=
  let line : Word := r.ea &&& ~~~(63 : Word)
  match s.locate core r with
  | .trap c => .trap s c r.ea
  | .tensor _ _ => .trap s .localbound r.ea
  | .miss => .walk r.ea
  | l =>
    let q := { placed core r l with tag := (s.core core).nextTag, pn := pn }
    let q := { q with kept := (s.core core).heldBytes q }
    let held (y : Req) : Bool := s.blockedBy (s.wholeCover core q) q y
    let s := ((s.core core).reqs.filter held).foldl (fun t y => t.acceptMesh core y.tag) (s.arriveFirst core held)
    let seen (t : State) (v : Word) : StackRead := .got t (word (q.overlay v.toNat))
    let at_ (t : State) (k : Nat) : StackRead :=
      if t.mem.isPoisoned k then .trap t .poison line
      else seen (t.sawWord core pn .c (k / 8)) (t.wordSeen core pn .c (k / 8))
    if !s.mayPerform core q then .wait s
    else
      let there : StackRead :=
        if s.wholeCover core q then
          seen s (word ((s.forwarded core q).foldr (fun b acc => (b.getD 0).toNat + 256 * acc) 0))
        else if q.discarded then seen s 0
        else match q.place with
          | .bytes k => at_ s k
          | _ =>
            match s.homeKey q.home q.target q.job r.ea.toNat with
            | (t, some k) => if q.fe && !t.mem.isFull (k / 8) then .wait t else at_ t k
            | (t, none) => .trap (t.mismatch q.home q.job r.ea.toNat) .poison line
      if !q.mesh then there
      else if (s.die (dieOf q.home)).isSaved q.job then .wait s
      else match s.meshCause q with
        | some c => .trap s c r.ea
        | none =>
          if (s.core q.home).gated then
            .wait (if (s.core q.home).wakeEnd.isNone then s.later (.coreWake q.home) else s)
          else there

/-- An inline return at work: it traps, waits for a word of the frame or for a walk, or restores the caller (R309). The mark
of the frame is read and tested before the rest of it (log 15). -/
def State.inlineReturn (s : State) (core pn : Nat) (f : Word) : State :=
  let read (s : State) (o : Nat) (go : State → Word → State) : State :=
    match s.stackWord core pn { pn := pn, ea := f + word o, size := 8, job := s.jobOf core } with
    | .got u v => go u v
    | .trap u c a => u.trapBlocked core pn c a
    | .wait u => u.modProc core pn (fun p => { p with wait := .inlineReturn f none })
    | .walk va => (s.askWalk core pn va.toNat (s.jobOf core)).modProc core pn (fun p => { p with
        wait := .inlineReturn f (some va) })
  read s 16 (fun u own =>
    if own != f then u.trapBlocked core pn .prot f
    else read u 0 (fun u pc => read u 8 (fun u lk => (u.modProc core pn (fun p => { (p.setReg 1 lk).setReg 2 (f + 32) with
      depth := p.depth - 1, pc := pc56 pc &&& ~~~(3 : Word), inRep := false, repDone := 0, repRemain := 0 })).wake core pn)))

/-- An inline return that waits tries again, once a walk it asked for has ended. -/
def State.returnResumes (s : State) (core pn : Nat) : State :=
  match (s.proc core pn).wait with
  | .inlineReturn f _ =>
    if (s.die (dieOf core)).walks.any (fun w => w.asker == .access core pn) then s else s.inlineReturn core pn f
  | _ => s

/-- LARM g0, g0 (R309): STOP at depth 0, else the inline return. -/
def execLarmReturn (w : BitVec 2) (s : State) : Answer :=
  let top := s.me.depth == 0
  s.issue w { reads := if top then [] else [2], writes := if top then [] else [1, 2], var := true } (fun t =>
    t.noHandler 0 (fun t =>
      if top then t.stopProc s.ctx.core s.ctx.pn
      else (t.block .blockedSync (.inlineReturn (t.g 2) none)).inlineReturn s.ctx.core s.ctx.pn (t.g 2)))

/-! ### The start of a launch (R312 to R314) -/

/-- The cores of a launch's rectangle with their positions, row by row; those of the mesh. -/
def lrCores (pkg : Nat) (r : LRec) : List (Nat × Nat × Nat) :=
  (List.range (min (lrHm1 r + 1) (32 - lrY0 r))).flatMap (fun y =>
    (List.range (min (lrWm1 r + 1) (32 - lrX0 r))).map (fun x => (coreAt pkg (lrX0 r + x) (lrY0 r + y), x, y)))

/-- The die that holds the origin core of a launch's rectangle, and its barrier unit (R161). -/
def lrDie (pkg : Nat) (r : LRec) : Nat := dieOf (coreAt pkg (lrX0 r) (lrY0 r))

/-- Whether the rectangles of two records overlap. -/
def lrOverlap (p q : LRec) : Bool :=
  lrX0 p ≤ lrX0 q + lrWm1 q && lrX0 q ≤ lrX0 p + lrWm1 p && lrY0 p ≤ lrY0 q + lrHm1 q && lrY0 q ≤ lrY0 p + lrHm1 p

/-- The job record of a job on a die. -/
def State.jobRec (s : State) (die job : Nat) : Option JobRec :=
  ((s.die die).jobs.find? (fun e => e.2.valid && e.2.job.toNat == job)).map (fun e => e.2)

/-- The bytes of the shapes image, or the cause that reading it raises (R299, R313). -/
def State.shapesImage (s : State) (die : Nat) (r : LRec) : List Byte ⊕ Cause :=
  let words : List (List Byte ⊕ Cause) := (List.range (lrShlen r / 8)).map (fun i =>
    let va := lrShbase r + 8 * i
    if spaceOf false (word va) != .global then .inr .prot
    else match s.walk die (lrJob r) va with
      | .fault c => .inr c
      | .leaf p large =>
        match leafCause p large { r := true, w := false, x := false, writes := false, sync := false } with
        | some c => .inr c
        | none =>
          if pteOwn p == 3 then .inl (List.replicate 8 0)
          else
            let k := storeKey (pteHome p) (pteTarget p) (pteFrame p * 65536 + va % pageSize large)
            if s.mem.isPoisoned k then .inr .poison else .inl (s.mem.bytes k 8))
  match words.findSome? (fun w => match w with | .inr c => some c | .inl _ => none) with
  | some c => .inr c
  | none => .inl (words.flatMap (fun w => match w with | .inl b => b | .inr _ => []))

/-- The cases in which a launch ends FAILED when it would start (R313, R314). -/
def State.launchCause (s : State) (pkg : Nat) (r : LRec) : Option Cause :=
  let recOk (die : Nat) : Bool := match s.jobRec die (lrJob r) with
    | some j => j.oventry != 0 && j.oventry.toNat % 4 == 0 && 16 ≤ j.ovhlog.toNat && j.ovhlog.toNat ≤ 31
    | none => false
  if !lrRectOk r || !partOk (lrPart r) then some .prot
  else if !((lrCores pkg r).all (fun e => recOk (dieOf e.1))) then some .prot
  else if scratchSize (lrPart r) < lrShlen r then some .prot
  else none

/-- A core prepared for a launch, its root and its overflow process placed (R313, R314). -/
def Core.prepared (c : Core) (r : LRec) (j : JobRec) (ref : LaunchRef) : Core :=
  let rank := ref.ry * (lrWm1 r + 1) + ref.rx
  let lcn := lrLcnb r + BitVec.ofNat 22 rank
  let sp : Word := if lrSpbase r = 0 then 0 else word (lrSpbase r + (rank + 1) * 2 ^ lrSplog r)
  let wsz := lrWsz r
  let root : Proc := {
    state := .ready, pc := lrEntry r &&& ~~~(3 : Word), prio := lrPrio r, wsz := wsz, wbase := 128, depmax := lrDepmax r
    regs := windowWith wsz [(5, lrArg r 0), (6, word (ref.rx * 65536 + ref.ry)), (2, sp)]
    pend := List.replicate wsz false }
  let ovBase := BitVec.ofNat 12 (if wsz ≤ 32 then 130 else 128 + wsz / 16)
  let spill : Proc := {
    state := .ready, pc := j.oventry.setWidth 64, prio := 127, wsz := 32, wbase := ovBase, depmax := 0
    regs := windowWith 32 [(5, word (j.ovheap.toNat + lcn.toNat * 2 ^ j.ovhlog.toNat)), (6, word (2 ^ j.ovhlog.toNat))]
    pend := List.replicate 32 false }
  let c := (c.orphan 255).detach 255
  let c : Core := { c with
    part := lrPart r, launch := some ref, lcn := lcn, jseed := j.jseed, slots := List.replicate 16 {}, procs := []
    ready := [], flight := [], starts := [], wsetOps := [], wdesc := [], layout := [], handlers := [], handler := none
    normal := [], staging := [], stageTail := 0, divert := false, lastStaged := none, owed := []
    vecA := {}, vecS := {}, vecDirty := [], copyA := {}, copyS := {}, copyDirty := [], opslots := [], bank0 := {}
    bank1 := {}, holds := 0, holdcyc := 0 }
  (((c.setProc 0 root).setProc 255 spill).pushTail 0).pushTail 255

/-- Lines in a row get an owner tag, but for poisoned ones (R376, R378). -/
def Memory.tagLines (m : Memory) (line n job : Nat) : Memory :=
  { m with tags := m.tags.filter (fun e => e.1 < line)
      ++ (if job = 0 then [] else ((List.range n).map (fun i => (line + i, job))).filter (fun e => !m.poison.contains e.1))
      ++ m.tags.filter (fun e => line + n ≤ e.1) }

/-- One line of the shapes image, FULL, there before any process for every path to read (R299). A poisoned line keeps what
it has (R378). -/
def Memory.prepareLine (m : Memory) (core job : Nat) (image : List Byte) (i : Nat) : Memory :=
  let k := poolKey core (64 * i)
  if m.isPoisoned k then m
  else
    let m := (m.clearRange k 64).setBytes k ((image.drop (64 * i)).take 64)
    ((List.range 8).foldl (fun m j => m.setFull (k / 8 + j) true) m).setTag (k / 64) job

/-- Lines of the shapes image that find poison in a core's pool (R378). -/
def Memory.badImage (m : Memory) (core : Nat) (image : List Byte) : List Nat :=
  (List.range (image.length / 64)).filter (fun i => m.isPoisoned (poolKey core (64 * i)))

/-- The pool of a core as a launch leaves it: accumulator region, inbox and register region zero (the first two EMPTY),
then the shapes image at offset 0. -/
def Memory.preparePool (m : Memory) (core : Nat) (r : LRec) (image : List Byte) (job : Nat) : Memory :=
  let lo := partScratch (lrPart r) * 16384
  let m := (m.clearRange (poolKey core lo) (96 * 16384 - lo)).tagLines (poolKey core lo / 64) ((96 * 16384 - lo) / 64) job
  (List.range (image.length / 64)).foldl (fun m i => m.prepareLine core job image i) m

/-- The governor's registers at the start of a launch on a core of their die (R251, R313 step 5). -/
def Die.launchReset (d : Die) : Die := { d with gbud := 0x40000, gramp := 0x4000, gprev := 0, gallow := 0x4000 }

/-- LAUNCH_START (R312, R313): a queued launch whose cores are free and that no older one overlaps starts, or ends FAILED;
gated cores of its rectangle are woken first (R385). -/
def execLaunchStart (die pos : Nat) (s : State) : Answer :=
  let pkg := pkgOfDie die
  let d := s.die die
  .next (match takeAt d.launchQ pos with
    | none => s
    | some (q, rest) =>
      let r := q.record
      let cores := lrCores pkg r
      let fails (c : Cause) : State :=
        (s.modDie die (fun x => { x with launchQ := rest })).failFuture q.core q.entry 0 c.code 0 0 false
      if d.switching then s
      else if (d.launchQ.take pos).any (fun o => lrOverlap o.record r) then s
      else if !cores.all (fun e => (s.core e.1).isFree && s.holds (lrJob r) (dieOf e.1)
          && !(s.die (dieOf e.1)).isSaved (lrJob r) && !(s.die (dieOf e.1)).switching) then s
      else match s.launchCause pkg r with
        | some c => fails c
        | none =>
          match s.shapesImage die r with
          | .inr c => fails c
          | .inl image =>
            let asleep := cores.filter (fun e => (s.core e.1).gated)
            if !asleep.isEmpty then
              s.laterAll ((asleep.filter (fun e => (s.core e.1).wakeEnd.isNone)).map (fun e => .coreWake e.1))
            else
              let home := lrDie pkg r
              let id := (s.die home).nextLaunch
              let s := (s.modDie die (fun x => { x with launchQ := rest })).modDie home (fun x => { x with
                nextLaunch := id + 1
                running := x.running ++ [{ id := id, record := r, core := q.core, entry := q.entry,
                                           gen := ((s.core q.core).future q.entry).gen, undone := cores.map (fun e => e.1) }] })
              let s := ((cores.map (fun e => dieOf e.1)).eraseDups).foldl (fun t d => t.modDie d Die.launchReset)
                (s.modPkg pkg (fun p => { p with land := 0 }))
              cores.foldl (fun t e =>
                let ref : LaunchRef := { die := home, id := id, x0 := lrX0 r, y0 := lrY0 r, wm1 := lrWm1 r, hm1 := lrHm1 r,
                                         rx := e.2.1, ry := e.2.2, job := lrJob r }
                let j := (t.jobRec (dieOf e.1) (lrJob r)).getD {}
                let bad := t.mem.badImage e.1 image
                let t := bad.foldl (fun t i => t.poisonStore 0 (poolKey e.1 (64 * i))) t
                ({ t with mem := t.mem.preparePool e.1 r image (t.jobOf e.1) }.modCore e.1 (fun c =>
                  c.prepared r j ref)).rescanRange (poolKey e.1 0) (2 ^ 21)) s)

/-! ### The end of a launch (R315) -/

/-- Whether a core is free of a launch: it is free, or already belongs to a later one. -/
def State.freeOf (s : State) (core die id : Nat) : Bool :=
  let c := s.core core
  c.isFree || (match c.launch with
    | some l => !(l.die == die && l.id == id)
    | none => true)

/-- LAUNCH_COMPLETION (R315): every core of the rectangle is free again. -/
def execLaunchCompletion (die pos : Nat) (s : State) : Answer :=
  .next (match takeAt (s.die die).running pos with
    | none => s
    | some (q, rest) =>
      let cores := (lrCores (pkgOfDie die) q.record).map (fun e => e.1)
      if !cores.all (fun c => s.freeOf c die q.id) then s
      else
        let s := s.modDie die (fun d => { d with running := rest })
        let s := cores.foldl (fun t c => t.modCore c (fun x => match x.launch with
          | some l => if l.die = die && l.id = q.id then { x with launch := none } else x
          | none => x)) s
        s.onTenant q.core (lrJob q.record) (fun s =>
          if ((s.core q.core).future q.entry).gen != q.gen then s
          else if q.reason != 0 then s.failFuture q.core q.entry 0 q.reason 0 0 true
          else if q.killed then s.failFuture q.core q.entry 0 0x40 0 0 true
          else s.endFuture q.core q.entry 1 0 0 0))

end Sys2Proof.Machine
end

