-- ==== Sys2Proof/Machine/Tenant.lean ====
section
/-! DEFINITION. Time-shared dies: the quantum of a binding (R320) and the switch of a tenant (R318, R319, R249). -/

namespace Sys2Proof.Machine

/-! ### Parts of memory -/

/-- Whether a key is a byte of the pool or the operand memory of a compute core of a die. -/
def poolOfDie (die k : Nat) : Bool :=
  if k < 2 ^ 56 then false
  else
    let core := if k < 2 ^ 57 then (k - 2 ^ 56) / 2 ^ 21 else (k - 2 ^ 57) / 2 ^ 18
    dieOf core == die && !isKernel core

/-- The part of memory whose keys have a property; poison belongs to the physical store and stays. -/
def Memory.part (m : Memory) (p : Nat → Bool) : Memory :=
  { cells := m.cells.filter (fun c => p c.1), full := m.full.filter (fun w => p (w * 8)),
    tags := m.tags.filter (fun l => p (l.1 * 64)) }
def Memory.without (m : Memory) (p : Nat → Bool) : Memory :=
  { m with
    cells := m.cells.filter (fun c => !p c.1), full := m.full.filter (fun w => !p (w * 8))
    tags := m.tags.filter (fun l => !p (l.1 * 64)), hist := m.hist.filter (fun h => !p (h.word * 8)) }

/-- A part written back. -/
def Memory.join (m x : Memory) : Memory :=
  { m with
    cells := x.cells.foldl (fun l c => cellPut l c.1 c.2) m.cells
    full := x.full.foldl (fun l w => insertKey l w) m.full
    tags := x.tags.foldl (fun l e => put l e.1 e.2) m.tags }

/-! ### Saving a core (R318 steps 2 to 4) -/

/-- The compute cores of a die that the state lists. -/
def State.tenantCores (s : State) (die : Nat) : List Nat :=
  (s.cores.filter (fun e => dieOf e.1 == die && !isKernel e.1)).map (fun e => e.1)

/-- A core may be saved: no fixed-latency result in flight, no instruction at work that is not divided, no engine
operation, drain, transfer or store still at work. -/
def Core.quiet (c : Core) : Bool :=
  (List.range 16).all (fun i => c.mayLeave i) && c.flight.isEmpty && !c.vecQ.any (fun v => v.started)
    && !c.copyQ.any (fun o => o.started) && !c.tasks.any (fun t => t.started) && c.drainQ.isEmpty
    && !c.endpoints.any (fun e => e.2.state == 5) && c.starts.isEmpty && c.wsetOps.isEmpty
    && !c.reqs.any (fun r => r.kind.buffered && r.phase != .performed)

/-- Every resident leaves its slot and is a husk; a handler keeps its place for the restore. -/
def State.evict (s : State) (core : Nat) : State :=
  (List.range 16).foldl (fun t i =>
    match ((t.core core).slot i).proc with
    | some pn => if pn = 256 then t.modSlot core i Slot.emptied else t.leaveSlot core i pn .preempt
    | none => t) s

/-- An instruction held at the launch unit is issued again after the restore (R319). -/
def State.reissueHeld (s : State) (core : Nat) : State :=
  ((s.core core).procs.map (fun e => e.1)).foldl (fun t pn =>
    match (t.proc core pn).wait with
    | .launchUnit =>
      (t.modProc core pn (fun p => { p with pc := p.bpc, repDone := p.bDone, repRemain := p.bRemain })).wake core pn
    | _ => t) s

/-- The tenant of a die is saved: its cores, queues and pools leave, with the operations that wait on words of these pools
(R319); TLBs and instruction caches are invalidated. -/
def State.saveTenant (s : State) (die job : Nat) : State :=
  let cs := s.tenantCores die
  let s := cs.foldl (fun t c => (t.evict c).reissueHeld c) s
  let d := s.die die
  let mine (r : LRec) : Bool := lrJob r == job
  let saved : Saved := {
    job := job
    cores := (s.cores.filter (fun e => dieOf e.1 == die && !isKernel e.1)).map (fun (e : Nat × Core) =>
      (e.1, { e.2 with tlb := [], faultOut := [] }))
    launchQ := d.launchQ.filter (fun q => mine q.record), running := d.running.filter (fun q => mine q.record)
    sheafQ := d.sheafQ.filter (fun o => !isKernel o.core), pool := s.mem.part (poolOfDie die)
    waits := d.waits.filter (fun w => poolOfDie die (w.word * 8)) }
  let s := { s with mem := s.mem.without (poolOfDie die) }
  let s := cs.foldl (fun t c => t.modCore c (fun x =>
    { faultOut := x.faultOut, nextTag := x.nextTag, gated := x.gated, wakeEnd := x.wakeEnd })) s
  s.modDie die (fun d => { d with
    saved := d.saved.filter (fun x => x.job != job) ++ [saved]
    launchQ := d.launchQ.filter (fun q => !mine q.record), running := d.running.filter (fun q => !mine q.record)
    sheafQ := d.sheafQ.filter (fun o => isKernel o.core)
    launchReqs := d.launchReqs.filter (fun r => match r with | .patch c _ _ _ => isKernel c)
    waits := d.waits.filter (fun w => !poolOfDie die (w.word * 8))
    walks := d.walks.filter (fun w => match w.asker with
      | .access c _ | .fetch c _ _ | .engine c => isKernel c
      | .home _ _ _ => true)
    clusters := d.clusters.filter (fun e => 16 ≤ e.1) })

/-! ### Restoring (R318 step 5) -/

/-- A walk that a saved process waited for is asked for again. -/
def State.reaskWalks (s : State) (core : Nat) : State :=
  ((s.core core).procs.map (fun e => e.1)).foldl (fun t pn =>
    match (t.proc core pn).wait with
    | .walk r => t.askWalk core pn r.ea.toNat r.job
    | .retryWalk va | .inlineCall _ _ _ _ va _ | .inlineReturn _ (some va) => t.askWalk core pn va.toNat (t.jobOf core)
    | _ => t) s

/-- The save of a tenant is loaded, if the die holds one. -/
def State.loadTenant (s : State) (die job : Nat) : State :=
  match (s.die die).saved.find? (fun x => x.job == job) with
  | none => s
  | some x =>
    let s := { s with mem := s.mem.join x.pool }
    let s := x.cores.foldl (fun t e => t.modCore e.1 (fun live => { e.2 with
      faultOut := live.faultOut ++ e.2.faultOut, nextTag := max live.nextTag e.2.nextTag, gated := live.gated
      wakeEnd := live.wakeEnd })) s
    let s := s.modDie die (fun d => { d with
      saved := d.saved.filter (fun y => y.job != job), launchQ := d.launchQ ++ x.launchQ
      running := d.running ++ x.running, sheafQ := d.sheafQ ++ x.sheafQ, waits := d.waits ++ x.waits })
    let s := (x.cores.map (fun e => e.1)).foldl (fun t c =>
      let t := t.reaskWalks c
      if (t.core c).handler.isSome then t.startSwitch c 15 256 true else t) s
    s.acquireDone die

/-! ### The switch -/

/-- The dies of the packages that the state lists. -/
def State.allDies (s : State) : List Nat := s.pkgs.flatMap (fun e => dies4 e.1)

/-- Whether a die is shared in time by a job, and which job's turn it is there (R320). -/
def State.timeShares (s : State) (job die : Nat) : Bool :=
  (s.pkg (pkgOfDie die)).ldbind.any (fun e => ldNames e.2 job die && ldTs e.2)
def State.turnOf (s : State) (die job : Nat) : Bool :=
  ldNames ((s.pkg (pkgOfDie die)).binding (s.die die).turn) job die

/-- Whether no other tenant than a job's is resident on a die. -/
def State.onlyTenant (s : State) (die job : Nat) : Bool :=
  (s.tenantCores die).all (fun c => !(s.core c).gateV || (s.core c).gateJob.toNat == job)

/-- The dies on which a tenant is resident in time shares, over all packages: it leaves them together (R318). -/
def State.tenantDies (s : State) (job : Nat) : List Nat :=
  s.allDies.filter (fun d => s.timeShares job d && !(s.die d).isSaved job && s.onlyTenant d job)

/-- The tenants resident on a die. -/
def State.residents (s : State) (die : Nat) : List Nat :=
  (((s.tenantCores die).filter (fun c => (s.core c).gateV)).map (fun c => (s.core c).gateJob.toNat)).eraseDups

/-- The dies that a target's arrival takes, with the tenant that leaves each: all dies of the tenant named, and of every
other tenant that is resident on a die of the target (R318). -/
def State.leavers (s : State) (job target : Nat) : List (Nat × Nat) :=
  let bound := s.allDies.filter (s.timeShares target)
  let out := (job :: (bound.flatMap s.residents).filter (· != target)).eraseDups
  out.flatMap (fun j => (s.allDies.filter (fun d =>
    (s.tenantDies j).contains d || (bound.contains d && s.onlyTenant d j && (s.residents d).contains j))).map (fun d => (d, j)))

/-- Dies on which a tenant is saved and none is resident. -/
def State.vacantDies (s : State) (job : Nat) : List Nat :=
  s.allDies.filter (fun d => s.timeShares job d && (s.die d).isSaved job
    && (s.tenantCores d).all (fun c => !(s.core c).gateV))

/-- A teardown that waited begins, or else a reset that waited (R383, R387). -/
def State.teardownNext (s : State) (die : Nat) : State :=
  let d := s.die die
  match d.tdQueue with
  | (j, why) :: _ => s.later (.teardown die j why.toNat)
  | [] => if d.resetWanted then s.later (.dieReset die) else s

/-- A switch is over at a die, and what waited for it begins. -/
def State.switched (s : State) (die : Nat) : State :=
  let s := s.modDie die (fun d => { d with switching := false })
  if (s.die die).tdWork.isSome then s else s.teardownNext die

/-- A tenant leaves a die. One whose binding is no longer valid and whose cores are free, as a reset of its logical device
leaves them (R353), leaves nothing to save. -/
def State.leaveDie (s : State) (die job : Nat) : State :=
  if !s.timeShares job die && (s.tenantCores die).all (fun c => (s.core c).isFree) then
    (s.tenantCores die).foldl (fun t c => t.modCore c (fun x => { x with gateV := false, gateJob := 0, tlb := [] })) s
  else s.saveTenant die job

/-- Whether a switch to a target may begin in a package: it is its turn on a die of it that the tenant named holds, or that
none holds. -/
def State.switchDue (s : State) (pkg job target : Nat) : Bool :=
  job != target && s.allDies.any (fun d => pkgOfDie d == pkg && s.timeShares target d && s.turnOf d target
    && ((s.tenantDies job).contains d || (s.residents d).contains job || (s.residents d).isEmpty))

/-- TENANT_SWITCH (R318, R320): when it is the target's turn on a die of the package, all dies of every tenant that stands
on the target's dies are saved together once every core of them is quiet, and the target's save is loaded on all its dies;
before that the switch begins, and the dies start nothing more for the outgoing tenants. -/
def execTenantSwitch (pkg job target : Nat) (s : State) : Answer :=
  let ds := s.leavers job target
  let bound := s.allDies.filter (fun d => s.timeShares target d && s.turnOf d target)
  .next (if !s.switchDue pkg job target then s
    else if ds.all (fun d => (s.die d.1).switching && (s.tenantCores d.1).all (fun c => (s.core c).quiet)) then
      let s := ds.foldl (fun t d => t.leaveDie d.1 d.2) s
      let s := (s.vacantDies target).foldl (fun t d => t.loadTenant d target) s
      (bound ++ ds.map (fun d => d.1)).eraseDups.foldl (fun t d => t.switched d) s
    else ds.foldl (fun t d => t.modDie d.1 (fun x => { x with switching := true })) s)

/-- The time-shared bindings of a die, in ascending register number. -/
def State.turns (s : State) (die : Nat) : List (Nat × Word) :=
  (s.pkg (pkgOfDie die)).ldbind.filter (fun e => ldV e.2 && ldTs e.2 && e.2.getLsbD (die % 4))

/-- TIME_SHARE_QUANTUM (R320): the turn of a binding ends, the next one's begins, and its tenant is to be switched in. -/
def execTimeShareQuantum (die : Nat) (s : State) : Answer :=
  let d := s.die die
  .next (match d.quantumEnd with
    | none => s
    | some t =>
      if s.ticks < t then s
      else
        let bs := s.turns die
        match (bs.find? (fun e => d.turn < e.1)).or bs.head? with
        | none =>
          let t := s.setDie die { d with quantumEnd := none }
          if d.switching then t.switched die else t
        | some (n, b) =>
          s.setDie die { d with
            turn := n, quantumEnd := some (s.ticks + ldQuant b), switching := d.switching || n != d.turn })

end Sys2Proof.Machine
end

