-- ==== Sys2Proof/Machine/Gate.lean ====
section
/-! DEFINITION. What kernel cores do to gates and dies: GSET with its classes (R333 to R336), GRESUME and GKILL (R337,
R338), shoot-downs (R343), and fault messages (R339 to R341). -/

namespace Sys2Proof.Machine

/-! ### Selectors (R334, R335) -/

def selClass (x : Word) : Nat := x.toNat % 16
def selRd (x : Word) : Bool := x.getLsbD 4
def selRaw (x : Word) : Bool := x.getLsbD 5
def selIndex (x : Word) : Nat := x.toNat / 2 ^ 16 % 2 ^ 20
def selCore (x : Word) : Nat := x.toNat / 2 ^ 36 % 2 ^ 9

/-- Image bytes of a class. -/
def imageBytes (c : Nat) : Nat :=
  match c with
  | 0 => 32
  | 1 => 16
  | 2 | 4 | 7 => 64
  | 5 => 128
  | 6 => 16
  | 11 => 32
  | _ => 8

/-- Whether CORE names a core for a class, whether an index is in range, whether RD and RAW are allowed. -/
def classHasCore (c : Nat) : Bool := c ≤ 4 || c == 8 || c == 12
def indexOk (c i : Nat) : Bool :=
  match c with
  | 0 | 1 => true
  | 2 => i < 256
  | 3 => i < 32768
  | 4 => i < 64
  | 5 => i < 1024
  | 6 => i < 4096
  | 7 => i < 32
  | 9 => i < 6
  | 10 => i < 2 || (16 ≤ i && i < 32)
  | _ => i == 0

/-- The saved tenant of a core's die that has a process of a number (log 20). -/
def State.savedWith (s : State) (target pn : Nat) : Option Saved :=
  (if isKernel target then [] else (s.die (dieOf target)).saved).find? (fun x =>
    ((look ({} : Core) x.cores target).proc pn).state != .free)

/-- The core whose process a husk or register write may change: the live one when it is FAULTED, or displaced for a move
(R316), else a saved tenant's (R335). -/
def State.huskOwner (s : State) (target pn : Nat) : Option (Option Nat) :=
  if (s.proc target pn).state == .faulted || (s.proc target pn).moving then some none
  else (s.savedWith target pn).map (fun x => some x.job)

/-- The core whose process a husk or register read shows: the live one, or that of a saved tenant where the live one has
none of the number. -/
def State.huskShown (s : State) (target pn : Nat) : Core :=
  let c := s.core target
  if (c.proc pn).state != .free then c
  else match s.savedWith target pn with
    | some x => look {} x.cores target
    | none => c

/-- The core whose process a selector of class 3 reads or writes. -/
def State.huskTouched (s : State) (target pn : Nat) (rd : Bool) : Core :=
  if rd then s.huskShown target pn
  else match s.huskOwner target pn with
    | some (some job) => s.coreFor target job
    | _ => s.core target

/-- The first check of GSET on its selector. Gate control belongs to compute cores (R336): class 8 with a kernel core's number
fails it, though R335 names CORE 0 to 259 (DESIGN CHOICE, log 29). -/
def State.selectorOk (s : State) (core : Nat) (x : Word) : Bool :=
  let c := selClass x
  x.toNat / 2 ^ 45 == 0 && x.toNat / 2 ^ 6 % 2 ^ 10 == 0 && c < 13 && indexOk c (selIndex x)
    && (if classHasCore c then (if c = 8 then selCore x < 256 else selCore x < 260) else selCore x == 0)
    && (!selRd x || (c != 11 && c != 12)) && (!selRaw x || c == 0)
    && (c != 3 || selIndex x / 256 < ((s.huskTouched (dieOf core * 512 + selCore x) (selIndex x % 256) (selRd x)).proc
      (selIndex x % 256)).wsz)

/-- GSET (R333, R335): checked, then held until its event performs it. -/
def execGset (w : BitVec 2) (a b : BitVec 5) (s : State) : Answer :=
  let core := s.ctx.core
  s.issue w { reads := [s.ra a, s.rb b], legal := isKernel core } (fun t =>
    let x := s.g (s.ra a)
    let y := s.g (s.rb b)
    let n := imageBytes (selClass x)
    if !t.selectorOk core x then t.trap .prot x
    else if !(t.core core).inScratchpad y n then t.trap .localbound y
    else if y.toNat % min n 64 != 0 then t.trap .align y
    else t.block .blockedSync (.gset x y))

/-- The oldest GSET, GRESUME or GKILL of a kernel core that is not performed: its process, and its wait (R333). -/
def Core.kernelHead (c : Core) : Option (Nat × Wait) :=
  (c.procs.foldl (fun acc e => match e.2.wait with
    | .gset _ _ | .kernelOp _ _ => (match acc with
      | some (t, _, _) => if e.2.waitSince < t then some (e.2.waitSince, e.1, e.2.wait) else acc
      | none => some (e.2.waitSince, e.1, e.2.wait))
    | _ => acc) (none : Option (Nat × Nat × Wait))).map (fun r => r.2)

/-- The same where it is a GSET: its process, selector and image. -/
def Core.gsetHead (c : Core) : Option (Nat × Word × Word) :=
  match c.kernelHead with
  | some (pn, .gset x y) => some (pn, x, y)
  | _ => none

/-- The GSET at work, when it has a class and direction, its image is written, and the core it reaches is awake (R385). An
image to be written that lies in a poisoned line leaves the object unchanged, and the process takes POISON (R144, R378). -/
def State.gsetAt (s : State) (core : Nat) (rd : Bool) (cls : Nat → Bool) (body : Nat → Word → Word → State) : State :=
  match (s.core core).gsetHead with
  | some (pn, x, y) =>
    if selRd x != rd || !cls (selClass x) || !(s.core core).storesDone pn (s.core core).nextTag then s
    else
      let target := dieOf core * 512 + selCore x
      if classHasCore (selClass x) && (s.core target).gated then
        (if (s.core target).wakeEnd.isNone then s.later (.coreWake target) else s)
      else
        match (if rd then none else s.mem.poisonIn (poolKey core y.toNat) (imageBytes (selClass x))) with
        | some l => (s.wake core pn).poisonRead core pn (word (l * 64 % 2 ^ 21))
        | none => body pn x y
  | none => s

/-- The image of a GSET as a number. -/
def State.image (s : State) (core : Nat) (y : Word) (n : Nat) : Nat := s.mem.read (poolKey core y.toNat) n

/-- An image written to the scratchpad, 8 bytes at a time on path C. -/
def State.writeImageWords (s : State) (core pn : Nat) (y : Word) : Nat → Nat → State
  | 0, _ => s
  | n + 1, v =>
    (s.writeBytes .c (pidOf core pn) (s.jobOf core) (poolKey core y.toNat) 8 (v % 2 ^ 64)).writeImageWords core pn (y + 8)
      n (v / 2 ^ 64)

/-! ### Images -/

/-- An endpoint entry (R172). -/
def Endpoint.image (e : Endpoint) : Nat :=
  e.gen.toNat + (if e.valid then 2 ^ 12 else 0) + (if e.dirIn then 2 ^ 13 else 0) + (if e.buffered then 2 ^ 14 else 0)
    + e.typ.toNat * 2 ^ 15 + e.dm1.toNat * 2 ^ 17 + e.etype.toNat * 2 ^ 23 + e.shape.toNat * 2 ^ 28 + e.pkind.toNat * 2 ^ 32
    + e.ppkg.toNat * 2 ^ 34 + e.pdie.toNat * 2 ^ 46 + e.pcore.toNat * 2 ^ 48 + e.ppn.toNat * 2 ^ 64
    + e.owner.toNat * 2 ^ 88 + e.phandle.toNat * 2 ^ 96 + e.state.toNat * 2 ^ 128 + e.wseq.toNat * 2 ^ 132
    + e.wpn.toNat * 2 ^ 148 + e.credit.toNat * 2 ^ 156 + e.close.toNat * 2 ^ 164 + e.wdata.toNat * 2 ^ 192

/-- The entry an image gives: KW fields, and the RO fields under RAW or at their reset values for a new entry. -/
def Endpoint.ofImage (old : Endpoint) (fresh raw : Bool) (v : Nat) : Endpoint :=
  let x := BitVec.ofNat 256 v
  let dm1 : BitVec 6 := x.extractLsb' 17 6
  let e : Endpoint := { (if fresh then { credit := dm1.setWidth 7 + 1 } else old) with
    gen := x.extractLsb' 0 12, valid := x.getLsbD 12, dirIn := x.getLsbD 13, buffered := x.getLsbD 14
    typ := x.extractLsb' 15 2, dm1 := dm1, etype := x.extractLsb' 23 5, shape := x.extractLsb' 28 4
    pkind := x.extractLsb' 32 2, ppkg := x.extractLsb' 34 12, pdie := x.extractLsb' 46 2, pcore := x.extractLsb' 48 9
    ppn := x.extractLsb' 64 8, owner := x.extractLsb' 88 8, phandle := x.extractLsb' 96 32 }
  if raw then { e with
    xferSrc := e.peerCore, xferBack := e.phandle.toNat      -- an offer recorded there came from the other end (R184)
    state := x.extractLsb' 128 3, wseq := x.extractLsb' 132 16, wpn := x.extractLsb' 148 8, credit := x.extractLsb' 156 7
    close := x.extractLsb' 164 8, wdata := x.extractLsb' 192 64 }
  else if !fresh && old.xferSrc == old.peerCore && old.xferBack == old.phandle.toNat then
    { e with xferSrc := e.peerCore, xferBack := e.phandle.toNat }      -- the release goes where the other end now is
  else e

/-- State codes of R148. -/
def ProcState.code : ProcState → Nat
  | .free => 0
  | .ready => 1
  | .running => 2
  | .blockedChan => 3
  | .blockedFut => 4
  | .blockedSync => 5
  | .sleeping => 6
  | .alt => 7
  | .faulted => 8
  | .ended => 9
def ProcState.ofCode (n : Nat) : ProcState :=
  match n with
  | 0 => .free
  | 1 => .ready
  | 2 => .running
  | 3 => .blockedChan
  | 4 => .blockedFut
  | 5 => .blockedSync
  | 6 => .sleeping
  | 7 => .alt
  | 9 => .ended
  | _ => .faulted

/-- The WAIT field of a husk: a deadline, or the handle or address waited on (R147). -/
def Core.waitWord (c : Core) : Wait → Word
  | .sleep t => t
  | .access tag | .bufferFull tag => match c.req tag with | some r => r.ea | none => 0
  | .walk r => r.ea
  | .retryWalk va | .inlineCall _ _ _ _ va _ => va
  | .inlineReturn f va => va.getD f
  | .offering h _ _ | .sending h | .credit h _ | .departing h _ _ | .recording h _ _ _ | .receiving h _ | .receivingB h _ _
  | .future h _ _ => handleWord h
  | .barrier d => d.setWidth 64
  | .gset x _ | .kernelOp _ x => x
  | .staged _ => handleWord stagingHandle
  | .loopback _ => handleWord loopbackHandle
  | .sheafAcquire t => word t
  | _ => 0

/-- A husk image, with the live values of a resident process (R147, R335). -/
def State.huskImage (s : State) (c : Core) (pn : Nat) : Nat :=
  let p := c.proc pn
  let list := look [] c.ready p.prio.toNat
  let next := ((list.dropWhile (· != pn)).drop 1).head?
  let wcode := if p.wsz = 16 then 0 else if p.wsz = 32 then 1 else if p.wsz = 64 then 2 else 3
  p.pc.toNat % 2 ^ 56 + p.prio.toNat * 2 ^ 56 + p.tvec.toNat % 2 ^ 56 * 2 ^ 64 + p.state.code * 2 ^ 120 + wcode * 2 ^ 124
    + p.fpc.toNat % 2 ^ 56 * 2 ^ 128 + p.cause.toNat * 2 ^ 184 + p.faddr.toNat * 2 ^ 192 + p.finst.toNat * 2 ^ 256
    + p.xi.toNat * 2 ^ 288 + p.fctl.toNat * 2 ^ 304 + p.vstat.toNat * 2 ^ 313 + (if p.schk then 2 ^ 318 else 0)
    + p.srctr.toNat * 2 ^ 320 + (p.repDone.toNat + p.repRemain.toNat * 256) * 2 ^ 360 + next.getD 0 * 2 ^ 375
    + (if next.isNone then 2 ^ 383 else 0) + (c.waitWord p.wait).toNat * 2 ^ 384 + p.wbase.toNat * 2 ^ 448
    + p.depth.toNat * 2 ^ 460 + p.depmax.toNat * 2 ^ 468 + (if (c.slotOf pn).isSome then s.rotOf p else 0) * 2 ^ 476

/-- The process a husk image gives: its KW fields (R147, R148); its wait lasts while its state does. -/
def Proc.ofImage (p : Proc) (v : Nat) : Proc :=
  let x := BitVec.ofNat 512 v
  { p with
    wait := if p.state == ProcState.ofCode (x.extractLsb' 120 4).toNat then p.wait else .none
    pc := (x.extractLsb' 0 56).setWidth 64 &&& ~~~(3 : Word), prio := x.extractLsb' 56 7
    inRep := false, moving := false, tvec := vectorBits (x.extractLsb' 64 64), state := ProcState.ofCode (x.extractLsb' 120 4).toNat
    fpc := vectorBits (x.extractLsb' 128 64), cause := x.extractLsb' 184 8, faddr := x.extractLsb' 192 64
    finst := x.extractLsb' 256 32, xi := x.extractLsb' 288 16, fctl := x.extractLsb' 304 9 &&& 0x1F3
    vstat := x.extractLsb' 313 5, schk := x.getLsbD 318, srctr := x.extractLsb' 320 40
    repDone := x.extractLsb' 360 6, repRemain := x.extractLsb' 368 7, depmax := x.extractLsb' 468 8 }

/-- A frame-table entry (R329) and a job record (R327). -/
def FrameEntry.image (e : FrameEntry) : Nat :=
  e.job.toNat + (if e.valid then 2 ^ 16 else 0) + (if e.pin then 2 ^ 17 else 0) + (if e.large then 2 ^ 18 else 0)
    + e.vpn.toNat * 2 ^ 24 + e.frame.toNat * 2 ^ 64
def FrameEntry.ofImage (v : Nat) : FrameEntry :=
  let x := BitVec.ofNat 128 v
  { job := x.extractLsb' 0 16, valid := x.getLsbD 16, large := x.getLsbD 18, vpn := x.extractLsb' 24 40
    frame := x.extractLsb' 64 32 }
def JobRec.image (j : JobRec) : Nat :=
  j.job.toNat + (if j.valid then 2 ^ 16 else 0) + j.root.toNat * 2 ^ 64 + j.jseed.toNat * 2 ^ 128
    + j.oventry.toNat * 2 ^ 192 + j.ovheap.toNat * 2 ^ 256 + j.ovhlog.toNat * 2 ^ 312
def JobRec.ofImage (v : Nat) : JobRec :=
  let x := BitVec.ofNat 512 v
  { job := x.extractLsb' 0 16, valid := x.getLsbD 16, root := x.extractLsb' 64 56, jseed := x.extractLsb' 128 64
    oventry := x.extractLsb' 192 56, ovheap := x.extractLsb' 256 56, ovhlog := x.extractLsb' 312 5 }

/-- Bits a handler-table entry and a binding register hold (R196, R320). Bits [1:0] of a handler's PC are stored as written,
and cleared where a handler starts (DESIGN CHOICE, log 29). -/
def handlerMask : BitVec 512 := BitVec.ofNat 512 ((2 ^ 56 - 1) + 2 ^ 63 + (2 ^ 64 - 1) * 2 ^ 64)
def ldMask : Word := 0x0000FFFFFFFF003F

/-- Gate control (R336). -/
def Core.gateImage (c : Core) : Nat := c.gateJob.toNat + (if c.gateV then 2 ^ 16 else 0) + (if c.gated then 2 ^ 17 else 0)

/-- The object a selector names, as its image; the control object of class 1 has no stated content, and reads free values
(log 7). -/
def State.object (s : State) (core : Nat) (x : Word) : Nat :=
  let die := dieOf core
  let d := s.die die
  let i := selIndex x
  let c := s.core (die * 512 + selCore x)
  match selClass x with
  | 0 => (look ({} : Endpoint) c.endpoints i).image
  | 1 => Config.unstated s.free % 2 ^ 128
  | 2 => s.huskImage (s.huskShown (die * 512 + selCore x) i) i
  | 3 => (((s.huskShown (die * 512 + selCore x) (i % 256)).proc (i % 256)).reg (i / 256)).toNat
  | 4 => (look 0 c.handlers i).toNat
  | 5 => (s.lrec die i).toNat
  | 6 => (look ({} : FrameEntry) d.frames i).image
  | 7 => (look ({} : JobRec) d.jobs i).image
  | 8 => c.gateImage
  | 9 => if i = 0 then d.gbud.toNat else if i = 1 then d.gramp.toNat else (s.core (die * 512 + 254 + i)).frbase.toNat
  | _ =>
    let p := s.pkg (pkgOf core)
    if i = 0 then p.land.toNat else if i = 1 then p.duty.toNat else (look 0 p.ldbind (i - 16)).toNat

/-- GSET_READ (R334): the object is copied whole into the image. -/
def execGsetRead (core : Nat) (s : State) : Answer :=
  .next (s.gsetAt core true (fun _ => true) (fun pn x y =>
    let t := s.writeImageWords core pn y (imageBytes (selClass x) / 8) (s.object core x)
    (if selClass x = 1 then t.drawn else t).wake core pn))

/-- A refused write traps, the object unchanged (R335). -/
def State.gsetRefused (s : State) (core pn : Nat) (x : Word) : State := s.trapBlocked core pn .prot x

/-- GSET_ENDPT (R172, R184, R335): written, or removed with V = 0; RAW needs an index without an entry, and a gate holds
1,024 entries (R173). -/
def execGsetEndpt (core : Nat) (s : State) : Answer :=
  .next (s.gsetAt core false (· == 0) (fun pn x y =>
    let target := dieOf core * 512 + selCore x
    let i := selIndex x
    let c := s.core target
    let old := look ({} : Endpoint) c.endpoints i
    let e := old.ofImage (!old.valid) (selRaw x) (s.image core y 32)
    if selRaw x && old.valid then s.gsetRefused core pn x
    else if e.valid && !old.valid && 1024 ≤ (c.endpoints.filter (fun k => k.2.valid)).length then s.gsetRefused core pn x
    else
      let t := s.setCore target { c with endpoints := if e.valid then put c.endpoints i e else drop c.endpoints i }
      t.wake core pn))

/-- The entry a control class names, when the gate holds it, and the command. -/
def State.epControl (s : State) (core cmd : Nat) (body : Nat → Nat → Endpoint → Nat → State) : State :=
  s.gsetAt core false (· == 1) (fun pn x y =>
    let v := s.image core y 16
    let target := dieOf core * 512 + selCore x
    let e := look ({} : Endpoint) (s.core target).endpoints (selIndex x)
    let c := v % 2 ^ 64
    if c = 0 || 3 < c || !e.valid then (if cmd = 1 then s.gsetRefused core pn x else s)
    else if c = cmd then (body target (e.handleAt (selIndex x)) e (v / 2 ^ 64)).wake core pn
    else s)

/-- GSET_EPCTL_CLOSE (R183, R335); a command that R335 does not list is refused. -/
def execGsetEpctlClose (core : Nat) (s : State) : Answer :=
  .next (s.epControl core 1 (fun target handle _ _ => s.closeEp target handle 1))

/-- GSET_EPCTL_MOVE_BEGIN (R184): the endpoint is MOVING, at once or when its transfer ends. -/
def execGsetEpctlMoveBegin (core : Nat) (s : State) : Answer :=
  .next (s.epControl core 2 (fun target handle e _ =>
    if e.state == 5 then s.modEp target handle (fun e => { e with moving := true })
    else if e.state == 6 || e.state == 7 then s
    else s.modEp target handle (fun e => { e with before := e.state, state := 7, newPlace := none })))

/-- GSET_EPCTL_MOVE_END (R184): held events, and later ones, go on to the new place; where that is the old one, the entry has
its state again. -/
def execGsetEpctlMoveEnd (core : Nat) (s : State) : Answer :=
  .next (s.epControl core 3 (fun target handle e place =>
    if e.state != 7 then s
    else
      let dst := place % 2 ^ 12 * 2048 + place / 2 ^ 12 % 4 * 512 + place / 2 ^ 16 % 2 ^ 9
      let i := handle % 2 ^ 20
      let held := look [] (s.core target).held i
      let s := s.modCore target (fun c => { c with held := drop c.held i })
      let s := s.modEp target handle (fun e =>
        if dst = target then { e with state := e.before, before := 0, newPlace := none } else { e with newPlace := some dst })
      { s with net := s.net ++ held.map (fun (p : Packet) => { p with
          dst := dst, at_ := pkgOf target, hop := 0, inj := some target, gen := (s.pkg (pkgOf target)).gen, reply := none }) }))

/-- A change to a process of a live or a saved core. -/
def State.onHusk (s : State) (target : Nat) (who : Option Nat) (f : Core → Core) : State :=
  match who with
  | none => s.modCore target f
  | some job => s.onTenant target job (fun t => t.modCore target f)

/-- A core, live or a saved tenant's. -/
def State.coreOf (s : State) (target : Nat) (who : Option Nat) : Core :=
  match who with
  | none => s.core target
  | some job => s.coreFor target job

/-- What a write of a husk comes to. -/
inductive HuskWrite where
  | refused
  | wait (s : State)         -- the process is displaced, and its registers are not all FULL yet
  | done (s : State)
  deriving Repr

/-! ### The move of a process (R316; log 20) -/

/-- Whether a process may not be moved: it is FAULTED, or holds operand slots or an open region (R316). The overflow process
belongs to its core, and what has ended is not moved. -/
def Core.moveBarred (c : Core) (pn : Nat) : Bool :=
  255 ≤ pn || (c.proc pn).state == .free || (c.proc pn).state == .faulted || (c.proc pn).state == .ended
    || c.opslots.any (fun e => e.2.owner == some pn) || c.hold.owner == some pn

/-- A wait that a process keeps on another core, as it stands there: its earlier accesses are performed. -/
def Wait.moved (w : Wait) : Option Wait :=
  match w with
  | .none | .sleep _ | .sending _ | .credit _ _ | .receiving _ _ | .receivingB _ _ _ | .alt _ | .future _ _ _ | .tag _
  | .barrier _ | .xfence _ _ | .sheafAcquire _ | .specb => some w
  | .offering h x _ => some (.offering h x 0)
  | .departing h x _ => some (.departing h x 0)
  | .recording h o d _ => some (.recording h o d 0)
  | .fence sc _ => some (.fence sc 0)
  | .inlineReturn f (Option.none : Option Word) => some (.inlineReturn f Option.none)
  | _ => Option.none

/-- Whether a displaced process may leave: the pending tags of its window are clear, and nothing it waits for is bound to its
core (R316 step 2). -/
def Core.movable (c : Core) (pn : Nat) : Bool :=
  (c.proc pn).moving && !c.owesResult pn && !c.reqs.any (fun r => r.pn == pn && !r.ended) && (c.proc pn).wait.moved.isSome

/-- Step 1: the process is displaced, and kept from its ready list. -/
def State.setAside (s : State) (target pn : Nat) (who : Option Nat) : State :=
  let aside (t : State) : State := t.onHusk target who (fun c => (c.unlist pn).setProc pn { c.proc pn with moving := true })
  let c := s.coreOf target who
  if (c.proc pn).moving then s
  else match who, c.slotOf pn with
    | none, some i =>
      if (c.slot i).settled.isSome && c.mayLeave i then aside (s.leaveSlot target i pn .preempt) else s
    | _, _ => aside s

/-- Steps 1 and 2: a husk written FREE displaces its process, and is written once that one may leave. -/
def State.moveOut (s : State) (target pn : Nat) (who : Option Nat) : HuskWrite :=
  if (s.coreOf target who).moveBarred pn then .refused
  else
    let t := s.setAside target pn who
    if (t.coreOf target who).movable pn then .done t else .wait t

/-- The displaced process whose husk an image is: its core, the saved tenant that holds it, and its number. -/
def State.mover (s : State) (v : Nat) : Option (Nat × Option Nat × Nat) :=
  let of (core : Nat) (who : Option Nat) (c : Core) : Option (Nat × Option Nat × Nat) :=
    (c.procs.find? (fun e => c.movable e.1 && s.huskImage c e.1 == v)).map (fun e => (core, who, e.1))
  (s.cores.findSome? (fun e => of e.1 none e.2)).or
    (s.dies.findSome? (fun d => d.2.saved.findSome? (fun x => x.cores.findSome? (fun e => of e.1 (some x.job) e.2))))

/-- Where a core holds the processes of a job: live, or saved; none where it does not serve the job. -/
def State.jobPlace (s : State) (target job : Nat) : Option (Option Nat) :=
  if isKernel target then none
  else if (s.core target).gateV && s.jobOf target == job then some none
  else if (s.die (dieOf target)).saved.any (fun x => x.job == job && x.cores.any (fun e => e.1 == target)) then some (some job)
  else none

/-- A future's waiter under a new process identifier. -/
def State.renameWaiter (s : State) (old new : Nat) : State :=
  let fix (c : Core) : Core := { c with waiters := c.waiters.map (fun w => if w.2.2 = old then (w.1, w.2.1, new) else w) }
  { s with
    cores := s.cores.map (fun (e : Nat × Core) => (e.1, fix e.2))
    dies := s.dies.map (fun (e : Nat × Die) => (e.1, { e.2 with saved := e.2.saved.map (fun (x : Saved) =>
      { x with cores := x.cores.map (fun (k : Nat × Core) => (k.1, fix k.2)) }) }))
    net := s.net.map (fun (p : Packet) => match p.body with
      | .futureWait h q => if q = old then { p with body := .futureWait h new } else p
      | _ => p) }

/-- Step 4: a displaced process gets the lowest free number of another core of its job, with its husk and its window; none
where the number is not that one, the core belongs to another launch with a smaller register region, or its region has no
room for the window (R316). -/
def State.moveIn (s : State) (target pn : Nat) (m : Nat × Option Nat × Nat) : Option State :=
  let (from_, was, old) := m
  let src := s.coreOf from_ was
  let p := src.proc old
  match s.jobPlace target (was.getD (s.jobOf from_)) with
  | none => none
  | some who =>
    let c := s.coreOf target who
    let same := match c.launch, src.launch with
      | some a, some b => a.die == b.die && a.id == b.id
      | _, _ => false
    if target = from_ || c.freeNumber != some pn || c.launch.isNone || (!same && partReg c.part < partReg src.part) then none
    else (c.allocWindow p.wsz).map (fun b =>
      let q : Proc := { p with moving := false, wbase := BitVec.ofNat 12 b, wait := p.wait.moved.getD .none }
      let s := s.onHusk from_ was (fun k => { k with procs := drop k.procs old })
      let s := s.onHusk target who (fun k =>
        let k := k.setProc pn q
        if q.state == .ready then k.pushTail pn else k)
      s.renameWaiter (pidOf from_ old) (pidOf target pn))

/-- A husk's fields are written (R147, R148). -/
def Core.writeHusk (c : Core) (pn v : Nat) : Core :=
  let c := (c.unlist pn).setProc pn ((c.proc pn).ofImage v)
  if (c.proc pn).state == .ready then c.pushTail pn else c

/-- A husk is written (R147, R148, R335): the fields of a FAULTED, displaced or saved process; FREE begins the move of one,
and the image of a displaced process, written where no process of that number is, ends it (R316). -/
def State.writeHusk (s : State) (target pn v : Nat) : HuskWrite :=
  let live := (s.proc target pn).state
  let owner := s.huskOwner target pn
  if ProcState.ofCode (v / 2 ^ 120 % 16) == .free then
    match (if live != .free then some none else owner) with
    | some who => s.moveOut target pn who
    | none => .refused
  else match (if live == .faulted then none else s.mover v), owner with
    | some m, some who =>
      (match s.moveIn target pn m with
        | some t => .done t
        | none => .done (s.onHusk target who (fun c => c.writeHusk pn v)))
    | some m, none => (match s.moveIn target pn m with | some t => .done t | none => .refused)
    | none, some who => .done (s.onHusk target who (fun c => c.writeHusk pn v))
    | none, none => .refused

/-- GSET_HUSK (R147, R148, R316, R335). -/
def execGsetHusk (core : Nat) (s : State) : Answer :=
  .next (s.gsetAt core false (· == 2) (fun pn x y =>
    match s.writeHusk (dieOf core * 512 + selCore x) (selIndex x) (s.image core y 64) with
    | .refused => s.gsetRefused core pn x
    | .wait t => t
    | .done t => t.wake core pn))

/-- GSET_REG (R335): the register becomes FULL. -/
def execGsetReg (core : Nat) (s : State) : Answer :=
  .next (s.gsetAt core false (· == 3) (fun pn x y =>
    let target := dieOf core * 512 + selCore x
    let i := selIndex x % 256
    match s.huskOwner target i with
    | none => s.gsetRefused core pn x
    | some who =>
      (s.onHusk target who (fun c =>
        c.setProc i ((c.proc i).arrive (selIndex x / 256) (word (s.image core y 8))))).wake core pn))

/-- GSET_HTAB (R196). -/
def execGsetHtab (core : Nat) (s : State) : Answer :=
  .next (s.gsetAt core false (· == 4) (fun pn x y =>
    (s.modCore (dieOf core * 512 + selCore x) (fun c => { c with
      handlers := put c.handlers (selIndex x) (BitVec.ofNat 512 (s.image core y 64) &&& handlerMask) })).wake core pn))

/-- GSET_LREC (R303). -/
def execGsetLrec (core : Nat) (s : State) : Answer :=
  .next (s.gsetAt core false (· == 5) (fun pn x y =>
    (s.setLrec (dieOf core) (selIndex x) (BitVec.ofNat 1024 (s.image core y 128) &&& lrMask)).wake core pn))

/-- GSET_FTAB (R329, R335): a pinned entry is refused. -/
def execGsetFtab (core : Nat) (s : State) : Answer :=
  .next (s.gsetAt core false (· == 6) (fun pn x y =>
    let die := dieOf core
    if (look ({} : FrameEntry) (s.die die).frames (selIndex x)).pin then s.gsetRefused core pn x
    else (s.modDie die (fun d => { d with
      frames := put d.frames (selIndex x) (FrameEntry.ofImage (s.image core y 16)) })).wake core pn))

/-- GSET_JOB (R327). -/
def execGsetJob (core : Nat) (s : State) : Answer :=
  .next (s.gsetAt core false (· == 7) (fun pn x y =>
    (s.modDie (dieOf core) (fun d => { d with
      jobs := put d.jobs (selIndex x) (JobRec.ofImage (s.image core y 64)) })).wake core pn))

/-- GSET_GATE (R336). -/
def execGsetGate (core : Nat) (s : State) : Answer :=
  .next (s.gsetAt core false (· == 8) (fun pn x y =>
    let v := s.image core y 8
    (s.modCore (dieOf core * 512 + selCore x) (fun c => { c with
      gateJob := BitVec.ofNat 16 v, gateV := v.testBit 16 })).wake core pn))

/-- GSET_DIE (R335): GBUD, GRAMP, or the fault-ring base of a kernel core (R339). -/
def execGsetDie (core : Nat) (s : State) : Answer :=
  .next (s.gsetAt core false (· == 9) (fun pn x y =>
    let v := s.image core y 8
    let die := dieOf core
    let i := selIndex x
    (if i = 0 then s.modDie die (fun d => { d with gbud := BitVec.ofNat 20 v })
      else if i = 1 then s.modDie die (fun d => { d with gramp := BitVec.ofNat 20 v })
      else s.modCore (die * 512 + 254 + i) (fun c => { c with frbase := word v, ringPos := 0 })).wake core pn))

/-- A binding register is written; the turns of a time-shared die begin (R320). -/
def State.setBinding (s : State) (pkg i : Nat) (v : Word) : State :=
  let s := s.modPkg pkg (fun p => { p with ldbind := put p.ldbind i (v &&& ldMask) })
  (dies4 pkg).foldl (fun t d =>
    if ldV v && ldTs v && v.getLsbD (d % 4) && (t.die d).quantumEnd.isNone then
      t.modDie d (fun x => { x with turn := i, quantumEnd := some (t.ticks + ldQuant v) })
    else t) s

/-- DUTY is written (R321). -/
def State.setDuty (s : State) (pkg : Nat) (v : Word) : State := s.modPkg pkg (fun p => p.setDuty v)

/-- GSET_PKG (R292, R320, R321). -/
def execGsetPkg (core : Nat) (s : State) : Answer :=
  .next (s.gsetAt core false (· == 10) (fun pn x y =>
    let v := word (s.image core y 8)
    let pkg := pkgOf core
    let i := selIndex x
    (if i = 0 then s.modPkg pkg (fun p => { p with land := v.setWidth 56 })
      else if i = 1 then s.setDuty pkg v
      else s.setBinding pkg (i - 16) v).wake core pn))

/-! ### Replies to an engine page fault (R229) -/

/-- A copy that waits for a reply continues, or ends FAILED with the cause of its fault. -/
def State.copyReply (s : State) (target handle : Nat) (go : Bool) : State :=
  let c := s.core target
  match c.copyQ with
  | o :: _ =>
    if c.handleFor target o.entry != handle then s
    else match o.fault with
      | some (f, _) =>
        if go then s.setCopyHead target { o with fault := none }
        else s.copyEnd target { o with fault := none } f.code
      | none => s
  | [] => s

/-- GSET_FREPLY (R229, R335). -/
def execGsetFreply (core : Nat) (s : State) : Answer :=
  .next (s.gsetAt core false (· == 12) (fun pn x y =>
    let v := s.image core y 8
    (s.copyReply (dieOf core * 512 + selCore x) (v % 2 ^ 32) (v.testBit 32)).wake core pn))

/-! ### GRESUME and GKILL (R337, R338) -/

/-- The core and process number an identifier names, when it names a core of the issuer's die. -/
def pidOnDie (core : Nat) (p : Word) : Option (Nat × Nat) :=
  let target := p.toNat / 256
  if p.toNat / 2 ^ 31 != 0 || dieOf target != dieOf core || 260 ≤ idxOf target then none
  else some (target, p.toNat % 256)

/-- A FAULTED process becomes READY (R337). -/
def State.resumeProc (s : State) (target pn : Nat) : State :=
  s.modCore target (fun c => (c.setProc pn { c.proc pn with state := .ready }).pushTail pn)

/-- GRESUME (R333, R337): behind an earlier GSET, GRESUME or GKILL of its core it blocks. -/
def execGresume (w : BitVec 2) (a : BitVec 5) (s : State) : Answer :=
  let core := s.ctx.core
  s.issue w { reads := [s.ra a], legal := isKernel core } (fun t =>
    let x := s.g (s.ra a)
    if (t.core core).kernelHead.isSome then t.block .blockedSync (.kernelOp false x) else
    match pidOnDie core x with
    | some (target, pn) =>
      if (t.proc target pn).state == .faulted then (t.advance).resumeProc target pn else t.trap .prot x
    | none => t.trap .prot x)

/-- GKILL (R333, R338), as GRESUME in order. -/
def execGkill (w : BitVec 2) (a : BitVec 5) (s : State) : Answer :=
  let core := s.ctx.core
  s.issue w { reads := [s.ra a], legal := isKernel core } (fun t =>
    let x := s.g (s.ra a)
    if (t.core core).kernelHead.isSome then t.block .blockedSync (.kernelOp true x) else
    match pidOnDie core x with
    | some (target, pn) => if pn = 255 then t.trap .prot x else (t.advance).killProc target pn 0x40
    | none => t.trap .prot x)

/-- A GRESUME or GKILL that waits is performed once it is the oldest of its core (R333). -/
def State.kernelGoes (s : State) (core pn : Nat) : State :=
  match (s.core core).kernelHead with
  | some (q, .kernelOp kill x) =>
    if q != pn then s
    else match pidOnDie core x with
      | some (target, n) =>
        if kill then (if n = 255 then s.trapBlocked core pn .prot x else (s.wake core pn).killProc target n 0x40)
        else if (s.proc target n).state == .faulted then (s.wake core pn).resumeProc target n
        else s.trapBlocked core pn .prot x
      | none => s.trapBlocked core pn .prot x
  | _ => s

/-! ### Shoot-downs (R343) -/

/-- The key of the leaf entry of an address, as a walk with a new entry finds it; none where a directory is missing,
POISON where an entry it reads lies in a poisoned line (R378). -/
def State.leafKey (s : State) (die job va : Nat) (new : Word) : Option Nat ⊕ Cause :=
  match s.jobRec die job with
  | none => .inl none
  | some rec =>
    let a := rec.root.toNat
    let root := storeKey (a / 2 ^ 42) (a / 2 ^ 40 % 4) a
    let k0 := root + 8 * (va / 2 ^ 42 % 16384)
    let e0 := s.mem.word (k0 / 8)
    let leaf (k : Nat) : Option Nat ⊕ Cause := if s.mem.isPoisoned k then .inr .poison else .inl (some k)
    if s.mem.isPoisoned k0 then .inr .poison
    else if !e0.getLsbD 0 then .inl none
    else match tableKey root e0 with
      | none => .inr .prot
      | some t1 =>
        let k1 := t1 + 8 * (va / 2 ^ 29 % 8192)
        let e1 := s.mem.word (k1 / 8)
        if s.mem.isPoisoned k1 then .inr .poison
        else if pteLg e1 || pteLg new then .inl (some k1)
        else if !e1.getLsbD 0 then .inl none
        else match tableKey root e1 with
          | none => .inr .prot
          | some t2 => leaf (t2 + 8 * (va / 2 ^ 16 % 8192))

/-- Pinned entries of a server. -/
def Die.pinned (d : Die) (server : Nat) : Nat := (d.frames.filter (fun e => e.1 / 2048 == server && e.2.pin)).length

/-- The place of the entry that covers a page. -/
def Die.frameIdx (d : Die) (server job va : Nat) : Option Nat :=
  (d.frames.find? (fun e => e.1 / 2048 == server && e.2.valid && e.2.job.toNat == job
    && e.2.vpn.toNat * 65536 / pageSize e.2.large == va / pageSize e.2.large)).map (fun e => e.1)

/-- Step 1: the old home's entry is loaded if absent, and pinned; none where 64 are pinned already. -/
def State.pinOld (s : State) (job va : Nat) (old : Word) : Option State :=
  if !old.getLsbD 0 then some s
  else
    let home := pteHome old
    let server := serverOf (pteTarget old)
    if 64 ≤ (s.die home).pinned server then none
    else
      let t := (s.homeKey home (pteTarget old) job va).1
      match (t.die home).frameIdx server job va with
      | some i => some (t.modDie home (fun d => { d with
          frames := put d.frames i { look ({} : FrameEntry) d.frames i with pin := true } }))
      | none => some t

/-- Cores that an invalidation has to reach: every core of the dies on which the job holds cores (R343 step 3); the kernel
job's are the dies of which the state lists a package or a core, one that it does not list being as it is at reset. -/
def State.shootCores (s : State) (job : Nat) : List Nat :=
  let dies := if job = 0 then (s.pkgs.flatMap (fun (e : Nat × Pkg) => (List.range 4).map (fun i => 4 * e.1 + i))
      ++ s.cores.map (fun e => dieOf e.1)).foldl insertKey []
    else ((s.pkgs.flatMap (fun (e : Nat × Pkg) => (List.range 4).map (fun i => 4 * e.1 + i))).filter (s.holds job)).foldl insertKey []
  dies.flatMap (fun d => (List.range 260).map (fun i => d * 512 + i))

/-- The name of a shoot-down that the mailbox of a die asked for (R344): no kernel core has this index. -/
def mailShooter (die : Nat) : Nat := die * 512 + 511

/-- A MIGRATE command of a die completes (R344, R349). -/
def State.migrated (s : State) (die : Nat) : State :=
  s.modPkg (pkgOfDie die) (fun p => { p with
    mailbox := p.mailbox ++ (p.migrations.filter (fun m => m.die == die)).map (fun (m : Migration) =>
      { dev := m.dev, opcode := 0xC002, status := .success })
    migrations := p.migrations.filter (fun m => m.die != die) })

/-- No read of a page may return a write older than its last one: its new owner sees all that the old one wrote (R284). -/
def Memory.settlePage (m : Memory) (x : Shoot) : Memory :=
  let k := storeKey (pteHome x.pte) (pteTarget x.pte) (pteFrame x.pte * 65536)
  { m with hist := m.hist.filter (fun h => h.word * 8 < k || k + pageSize (pteLg x.pte) ≤ h.word * 8) }

/-- Host lines of a page that its home holds are written back (R344 step 2, R348): the host has their bytes. -/
def State.writeBack (s : State) (pte : Word) : State :=
  let k := storeKey (pteHome pte) (pteTarget pte) (pteFrame pte * 65536)
  s.modPkg (pteHome pte / 4) (fun p => { p with
    hostLines := p.hostLines.filter (fun (e : Nat × List Byte) => e.1 * 64 < k || k + pageSize (pteLg pte) ≤ e.1 * 64) })

/-- The host is told through the mailbox of a page that kernel cores have moved to it (R344 step 3): its logical devices find
a completion of MIGRATE with the page's address (log 18). -/
def State.tellHost (s : State) (x : Shoot) : State :=
  let die := dieOf x.kcore
  s.modPkg (pkgOfDie die) (fun p => { p with
    mailbox := p.mailbox ++ (p.ldbind.filter (fun e => ldNames e.2 x.job die)).map (fun (e : Nat × Word) =>
      { dev := e.1, opcode := 0xC002, status := .success, payload := [word x.va] }) })

/-- Whether an address lies in the page of a shoot-down: a page is as large as the larger of its two mappings, or of the
entry that is asked about. -/
def Shoot.covers (h : Shoot) (va : Nat) (large : Bool) : Bool :=
  va / pageSize (large || h.lg) == h.va / pageSize (large || h.lg)

/-- Whether a shoot-down holds the pinned entry of its page at its old home; another one of the page may hold it too. -/
def Shoot.holdsPin (x y : Shoot) : Bool :=
  x.home.isSome && y.home == x.home && y.job == x.job && (x.covers y.va y.lg || y.covers x.va x.lg)

/-- Step 6: every core has acknowledged; the pinned entry is dropped unless another shoot-down of the page holds it, the
status word is 1, and GSET completes. A page that moved to the host has been written back, and the host is told. -/
def State.shootEnds (s : State) (x : Shoot) : State :=
  let die := dieOf x.kcore
  let toHost := x.moves && pteOwn x.pte == 1
  let s := if x.moves then { s with mem := s.mem.settlePage x } else s
  let s := if toHost then s.writeBack x.pte else s
  let s := s.modDie die (fun d => { d with shoots := d.shoots.filter (fun y => y.kcore != x.kcore) })
  let shared := s.dies.any (fun e => e.2.shoots.any x.holdsPin)
  let s := match x.home with
    | some h => if shared then s else s.modDie h (fun d => { d with frames := d.frames.filter (fun e =>
        !(e.2.pin && e.2.job.toNat == x.job && e.2.vpn.toNat * 65536 / pageSize e.2.large == x.va / pageSize e.2.large)) })
    | none => s
  if x.kcore = mailShooter die then s.migrated die
  else
    let s := if toHost then s.tellHost x else s
    (s.writeBytes .c (pidOf x.kcore x.pn) 0 (poolKey x.kcore (x.image + 24).toNat) 8 1).wake x.kcore x.pn
def State.shootMayEnd (s : State) (x : Shoot) : State :=
  if x.pendingCores.isEmpty && x.unacked.isEmpty then s.shootEnds x else s

/-- What the start of a shoot-down comes to: a cause, a wait for a pin, or the new state. -/
inductive ShootStart where
  | cause (c : Cause)
  | wait
  | started (s : State)

/-- Pages whose OWN is MIGRATING, as a new leaf leaves them (R352). -/
def State.noteMigrating (s : State) (pkg job va : Nat) (pte : Word) : State :=
  s.modPkg pkg (fun p =>
    let rest := p.migrating.filter (fun e => !(e == (job, va)))
    { p with migrating := if pteOwn pte = 2 then rest ++ [(job, va)] else rest })

/-- Steps 1 and 2, and the invalidations are on their way. -/
def State.shootStart (s : State) (kcore pn job va : Nat) (pte image : Word) : ShootStart :=
  let die := dieOf kcore
  match s.leafKey die job va pte with
  | .inr c => .cause c
  | .inl none => .cause .page
  | .inl (some k) =>
    let old := s.mem.word (k / 8)
    match s.pinOld job va old with
    | none => .wait
    | some t =>
      let t := (t.writeBytes .c (pidOf kcore pn) 0 k 8 pte.toNat).noteMigrating (pkgOfDie die) job va pte
      let h : Shoot := { kcore := kcore, pn := pn, job := job, va := va, pte := pte, image := image,
                         pendingCores := t.shootCores job, home := if old.getLsbD 0 then some (pteHome old) else none, lg := pteLg old || pteLg pte, moves := pteOwn old != pteOwn pte }
      .started ((t.modDie die (fun d => { d with shoots := d.shoots ++ [h] })).shootMayEnd h)

/-- GSET_SHOOT (R343): steps 1 and 2. -/
def execGsetShoot (core : Nat) (s : State) : Answer :=
  .next (s.gsetAt core false (· == 11) (fun pn _ y =>
    if (s.die (dieOf core)).shoots.any (fun h => h.kcore == core) then s
    else
      let v := s.image core y 32
      let va := v / 2 ^ 64 % 2 ^ 64
      match s.shootStart core pn (v % 2 ^ 16) va (word (v / 2 ^ 128 % 2 ^ 64)) y with
      | .cause c => s.trapBlocked core pn c (word va)
      | .wait => s
      | .started t => t))

/-- The shoot-down a kernel core has at work. -/
def State.shootOf (s : State) (kcore : Nat) : Option Shoot := (s.die (dieOf kcore)).shoots.find? (fun h => h.kcore == kcore)
def State.setShoot (s : State) (h : Shoot) : State :=
  (s.modDie (dieOf h.kcore) (fun d => { d with shoots := d.shoots.map (fun y => if y.kcore = h.kcore then h else y) })).shootMayEnd h

/-- Whether a core passes the invalidation on to another of its die: an earlier one of its row, or a row head above. -/
def treeAbove (p c : Nat) : Bool :=
  dieOf p == dieOf c && !isKernel p && !isKernel c && p != c
    && ((idxOf p / 16 == idxOf c / 16 && idxOf p % 16 < idxOf c % 16)
      || (idxOf p % 16 == 0 && idxOf p / 16 < idxOf c / 16))

/-- Step 4 at a core: TLB entries, instruction-cache lines of the page and walks in flight. -/
def State.invalidatePage (s : State) (core : Nat) (h : Shoot) : State :=
  let s := s.modCore core (fun c => { c with
    tlb := c.tlb.filter (fun e => !(e.job == h.job && h.covers (e.vpn * pageSize e.large) e.large)) })
  let s := s.modCluster (dieOf core) (clusterOf core) (fun k => { k with
    lines := k.lines.filter (fun l => !(l.1 == h.job && h.covers (l.2.1 * 64) false)) })
  s.modDie (dieOf core) (fun d => { d with walks := d.walks.map (fun w =>
    let mine := match w.asker with
      | .access c _ | .fetch c _ _ | .engine c => c == core
      | .home _ _ _ => false
    if mine && w.job = h.job && h.covers w.va false then { w with stale := true } else w) })

/-- SHOOTDOWN_INVALIDATE (R343 steps 3 and 4): a gated core is skipped. -/
def execShootdownInvalidate (kcore core : Nat) (s : State) : Answer :=
  .next (match s.shootOf kcore with
    | none => s
    | some h =>
      if !h.pendingCores.contains core || h.pendingCores.any (fun p => treeAbove p core) then s
      else
        let rest := h.pendingCores.filter (· != core)
        if (s.core core).gated then s.setShoot { h with pendingCores := rest }
        else (s.invalidatePage core h).setShoot { h with
          pendingCores := rest, unacked := h.unacked ++ [core], limits := h.limits ++ [(core, (s.core core).nextTag)] })

/-- Step 5: accesses of the page with tags below the limit are performed, or entered in a wait list at their point of
service; one that was refused is still to be sent there. Stores that a speculation region holds are performed first. -/
def Core.drained (c : Core) (h : Shoot) (limit : Nat) : Bool :=
  let old (r : Req) : Bool := r.global && r.job == h.job && h.covers r.ea.toNat false
  c.reqs.all (fun r => limit ≤ r.tag || !old r || r.phase == .performed || r.phase == .waiting)
    && c.hold.items.all (fun x => match x with
      | .store r => limit ≤ r.tag || !old r
      | .message _ _ _ _ => true)

/-- SHOOTDOWN_ACK (R343 step 5). -/
def execShootdownAck (kcore core : Nat) (s : State) : Answer :=
  .next (match s.shootOf kcore with
    | none => s
    | some h =>
      if !h.unacked.contains core then s
      else
        let limit := ((h.limits.find? (fun e => e.1 == core)).map (fun e => e.2)).getD 0
        if (s.core core).drained h limit && (s.coreFor core h.job).drained h limit then s.setShoot { h with unacked := h.unacked.filter (· != core) } else s)

/-! ### Fault messages (R339 to R341) -/

/-- The first entry of a message (R340). -/
def FaultMsg.first (m : FaultMsg) : BitVec 512 :=
  BitVec.ofNat 512 (m.kind.toNat + m.more.length * 2 ^ 4 + m.cause.toNat * 2 ^ 8 + m.pid.toNat * 2 ^ 16
    + m.job.toNat * 2 ^ 48 + m.fpc.toNat * 2 ^ 64 + m.faddr.toNat * 2 ^ 128 + m.finst.toNat * 2 ^ 192
    + m.extra.toNat * 2 ^ 224)

/-- The key of an entry of a kernel core's fault ring. -/
def Core.ringKey (c : Core) (kcore i : Nat) : Nat := poolKey kcore (c.frbase.toNat + 64 * ((c.ringPos + i) % 256))

/-- Doublewords of an entry, the first left out, then doubleword 0 as a FILL or left EMPTY. -/
def State.writeEntry (s : State) (kcore k : Nat) (v : BitVec 512) (fill : Bool) : State :=
  let pid := pidOf kcore 0
  let s := (List.range 7).foldl (fun t i =>
    t.writeBytes .n pid 0 (k + 8 * (i + 1)) 8 (v.extractLsb' (64 * (i + 1)) 64).toNat) s
  if fill then s.writeBytes .n pid 0 k 8 (v.extractLsb' 0 64).toNat
  else { s with mem := (s.mem.writeOn .n pid 0 k 8 (v.extractLsb' 0 64).toNat).setFull (k / 8) false }

/-- A message written into a kernel core's ring, its first entry last; none while an entry it needs is not EMPTY. -/
def State.ringWrite (s : State) (kcore : Nat) (m : FaultMsg) : Option State :=
  let c := s.core kcore
  let keys := (List.range (m.more.length + 1)).map (c.ringKey kcore)
  if keys.any (fun k => s.mem.isFull (k / 8)) then none
  else
    let s := ((keys.drop 1).zip m.more).foldl (fun t e => t.writeEntry kcore e.1 e.2 false) s
    let s := s.modCore kcore (fun c => { c with ringPos := (c.ringPos + m.more.length + 1) % 256 })
    some (s.writeEntry kcore (keys.headD 0) m.first true)

/-- The logical device whose host serves faults of a job on a die under FSERV mode 1 (R321, R342, R352). -/
def Pkg.servesFaults (p : Pkg) (job die : Nat) : Bool :=
  p.dutyMode 1 && p.ldbind.any (fun e => ldNames e.2 job die && !p.dutyHw.getLsbD e.1)

/-- FAULT_MESSAGE_WRITE (R339, R342): the oldest message of a gate is written to its kernel core's ring, or forwarded to
the host; while FSERV changes its MODE it is held (R321). A process fault waits until the process's divider results are
written. -/
def execFaultMessageWrite (core : Nat) (s : State) : Answer :=
  .next (match (s.core core).faultOut with
    | [] => s
    | m :: rest =>
      let pn := m.pid.toNat % 256
      let held := m.kind == 1 && ((s.core core).divider.any (fun o => o.pn == pn) || (s.core core).inFlight pn)
      let taken (t : State) : State := t.modCore core (fun c => { c with faultOut := rest })
      let p := s.pkg (pkgOf core)
      if held || p.turning.getLsbD 1 then s
      else if p.servesFaults m.job.toNat (dieOf core) then
        (taken s).modPkg (pkgOf core) (fun p => { p with
          forwarded := p.forwarded ++ [(core, m)] })
      else match s.ringWrite (kernelFor core) m with
        | some t => taken t
        | none => s)

end Sys2Proof.Machine
end

