-- ==== Sys2Proof/Machine/Host.lean ====
section
/-! DEFINITION. The host: the mailbox and its commands (R321, R344, R349, R390), host queues (R351), host accesses to device
memory and recalls of host lines (R347, R348), restarts and resets of logical devices (R352 to R354), the firmware image
(R388 to R390) and the SPDM responder (R391). -/

namespace Sys2Proof.Machine

/-! ### Logical devices (R320, R345, R346) -/

/-- Whether a logical device exists and a port of the package serves it: a MEMORY port serves none (R346). -/
def Pkg.serves (p : Pkg) (dev : Nat) : Bool := dev < 16 && p.ports != 3

/-- Whether a die of the package, by its number 0 to 3, is one of a device's. -/
def Pkg.devDie (p : Pkg) (dev die : Nat) : Bool :=
  die < 4 && ldV (p.binding dev) && (p.binding dev).getLsbD die

/-- The dies of a device. -/
def Pkg.devDies (p : Pkg) (pkg dev : Nat) : List Nat :=
  ((List.range 4).filter (p.devDie dev)).map (fun d => 4 * pkg + d)

/-! ### The mailbox (R349, R389) -/

/-- A command completes. -/
def State.mailDone (s : State) (pkg dev op : Nat) (st : MailStatus) (payload : List Word) : State :=
  s.modPkg pkg (fun p => { p with
    mailbox := p.mailbox ++ [{ dev := dev, opcode := op, status := st, payload := payload }] })

/-- Whether a command is a new request of a function whose MODE is changing: it is held. FAULTTAKE, FAULTREPLY and the
MIGRATE of a page on its way belong to the work in progress (R321). -/
def Pkg.holdsCommand (p : Pkg) (op : Nat) (duty : Option Nat) : Bool :=
  duty.any p.turning.getLsbD && op != 0xC000 && op != 0xC001 && op != 0xC002

/-- The logical device of a held command, and its opcode. -/
def HeldCmd.dev : HeldCmd → Nat
  | .migrate dev _ _ _ | .routeload dev _ _ => dev
def HeldCmd.op : HeldCmd → Nat
  | .migrate _ _ _ _ => 0xC002
  | .routeload _ _ _ => 0xC004

/-- A command joins those that are held. -/
def State.holdCmd (s : State) (pkg : Nat) (h : HeldCmd) : State :=
  s.modPkg pkg (fun p => { p with heldCmds := p.heldCmds ++ [h] })

/-- A vendor command as its function serves it: refused in recovery, and where the function is in hardware mode. -/
def State.served (s : State) (pkg dev op : Nat) (duty : Option Nat) (held : Option HeldCmd) (body : State) : State :=
  let p := s.pkg pkg
  if !p.serves dev then s
  else if p.recovery && op != 0xC007 then s.mailDone pkg dev op .recovery []
  else if p.holdsCommand op duty then (match held with
    | some h => s.holdCmd pkg h
    | none => s)
  else if duty.any (fun i => !p.dutyMode i) then s.mailDone pkg dev op .invalidInput []
  else body
def State.command (s : State) (pkg dev op : Nat) (duty : Option Nat) (body : State) : Answer :=
  .next (s.served pkg dev op duty none body)

/-- A command that may have to wait: behind an earlier one of its function that waits, it waits too (R321). -/
def State.arrives (s : State) (pkg : Nat) (h : HeldCmd) (serve : State → State) : Answer :=
  let p := s.pkg pkg
  .next (if p.serves h.dev && !p.recovery && p.heldCmds.any (fun x => x.op == h.op) then s.holdCmd pkg h else serve s)

/-- A command that succeeds, or whose input is invalid. -/
def State.mailResult (s : State) (pkg dev op : Nat) (t : Option State) : State :=
  match t with
  | some u => u.mailDone pkg dev op .success []
  | none => s.mailDone pkg dev op .invalidInput []

/-- MAILBOX_UNSUPPORTED (R349). -/
def execMailboxUnsupported (pkg dev opcode : Nat) (s : State) : Answer :=
  if 0xC000 ≤ opcode && opcode ≤ 0xC008 then .next s
  else s.command pkg dev opcode none (s.mailDone pkg dev opcode .unsupported [])

/-! ### Faults (R321, R342) -/

/-- Whether a message concerns a job and die of a device. -/
def Pkg.concerns (p : Pkg) (dev : Nat) (e : Nat × FaultMsg) : Bool :=
  ldNames (p.binding dev) e.2.job.toNat (dieOf e.1)

/-- The doublewords of a message. -/
def FaultMsg.words (m : FaultMsg) : List Word :=
  (m.first :: m.more).flatMap (fun v => (List.range 8).map (fun i => v.extractLsb' (64 * i) 64))

/-- The stopped die of a device that the host has not been told of (R387). -/
def State.stoppedDie (s : State) (pkg dev : Nat) : Option Nat :=
  ((s.pkg pkg).devDies pkg dev).find? (fun d => (s.die d).stopReport)

/-- FAULTTAKE (R349, R387): the next message of the device's jobs, or none; a stopped die is told first. -/
def execFaulttake (pkg dev : Nat) (s : State) : Answer :=
  s.command pkg dev 0xC000 (some 1) (
    match s.stoppedDie pkg dev with
    | some d => (s.modDie d (fun x => { x with stopReport := false })).mailDone pkg dev 0xC000 .dieStopped [word d]
    | none =>
      let p := s.pkg pkg
      match takeFirst (p.concerns dev) p.forwarded with
      | some (e, rest) =>
        (s.setPkg pkg { p with forwarded := rest, taken := p.taken ++ [e] }).mailDone pkg dev 0xC000 .success e.2.words
      | none => s.mailDone pkg dev 0xC000 .success [])

/-- The taken message a reply answers: a process fault by its process, an engine page fault by its future. -/
def Pkg.answers (p : Pkg) (dev action target : Nat) (e : Nat × FaultMsg) : Bool :=
  p.concerns dev e && (if action = 3 then e.2.kind == 2 && e.2.extra.toNat == target
    else e.2.kind == 1 && e.2.pid.toNat == target)

/-- The effect of a reply: 0 GRESUME, 1 HUSK write, 2 GKILL, 3 FREPLY. -/
def State.hostReply (s : State) (core action target : Nat) (image : BitVec 512) : Option State :=
  let pn := target % 256
  match action with
  | 0 => if (s.proc core pn).state == .faulted then some (s.resumeProc core pn) else none
  | 1 =>
    if (s.proc core pn).state != .faulted then none
    else match s.writeHusk core pn image.toNat with
      | .done t => some t
      | .refused | .wait _ => none
  | 2 => if pn = 255 then none else some (s.killProc core pn 0x40)
  | 3 => some (s.copyReply core target (image.getLsbD 32))
  | _ => none

/-- FAULTREPLY (R342, R349): for a message the host has taken; a HUSK write leaves it open for the GRESUME. -/
def execFaultreply (pkg dev action target : Nat) (image : BitVec 512) (s : State) : Answer :=
  s.command pkg dev 0xC001 (some 1) (
    let p := s.pkg pkg
    match takeFirst (p.answers dev action target) p.taken with
    | none => s.mailDone pkg dev 0xC001 .invalidInput []
    | some (e, rest) =>
      let done := if action = 1 then s else s.setPkg pkg { p with taken := rest }
      s.mailResult pkg dev 0xC001 (done.hostReply e.1 action target image))

/-! ### Migration (R344) -/

/-- The leaf of a page with another owner. -/
def withOwn (pte : Word) (own : Nat) : Word := (pte &&& ~~~(0xC0 : Word)) ||| word (own * 64)

/-- The stages of R344: 0 to 2 toward the host, 3 to 5 toward the device. The shoot-downs set OWN; a recall has no effect on
any value. -/
def migrateOwn (stage : Nat) : Option Nat :=
  match stage with
  | 0 => some 2
  | 2 => some 1
  | 5 => some 0
  | _ => none

/-- The memory servers write back their lines of a page that is MIGRATING (R344 step 2). -/
def State.writeBackPage (s : State) (die job va : Nat) : State :=
  match s.leafKey die job va 0 with
  | .inl (some k) =>
    let pte := s.mem.word (k / 8)
    if pteOwn pte = 2 then s.writeBack pte else s
  | _ => s

/-- A MIGRATE command as it is served: it completes at once, or at the end of its shoot-down; one shoot-down of a die's
mailbox at a time, and none for a new page while MIGR changes its MODE (R321). -/
def State.migrate (pkg dev job va stage : Nat) (s : State) : State :=
  let p := s.pkg pkg
  let hold := s.holdCmd pkg (.migrate dev job va stage)
  if p.serves dev && !p.recovery && p.turning.getLsbD 0 && !p.dutyMode 0 then hold
  else s.served pkg dev 0xC002 (some 0) none (
    match p.devDies pkg dev with
    | [] => s.mailDone pkg dev 0xC002 .invalidInput []
    | die :: _ =>
      if ldJob (p.binding dev) != job || 5 < stage then s.mailDone pkg dev 0xC002 .invalidInput []
      else match migrateOwn stage with
        | none => (if stage = 1 then s.writeBackPage die job va else s).mailDone pkg dev 0xC002 .success []
        | some own =>
          if p.migrations.any (fun m => m.die == die) || (p.turning.getLsbD 0 && !p.migrating.contains (job, va)) then hold
          else match s.leafKey die job va 0 with
            | .inl (some k) =>
              let t := s.setPkg pkg { p with migrations := p.migrations ++ [{ dev := dev, die := die }] }
              (match t.shootStart (mailShooter die) 0 job va (withOwn (s.mem.word (k / 8)) own) 0 with
                | .started u => u
                | .wait => hold
                | .cause _ => s.mailDone pkg dev 0xC002 .invalidInput [])
            | _ => s.mailDone pkg dev 0xC002 .invalidInput [])

/-- MIGRATE (R321, R344, R349). -/
def execMigrate (pkg dev job va stage : Nat) (s : State) : Answer :=
  s.arrives pkg (.migrate dev job va stage) (State.migrate pkg dev job va stage)

/-! ### Records, routes, patrol and duties (R321, R349, R356, R375) -/

/-- LRECWRITE (R303, R349): as GSET of LREC, on a die of the device. -/
def execLrecwrite (pkg dev die index : Nat) (image : BitVec 1024) (s : State) : Answer :=
  s.command pkg dev 0xC003 (some 2) (s.mailResult pkg dev 0xC003 (
    if (s.pkg pkg).devDie dev die && index < 1024 then some (s.setLrec (4 * pkg + die) index (image &&& lrMask)) else none))

/-- A ROUTELOAD command as it is served. -/
def State.routeload (pkg dev offset : Nat) (value : BitVec 64) (s : State) : State :=
  s.served pkg dev 0xC004 (some 3) (some (.routeload dev offset value)) (s.mailResult pkg dev 0xC004 (
    if 0x8000000000 ≤ offset && fabricOffsetOk offset then some (s.fabricRegisterWrite pkg offset value) else none))

/-- ROUTELOAD (R321, R349, R356). -/
def execRouteload (pkg dev offset : Nat) (value : BitVec 64) (s : State) : Answer :=
  s.arrives pkg (.routeload dev offset value) (State.routeload pkg dev offset value)

/-- Held commands are served by the party that MODE now names, each function's in order of arrival (R321). -/
def State.serveHeld (s : State) (pkg : Nat) : State :=
  let hs := (s.pkg pkg).heldCmds
  hs.foldl (fun t h =>
    if (t.pkg pkg).heldCmds.any (fun x => x.op == h.op) then t.holdCmd pkg h
    else match h with
      | .migrate dev job va stage => t.migrate pkg dev job va stage
      | .routeload dev offset v => t.routeload pkg dev offset v)
    (if hs.isEmpty then s else s.modPkg pkg (fun p => { p with heldCmds := [] }))

/-- SCRUBSET (R349, R375). -/
def execScrubset (pkg dev die : Nat) (period : BitVec 8) (action : BitVec 2) (s : State) : Answer :=
  s.command pkg dev 0xC005 (some 4) (s.mailResult pkg dev 0xC005 (
    if (s.pkg pkg).devDie dev die then
      some (s.modDie (4 * pkg + die) (fun d => { d with period := period, action := action }))
    else none))

/-- DUTYSET (R321, R349, R352): the duties of a restarted host count again. -/
def execDutyset (pkg dev : Nat) (value : BitVec 64) (s : State) : Answer :=
  s.command pkg dev 0xC006 none (s.mailResult pkg dev 0xC006 (
    some ((s.setDuty pkg value).modPkg pkg (fun p => { p with
      dutyHw := p.dutyHw &&& ~~~(1#16 <<< dev) }))))

/-! ### Firmware (R388 to R390) -/

/-- Bytes from a place of an image, and a little-endian word of it. -/
def imagePart (img : List Byte) (o n : Nat) : List Byte := (img.drop o).take n
def imageWord (img : List Byte) (o : Nat) : Nat := bytesNat (imagePart img o 4)

/-- The digest both signatures sign: header bytes 0 to 2,047 and the body. -/
def imageDigest (img : List Byte) : BitVec 384 :=
  Config.sha384 (imagePart img 0 2048 ++ imagePart img 8192 (imageWord img 12))

/-- Whether an image has the form of R388. -/
def imageForm (img : List Byte) : Bool :=
  imageWord img 0 == 0x464D4C4A && imageWord img 4 == 1 && imageWord img 12 % 64 == 0
    && imageWord img 12 ≤ 16 * 2 ^ 20 && img.length == 8192 + imageWord img 12

/-- The checks of R389. -/
def imageOk (minSvn : Nat) (img : List Byte) : Bool :=
  imageForm img && Config.sha384 (imagePart img 64 1984) == Config.fusedKeyDigest
    && Config.ed25519Verifies (imagePart img 64 32) (imageDigest img) (imagePart img 2048 64)
    && Config.mldsaVerifies (imagePart img 96 1952) (imageDigest img) (imagePart img 2112 3309)
    && minSvn ≤ imageWord img 8

/-- Bytes entered in the staging area. -/
def stageBytes (m : AMap Byte) (o : Nat) : List Byte → AMap Byte
  | [] => m
  | b :: bs => stageBytes (put m o b) (o + 1) bs

/-- The staged image: bytes not supplied are zero. -/
def Pkg.staged (p : Pkg) : List Byte :=
  let at_ (i : Nat) : Byte := look 0 p.fwStage i
  let body := bytesNat ((List.range 4).map (fun i => at_ (12 + i)))
  (List.range (8192 + min body (16 * 2 ^ 20))).map at_

/-- FWSUPPLY (R349, R390): a piece of up to 4 KiB, or with fin the commit, which begins the write of the slot (log 17). -/
def execFwsupply (pkg dev : Nat) (fin : Bool) (offset : Nat) (data : List (BitVec 8)) (s : State) : Answer :=
  s.command pkg dev 0xC007 none (s.mailResult pkg dev 0xC007 (
    let p := s.pkg pkg
    if fin then
      (if imageOk p.minSvn p.staged then some (s.setPkg pkg { p with
        fwSlot := p.staged, fwDone := some (s.ticks + Config.slotWriteCycles s.ticks) }) else none)
    else if 4096 < data.length || 8192 + 16 * 2 ^ 20 < offset + data.length then none
    else some (s.setPkg pkg { p with fwStage := stageBytes p.fwStage offset data })))

/-! ### Host queues (R351) -/

/-- The host endpoints of a package with a property, live and saved: core, job of a saved tenant, handle. -/
def hostEnds (s : State) (pkg : Nat) (f : Endpoint → Bool) : List (Nat × Option Nat × Nat) :=
  let of (core : Nat) (who : Option Nat) (c : Core) : List (Nat × Option Nat × Nat) :=
    (c.endpoints.filter (fun e => e.2.valid && e.2.isHost && f e.2)).map (fun e => (core, who, e.2.handleAt e.1))
  (s.cores.filter (fun e => pkgOf e.1 == pkg)).flatMap (fun e => of e.1 none e.2)
    ++ (dies4 pkg).flatMap (fun d => (s.die d).saved.flatMap (fun x => x.cores.flatMap (fun e => of e.1 (some x.job) e.2)))

/-- An endpoint closes at a live core or in a saved tenant. -/
def State.closeEnd (s : State) (why : BitVec 8) (e : Nat × Option Nat × Nat) : State :=
  match e.2.1 with
  | none => s.closeEp e.1 e.2.2 why
  | some job => s.onTenant e.1 job (fun t => t.closeEp e.1 e.2.2 why)

/-- HOSTQREG (R349, R351): registered with the HEAD and TAIL that stand in the ring, or removed, which closes its
endpoints. -/
def execHostqreg (pkg dev queue : Nat) (remove : Bool) (base log entry : Nat) (toHost : Bool) (s : State) : Answer :=
  s.command pkg dev 0xC008 none (s.mailResult pkg dev 0xC008 (
    let old := hostQueueAt (s.pkg pkg) dev queue
    if 256 ≤ queue then none
    else if remove then
      if !old.used then none
      else
        let ends := hostEnds s pkg (fun e => e.hostDev == dev && e.hostQueue == queue && e.state != 6)
        some ((ends.foldl (fun t e => t.closeEnd 1 e) s).modHostQueue pkg dev queue (fun _ => {}))
    else if base % 4096 != 0 || log < 4 || 12 < log || entry % 64 != 0 || entry < 128 then none
    else
      let rd (a : Nat) : Nat := s.mem.read (hostKey pkg a) 8
      some (s.modHostQueue pkg dev queue (fun _ => {
        base := base, log := log, entrySize := entry, toHost := toHost, used := true, head := rd base
        tail := rd (base + 8) }))))

/-- The message a ring entry is (R188, R351). -/
def State.hostMessage (s : State) (pkg : Nat) (q : HostQueue) (e : Endpoint) (handle job : Nat) : Msg :=
  let k := hostKey pkg (q.entryAt q.head)
  let sender : BitVec 31 := BitVec.ofNat 31 (s.mem.read k 8 / 2 ^ 16)
  let m : Msg := { sender := sender, handle := BitVec.ofNat 32 handle, job := job, fromHost := true }
  if e.isTile then { m with kind := 1, body := s.mem.bytes (k + 64) e.len }
  else { m with kind := 0, words := [BitVec.ofNat 64 (s.mem.read (k + 64) 8)] }

/-- Entries of a buffered queue enter the inbox in ring order, up to one that is refused; HEAD passes each. At a done core
an entry is discarded with a DONEMSG report (R202). -/
def State.hostMessages (s : State) (core handle : Nat) : Nat → State
  | 0 => s
  | n + 1 =>
    let e := s.ep core handle
    let pkg := pkgOf core
    let q := hostQueueAt (s.pkg pkg) e.hostDev e.hostQueue
    let m := s.hostMessage pkg q e handle (s.jobOf core)
    if q.tail ≤ q.head then s
    else if s.coreDone core then ((s.hostHead core e).undeliverable core m).hostMessages core handle n
    else match s.receiveMessage core m with
      | none => s
      | some t => (t.hostHead core e).hostMessages core handle n

/-- The endpoint that receives from a queue: the first live one (log 20). -/
def State.hostIn (s : State) (pkg dev queue : Nat) : Option (Nat × Nat) :=
  ((hostEnds s pkg (fun e => e.dirIn && !e.broken && e.hostDev == dev && e.hostQueue == queue)).find? (fun e =>
    e.2.1.isNone)).map (fun e => (e.1, e.2.2))

/-- The entries a queue still holds act at its endpoint as an offer or as messages. Those of a saved tenant's endpoint, of
one that moves, and those the inbox refuses, act as soon as they can (R132, R184, R319). -/
def State.hostServe (s : State) (pkg dev queue : Nat) : State :=
  let q := hostQueueAt (s.pkg pkg) dev queue
  if !q.used || q.toHost || q.tail ≤ q.head then s
  else match s.hostIn pkg dev queue with
    | none => s
    | some (core, handle) =>
      let e := s.ep core handle
      if e.state == 6 || (s.die (dieOf core)).switching then s
      else if e.buffered then s.hostMessages core handle (q.tail - q.head)
      else if e.state == 0 || e.state == 2 || e.state == 3 then s.hostOffer core handle
      else s

/-- HOST_DOORBELL (R351): TAIL is read, and new entries act. -/
def execHostDoorbell (pkg dev queue : Nat) (s : State) : Answer :=
  let q := hostQueueAt (s.pkg pkg) dev queue
  .next (if !(s.pkg pkg).serves dev || !q.used || q.toHost then s
    else
      let tail := s.mem.read (hostKey pkg (q.base + 8)) 8
      (s.modHostQueue pkg dev queue (fun q => { q with tail := tail })).hostServe pkg dev queue)

/-- What a passed entry of an OUT queue releases: a rendezvous sender, or a credit (R351). -/
def State.hostPassed (s : State) (core handle : Nat) : State :=
  let e := s.ep core handle
  let pn := e.owner.toNat
  if e.buffered then s.creditAt core handle
  else
    let waits := (s.proc core pn).wait == .sending handle && !e.engine
    let s := if e.engine then s.vecOperand core handle [] else s
    let s := (s.modEp core handle Endpoint.rest).killedRecord core handle true
    if waits then (s.acquireAll core pn).wake core pn else s

/-- HOST_HEAD_PASS (R351): the host's HEAD passes the oldest entry. -/
def execHostHeadPass (pkg dev queue : Nat) (s : State) : Answer :=
  let q := hostQueueAt (s.pkg pkg) dev queue
  .next (if !q.used || !q.toHost || q.tail ≤ q.head then s
    else
      let k := hostKey pkg q.base
      let s := { s with mem := s.mem.write k 8 (q.head + 1) }
      let s := s.modHostQueue pkg dev queue (fun q => { q with head := q.head + 1, owners := q.owners.drop 1 })
      match q.owners with
      | (core, handle) :: _ =>
        s.onTenant core (ldJob ((s.pkg pkg).binding dev)) (fun t => t.hostPassed core handle)
      | [] => s)

/-! ### Host memory and device memory (R347, R348, R376) -/

/-- The key a host access reaches, when the page's OWN is HOST (R347). -/
def State.hdmKey (s : State) (pkg dev va : Nat) : Option Nat :=
  let p := s.pkg pkg
  let job := ldJob (p.binding dev)
  match (p.devDies pkg dev).find? (fun d => (s.die d).jobs.any (fun r => r.2.valid && r.2.job.toNat == job)) with
  | none => none
  | some d =>
    match s.walk d job va with
    | .leaf pte large =>
      if pte.getLsbD 0 && !pteBad pte large && pteOwn pte == 1 && va % 8 == 0 then (s.globalKey d job va).map (fun x => x.1)
      else none
    | .fault _ => none

/-- HOST_MEM_ACCESS (R347, R376): performed, or answered with poison and recorded. -/
def execHostMemAccess (pkg dev va : Nat) (write : Bool) (value : BitVec 64) (s : State) : Answer :=
  let job := ldJob ((s.pkg pkg).binding dev)
  let answer (t : State) (v : Option Word) : State := t.modPkg pkg (fun p => { p with hostAnswer := some (dev, v) })
  .next (if !(s.pkg pkg).serves dev then s
    else match s.hdmKey pkg dev va with
      | some k =>
        if write then answer (s.writeBytes .h 0 job k 8 value.toNat) (some value)
        else answer s (if s.mem.isPoisoned k then none else some (s.mem.word (k / 8)))
      | none =>
        answer (s.invRecord (((s.pkg pkg).devDies pkg dev).headD (4 * pkg))
          { item := 9, state := 2, reason := 0, job := job, pid := 0, started := false, itemid := word va, value := 0
            cycle := 0 }) none)

/-- BACK_INVALIDATION (R348): the line is recalled, and the host may then have written it (log 21). -/
def execBackInvalidation (pkg line : Nat) (data : List (BitVec 8)) (s : State) : Answer :=
  let k := hostKey pkg (line * 64)
  let s := s.modPkg pkg (fun p => { p with hostLines := drop p.hostLines (k / 64) })
  .next { s with mem := s.mem.setBytes k (data.take 64) }

/-! ### Warm restart and reset (R352 to R354) -/

/-- Messages forwarded for devices go back to their gates, oldest first. -/
def State.returnFaults (s : State) (pkg : Nat) (devs : List Nat) : State :=
  let p := s.pkg pkg
  let mine (e : Nat × FaultMsg) : Bool := devs.any (fun d => p.concerns d e)
  let back := (p.taken ++ p.forwarded).filter mine
  let s := s.setPkg pkg { p with
    taken := p.taken.filter (fun e => !mine e), forwarded := p.forwarded.filter (fun e => !mine e) }
  back.reverse.foldl (fun t e => t.modCore e.1 (fun c => { c with faultOut := e.2 :: c.faultOut })) s

/-- Commands of devices in progress end with a status. -/
def State.mailEnds (s : State) (pkg : Nat) (devs : List Nat) (st : MailStatus) : State :=
  s.modPkg pkg (fun p => { p with
    mailbox := p.mailbox ++ ((p.migrations.filter (fun m => devs.contains m.dev)).map (fun (m : Migration) =>
        { dev := m.dev, opcode := 0xC002, status := st })
      ++ (p.heldCmds.filter (fun h => devs.contains h.dev)).map (fun (h : HeldCmd) =>
        { dev := h.dev, opcode := h.op, status := st }))
    heldCmds := p.heldCmds.filter (fun h => !devs.contains h.dev)
    migrations := p.migrations.filter (fun m => !devs.contains m.dev) })

/-- The pages of jobs that are MIGRATING are HOST again, or at last (R352 step 4). -/
def State.pagesToHost (s : State) (pkg : Nat) (jobs : List Nat) : State :=
  let mine := (s.pkg pkg).migrating.filter (fun e => jobs.contains e.1)
  let s := s.modPkg pkg (fun p => { p with migrating := p.migrating.filter (fun e => !jobs.contains e.1) })
  mine.foldl (fun t e =>
    match t.leafKey (t.dieWithJob pkg e.1) e.1 e.2 0 with
    | .inl (some k) =>
      let pte := t.mem.word (k / 8)
      if pteOwn pte = 2 then t.writeBytes .h 0 0 k 8 (withOwn pte 1).toNat else t
    | _ => t) s

/-- Accesses of jobs to a package's host memory in flight complete as poisoned (R352 step 5). -/
def State.hostPoisons (s : State) (pkg : Nat) (jobs : List Nat) : State :=
  let mine (r : Req) : Bool := r.host && r.homePkg == pkg && jobs.contains r.job
    && (r.phase == .sent || r.phase == .refused || r.phase == .waiting)
  (s.cores.map (fun e => e.1)).foldl (fun t c =>
    ((t.core c).reqs.filter mine).foldl (fun u r =>
      (u.finish c { r with phase := .performed, poisoned := true, homeWait := false }).answerReq c r) t) s

/-- An address in each page that the rows of an end touch. -/
def CopyOp.pages (o : CopyOp) (base : Word) (pitch : Int) : List Word :=
  if o.len = 0 then []
  else (List.range o.rows).flatMap (fun (r : Nat) =>
    let a := base + wordOfInt (r * pitch)
    (List.range ((a.toNat % 65536 + o.len - 1) / 65536 + 1)).map (fun (i : Nat) =>
      if i = 0 then a else a - word (a.toNat % 65536) + word (65536 * i)))

/-- Whether a copy at work has an end in host memory: any page of either end. -/
def State.copyAtHost (s : State) (core : Nat) (o : CopyOp) : Bool :=
  let host (n : Needs) (a : Word) : Bool := copyKind a == .global && (match (s.engineLeaf core a.toNat n).2 with
    | .inl p => pteTarget p == 3
    | .inr _ => false)
  (o.pages o.src o.spitch).any (host copyReads) || (o.pages o.dst o.dpitch).any (host copyWrites)

/-- Whether a vector operation at work has a host end of one of the devices among its channel operands. -/
def State.vecAtHost (s : State) (core : Nat) (devs : List Nat) (v : VecOp) : Bool :=
  v.started && v.addresses.any (fun x => (v.shape x.1).isChan
    && (let e := s.ep core (v.shape x.1).handle; e.isHost && devs.contains e.hostDev))

/-- A vector operation at work is to end FAILED, and leaves the channel operand it waits for; where that one's offer or
transfer is under way, it ends once that is over or its end closes (R182). The first reason stands (R354). -/
def State.vecFails (s : State) (core : Nat) (v : VecOp) (why : BitVec 8) : State :=
  let v := { v with reason := if v.reason = 0 then s.reasonAt core why else v.reason }
  match v.waiting with
  | none => s.setVecHead core v
  | some (h, role) =>
    if (role = 2 && !v.left) || (role != 2 && s.recvStands core h) then
      (s.modEp core h (fun e => { e.rest with engine := false })).setVecHead core { v with waiting := none }
    else s.setVecHead core v

/-- Engine operations at work with a host end end FAILED with HOSTRESET (R352 step 5), vector operations at a reset logical
device's with LDRESET (R232). -/
def State.hostEngines (s : State) (pkg : Nat) (devs jobs : List Nat) (why : BitVec 8) : State :=
  ((s.cores.filter (fun e => pkgOf e.1 == pkg)).map (fun e => e.1)).foldl (fun t core =>
    let t := match (t.core core).vecQ with
      | v :: _ =>
        if t.vecAtHost core devs v then t.vecFails core v why else t
      | [] => t
    match (t.core core).copyQ with
    | o :: _ =>
      if o.started && jobs.contains (t.jobOf core) && t.copyAtHost core o then t.copyEnd core o (t.reasonAt core why) else t
    | [] => t) s

/-- Host endpoints of devices close with a reason. -/
def State.closeHostEnds (s : State) (pkg : Nat) (devs : List Nat) (why : BitVec 8) : State :=
  (hostEnds s pkg (fun e => devs.contains e.hostDev)).foldl (fun t e => t.closeEnd why e) s

/-- HOST_WARM_RESTART (R352, R354). -/
def execHostWarmRestart (pkg : Nat) (devs : List Nat) (s : State) : Answer :=
  let p := s.pkg pkg
  let devs := devs.filter p.serves
  let jobs := (devs.filter (fun d => ldV (p.binding d))).map (fun d => ldJob (p.binding d))
  let s := ((s.mailEnds pkg devs .hostReset).returnFaults pkg devs).modPkg pkg (fun p => { p with
    dutyHw := devs.foldl (fun m d => m ||| (1#16 <<< d)) p.dutyHw, hostDown := devs.foldl insertKey p.hostDown })
  let s := ((s.hostEngines pkg devs jobs 0x43).hostPoisons pkg jobs).closeHostEnds pkg devs 2
  .next (s.pagesToHost pkg jobs)

/-- HOST_LINK_RETURN (R352 step 6): lines the device wrote are written back; a line the host refuses is discarded, and
recorded. -/
def execHostLinkReturn (pkg : Nat) (refused : List Nat) (s : State) : Answer :=
  let p := s.pkg pkg
  let lost := p.hostLines.filter (fun e =>
    refused.any (fun l => hostKey pkg (l * 64) / 64 == e.1) && s.mem.bytes (e.1 * 64) 64 != e.2)
  .next (if p.hostDown.isEmpty then s
    else
      let s := s.setPkg pkg { p with hostLines := [], hostDown := [] }
      lost.foldl (fun t e =>
        ({ t with mem := t.mem.setBytes (e.1 * 64) e.2 }).invRecord (4 * pkg)
          { item := 8, state := 2, reason := 0x43, job := s.mem.tag e.1, pid := 0, started := false,
            itemid := byteAddress (e.1 * 64), value := 0, cycle := 0 }) s)

/-- LD_RESET (R353, R354). -/
def execLdReset (pkg dev : Nat) (s : State) : Answer :=
  let p := s.pkg pkg
  let b := p.binding dev
  .next (if !p.serves dev then s
    else
      let s := (((s.mailEnds pkg [dev] .ldReset).returnFaults pkg [dev]).hostEngines pkg [dev] [] 0x42).closeHostEnds pkg [dev] 3
      let s := (p.devDies pkg dev).foldl (fun t d => t.later (.teardown d (ldJob b) 0x42)) s
      s.modPkg pkg (fun p => { p with ldbind := put p.ldbind dev (b &&& ~~~(0x20 : Word)) }))

/-! ### Attestation (R391) -/

/-- A response, where a responder answers: in recovery only up to NEGOTIATE_ALGORITHMS (R389). -/
def State.spdm (s : State) (pkg dev : Nat) (early : Bool) (r : SpdmReply) : Answer :=
  let p := s.pkg pkg
  .next (if !p.serves dev || (p.recovery && !early) then s else s.setPkg pkg { p with doe := p.doe ++ [(dev, r)] })

/-- A signed response: the transcript hash is a free value, since the manual leaves transcripts to SPDM (log 7). -/
def State.spdmSigned (s : State) (pkg dev : Nat) (f : List Byte → SpdmReply) : Answer :=
  let h := Config.transcriptHash s.free
  let p := s.pkg pkg
  .next (if !p.serves dev || p.recovery then s
    else (s.setPkg pkg { p with
      doe := p.doe ++ [(dev, f (Config.ed25519Sign h))], signed := put p.signed dev h }).drawn)

/-- GET_VERSION (R391): 1.3 only, whatever version the request's header names. -/
def execGetVersion (pkg dev _version : Nat) (s : State) : Answer := s.spdm pkg dev true (.version 0x13)

/-- GET_CAPABILITIES (R391). -/
def execGetCapabilities (pkg dev : Nat) (s : State) : Answer := s.spdm pkg dev true .capabilities

/-- NEGOTIATE_ALGORITHMS (R391): SHA-384 and Ed25519. -/
def execNegotiateAlgorithms (pkg dev : Nat) (s : State) : Answer := s.spdm pkg dev true .algorithms

/-- GET_DIGESTS (R391). -/
def execGetDigests (pkg dev : Nat) (s : State) : Answer :=
  s.spdm pkg dev false (.digests (Config.sha384 Config.certificate))

/-- GET_CERTIFICATE (R391): slot 0. -/
def execGetCertificate (pkg dev slot : Nat) (s : State) : Answer :=
  s.spdm pkg dev false (if slot = 0 then .certificate Config.certificate else .unsupportedRequest)

/-- CHALLENGE (R391). -/
def execChallenge (pkg dev : Nat) (_nonce : List (BitVec 8)) (s : State) : Answer :=
  s.spdmSigned pkg dev .challengeAuth

/-- GET_MEASUREMENTS (R391): one block, or all of them for an index that names none. -/
def execGetMeasurements (pkg dev index : Nat) (_nonce : List (BitVec 8)) (s : State) : Answer :=
  let m := (s.pkg pkg).meas
  s.spdmSigned pkg dev (.measurements (if m.any (fun e => e.1 == index) then m.filter (fun e => e.1 == index) else m))

/-- VENDOR_DEFINED_REQUEST (R391): the companion signature over the hash of the last signed response. -/
def execVendorDefinedRequest (pkg dev vendor : Nat) (s : State) : Answer :=
  s.spdm pkg dev false (match (s.pkg pkg).signed.find? (fun e => e.1 == dev) with
    | some e => if vendor = Config.vendorId then .vendorSignature (Config.mldsaSign e.2) else .unsupportedRequest
    | none => .unsupportedRequest)

/-- SPDM_UNSUPPORTED (R391): any request but those above. -/
def execSpdmUnsupported (pkg dev _code : Nat) (s : State) : Answer := s.spdm pkg dev false .unsupportedRequest

end Sys2Proof.Machine
end

