-- ==== Sys2Proof/Machine/Fabric.lean ====
section
/-! DEFINITION. The fabric between packages: route entries and forwarding (R355 to R360), and route updates (R361). -/

namespace Sys2Proof.Machine

/-! ### Route entries (R357, R359) -/

def rteCount (e : Word) : Nat := e.toNat % 4 + 1
def rtePort (e : Word) (i : Nat) : Nat := e.toNat / 2 ^ (3 + 5 * i) % 32
/-- An entry a packet may leave by: valid, toward another package, every candidate a port. -/
def rteUsable (e : Word) : Bool :=
  e.getLsbD 2 && !e.getLsbD 23 && (List.range (rteCount e)).all (fun i => rtePort e i < 20)

/-- The exclusive or of successive 8-bit fields of an n-byte number. -/
def fold8 : Nat → Nat → Nat
  | 0, _ => 0
  | n + 1, v => Nat.xor (v % 256) (fold8 n (v / 256))

/-- The value that picks the candidate (R359): bits [55:6] of the address, or the two core identifiers. -/
def Packet.spread (p : Packet) : Nat :=
  match p.line with
  | some l => l % 2 ^ 50
  | none => p.src * 2 ^ 23 + p.dst
def Packet.port (p : Packet) (e : Word) : Nat := rtePort e (fold8 7 p.spread % rteCount e)

/-! ### Route updates (R361) -/

/-- Whether a package still holds packets of its old generation on their way. -/
def State.holdsOld (s : State) (pkg : Nat) : Bool :=
  let old := (s.pkg pkg).gen
  s.net.any (fun p => p.at_ == pkg && pkgOf p.dst != pkg && pkgOf p.src != pkg && p.gen == old)

/-- Levels a port's markers have arrived for: all of them where its link is down. -/
def Pkg.received (p : Pkg) (port : Nat) : Nat := if p.linksDown.contains port then 7 else look 0 p.markers port

/-- Markers go out level by level; after level 6 on every port the old table is dropped, and GEN flips. -/
def State.drainLevels (s : State) (pkg : Nat) : Nat → State
  | 0 => s
  | n + 1 =>
    let p := s.pkg pkg
    if !p.busy || s.holdsOld pkg || !(List.range 20).all (fun i => p.markLevel ≤ p.received i) then s
    else if p.markLevel < 7 then
      (s.setPkg pkg { p with markLevel := p.markLevel + 1, markSent := p.markSent + 1 }).drainLevels pkg n
    else
      let p := if p.gen then { p with rte1 := [] } else { p with rte0 := [] }
      s.setPkg pkg { p with gen := !p.gen, busy := false, markers := [], markLevel := 0 }

/-- ROUTE_SWITCH (R361): the update starts with the shadow table as the new generation's; none while one is at work. -/
def execRouteSwitch (pkg : Nat) (s : State) : Answer :=
  let p := s.pkg pkg
  .next (if p.busy then s
    else
      let p := if p.gen then { p with rte0 := p.rteShadow } else { p with rte1 := p.rteShadow }
      (s.setPkg pkg { p with busy := true, markers := [], markLevel := 0 }).drainLevels pkg 8)

/-- Whether a level's marker is next on a link: the package at its far end has sent more markers than were taken from it,
seven in ascending level for each of its updates. -/
def State.markerSent (s : State) (pkg port level : Nat) : Bool :=
  let taken := look 0 (s.pkg pkg).markTaken port
  taken < (s.pkg (Config.neighbour pkg port)).markSent && taken % 7 == level

/-- DRAIN_MARKER (R361): markers of a port arrive in ascending level. -/
def execDrainMarker (pkg port level : Nat) (s : State) : Answer :=
  let p := s.pkg pkg
  .next (if 20 ≤ port || !p.busy || look 0 p.markers port != level || !s.markerSent pkg port level then s
    else (s.setPkg pkg { p with
      markers := put p.markers port (level + 1)
      markTaken := put p.markTaken port (look 0 p.markTaken port + 1) }).drainLevels pkg 8)

/-- LINK_DOWN (R361). -/
def execLinkDown (pkg port : Nat) (s : State) : Answer :=
  .next (if 20 ≤ port then s
    else (s.modPkg pkg (fun p => { p with linksDown := insertKey p.linksDown port })).drainLevels pkg 8)

/-! ### Forwarding (R358 to R361) -/

/-- The item a discarded packet is recorded as carrying: the process it concerns, and its handle or address. -/
def State.packetItem (s : State) (p : Packet) : Nat × Word :=
  match p.body with
  | .ack => (0, 0)
  | .engine _ va => (0, word va)
  | .fill _ line => (0, word (line * 64))
  | .memory core tag | .answer core tag =>
    match (s.core core).req tag with
    | some r => (pidOf core r.pn, r.ea)
    | none => (0, 0)
  | .offer h _ _ | .offerWithdrawal h _ _ => (0, word h)
  | .release h _ _ _ => (0, word h)
  | .credit i => (0, word i)
  | .message m => (m.sender.toNat, m.handle.setWidth 64)
  | .probe origin _ _ _ _ _ _ _ => (origin, 0)
  | .futureWait h pid => (pid, word h)
  | .futureCancel h => (0, word h)

/-- A discard: counted, and recorded on die 0 of the discarding package (R358, R382); an update that waited for the packet
goes on (R361). -/
def State.discard (s : State) (idx : Nat) (p : Packet) (island : Bool) : State :=
  let x := s.packetItem p
  let s := { s with net := s.net.eraseIdx idx }
  let s := s.noteLost p.body false
  let s := s.modPkg p.at_ (fun k => if island then { k with isldrop := k.isldrop + 1 } else { k with routeerr := k.routeerr + 1 })
  (s.invRecord (4 * p.at_) { item := if island then 12 else 11, state := 2, reason := 0, job := p.job, pid := x.1
                             started := false, itemid := x.2, value := 0, cycle := 0 }).drainLevels p.at_ 8

/-- The generation a packet is injected under, none while it is held (R361 step 3); a response or acknowledgement is not
counted, and is not held (log 19). -/
def Pkg.injects (p : Pkg) (dst : Nat) (reply : Bool) : Option Bool :=
  if !p.busy then some p.gen
  else if reply then some (!p.gen)
  else if look 0 p.unanswered (dst * 2 + (if p.gen then 1 else 0)) = 0 then some (!p.gen)
  else none

/-- The packet leaves by its port for the package at the far end; a link that is down holds it. An acknowledgement that
reaches its package lowers the count there (R360). -/
def State.hopTo (s : State) (idx : Nat) (p : Packet) (e : Word) : State :=
  let port := p.port e
  if (s.pkg p.at_).linksDown.contains port then s
  else
    let here := p.at_
    let q := { p with at_ := Config.neighbour here port, hop := p.hop + 1 }
    let s := match q.body, q.reply with
      | .ack, some g =>
        if q.at_ = pkgOf q.dst then { s with net := s.net.eraseIdx idx }.countAnswer q.at_ (pkgOf q.src) g
        else { s with net := s.net.set idx q }
      | _, _ => { s with net := s.net.set idx q }
    s.drainLevels here 8

/-- PACKET_FORWARD (R317, R358 to R361): at its source a packet passes the island check, within its own package too, and is
injected, and counted as not yet answered; on its way it leaves by the table of its generation, for which it waits where
the update that brings it has not begun (R361). A wrong table, or a seventh
hop, discards it. Packets of one route keep their order. -/
def execPacketForward (pkt : Nat) (s : State) : Answer :=
  .next (match s.net[pkt]? with
    | none => s
    | some p =>
      let dst := pkgOf p.dst
      let here := p.at_
      if here = dst then (if p.hop != 0 || s.islandOk p p.gen then s else s.discard pkt p true)
      else if (s.net.take pkt).any (fun q => q.at_ == here && q.hop == p.hop && q.sameRoute p) then s
      else if p.hop = 0 then
        match (s.pkg here).injects dst p.reply.isSome with
        | none => s
        | some g =>
          let e := (s.pkg here).rte g dst
          let p := { p with gen := g }
          if !s.islandOk p g then s.discard pkt p true
          else if !rteUsable e then s.discard pkt p false
          else if (s.pkg here).linksDown.contains (p.port e) then s
          else
            let i := dst * 2 + (if g then 1 else 0)
            (if p.reply.isSome then s else s.modPkg here (fun k => { k with
              unanswered := put k.unanswered i (look 0 k.unanswered i + 1) })).hopTo pkt p e
      else if !(s.pkg here).busy && p.gen != (s.pkg here).gen then s       -- its update has not begun here (R361)
      else
        let e := (s.pkg here).rte p.gen dst
        if !rteUsable e || 6 ≤ p.hop then s.discard pkt p false else s.hopTo pkt p e)

end Sys2Proof.Machine
end

