-- ==== Sys2Proof/Machine/Repair.lean ====
section
/-! DEFINITION. What happens over hours: the patrol, poison and soft errors (R376 to R380), the inventory ring (R381, R382),
teardown (R383), gated cores (R385), heat (R386), and the resets (R387) with the boot of the firmware (R389). -/

namespace Sys2Proof.Machine

/-! ### Poison (R376 to R379) -/

/-- A teardown of a job on every die of a package that the job holds. -/
def State.tearJob (s : State) (pkg job : Nat) (reason : Nat) : State :=
  ((dies4 pkg).filter (fun d => job != 0 && s.holds job d)).foldl (fun t d => t.later (.teardown d job reason)) s

/-- A line becomes poisoned: it is recorded, and under ACTION 1 its owner's job is torn down (R378). -/
def State.poisonLine (s : State) (die line : Nat) : State :=
  if s.mem.isPoisoned (line * 64) then s
  else
    let job := s.mem.tag line
    let s := { s with mem := s.mem.setPoison line true }.invRecord die
      { item := 13, state := 2, reason := 0x28, job := job, pid := 0, started := false, itemid := byteAddress (line * 64)
        value := 0, cycle := 0 }
    if (s.die die).action == 1 then s.tearJob (pkgOfDie die) job 0x28 else s

/-- Whether a die's patrol covers a line: pools of cores that are not gated, HBM and the second tier (R377, R384). -/
def State.patrols (s : State) (die line : Nat) : Bool :=
  let k := line * 64
  if k < 2 ^ 56 then k / 2 ^ 42 == die && !isHostKey k && k % 2 ^ 40 < storeCapacity (k / 2 ^ 40 % 4)
  else
    let core := (k - 2 ^ 56) / 2 ^ 21
    k < 2 ^ 57 && dieOf core == die && !(s.core core).gated && k % 2 ^ 21 < 96 * 16384

/-- PATROL_VISIT (R375, R377, R378): error is what the patrol finds, 0 nothing, 1 a correctable error, 2 an uncorrectable
one; 3 and 4 are these two found by a demand access, which a stopped patrol leaves to find (PERIOD 0). -/
def execPatrolVisit (die line error : Nat) (s : State) : Answer :=
  .next (if !s.patrols die line || (error ≤ 2 && (s.die die).period = 0) then s
    else match error with
      | 0 => s
      | 1 | 3 => s.modDie die (fun d => { d with cecnt := d.cecnt + 1 })
      | _ => s.poisonLine die line)

/-- POISON_FIX (R379): the line is zero and EMPTY, with owner tag 0, and operations that wait for an EMPTY word of it go
on. The address names the store, whichever die it is, or the pool of a core of the die's package. -/
def execPoisonFix (die addr : Nat) (s : State) : Answer :=
  let k := addressByte die addr / 64 * 64
  .next (if s.mem.isPoisoned k then
      ({ s with mem := (s.mem.setPoison (k / 64) false).clearRange k 64 } : State).rescanRange k 64
    else s)

/-- SOFT_ERROR (R380): part 0 a window or husk, 1 a table, register set, buffer or queue of a core, 2 the board replica;
any other structure is corrected by refetch. -/
def execSoftError (core part pn : Nat) (s : State) : Answer :=
  .next (match part with
    | 0 =>
      let p := s.proc core pn
      if p.state == .free || p.state == .ended || p.state == .faulted then s
      else s.setProc core pn { p with asyncTrap := some (p.asyncTrap.getD (.poison, 0)) }
    | 1 => s.tearJob (pkgOf core) (s.jobOf core) 0x28
    | 2 => s.sheafLeave (pkgOf core)
    | _ => s)

/-! ### The inventory ring (R381) -/

/-- Entries of the ring: 2^(LOGN + 6), LOGN from 10 on acting as 9. -/
def Die.ringSize (d : Die) : Nat := 2 ^ (min d.logn.toNat 9 + 6)

/-- A record's doublewords (R381). -/
def InvRec.words (r : InvRec) : List Word :=
  [word (r.item % 16 + r.state % 8 * 2 ^ 4 + r.reason % 256 * 2 ^ 8 + r.job % 65536 * 2 ^ 16 + r.pid % 2 ^ 31 * 2 ^ 32
      + (if r.started then 2 ^ 63 else 0)), r.itemid, r.value, r.cycle]

/-! ### Teardown (R383) -/

/-- The cores of a die that serve a job. -/
def State.jobCores (s : State) (die job : Nat) : List Nat :=
  (s.cores.filter (fun e => dieOf e.1 == die && !isKernel e.1 && e.2.gateV && e.2.gateJob.toNat == job)).map (fun e => e.1)

/-- Every process of a core ends, and a handler at work; operations still queued at its engines fail. -/
def State.endCore (s : State) (core : Nat) (reason : BitVec 8) : State :=
  let s := s.endHandler core
  let s := ((s.core core).procs.map (fun e => e.1)).foldl (fun t pn => t.killProc core pn reason) s
  let c := s.core core
  let vs := c.vecQ.filter (fun v => !v.started)
  let ys := c.copyQ.filter (fun v => !v.started)
  let ts := c.tasks.filter (fun t => !t.started)
  let s := (s.modCore core (fun c => { c with
    starts := [], vecQ := c.vecQ.filter (fun v => v.started)
    copyQ := c.copyQ.filter (fun v => v.started) })).sweepCrossings core
  let s := vs.foldl (fun t v => t.failFuture core v.entry 1 reason v.flags 0 false) s
  let s := ys.foldl (fun t v => t.failFuture core v.entry 2 reason 0 0 false) s
  ts.foldl (fun t v => t.taskFails core v reason) s

/-- Launches of a job: queued ones on the die fail; running ones with a core of the die will end with the reason (R315). -/
def State.endLaunches (s : State) (die job : Nat) (reason : BitVec 8) : State :=
  let mine := (s.die die).launchQ.filter (fun q => lrJob q.record == job)
  let s := s.modDie die (fun d => { d with launchQ := d.launchQ.filter (fun q => lrJob q.record != job) })
  let s := mine.foldl (fun t q => t.failFuture q.core q.entry 0 reason 0 0 false) s
  (dies4 (pkgOfDie die)).foldl (fun t d => t.modDie d (fun x => { x with running := x.running.map (fun (r : Running) =>
    if lrJob r.record = job && (lrCores (pkgOfDie die) r.record).any (fun e => dieOf e.1 == die) then
      { r with reason := if r.reason = 0 then reason else r.reason }
    else r) })) s

/-- Sheaf operations of a job still in the die's queue fail. -/
def State.endSheafQ (s : State) (die job : Nat) (reason : BitVec 8) : State :=
  let mine (o : SheafOp) : Bool := s.jobOf o.core == job
  let gone := (s.die die).sheafQ.filter mine
  let s := s.modDie die (fun d => { d with sheafQ := d.sheafQ.filter (fun o => !mine o) })
  gone.foldl (fun t o => t.sheafFails o 0 reason) s

/-- The saved tenant of a job on a die ends as the live one does (R353, R383). -/
def State.endSaved (s : State) (die job : Nat) (reason : BitVec 8) : State :=
  match (s.die die).saved.find? (fun x => x.job == job) with
  | none => s
  | some x =>
    let s := x.sheafQ.foldl (fun t o => t.onTenant o.core job (fun u => u.sheafFails o 0 reason)) s
    let s := x.launchQ.foldl (fun t q => t.onTenant q.core job (fun u => u.failFuture q.core q.entry 0 reason 0 0 false)) s
    let s := x.running.foldl (fun t q => t.onTenant q.core job (fun u => u.failFuture q.core q.entry 0 reason 0 0 true)) s
    let s := x.cores.foldl (fun t e => t.onTenant e.1 job (fun u =>
      let u := u.endCore e.1 reason
      ((u.core e.1).endpoints.filter (fun k => k.2.valid)).foldl (fun v k => v.closeEp e.1 (k.2.handleAt k.1) 4) u)) s
    s.modDie die (fun d => { d with saved := d.saved.map (fun (y : Saved) =>
      if y.job = job then { y with sheafQ := [], launchQ := [], running := [] } else y) })

/-- Steps 1 and 2: processes, queues, launches and endpoints end, and the quarantine begins. -/
def State.drain (s : State) (die job : Nat) (reason : BitVec 8) : State :=
  let s := s.modDie die (fun d => { d with tdWork := some (job, reason), tdLevels := 0, qcnt := 0 })
  let cs := s.jobCores die job
  let s := cs.foldl (fun t c => t.endCore c reason) s
  let s := ((s.endLaunches die job reason).endSheafQ die job reason).endSaved die job reason
  cs.foldl (fun t c => ((t.core c).endpoints.filter (fun e => e.2.valid)).foldl (fun u e =>
    u.closeEp c (e.2.handleAt e.1) 4) t) s

/-- TEARDOWN (R383, R353, R378, R380): it starts; one that finds another at work, or a tenant switch, waits, and BUSY is 1
meanwhile. GO itself has no effect while BUSY is 1 (R375). -/
def execTeardown (die job reason : Nat) (s : State) : Answer :=
  let d := s.die die
  let queued := d.tdQueue.any (fun w => w.1 == job)
  .next (if d.tdWork.any (fun w => w.1 == job) then s
    else if d.tdWork.isSome || d.switching then
      if queued then s else s.setDie die { d with tdQueue := d.tdQueue ++ [(job, BitVec.ofNat 8 reason)] }
    else (s.setDie die { d with tdQueue := d.tdQueue.filter (fun w => w.1 != job) }).drain die job (BitVec.ofNat 8 reason))

/-- Whether the packet at a place is traffic for a job that its die tears down, and has arrived. -/
def State.quarantined (s : State) (idx : Nat) : Option Packet :=
  match s.net[idx]? with
  | some p =>
    if p.at_ == pkgOf p.dst && !p.runs && s.quarantines (dieOf p.dst) p.job && !(s.net.take idx).any (fun q => q.sameRoute p) then some p
    else none
  | none => none

/-- The kind of item a packet is recorded as (R381). -/
def State.packetKind (s : State) (p : Packet) : Nat :=
  match p.body with
  | .memory _ _ | .answer _ _ | .ack | .fill _ _ => 7
  | .engine _ _ => 2
  | .message _ | .credit _ => 6
  | .futureWait h _ | .futureCancel h =>
    match ((s.core (handleCore h)).future (handleEntry h)).engine.toNat with
    | 0 => 1
    | 1 => 2
    | 2 => 3
    | 3 => 0
    | _ => 4
  | .offer _ _ _ | .offerWithdrawal _ _ _ | .release _ _ _ _ | .probe _ _ _ _ _ _ _ _ => 5

/-- QUARANTINE (R383): counted, recorded, and its sender answered: a request completes as poisoned, an offer is refused
with reason TEARDOWN, a wait for a future ends with that reason. -/
def execQuarantine (pkt : Nat) (s : State) : Answer :=
  .next (match s.quarantined pkt with
    | none => s
    | some p =>
      let die := dieOf p.dst
      let x := s.packetItem p
      let sunk (t : State) : State := t.sink die (s.packetKind p) x.1 p.job x.2
      match p.body with
      | .memory core tag =>
        match (s.core core).req tag with
        | some r => s.sinkReq core r die
        | none => sunk (s.unpacket pkt)
      | .offer _ back _ => (sunk (s.unpacket pkt)).sendRelease p.dst p.src back true 4
      | .answer core tag => (sunk (s.unpacket pkt)).modCore core (fun c => c.dropReq tag)
      | .engine _ _ | .fill _ _ => (sunk (s.unpacket pkt)).noteLost p.body true
      | .futureWait h pid =>
        let f := (s.coreFor (handleCore h) p.job).future (handleEntry h)
        (sunk (s.unpacket pkt)).releaseWaiter p.job pid h (futureWord h 2 false 0 f.engine.toNat 0x41 0) none
      | _ => sunk (s.unpacket pkt))

/-- Step 3 is over at a core: started work has ended, and the store buffer and the request table are empty. -/
def Core.settled (c : Core) : Bool :=
  c.vecQ.isEmpty && c.copyQ.isEmpty && c.tasks.isEmpty && c.drainQ.isEmpty && !c.endpoints.any (fun e => e.2.state == 5)
    && c.reqs.isEmpty

/-- Whether a job's work on a die has settled, and nothing of it is on its way to the die. -/
def State.drainedOf (s : State) (die job : Nat) : Bool :=
  (s.jobCores die job).all (fun c => (s.core c).settled)
    && !s.net.any (fun p => p.job == job && dieOf p.dst == die)
    && s.cores.all (fun e => dieOf e.1 == die || e.2.reqs.all (fun r => r.job != job || r.serviceDie != die || r.phase != .sent))

/-- A core as a teardown leaves it: its gate, its reports and its number of requests stay. -/
def Core.cleaned (c : Core) : Core :=
  { gateJob := c.gateJob, gateV := c.gateV, gated := c.gated, wakeEnd := c.wakeEnd, faultOut := c.faultOut
    nextTag := c.nextTag }

/-- Pools and operand memory of cores become zero and EMPTY. -/
def Memory.clearCore (m : Memory) (core : Nat) : Memory :=
  (m.clearRange (poolKey core 0) (2 ^ 21)).clearRange (operandKey core 0 0) (2 ^ 18)

/-- The route entries without a local die's island bits. -/
def clearIsl (die : Nat) (t : AMap Word) : AMap Word :=
  t.map (fun e => (e.1, e.2 &&& ~~~((0xF : Word) <<< (24 + 4 * (die % 4)))))

/-- Requests of other dies' cores that wait on words of a torn-down job's pools, live or saved, complete as poisoned. -/
def State.sinkWaits (s : State) (die job : Nat) (cs : List Nat) : State :=
  let d := s.die die
  let live (w : Waiter) : Bool := cs.any (fun c => ownPoolKey c (w.word * 8))
  let gone := d.waits.filter live ++ (d.saved.filter (fun x => x.job == job)).flatMap (fun x => x.waits)
  let s := s.modDie die (fun d => { d with waits := d.waits.filter (fun w => !live w) })
  (gone.filter (fun w => dieOf w.core != die)).foldl (fun t w => t.onTenant w.core w.job (fun u =>
    match (u.core w.core).req w.tag with
    | some r => u.sinkReq w.core r die
    | none => u)) s

/-- Step 5. -/
def State.cleanup (s : State) (die job : Nat) : State :=
  let cs := s.jobCores die job
  let s := s.sinkWaits die job cs
  let s := cs.foldl (fun t c => { t with mem := t.mem.clearCore c }.modCore c Core.cleaned) s
  let s := { s with cores := s.cores.map (fun (e : Nat × Core) =>
    if dieOf e.1 = die then (e.1, { e.2 with tlb := e.2.tlb.filter (fun x => x.job != job) }) else e) }
  let s := s.modDie die (fun d => { d with
    saved := d.saved.filter (fun x => x.job != job), frames := d.frames.filter (fun e => e.2.job.toNat != job)
    running := d.running.map (fun (r : Running) => { r with undone := r.undone.filter (fun c => !cs.contains c) })
    clusters := d.clusters.map (fun (e : Nat × Cluster) => (e.1, { e.2 with
      lines := e.2.lines.filter (fun l => l.1 != job), fills := e.2.fills.filter (fun l => l.1 != job) }))
    walks := d.walks.filter (fun w => w.job != job), waits := d.waits.filter (fun w => !cs.contains w.core) })
  let pkg := pkgOfDie die
  let others := (s.pkg pkg).ldbind.any (fun e => ldV e.2 && e.2.getLsbD (die % 4) && ldJob e.2 != job)
  if others then s
  else s.modPkg pkg (fun p => { p with
    rteShadow := clearIsl die p.rteShadow, rte0 := clearIsl die p.rte0, rte1 := clearIsl die p.rte1 })

/-- Launches of a job that a teardown has ended, their cores free again (R315). -/
def State.launchesEnd (s : State) (die job : Nat) (reason : BitVec 8) : State :=
  let ended (q : Running) : Bool := lrJob q.record == job
    && (lrCores (pkgOfDie die) q.record).all (fun e => s.freeOf e.1 die q.id)
  let gone := (s.die die).running.filter ended
  let s := s.modDie die (fun d => { d with running := d.running.filter (fun q => !ended q) })
  gone.foldl (fun t q => t.failFuture q.core q.entry 0 (if q.reason = 0 then reason else q.reason) 0 0 true) s

/-- Step 6: BUSY clears once the teardown's records are written, and a waiting teardown, or reset, begins. -/
def State.teardownEnds (s : State) (die : Nat) : State :=
  let d := s.die die
  match d.tdWork with
  | none => s
  | some (job, _) =>
    if d.tdLevels < 7 || (!s.mute die && d.invBuf.any (fun r => r.job == job)) then s
    else (s.setDie die { d with tdWork := none }).teardownNext die

/-- TEARDOWN_MARKER (R383 steps 3 to 6): one level of markers has come back from every port; after level 6 the job's
state on the die is cleaned up. -/
def execTeardownMarker (die : Nat) (s : State) : Answer :=
  let d := s.die die
  .next (match d.tdWork with
    | none => s
    | some (job, why) =>
      if 7 ≤ d.tdLevels || !s.drainedOf die job then s
      else
        let s := s.setDie die { d with tdLevels := d.tdLevels + 1 }
        if d.tdLevels = 6 then ((s.cleanup die job).launchesEnd die job why).teardownEnds die else s)

/-- INVENTORY_RECORD_WRITE (R381): the oldest record is written when its entry's doubleword 0 is EMPTY, that doubleword
last. -/
def execInventoryRecordWrite (die : Nat) (s : State) : Answer :=
  let d := s.die die
  .next (match d.invBuf with
    | [] => s
    | r :: rest =>
      let a := d.invbase.toNat / 4096 * 4096 + 32 * d.invNext
      let k := storeKey (a / 2 ^ 42) (a / 2 ^ 40 % 4) a
      if s.mem.isFull (k / 8) then s
      else
        let s := s.setDie die { d with invBuf := rest, invNext := (d.invNext + 1) % d.ringSize }
        let s := [1, 2, 3, 0].foldl (fun t i => t.writeBytes .c 0 0 (k + 8 * i) 8 (r.words.getD i 0).toNat) s
        s.teardownEnds die)

/-! ### Gated cores (R385) -/

/-- A bit of the PGATE registers. -/
def Die.setGate (d : Die) (i : Nat) (b : Bool) : Die :=
  { d with pgate := if b then d.pgate ||| (1#256 <<< i) else d.pgate &&& ~~~(1#256 <<< i) }

/-- POWER_GATE (R385): a free compute core is gated; its pool, operand memory, side bands and line buffers lose their
contents. -/
def execPowerGate (core : Nat) (s : State) : Answer :=
  let c := s.core core
  .next (if isKernel core || c.gated || !c.isFree then s
    else
      let c : Core := { c with
        gated := true, procs := [], ready := [], slots := List.replicate 16 {}, normal := [], staging := [], stageTail := 0
        divert := false, handler := none, lastStaged := none, owed := [], bank0 := {}, bank1 := {}
        opslots := (List.range 32).map (fun i => (i, { sblk := 0, sband := 0 })) }
      (({ s with mem := s.mem.clearCore core }.setCore core c).modDie (dieOf core) (fun d =>
        d.setGate (idxOf core) true)).rescanRange (poolKey core 0) (2 ^ 21))

/-- CORE_WAKE (R385): the wake takes at most 2,100 die cycles; it clears the core's bit. -/
def execCoreWake (core : Nat) (s : State) : Answer :=
  let c := s.core core
  .next (if !c.gated || c.wakeEnd.isSome then s
    else (s.setCore core { c with wakeEnd := some (s.ticks + 2100) }).modDie (dieOf core) (fun d =>
      d.setGate (idxOf core) false))

/-- CORE_WAKE_END (R343, R385): the core is awake with its TLB flushed, and stalled accesses proceed. -/
def execCoreWakeEnd (core : Nat) (s : State) : Answer :=
  let c := s.core core
  .next (if c.wakeEnd.isNone then s else s.setCore core { c with gated := false, wakeEnd := none, tlb := [] })

/-! ### Boot (R389, R390) -/

/-- A kernel core as the boot ROM starts it (log 17): its process 0 has a window above the husk array (R147). -/
def Core.booted (c : Core) (kcore : Nat) : Core :=
  let p : Proc := { (({} : Proc).freshWindow 128) with
    state := .ready, pc := Config.bootEntry kcore, wbase := BitVec.ofNat 12 ((c.allocWindow 128).getD 128) }
  (c.setProc 0 p).pushTail 0
def State.startKernels (s : State) (die : Nat) : State :=
  (List.range 4).foldl (fun t i => t.modCore (die * 512 + 256 + i) (fun c => c.booted (die * 512 + 256 + i))) s

/-- The measurements of R391. -/
def Pkg.measured (p : Pkg) (img : List Byte) : AMap (BitVec 384) :=
  [(1, Config.bootRomDigest), (2, imageDigest img), (3, Config.fuseDigest (imageWord img 8)),
   (4, Config.sha384 [BitVec.ofNat 8 p.ports.toNat, BitVec.ofNat 8 p.duty.toNat, BitVec.ofNat 8 (p.duty.toNat / 256)])]

/-- BOOT_VERIFY: an accepted image is loaded and measured, raises the minimum SVN, and the kernel cores start; otherwise
the package enters recovery. -/
def State.boot (s : State) (pkg : Nat) : State :=
  let p := s.pkg pkg
  if imageOk p.minSvn p.fwSlot then
    let s := s.setPkg pkg { p with
      recovery := false, meas := p.measured p.fwSlot, minSvn := max p.minSvn (imageWord p.fwSlot 8) }
    let s := { s with mem := s.mem.setBytes (Config.bootBase pkg) (imagePart p.fwSlot 8192 (imageWord p.fwSlot 12)) }
    (dies4 pkg).foldl (fun t d => t.startKernels d) s
  else s.setPkg pkg { p with recovery := true, meas := [] }

/-! ### Resets (R386, R387) -/

/-- Whether a stored byte belongs to a core of a die: pools and operand memory, kernel cores' among them. -/
def coreOfDie (die k : Nat) : Bool :=
  2 ^ 56 ≤ k && dieOf (if k < 2 ^ 57 then (k - 2 ^ 56) / 2 ^ 21 else (k - 2 ^ 57) / 2 ^ 18) == die

/-- Memory without the bytes of a property: zero, EMPTY and not poisoned. -/
def Memory.wiped (m : Memory) (p : Nat → Bool) : Memory :=
  { m.without p with poison := m.poison.filter (fun l => !p (l * 64)) }

/-- The reset of a die: CYC counts from now; on-die structures, launch and job records and pools are cleared; what heat
and a stop have left to tell is kept. -/
def State.resetDie (s : State) (die : Nat) : State :=
  let d := s.die die
  let fresh : Die := { epoch := s.ticks, windowStart := s.ticks, tj := d.tj, warn := d.warn, trip := d.trip, inReset := d.inReset
                       stopReport := d.stopReport }
  let s := { s with
    mem := s.mem.wiped (coreOfDie die)
    cores := s.cores.filter (fun e => dieOf e.1 != die)
    phase := s.phase.filter (fun x => match x with
      | .issue c => dieOf c != die
      | .due _ => true) }
  s.setDie die fresh

/-- The die is reset, and its kernel cores start where firmware was accepted (log 17). The package stays in its sheaf while
another die of it, not itself in reset, keeps the link (log 22); the new replica applies the frames that are kept, and gives
no result of them. LAND is 0 (R292). -/
def State.resetNow (s : State) (die : Nat) : State :=
  let pkg := pkgOfDie die
  let s := if (dies4 pkg).any (fun d => d != die && !(s.die d).inReset) then s else s.sheafLeave pkg
  let t := ((s.resetDie die).endInFrames pkg (fun o _ => dieOf o.core == die)).modPkg pkg (fun p => { p with land := 0 })
  if (s.pkg (pkgOfDie die)).recovery || (s.die die).inReset then t else t.startKernels die

/-- The jobs a die serves, live or saved. -/
def State.dieJobs (s : State) (die : Nat) : List Nat :=
  (((s.cores.filter (fun e => dieOf e.1 == die && !isKernel e.1 && e.2.gateV)).map (fun e => e.2.gateJob.toNat))
    ++ (s.die die).saved.map (fun x => x.job)).foldl insertKey []

/-- DIE_RESET (R387): the jobs of the die are torn down first, where a kernel core has stopped without records; a tenant
switch under way ends before (R383). -/
def execDieReset (die : Nat) (s : State) : Answer :=
  let d := s.die die
  .next (if d.resetWanted then (if d.tdWork.isNone && d.tdQueue.isEmpty && !d.switching then s.resetNow die else s)
    else
      let jobs := s.dieJobs die
      if jobs.isEmpty && d.tdWork.isNone then s.resetNow die
      else jobs.foldl (fun t j => t.later (.teardown die j 0x41)) (s.setDie die { d with resetWanted := true }))

/-- A package after a warm reset: route tables, LDBIND, DUTY and LAND are cleared, and what was in progress is over. -/
def Pkg.warm (p : Pkg) : Pkg :=
  { p with
    rteShadow := [], rte0 := [], rte1 := [], ldbind := [], duty := 0, turning := 0, dutyHw := 0, land := 0, busy := false
    markers := []
    markLevel := 0, markSent := (p.markSent + 6) / 7 * 7, markTaken := p.markTaken.map (fun e => (e.1, (e.2 + 6) / 7 * 7))
    unanswered := [], formAt := none, joins := [], starter := none, forwarded := [], taken := [], migrations := [], heldCmds := []
    migrating := [] }

/-- Packets that a package holds, and those on their way that its cores sent, are lost with it; another package's count of
packets not answered falls by those it had sent (R360, R387). -/
def State.dropPackets (s : State) (pkg : Nat) : State :=
  let gone (p : Packet) : Bool := p.at_ == pkg || pkgOf p.origin == pkg
  let lost := s.net.filter gone
  let s := { s with net := s.net.filter (fun p => !gone p) }
  lost.foldl (fun t p =>
    match p.reply with
    | some g => t.countAnswer (pkgOf p.dst) (pkgOf p.src) g
    | none => if p.hop = 0 then t else t.countAnswer (pkgOf p.origin) (pkgOf p.dst) p.gen) s

/-- PACKAGE_WARM_RESET (R387, R389). -/
def execPackageWarmReset (pkg : Nat) (s : State) : Answer :=
  let s := s.sheafLeave pkg
  let s := ((dies4 pkg).foldl (fun t d => t.resetDie d) s).dropPackets pkg
  .next ((s.modPkg pkg Pkg.warm).boot pkg)

/-- PACKAGE_COLD_RESET (R387, R389, R390): everything but the firmware slot and the fuses; memory of the package loses its
contents. A write of the slot that it cuts off leaves the slot with no image that R389 accepts. -/
def execPackageColdReset (pkg : Nat) (s : State) : Answer :=
  let s := s.sheafLeave pkg
  let s := (dies4 pkg).foldl (fun t d => (t.resetDie d).setDie d { epoch := t.ticks, windowStart := t.ticks }) s
  let mine (k : Nat) : Bool := k < 2 ^ 56 && k / 2 ^ 44 == pkg && !isHostKey k
  let s := ({ s with mem := s.mem.wiped mine } : State).dropPackets pkg
  let p := s.pkg pkg
  let cut := p.fwDone.any (fun t => s.ticks < t)
  .next ((s.setPkg pkg { fwSlot := if cut then [] else p.fwSlot, minSvn := p.minSvn, star := p.star }).boot pkg)

/-- THERMAL_TRIP (R386): at 115 °C the die resets, sets TRIP, and stays in reset. -/
def execThermalTrip (die tj : Nat) (s : State) : Answer :=
  .next (if tj < 115 || (s.die die).inReset then s
    else (s.modDie die (fun d => { d with
      tj := BitVec.ofNat 8 (min tj 255), warn := true, trip := true, inReset := true })).later (.dieReset die))

/-- Below 95 °C a die in reset leaves it (R386). -/
def State.thermalEnds (s : State) (die tj : Nat) : State :=
  let s := s.modDie die (fun d => { d with tj := BitVec.ofNat 8 tj, warn := false, inReset := false })
  if (s.pkg (pkgOfDie die)).recovery || (s.die die).resetWanted then s else s.startKernels die

/-- THERMAL_RECOVERY (R386). -/
def execThermalRecovery (die tj : Nat) (s : State) : Answer :=
  .next (if 95 ≤ tj || !(s.die die).inReset then s else s.thermalEnds die tj)

/-- THERMAL_WARN (R386): WARN is 1 while TJ is at least 105. A temperature that trips the die, or that ends its reset, does
so (log 22). -/
def execThermalWarn (die tj : Nat) (s : State) : Answer :=
  if 115 ≤ tj && !(s.die die).inReset then execThermalTrip die tj s
  else .next (if tj < 95 && (s.die die).inReset then s.thermalEnds die tj
    else s.modDie die (fun d => { d with tj := BitVec.ofNat 8 (min tj 255), warn := 105 ≤ tj }))

end Sys2Proof.Machine
end

