-- ==== Sys2Proof/Machine/Cycle.lean ====
section
/-! DEFINITION. A die cycle (R1, R3): the events that fall due in it, in their order, and the issue turns of its cores
(R9). What the manual bounds happens at its bound at the latest, what it fixes at its time; the rest waits for the schedule
of inputs (log 2). -/

namespace Sys2Proof.Machine

/-- A core that issues and starts nothing: stopped or gated, of a die held in reset, or of an outgoing tenant (R318, R332,
R385, R386). -/
def State.idle (s : State) (core : Nat) : Bool :=
  let c := s.core core
  let d := s.die (dieOf core)
  c.stopped || c.gated || (d.inReset && !d.resetWanted) || (d.switching && !isKernel core)

/-! ### What falls due on a core -/

/-- Fixed-latency results that arrive: their places once the ones before them have left the list (R14, R19). -/
def dueFlights (core now : Nat) : Nat → List Flight → List Due
  | _, [] => []
  | i, f :: fs => if f.due ≤ now then .fixedLatencyResult core i :: dueFlights core now i fs else dueFlights core now (i + 1) fs

/-- The divider's present operation at its bound (R82). -/
def Core.dueDivider (c : Core) (core now : Nat) : List Due :=
  match c.divider with
  | o :: _ => if o.startBy + o.cycles ≤ now then [.dividerResult core] else []
  | [] => []

/-- Counting, drains and merges of the array (R259 to R266). -/
def Core.dueArray (c : Core) (core now : Nat) : List Due :=
  (match c.counting with
    | some (q, _, _, e) =>
      if e ≤ now then (if (c.task q).any (fun t => t.isMac) then [.macCountingEnd core] else [.panelEnd core]) else []
    | none => [])
  ++ (match c.drainQ, c.drainEnd with
    | r :: _, some e =>
      if e ≤ now then (match r with
        | .zero _ _ _ _ => [.tileZeroing core]
        | .drain _ _ => [.drain core, .drainEnd core]
        | .output _ => [.outputWriteEnd core])
      else []
    | _, _ => [])
  ++ c.merges.map (fun _ => .mmergePerform core)

/-- Accesses that wait for an entry, refused ones to be sent again, and stores to the own pool (R122, R124, R132). -/
def Core.dueRequests (c : Core) (core now : Nat) : List Due :=
  (c.reqs.filter (fun r => r.phase == .full)).map (fun r => .bufferEntryFreed core r.tag)
  ++ (c.reqs.filter (fun r => r.phase == .refused && r.due ≤ now)).map (fun r => .requestRetry core r.tag)
  ++ (c.reqs.filter (fun r => r.phase == .sent && r.ownPool && r.kind.buffered && r.due ≤ now)).map (fun r =>
    .memoryRequestArrival core r.tag)

/-- What ends, or moves on, of a process's wait. -/
def State.dueWait (s : State) (core pn : Nat) (p : Proc) : List Due :=
  (match p.wait with
    | .sleep t => if t.toNat ≤ (s.cyc (dieOf core)).toNat then [.sleepDeadline core pn] else []
    | .align => if p.waitSince + 256 ≤ s.ticks then [.alignTimeout core pn] else []
    | .alt _ => (match p.altSet.timeout with
      | some (t, _, true) => if t.toNat ≤ (s.cyc (dieOf core)).toNat then [.altTimeout core pn] else []
      | _ => [])
    | .ifsync 0 _ => if (s.core core).storesDone pn (s.core core).nextTag then [.ifsyncRelease core pn] else []
    | .ifsync _ t => if t ≤ s.ticks then [.ifsyncRelease core pn] else []
    | .offering _ _ _ | .recording _ _ _ _ | .sheafRelease _ _ _ _ _ _ _ | .inlineCall _ _ _ _ _ _ | .loopback _
    | .kernelOp _ _ | .ownWrites _ | .inlineReturn _ _ =>
      [.ordered core pn]
    | _ => [])
  ++ (if p.state.isBlocked && p.probeAt ≤ s.ticks then [.probeSend core pn] else [])
  ++ (if p.asyncTrap.isSome && (p.state == .running || p.state == .ready) && !p.held then [.poisonDelivery core pn] else [])

/-- STARTs and descriptor loads at their bounds (R78, R155), late copies (R235), and a hold buffer that is free (R203). -/
def State.dueOperations (s : State) (core : Nat) (c : Core) : List Due :=
  (c.starts.filter (fun x => x.last ≤ s.ticks)).map (fun x => .startCompletion core x.pn)
  ++ (c.wsetOps.filter (fun x => x.2.2.2 ≤ s.ticks)).map (fun _ => .wsetCompletion core)
  ++ (c.futures.filter (fun e => s.isLate core e.1)).map (fun e => .lateMark core e.1)
  ++ (if c.hold.owner.isNone && c.specWaiter.isSome then [.holdBufferFreed core] else [])

/-- Transfers within one core, at their times (R178). -/
def State.dueTransfers (s : State) (core : Nat) (c : Core) : List Due :=
  (s.net.filter (fun p => p.src == core && p.dst == core && (match p.body with | .release _ _ _ _ => true | _ => false)
    && (match p.retryAt with | some t => t ≤ s.ticks | none => true))).map (fun _ => .releaseAnswer core)
  ++ (c.endpoints.filter (fun e => e.2.state == 5 && e.2.xferSrc == core && !e.2.isHost && e.2.xferDone ≤ s.ticks)).map
    (fun e => .transferEnd core e.1)

/-- Engines with an operation to start, and the handlers of slot 15 (R194, R217, R228). -/
def State.dueStarts (s : State) (core : Nat) (c : Core) : List Due :=
  if s.idle core then []
  else
    (if (c.vecQ.head?).any (fun v => !v.started) then [.vectorOperationStart core] else [])
    ++ (if (c.copyQ.head?).any (fun o => !o.started) then [.copyStart core] else [])
    ++ (if c.nextActive.any (fun m => c.unhandled m.msg || (c.slot 15).isEmpty) then [.handlerStart core] else [])
    ++ (if s.codeOver core then [.handlerEnd core] else [])

/-- Switches, departures and waits on pending tags of the slots (R11, R150). -/
def Core.dueSlots (c : Core) (core now : Nat) : List Due :=
  (List.range 16).flatMap (fun i =>
    let x := c.slot i
    (if x.switchEnd.any (fun t => t ≤ now) then [.switchEnd core i] else [])
    ++ (if x.leaving.isSome && c.mayLeave i then [.slotDeparture core i] else [])
    ++ (match x.settled with
      | some pn => if ((c.proc pn).tagSince).any (fun t => t + 64 == now) then [.pendingWaitExpiry core i] else []
      | none => []))

/-! ### What falls due on a die, and on a package -/

/-- The governor's windows that have ended (R271). -/
def Die.dueWindows (d : Die) (die now : Nat) : List Due :=
  List.replicate ((now - d.windowStart) / 1024) (.governorWindow die)

/-- The fetch ports with requests (R27), and the end of a turn (R320). -/
def Die.duePorts (d : Die) (die : Nat) : List Due :=
  (d.clusters.filter (fun e => !e.2.asks.isEmpty)).map (fun e => .lineDelivery die e.1)
def Die.dueTurn (d : Die) (die now : Nat) : List Due :=
  if d.quantumEnd.any (fun t => t ≤ now) then [.timeShareQuantum die] else []

/-- Host queues with entries that have not acted yet (R319, R351). -/
def Pkg.duePolls (p : Pkg) (pkg : Nat) : List Due :=
  (p.hostq.filter (fun e => e.2.used && !e.2.toHost && e.2.head < e.2.tail)).map (fun e => .hostPoll pkg e.1)

/-- Silence and formation of the sheaf (R363, R365). -/
def State.dueSheaf (s : State) (pkg : Nat) (p : Pkg) : List Due :=
  (if (s.silenceDue pkg).any (fun t => t ≤ s.ticks) then [.silenceTimeout pkg] else [])
  ++ (if p.formAt.isSome && p.joinAt ≤ s.ticks then [.joinFrameSend pkg] else [])
  ++ (if s.startsSheaf pkg then [.firstTokenSend pkg] else [])
  ++ (if p.formAt.any (fun t => t + 4200000 ≤ s.ticks) then [.formationTimeout pkg] else [])

/-! ### The cycle -/

/-- Everything a cycle holds, in order: results, the array, memory, waits, transfers, starts, packages, fetch, slots, task
choice and the governor; then each core issues; then placements. -/
def State.agenda (s : State) : List Phase :=
  let cs := s.cores
  let awake := cs.filter (fun e => !s.idle e.1)
  let all (f : Nat → Core → List Due) : List Due := cs.flatMap (fun e => f e.1 e.2)
  let dues : List Due :=
    s.dies.flatMap (fun e => e.2.dueWindows e.1 s.ticks)
    ++ all (fun k c => dueFlights k s.ticks 0 c.flight)
    ++ all (fun k c => c.dueDivider k s.ticks)
    ++ all (fun k c => c.dueArray k s.ticks)
    ++ all (fun k c => c.dueRequests k s.ticks)
    ++ all (fun k c => c.procs.flatMap (fun e => s.dueWait k e.1 e.2))
    ++ all (fun k c => s.dueOperations k c)
    ++ all (fun k c => s.dueTransfers k c)
    ++ all (fun k c => s.dueStarts k c)
    ++ all (fun k c => if c.wakeEnd.any (fun t => t ≤ s.ticks) then [.coreWakeEnd k] else [])
    ++ s.pkgs.flatMap (fun e => s.dueSheaf e.1 e.2)
    ++ s.pkgs.flatMap (fun e => e.2.duePolls e.1)
    ++ s.dies.flatMap (fun e => e.2.dueTurn e.1 s.ticks)
    ++ s.dies.flatMap (fun e => e.2.duePorts e.1)
    ++ all (fun k c => c.dueSlots k s.ticks)
    ++ awake.flatMap (fun e => if e.2.tasks.isEmpty then [] else [.taskChoice e.1])
    ++ awake.flatMap (fun e => if e.2.tasks.isEmpty then [] else [.governorGrant e.1])
  let places : List Due := awake.flatMap (fun e => [.schedulerPlacement e.1, .rotation e.1, .slot15Handover e.1])
  dues.map .due ++ awake.map (fun e => .issue e.1) ++ places.map .due

/-- What a package does at the start of a die cycle: an update that nothing holds any more goes on (R361), and mailbox commands
that nothing holds any more are served (R321). -/
def State.pkgTurn (s : State) (pkg : Nat) : State :=
  (if (s.pkg pkg).busy then s.drainLevels pkg 8 else s).serveHeld pkg

/-- The next die cycle begins; changes of MODE that nothing holds any more take effect (R321). -/
def State.tick (s : State) : State :=
  let t := { s with ticks := s.ticks + 1, pkgs := s.pkgs.map (fun (e : Nat × Pkg) => (e.1, e.2.settleDuty)) }
  let t := (t.pkgs.map (fun e => e.1)).foldl State.pkgTurn t
  { t with phase := t.agenda }

/-! ### Events -/

/-- The place of the release answer of a core's own transfer that is due (R178). -/
def State.releaseIdx (s : State) (core : Nat) : Nat :=
  ((List.range s.net.length).find? (fun i => match s.arrived i with
    | some p => p.src == core && p.dst == core && (match p.body with | .release _ _ _ _ => true | _ => false)
    | none => false)).getD s.net.length

/-- A process that waits only for earlier accesses, a walk or room goes on as soon as it can (R180, R199, R282, R288, R308,
R309). -/
def State.goesOn (s : State) (core pn : Nat) : State :=
  (((((s.proceed core pn).sheafEnters core pn).inlineResumes core pn).returnResumes core pn).ownWritesGo core pn).kernelGoes
    core pn

/-- Each event that the machine brings about itself has the meaning of its row. -/
def State.happen (s : State) (e : Due) : Answer :=
  match e with
  | .fixedLatencyResult core idx => execFixedLatencyResult core idx s
  | .dividerResult core => execDividerResult core s
  | .schedulerPlacement core => execSchedulerPlacement core s
  | .slotDeparture core slot => execSlotDeparture core slot s
  | .switchEnd core slot => execSwitchEnd core slot s
  | .pendingWaitExpiry core slot => execPendingWaitExpiry core slot s
  | .rotation core => execRotation core s
  | .slot15Handover core => execSlot15Handover core s
  | .sleepDeadline core pn => execSleepDeadline core pn s
  | .alignTimeout core pn => execAlignTimeout core pn s
  | .lineDelivery die cluster => execLineDelivery die cluster s
  | .ifsyncRelease core pn => execIfsyncRelease core pn s
  | .bufferEntryFreed core tag => execBufferEntryFreed core tag s
  | .memoryRequestArrival core tag => execMemoryRequestArrival core tag s
  | .requestRetry core tag => execRequestRetry core tag s
  | .startCompletion core pn => execStartCompletion core pn s
  | .wsetCompletion core => execWsetCompletion core s
  | .transferEnd core index => execTransferEnd core index s
  | .releaseAnswer core => execReleaseAnswer (s.releaseIdx core) s
  | .ordered core pn => .next (s.goesOn core pn)
  | .handlerStart core => execHandlerStart core s
  | .handlerEnd core => execHandlerEnd core s
  | .altTimeout core pn => execAltTimeout core pn s
  | .holdBufferFreed core => execHoldBufferFreed core s
  | .poisonDelivery core pn => execPoisonDelivery core pn s
  | .probeSend core pn => execProbeSend core pn s
  | .vectorOperationStart core => execVectorOperationStart core s
  | .copyStart core => execCopyStart core s
  | .lateMark core entry => execLateMark core entry s
  | .taskChoice core => execTaskChoice core s
  | .governorGrant core => execGovernorGrant core s
  | .governorWindow die => execGovernorWindow die s
  | .panelEnd core => execPanelEnd core s
  | .macCountingEnd core => execMacCountingEnd core s
  | .tileZeroing core => execTileZeroing core s
  | .drain core => execDrain core s
  | .drainEnd core => execDrainEnd core s
  | .outputWriteEnd core => execOutputWriteEnd core s
  | .mmergePerform core => execMmergePerform core s
  | .coreWakeEnd core => execCoreWakeEnd core s
  | .silenceTimeout pkg => execSilenceTimeout pkg s
  | .joinFrameSend pkg => execJoinFrameSend pkg s
  | .firstTokenSend pkg => execFirstTokenSend pkg s
  | .formationTimeout pkg => execFormationTimeout pkg s
  | .timeShareQuantum die => execTimeShareQuantum die s
  | .hostPoll pkg key => .next (s.hostServe pkg (key / 256) (key % 256))
  | .sheafForm pkg => execSheafForm pkg s
  | .sheafLeaveRequest pkg => execSheafLeaveRequest pkg s
  | .sheafLeave pkg => execSheafLeave pkg s
  | .routeSwitch pkg => execRouteSwitch pkg s
  | .teardown die job reason => execTeardown die job reason s
  | .powerGate core => execPowerGate core s
  | .coreWake core => execCoreWake core s
  | .poisonFix die addr => execPoisonFix die addr s
  | .dieReset die => execDieReset die s
  | .packageWarmReset pkg => execPackageWarmReset pkg s

end Sys2Proof.Machine
end

