-- ==== Sys2Proof/Machine/Dispatch.lean ====
section
/-! DEFINITION. One arm per row of the opcode table: each is one call of that row's meaning. -/

namespace Sys2Proof.Machine

/-- The effect of an instruction word on the issuing process of the context, or of an event. -/
def exec (i : Instr) (s : State) : Host.Outcome State Fault Refusal :=
  match i with
  | .add w d a b => Sys2Proof.Machine.execAdd w d a b s
  | .sub w d a b => Sys2Proof.Machine.execSub w d a b s
  | .and w d a b => Sys2Proof.Machine.execAnd w d a b s
  | .or w d a b => Sys2Proof.Machine.execOr w d a b s
  | .xor w d a b => Sys2Proof.Machine.execXor w d a b s
  | .andn w d a b => Sys2Proof.Machine.execAndn w d a b s
  | .orn w d a b => Sys2Proof.Machine.execOrn w d a b s
  | .sll w d a b => Sys2Proof.Machine.execSll w d a b s
  | .srl w d a b => Sys2Proof.Machine.execSrl w d a b s
  | .sra w d a b => Sys2Proof.Machine.execSra w d a b s
  | .ror w d a b => Sys2Proof.Machine.execRor w d a b s
  | .mul w d a b => Sys2Proof.Machine.execMul w d a b s
  | .mulh w d a b => Sys2Proof.Machine.execMulh w d a b s
  | .mulhu w d a b => Sys2Proof.Machine.execMulhu w d a b s
  | .div w d a b => Sys2Proof.Machine.execDiv w d a b s
  | .divu w d a b => Sys2Proof.Machine.execDivu w d a b s
  | .rem w d a b => Sys2Proof.Machine.execRem w d a b s
  | .remu w d a b => Sys2Proof.Machine.execRemu w d a b s
  | .min w d a b => Sys2Proof.Machine.execMin w d a b s
  | .max w d a b => Sys2Proof.Machine.execMax w d a b s
  | .minu w d a b => Sys2Proof.Machine.execMinu w d a b s
  | .maxu w d a b => Sys2Proof.Machine.execMaxu w d a b s
  | .slt w d a b => Sys2Proof.Machine.execSlt w d a b s
  | .sltu w d a b => Sys2Proof.Machine.execSltu w d a b s
  | .clz w d a => Sys2Proof.Machine.execClz w d a s
  | .ctz w d a => Sys2Proof.Machine.execCtz w d a s
  | .popc w d a => Sys2Proof.Machine.execPopc w d a s
  | .brev w d a => Sys2Proof.Machine.execBrev w d a s
  | .bswap w d a => Sys2Proof.Machine.execBswap w d a s
  | .sextb w d a => Sys2Proof.Machine.execSextb w d a s
  | .sexth w d a => Sys2Proof.Machine.execSexth w d a s
  | .sextw w d a => Sys2Proof.Machine.execSextw w d a s
  | .zextw w d a => Sys2Proof.Machine.execZextw w d a s
  | .addi w d a j => Sys2Proof.Machine.execAddi w d a j s
  | .andi w d a j => Sys2Proof.Machine.execAndi w d a j s
  | .ori w d a j => Sys2Proof.Machine.execOri w d a j s
  | .xori w d a j => Sys2Proof.Machine.execXori w d a j s
  | .slti w d a j => Sys2Proof.Machine.execSlti w d a j s
  | .sltiu w d a j => Sys2Proof.Machine.execSltiu w d a j s
  | .slli w d a x => Sys2Proof.Machine.execSlli w d a x s
  | .srli w d a x => Sys2Proof.Machine.execSrli w d a x s
  | .srai w d a x => Sys2Proof.Machine.execSrai w d a x s
  | .rori w d a x => Sys2Proof.Machine.execRori w d a x s
  | .liu w d j => Sys2Proof.Machine.execLiu w d j s
  | .addpc w d j => Sys2Proof.Machine.execAddpc w d j s
  | .bfxi w d a p l => Sys2Proof.Machine.execBfxi w d a p l s
  | .bfxui w d a p l => Sys2Proof.Machine.execBfxui w d a p l s
  | .bfii w d a p l => Sys2Proof.Machine.execBfii w d a p l s
  | .bfx w d a b => Sys2Proof.Machine.execBfx w d a b s
  | .bfxu w d a b => Sys2Proof.Machine.execBfxu w d a b s
  | .bfi w d a b => Sys2Proof.Machine.execBfi w d a b s
  | .hpack w d a b => Sys2Proof.Machine.execHpack w d a b s
  | .hunpk w d a b => Sys2Proof.Machine.execHunpk w d a b s
  | .hlwr w a b => Sys2Proof.Machine.execHlwr w a b s
  | .hlrd w d a => Sys2Proof.Machine.execHlrd w d a s
  | .getx w d k => Sys2Proof.Machine.execGetx w d k s
  | .putx w a k => Sys2Proof.Machine.execPutx w a k s
  | .addx w k => Sys2Proof.Machine.execAddx w k s
  | .cbEq w n a b o => Sys2Proof.Machine.execCbEq w n a b o s
  | .cbNe w n a b o => Sys2Proof.Machine.execCbNe w n a b o s
  | .cbLt w n a b o => Sys2Proof.Machine.execCbLt w n a b o s
  | .cbGe w n a b o => Sys2Proof.Machine.execCbGe w n a b o s
  | .cbLtu w n a b o => Sys2Proof.Machine.execCbLtu w n a b o s
  | .cbGeu w n a b o => Sys2Proof.Machine.execCbGeu w n a b o s
  | .cbBset w n a b o => Sys2Proof.Machine.execCbBset w n a b o s
  | .cbBclr w n a b o => Sys2Proof.Machine.execCbBclr w n a b o s
  | .cbiEq w n a j => Sys2Proof.Machine.execCbiEq w n a j s
  | .cbiNe w n a j => Sys2Proof.Machine.execCbiNe w n a j s
  | .cbiLt w n a j => Sys2Proof.Machine.execCbiLt w n a j s
  | .cbiGe w n a j => Sys2Proof.Machine.execCbiGe w n a j s
  | .cbiLtu w n a j => Sys2Proof.Machine.execCbiLtu w n a j s
  | .cbiGeu w n a j => Sys2Proof.Machine.execCbiGeu w n a j s
  | .cbiBset w n a j => Sys2Proof.Machine.execCbiBset w n a j s
  | .cbiBclr w n a j => Sys2Proof.Machine.execCbiBclr w n a j s
  | .j w o => Sys2Proof.Machine.execJ w o s
  | .jl w o => Sys2Proof.Machine.execJl w o s
  | .jlr w d a j => Sys2Proof.Machine.execJlr w d a j s
  | .rep w c m t => Sys2Proof.Machine.execRep w c m t s
  | .nop w => Sys2Proof.Machine.execNop w s
  | .align w k => Sys2Proof.Machine.execAlign w k s
  | .yield w => Sys2Proof.Machine.execYield w s
  | .schk w v => Sys2Proof.Machine.execSchk w v s
  | .ifsync w => Sys2Proof.Machine.execIfsync w s
  | .lb w d a o => Sys2Proof.Machine.execLb w d a o s
  | .lh w d a o => Sys2Proof.Machine.execLh w d a o s
  | .lw w d a o => Sys2Proof.Machine.execLw w d a o s
  | .ld w d a o => Sys2Proof.Machine.execLd w d a o s
  | .lbu w d a o => Sys2Proof.Machine.execLbu w d a o s
  | .lhu w d a o => Sys2Proof.Machine.execLhu w d a o s
  | .lwu w d a o => Sys2Proof.Machine.execLwu w d a o s
  | .sb w x a o => Sys2Proof.Machine.execSb w x a o s
  | .sh w x a o => Sys2Proof.Machine.execSh w x a o s
  | .sw w x a o => Sys2Proof.Machine.execSw w x a o s
  | .sd w x a o => Sys2Proof.Machine.execSd w x a o s
  | .readf w d a o => Sys2Proof.Machine.execReadf w d a o s
  | .take w d a o => Sys2Proof.Machine.execTake w d a o s
  | .peek w d a o => Sys2Proof.Machine.execPeek w d a o s
  | .put w x a o => Sys2Proof.Machine.execPut w x a o s
  | .fill w x a o => Sys2Proof.Machine.execFill w x a o s
  | .clear w x a o => Sys2Proof.Machine.execClear w x a o s
  | .ovwr w x a o => Sys2Proof.Machine.execOvwr w x a o s
  | .aadd w d a b z => Sys2Proof.Machine.execAadd w d a b z s
  | .aand w d a b z => Sys2Proof.Machine.execAand w d a b z s
  | .aor w d a b z => Sys2Proof.Machine.execAor w d a b z s
  | .axor w d a b z => Sys2Proof.Machine.execAxor w d a b z s
  | .amin w d a b z => Sys2Proof.Machine.execAmin w d a b z s
  | .amax w d a b z => Sys2Proof.Machine.execAmax w d a b z s
  | .aminu w d a b z => Sys2Proof.Machine.execAminu w d a b z s
  | .amaxu w d a b z => Sys2Proof.Machine.execAmaxu w d a b z s
  | .aswap w d a b z => Sys2Proof.Machine.execAswap w d a b z s
  | .afadd w d a b z => Sys2Proof.Machine.execAfadd w d a b z s
  | .afamax w d a b z => Sys2Proof.Machine.execAfamax w d a b z s
  | .cas w d a b z => Sys2Proof.Machine.execCas w d a b z s
  | .fenceC w => Sys2Proof.Machine.execFenceC w s
  | .fenceD w => Sys2Proof.Machine.execFenceD w s
  | .fenceG w => Sys2Proof.Machine.execFenceG w s
  | .xfence w p q => Sys2Proof.Machine.execXfence w p q s
  | .faddS w d a b => Sys2Proof.Machine.execFaddS w d a b s
  | .fsubS w d a b => Sys2Proof.Machine.execFsubS w d a b s
  | .fmulS w d a b => Sys2Proof.Machine.execFmulS w d a b s
  | .fdivS w d a b => Sys2Proof.Machine.execFdivS w d a b s
  | .fsqrtS w d a => Sys2Proof.Machine.execFsqrtS w d a s
  | .fminS w d a b => Sys2Proof.Machine.execFminS w d a b s
  | .fmaxS w d a b => Sys2Proof.Machine.execFmaxS w d a b s
  | .faddD w d a b => Sys2Proof.Machine.execFaddD w d a b s
  | .fsubD w d a b => Sys2Proof.Machine.execFsubD w d a b s
  | .fmulD w d a b => Sys2Proof.Machine.execFmulD w d a b s
  | .fdivD w d a b => Sys2Proof.Machine.execFdivD w d a b s
  | .fsqrtD w d a => Sys2Proof.Machine.execFsqrtD w d a s
  | .fminD w d a b => Sys2Proof.Machine.execFminD w d a b s
  | .fmaxD w d a b => Sys2Proof.Machine.execFmaxD w d a b s
  | .feqS w d a b => Sys2Proof.Machine.execFeqS w d a b s
  | .fltS w d a b => Sys2Proof.Machine.execFltS w d a b s
  | .fleS w d a b => Sys2Proof.Machine.execFleS w d a b s
  | .feqD w d a b => Sys2Proof.Machine.execFeqD w d a b s
  | .fltD w d a b => Sys2Proof.Machine.execFltD w d a b s
  | .fleD w d a b => Sys2Proof.Machine.execFleD w d a b s
  | .fclass w d a => Sys2Proof.Machine.execFclass w d a s
  | .fmaddS w d a b => Sys2Proof.Machine.execFmaddS w d a b s
  | .fmsubS w d a b => Sys2Proof.Machine.execFmsubS w d a b s
  | .fnmaddS w d a b => Sys2Proof.Machine.execFnmaddS w d a b s
  | .fmaddD w d a b => Sys2Proof.Machine.execFmaddD w d a b s
  | .fmsubD w d a b => Sys2Proof.Machine.execFmsubD w d a b s
  | .fnmaddD w d a b => Sys2Proof.Machine.execFnmaddD w d a b s
  | .fcvtSD w d a => Sys2Proof.Machine.execFcvtSD w d a s
  | .fcvtDS w d a => Sys2Proof.Machine.execFcvtDS w d a s
  | .fcvtSL w d a => Sys2Proof.Machine.execFcvtSL w d a s
  | .fcvtLS w d a => Sys2Proof.Machine.execFcvtLS w d a s
  | .fcvtDL w d a => Sys2Proof.Machine.execFcvtDL w d a s
  | .fcvtLD w d a => Sys2Proof.Machine.execFcvtLD w d a s
  | .fcvtBS w d a => Sys2Proof.Machine.execFcvtBS w d a s
  | .fcvtSB w d a => Sys2Proof.Machine.execFcvtSB w d a s
  | .start w d a b => Sys2Proof.Machine.execStart w d a b s
  | .stop w => Sys2Proof.Machine.execStop w s
  | .pri w a => Sys2Proof.Machine.execPri w a s
  | .sleepc w a => Sys2Proof.Machine.execSleepc w a s
  | .done w => Sys2Proof.Machine.execDone w s
  | .who w d => Sys2Proof.Machine.execWho w d s
  | .bwait w a => Sys2Proof.Machine.execBwait w a s
  | .send w a b => Sys2Proof.Machine.execSend w a b s
  | .recv w d a => Sys2Proof.Machine.execRecv w d a s
  | .sendb w a b => Sys2Proof.Machine.execSendb w a b s
  | .sendh w a b => Sys2Proof.Machine.execSendh w a b s
  | .tsend w a b => Sys2Proof.Machine.execTsend w a b s
  | .trecv w a b => Sys2Proof.Machine.execTrecv w a b s
  | .altb w => Sys2Proof.Machine.execAltb w s
  | .altg w a b => Sys2Proof.Machine.execAltg w a b s
  | .altt w a b => Sys2Proof.Machine.execAltt w a b s
  | .altw w d => Sys2Proof.Machine.execAltw w d s
  | .specb w => Sys2Proof.Machine.execSpecb w s
  | .commit w => Sys2Proof.Machine.execCommit w s
  | .abort w => Sys2Proof.Machine.execAbort w s
  | .lpatch w a b => Sys2Proof.Machine.execLpatch w a b s
  | .larm w d a => Sys2Proof.Machine.execLarm w d a s
  | .larmReturn w => Sys2Proof.Machine.execLarmReturn w s
  | .fwait w d a => Sys2Proof.Machine.execFwait w d a s
  | .ftest w d a => Sys2Proof.Machine.execFtest w d a s
  | .fcancel w a => Sys2Proof.Machine.execFcancel w a s
  | .fpass w d a => Sys2Proof.Machine.execFpass w d a s
  | .fprom w d a => Sys2Proof.Machine.execFprom w d a s
  | .nestset w a => Sys2Proof.Machine.execNestset w a s
  | .iter w d => Sys2Proof.Machine.execIter w d s
  | .shpub w d a b => Sys2Proof.Machine.execShpub w d a b s
  | .shst w d a b => Sys2Proof.Machine.execShst w d a b s
  | .shcas w d a b => Sys2Proof.Machine.execShcas w d a b s
  | .shacq w a => Sys2Proof.Machine.execShacq w a s
  | .ewr w a e n => Sys2Proof.Machine.execEwr w a e n s
  | .ewra w a e n => Sys2Proof.Machine.execEwra w a e n s
  | .erd w d e n => Sys2Proof.Machine.execErd w d e n s
  | .vadd w d a b => Sys2Proof.Machine.execVadd w d a b s
  | .vsub w d a b => Sys2Proof.Machine.execVsub w d a b s
  | .vmul w d a b => Sys2Proof.Machine.execVmul w d a b s
  | .vfma w d a b => Sys2Proof.Machine.execVfma w d a b s
  | .vmax w d a b => Sys2Proof.Machine.execVmax w d a b s
  | .vmin w d a b => Sys2Proof.Machine.execVmin w d a b s
  | .vabs w d a b => Sys2Proof.Machine.execVabs w d a b s
  | .vneg w d a b => Sys2Proof.Machine.execVneg w d a b s
  | .vexp w d a b => Sys2Proof.Machine.execVexp w d a b s
  | .vlog w d a b => Sys2Proof.Machine.execVlog w d a b s
  | .vrcp w d a b => Sys2Proof.Machine.execVrcp w d a b s
  | .vrsq w d a b => Sys2Proof.Machine.execVrsq w d a b s
  | .vcvt w d a b => Sys2Proof.Machine.execVcvt w d a b s
  | .vrsum w d a b => Sys2Proof.Machine.execVrsum w d a b s
  | .vrmax w d a b => Sys2Proof.Machine.execVrmax w d a b s
  | .vamax w d a b => Sys2Proof.Machine.execVamax w d a b s
  | .vscale w d a b => Sys2Proof.Machine.execVscale w d a b s
  | .vsel w d a b => Sys2Proof.Machine.execVsel w d a b s
  | .vcmp w d a b => Sys2Proof.Machine.execVcmp w d a b s
  | .vtrans w d a b => Sys2Proof.Machine.execVtrans w d a b s
  | .vgath w d a b => Sys2Proof.Machine.execVgath w d a b s
  | .vscat w d a b => Sys2Proof.Machine.execVscat w d a b s
  | .vbcast w d a b => Sys2Proof.Machine.execVbcast w d a b s
  | .cpy w d a b => Sys2Proof.Machine.execCpy w d a b s
  | .cpym w d a b => Sys2Proof.Machine.execCpym w d a b s
  | .mclaim w d a => Sys2Proof.Machine.execMclaim w d a s
  | .mrel w a => Sys2Proof.Machine.execMrel w a s
  | .mtask w d a => Sys2Proof.Machine.execMtask w d a s
  | .mmerge w d a b => Sys2Proof.Machine.execMmerge w d a b s
  | .wset w a n => Sys2Proof.Machine.execWset w a n s
  | .rdcr w d c => Sys2Proof.Machine.execRdcr w d c s
  | .wrcr w a c => Sys2Proof.Machine.execWrcr w a c s
  | .trap w k => Sys2Proof.Machine.execTrap w k s
  | .gset w a b => Sys2Proof.Machine.execGset w a b s
  | .gresume w a => Sys2Proof.Machine.execGresume w a s
  | .gkill w a => Sys2Proof.Machine.execGkill w a s
  | .fixedLatencyResult core idx => Sys2Proof.Machine.execFixedLatencyResult core idx s
  | .dividerResult core => Sys2Proof.Machine.execDividerResult core s
  | .schedulerPlacement core => Sys2Proof.Machine.execSchedulerPlacement core s
  | .slotDeparture core slot => Sys2Proof.Machine.execSlotDeparture core slot s
  | .switchEnd core slot => Sys2Proof.Machine.execSwitchEnd core slot s
  | .pendingWaitExpiry core slot => Sys2Proof.Machine.execPendingWaitExpiry core slot s
  | .rotation core => Sys2Proof.Machine.execRotation core s
  | .slot15Handover core => Sys2Proof.Machine.execSlot15Handover core s
  | .sleepDeadline core pn => Sys2Proof.Machine.execSleepDeadline core pn s
  | .alignTimeout core pn => Sys2Proof.Machine.execAlignTimeout core pn s
  | .lineDelivery die cluster => Sys2Proof.Machine.execLineDelivery die cluster s
  | .icacheFill die cluster idx => Sys2Proof.Machine.execIcacheFill die cluster idx s
  | .ifsyncRelease core pn => Sys2Proof.Machine.execIfsyncRelease core pn s
  | .storeBufferDrain core tag => Sys2Proof.Machine.execStoreBufferDrain core tag s
  | .bufferEntryFreed core tag => Sys2Proof.Machine.execBufferEntryFreed core tag s
  | .tlbWalkCompletion die idx => Sys2Proof.Machine.execTlbWalkCompletion die idx s
  | .memoryRequestArrival core tag => Sys2Proof.Machine.execMemoryRequestArrival core tag s
  | .memoryResponse core tag => Sys2Proof.Machine.execMemoryResponse core tag s
  | .meshAccessAnswer core tag => Sys2Proof.Machine.execMeshAccessAnswer core tag s
  | .syncRequestArrival core tag => Sys2Proof.Machine.execSyncRequestArrival core tag s
  | .requestRetry core tag => Sys2Proof.Machine.execRequestRetry core tag s
  | .syncCompletion core tag => Sys2Proof.Machine.execSyncCompletion core tag s
  | .syncWithdrawal core tag => Sys2Proof.Machine.execSyncWithdrawal core tag s
  | .fenceRelease core pn => Sys2Proof.Machine.execFenceRelease core pn s
  | .xfenceRelease core pn => Sys2Proof.Machine.execXfenceRelease core pn s
  | .poisonDelivery core pn => Sys2Proof.Machine.execPoisonDelivery core pn s
  | .startCompletion core pn => Sys2Proof.Machine.execStartCompletion core pn s
  | .wsetCompletion core => Sys2Proof.Machine.execWsetCompletion core s
  | .iterClaimResponse core pn => Sys2Proof.Machine.execIterClaimResponse core pn s
  | .barrierAck core pn => Sys2Proof.Machine.execBarrierAck core pn s
  | .bwaitRelease core pn => Sys2Proof.Machine.execBwaitRelease core pn s
  | .probeSend core pn => Sys2Proof.Machine.execProbeSend core pn s
  | .probeArrival pkt => Sys2Proof.Machine.execProbeArrival pkt s
  | .offerArrival pkt => Sys2Proof.Machine.execOfferArrival pkt s
  | .transferEnd core index => Sys2Proof.Machine.execTransferEnd core index s
  | .releaseAnswer pkt => Sys2Proof.Machine.execReleaseAnswer pkt s
  | .channelWithdrawal pkt => Sys2Proof.Machine.execChannelWithdrawal pkt s
  | .creditReturn pkt => Sys2Proof.Machine.execCreditReturn pkt s
  | .messageDeparture core pn => Sys2Proof.Machine.execMessageDeparture core pn s
  | .messageArrival pkt => Sys2Proof.Machine.execMessageArrival pkt s
  | .handlerStart core => Sys2Proof.Machine.execHandlerStart core s
  | .handlerEnd core => Sys2Proof.Machine.execHandlerEnd core s
  | .altTimeout core pn => Sys2Proof.Machine.execAltTimeout core pn s
  | .holdBufferFreed core => Sys2Proof.Machine.execHoldBufferFreed core s
  | .commitCompletion core => Sys2Proof.Machine.execCommitCompletion core s
  | .vectorOperationStart core => Sys2Proof.Machine.execVectorOperationStart core s
  | .vectorOperationCompletion core => Sys2Proof.Machine.execVectorOperationCompletion core s
  | .copyStart core => Sys2Proof.Machine.execCopyStart core s
  | .copyPageFault core => Sys2Proof.Machine.execCopyPageFault core s
  | .copyCompletion core => Sys2Proof.Machine.execCopyCompletion core s
  | .cpymArrival core target => Sys2Proof.Machine.execCpymArrival core target s
  | .lateMark core entry => Sys2Proof.Machine.execLateMark core entry s
  | .futureTableRequest pkt => Sys2Proof.Machine.execFutureTableRequest pkt s
  | .taskChoice core => Sys2Proof.Machine.execTaskChoice core s
  | .governorGrant core => Sys2Proof.Machine.execGovernorGrant core s
  | .governorWindow die => Sys2Proof.Machine.execGovernorWindow die s
  | .panelEnd core => Sys2Proof.Machine.execPanelEnd core s
  | .macCountingEnd core => Sys2Proof.Machine.execMacCountingEnd core s
  | .tileZeroing core => Sys2Proof.Machine.execTileZeroing core s
  | .drain core => Sys2Proof.Machine.execDrain core s
  | .drainEnd core => Sys2Proof.Machine.execDrainEnd core s
  | .outputWriteEnd core => Sys2Proof.Machine.execOutputWriteEnd core s
  | .mmergePerform core => Sys2Proof.Machine.execMmergePerform core s
  | .tokenArrival pkg order => Sys2Proof.Machine.execTokenArrival pkg order s
  | .frameReceipt pkg idx intact => Sys2Proof.Machine.execFrameReceipt pkg idx intact s
  | .frameRepair pkg source ssn => Sys2Proof.Machine.execFrameRepair pkg source ssn s
  | .frameApply die => Sys2Proof.Machine.execFrameApply die s
  | .landing pkg => Sys2Proof.Machine.execLanding pkg s
  | .sheafLeave pkg => Sys2Proof.Machine.execSheafLeave pkg s
  | .lightLoss pkg => Sys2Proof.Machine.execLightLoss pkg s
  | .silenceTimeout pkg => Sys2Proof.Machine.execSilenceTimeout pkg s
  | .sheafForm pkg => Sys2Proof.Machine.execSheafForm pkg s
  | .sheafLeaveRequest pkg => Sys2Proof.Machine.execSheafLeaveRequest pkg s
  | .joinFrameSend pkg => Sys2Proof.Machine.execJoinFrameSend pkg s
  | .joinFrameReceipt pkg source => Sys2Proof.Machine.execJoinFrameReceipt pkg source s
  | .firstTokenSend pkg => Sys2Proof.Machine.execFirstTokenSend pkg s
  | .firstTokenReceipt pkg source => Sys2Proof.Machine.execFirstTokenReceipt pkg source s
  | .formationTimeout pkg => Sys2Proof.Machine.execFormationTimeout pkg s
  | .launchUnitRequest die => Sys2Proof.Machine.execLaunchUnitRequest die s
  | .launchStart die pos => Sys2Proof.Machine.execLaunchStart die pos s
  | .launchCompletion die pos => Sys2Proof.Machine.execLaunchCompletion die pos s
  | .timeShareQuantum die => Sys2Proof.Machine.execTimeShareQuantum die s
  | .tenantSwitch pkg job target => Sys2Proof.Machine.execTenantSwitch pkg job target s
  | .gsetRead core => Sys2Proof.Machine.execGsetRead core s
  | .gsetEndpt core => Sys2Proof.Machine.execGsetEndpt core s
  | .gsetEpctlClose core => Sys2Proof.Machine.execGsetEpctlClose core s
  | .gsetEpctlMoveBegin core => Sys2Proof.Machine.execGsetEpctlMoveBegin core s
  | .gsetEpctlMoveEnd core => Sys2Proof.Machine.execGsetEpctlMoveEnd core s
  | .gsetHusk core => Sys2Proof.Machine.execGsetHusk core s
  | .gsetReg core => Sys2Proof.Machine.execGsetReg core s
  | .gsetHtab core => Sys2Proof.Machine.execGsetHtab core s
  | .gsetLrec core => Sys2Proof.Machine.execGsetLrec core s
  | .gsetFtab core => Sys2Proof.Machine.execGsetFtab core s
  | .gsetJob core => Sys2Proof.Machine.execGsetJob core s
  | .gsetGate core => Sys2Proof.Machine.execGsetGate core s
  | .gsetDie core => Sys2Proof.Machine.execGsetDie core s
  | .gsetPkg core => Sys2Proof.Machine.execGsetPkg core s
  | .gsetShoot core => Sys2Proof.Machine.execGsetShoot core s
  | .gsetFreply core => Sys2Proof.Machine.execGsetFreply core s
  | .shootdownInvalidate kcore core => Sys2Proof.Machine.execShootdownInvalidate kcore core s
  | .shootdownAck kcore core => Sys2Proof.Machine.execShootdownAck kcore core s
  | .homeWalkCompletion die idx => Sys2Proof.Machine.execHomeWalkCompletion die idx s
  | .faultMessageWrite core => Sys2Proof.Machine.execFaultMessageWrite core s
  | .faulttake pkg dev => Sys2Proof.Machine.execFaulttake pkg dev s
  | .faultreply pkg dev action target image => Sys2Proof.Machine.execFaultreply pkg dev action target image s
  | .migrate pkg dev job va stage => Sys2Proof.Machine.execMigrate pkg dev job va stage s
  | .lrecwrite pkg dev die index image => Sys2Proof.Machine.execLrecwrite pkg dev die index image s
  | .routeload pkg dev offset value => Sys2Proof.Machine.execRouteload pkg dev offset value s
  | .scrubset pkg dev die period action => Sys2Proof.Machine.execScrubset pkg dev die period action s
  | .dutyset pkg dev value => Sys2Proof.Machine.execDutyset pkg dev value s
  | .fwsupply pkg dev fin offset data => Sys2Proof.Machine.execFwsupply pkg dev fin offset data s
  | .hostqreg pkg dev queue remove base log entry toHost => Sys2Proof.Machine.execHostqreg pkg dev queue remove base log entry toHost s
  | .mailboxUnsupported pkg dev opcode => Sys2Proof.Machine.execMailboxUnsupported pkg dev opcode s
  | .hostDoorbell pkg dev queue => Sys2Proof.Machine.execHostDoorbell pkg dev queue s
  | .hostHeadPass pkg dev queue => Sys2Proof.Machine.execHostHeadPass pkg dev queue s
  | .hostMemAccess pkg dev va write value => Sys2Proof.Machine.execHostMemAccess pkg dev va write value s
  | .backInvalidation pkg line data => Sys2Proof.Machine.execBackInvalidation pkg line data s
  | .hostWarmRestart pkg devs => Sys2Proof.Machine.execHostWarmRestart pkg devs s
  | .ldReset pkg dev => Sys2Proof.Machine.execLdReset pkg dev s
  | .packetForward pkt => Sys2Proof.Machine.execPacketForward pkt s
  | .routeSwitch pkg => Sys2Proof.Machine.execRouteSwitch pkg s
  | .drainMarker pkg port level => Sys2Proof.Machine.execDrainMarker pkg port level s
  | .linkDown pkg port => Sys2Proof.Machine.execLinkDown pkg port s
  | .patrolVisit die line error => Sys2Proof.Machine.execPatrolVisit die line error s
  | .poisonFix die addr => Sys2Proof.Machine.execPoisonFix die addr s
  | .inventoryRecordWrite die => Sys2Proof.Machine.execInventoryRecordWrite die s
  | .teardown die job reason => Sys2Proof.Machine.execTeardown die job reason s
  | .quarantine pkt => Sys2Proof.Machine.execQuarantine pkt s
  | .teardownMarker die => Sys2Proof.Machine.execTeardownMarker die s
  | .powerGate core => Sys2Proof.Machine.execPowerGate core s
  | .coreWake core => Sys2Proof.Machine.execCoreWake core s
  | .coreWakeEnd core => Sys2Proof.Machine.execCoreWakeEnd core s
  | .thermalTrip die tj => Sys2Proof.Machine.execThermalTrip die tj s
  | .thermalRecovery die tj => Sys2Proof.Machine.execThermalRecovery die tj s
  | .dieReset die => Sys2Proof.Machine.execDieReset die s
  | .packageWarmReset pkg => Sys2Proof.Machine.execPackageWarmReset pkg s
  | .packageColdReset pkg => Sys2Proof.Machine.execPackageColdReset pkg s
  | .getVersion pkg dev version => Sys2Proof.Machine.execGetVersion pkg dev version s
  | .getCapabilities pkg dev => Sys2Proof.Machine.execGetCapabilities pkg dev s
  | .negotiateAlgorithms pkg dev => Sys2Proof.Machine.execNegotiateAlgorithms pkg dev s
  | .getDigests pkg dev => Sys2Proof.Machine.execGetDigests pkg dev s
  | .getCertificate pkg dev slot => Sys2Proof.Machine.execGetCertificate pkg dev slot s
  | .challenge pkg dev nonce => Sys2Proof.Machine.execChallenge pkg dev nonce s
  | .getMeasurements pkg dev index nonce => Sys2Proof.Machine.execGetMeasurements pkg dev index nonce s
  | .vendorDefinedRequest pkg dev vendor => Sys2Proof.Machine.execVendorDefinedRequest pkg dev vendor s
  | .spdmUnsupported pkg dev code => Sys2Proof.Machine.execSpdmUnsupported pkg dev code s
  | .registerWrite die target offset value => Sys2Proof.Machine.execRegisterWrite die target offset value s
  | .illegalWord word => Sys2Proof.Machine.execIllegalWord word s
  | .hostLinkReturn pkg refused => Sys2Proof.Machine.execHostLinkReturn pkg refused s
  | .softError core part pn => Sys2Proof.Machine.execSoftError core part pn s
  | .thermalWarn die tj => Sys2Proof.Machine.execThermalWarn die tj s

end Sys2Proof.Machine
end

