-- ==== Sys2Proof/Machine/Issue.lean ====
section
/-! DEFINITION. The issue turn of a core (R9, R10): which slot is ready, the word it issues, and what follows. -/

namespace Sys2Proof.Machine

/-- What the slot of a process has to issue: a word, with the offsets of its repeat (R24), or the fault of its fetch (R29)
with the address it was found at and the word that FINST records: the REP word where the fault is that of the word after it
(R26), else 0 (log 27). -/
inductive Turn where
  | word (w : BitVec 32) (rep : Option (Nat × Nat × Nat))
  | fault (c : Cause) (addr : Word) (word : BitVec 32)
  deriving DecidableEq, Repr

/-- What a slot finds at the PC of its process; in a repeat, the word after the REP. -/
def State.turnAt (s : State) (core i : Nat) (p : Proc) : Option Turn :=
  match s.fetched core i p.pc.toNat with
  | .absent => none
  | .fault c => some (.fault c p.pc 0)
  | .word w =>
    if p.inRep then
      match s.fetched core i (p.pc + 4).toNat with
      | .absent => none
      | .fault c => some (.fault c (p.pc + 4) w)
      | .word v => some (.word v (some (repOffsets w p.repDone.toNat)))
    else some (.word w none)

/-- The process a slot may issue from in this cycle, but for its word (R10). -/
def State.mayIssue (s : State) (core i : Nat) : Option Nat :=
  match ((s.core core).slot i).settled with
  | none => none
  | some pn =>
    let p := s.proc core pn
    if p.state == .running && !p.held && p.asyncTrap.isNone && p.earliest ≤ s.ticks then some pn else none

/-- The state in which a slot's word issues: the context names it. -/
def State.atTurn (s : State) (core i pn : Nat) (w : BitVec 32) (rep : Option (Nat × Nat × Nat)) : State :=
  { s with ctx := { core := core, slot := i, pn := pn, pc := (s.proc core pn).pc, word := w, rep := rep } }

/-- One word at its turn: an instruction, or no instruction (R38). -/
def State.issueWord (s : State) (w : BitVec 32) : Answer :=
  match decode w with
  | some x => exec x s
  | none => execIllegalWord w s

/-- A slot's turn: the word, or the fault of its fetch (R29). -/
def State.takeTurn (s : State) (core i pn : Nat) (x : Turn) : Answer :=
  match x with
  | .word w rep => (s.atTurn core i pn w rep).issueWord w
  | .fault c a w => .next ((s.atTurn core i pn w none).trap c a)

/-- A slot that did not issue: whether it waits on pending tags, and since when (R150 step 3). -/
def State.stalled (s : State) (core pn : Nat) (regs : List Nat) : State :=
  s.modProc core pn (fun p =>
    if regs.isEmpty then { p with tagSince := none }
    else { p with tagSince := some (p.tagSince.getD s.ticks), tagRegs := regs })

/-- A slot that does not issue in this cycle, because another has or because its word is not there: one whose word could
have issued, or is not there, waits on no tag. -/
def State.noteWait (s : State) (core i : Nat) : State :=
  match s.mayIssue core i with
  | none => s
  | some pn =>
    match s.turnAt core i (s.proc core pn) with
    | none => (s.stalled core pn []).follow core i
    | some x =>
      match s.takeTurn core i pn x with
      | .next t => s.stalled core pn (if t.ctx.issued then [] else t.ctx.stall)
      | .fault _ | .refused _ => s

/-- The process of a slot, if it has one, waits on no tag. -/
def State.unstalled (s : State) (core i : Nat) : State :=
  match ((s.core core).slot i).proc with
  | some pn => s.stalled core pn []
  | none => s

/-- A slot has issued: the pointer moves past it, and its buffers follow the PC; the other slots wait (R9, R28). -/
def State.issued (s : State) (core i : Nat) (others : List Nat) : State :=
  others.foldl (fun t j => t.noteWait core j)
    (((s.modCore core (fun c => { c with rotPtr := (i + 1) % 16 })).unstalled core i).follow core i)

/-- The first slot that is ready issues (R9). -/
def State.issueFrom (s : State) (core : Nat) : List Nat → Answer
  | [] => .next s
  | i :: others =>
    match s.mayIssue core i with
    | none => s.issueFrom core others
    | some pn =>
      match s.turnAt core i (s.proc core pn) with
      | none => ((s.stalled core pn []).follow core i).issueFrom core others
      | some x =>
        match s.takeTurn core i pn x with
        | .next t => if t.ctx.issued then .next (t.issued core i others) else (s.stalled core pn t.ctx.stall).issueFrom core others
        | .fault r => .fault r
        | .refused r => .refused r

/-- The slots from the rotation pointer on, wrapping (R9). -/
def rotationFrom (ptr : Nat) : List Nat := (List.range 16).map (fun k => (ptr + k) % 16)

/-- The issue turn of a core. -/
def State.issueTurn (s : State) (core : Nat) : Answer :=
  if s.idle core then .next s else s.issueFrom core (rotationFrom (s.core core).rotPtr)

/-- The hardware's own next step: an issue turn or an event of the present cycle, or the next cycle. -/
def State.hardware (s : State) : Answer :=
  match s.phase with
  | [] => .next s.tick
  | .issue core :: rest => { s with phase := rest }.issueTurn core
  | .due e :: rest => { s with phase := rest }.happen e

end Sys2Proof.Machine
end

