-- ==== Sys2Proof/Machine/Step.lean ====
section
/-! DEFINITION. One step of the machine: the next input of the schedule, if it is an event, else the hardware's own step
(log 2); and a word placed where the next step issues it (log 5). -/

namespace Sys2Proof.Machine

/-- The step. -/
def step (s : State) : Host.Outcome State Fault Refusal :=
  match s.inputs with
  | [] => s.hardware
  | none :: rest => { s with inputs := rest }.hardware
  | some e :: rest => if e.isEvent then exec e { s with inputs := rest } else .next { s with inputs := rest }

/-- The core that executes a word placed by withFetchWord: a kernel core for GATE (R333), else a compute core. -/
def fetchCore (w : Nat) : Nat := if w / 2 ^ 24 % 64 = 0x3A then 256 else 0

/-- Where the placed word lies: the lowest global address (R116). -/
def fetchPc : Nat := 2 ^ 48

/-- The line that holds a word at its start, zeros after it. -/
def fetchLine (nbits w : Nat) : Line :=
  { addr := fetchPc / 16, bytes := bytesOfWord (BitVec.ofNat 32 (w % 2 ^ nbits)) ++ List.replicate 12 0 }

/-- A word in the line buffer of a running process of W = 128, in slot 0 of a core whose turn it is (log 5). -/
def State.withFetchWord (s : State) (nbits w : Nat) : State :=
  let k := fetchCore (w % 2 ^ nbits)
  let p : Proc := { (({} : Proc).freshWindow 128) with state := .running, pc := word fetchPc }
  let c := s.core k
  let s := s.setCore k { (c.setProc 0 p).setSlot 0 { proc := some 0, cur := some (fetchLine nbits w) } with
    rotPtr := 0, stopped := false, gated := false, flight := [] }
  let d := s.die 0
  { s.setDie 0 { d with inReset := false, switching := false } with inputs := [], phase := [.issue k] }

end Sys2Proof.Machine
end

