-- ==== Sys2Proof/Safety.lean ====
section
/-! DEFINITION. The terms claims use: when an instruction is clear to issue (R10, R39), what counts as unchanged, what
counts as a completed instruction, and the properties that every step keeps. -/

namespace Sys2Proof.Machine

/-! ### Clear to issue -/

/-- The issuing process runs, the instruction waits for nothing (R10), and no check of R12, R20 and R38 finds fault. -/
def State.clear (s : State) (u : Use) : Bool :=
  s.me.state == .running && !s.waitsTag u && !s.waitsFlight u && u.ready && u.legal && (s.badName u).isNone
    && (!s.me.schk || (s.earlyRead u).isNone)

/-- The address of the word after this one, or in a repeat that is not the last the REP again (R24, R25). -/
def State.nextPc (s : State) : Word :=
  if s.ctx.rep.isSome then (if s.me.remain ≤ 1 then pc56 (s.ctx.pc + 8) else s.ctx.pc) else pc56 (s.ctx.pc + 4)

/-! ### What is unchanged -/

/-- Everything outside one core is as before: every other core, every die and package, memory, packets and frames. -/
def State.onlyCore (s t : State) (core : Nat) : Prop :=
  (∀ k, k ≠ core → t.core k = s.core k) ∧ { t with cores := s.cores } = s

/-- Everything outside one core is as before but its memory requests' die: dies, packages and memory may differ. -/
def State.onlyCores (s t : State) (core : Nat) : Prop := ∀ k, k ≠ core → t.core k = s.core k

/-- Of a core, only one process's record changes, and results in flight. -/
def Core.onlyFlight (c d : Core) (pn : Nat) : Prop :=
  (∀ n, n ≠ pn → d.proc n = c.proc n) ∧ { d with procs := c.procs, flight := c.flight, seq := c.seq } = c

/-- Of a core, only one process's record changes. -/
def Core.onlyProc (c d : Core) (pn : Nat) : Prop :=
  (∀ n, n ≠ pn → d.proc n = c.proc n) ∧ { d with procs := c.procs } = c

/-- A process as before, but for its next PC and REPST, its stall count, and what it has seen complete. -/
def Proc.moved (p q : Proc) : Prop :=
  { q with pc := p.pc, repDone := p.repDone, repRemain := p.repRemain, inRep := p.inRep, earliest := p.earliest
           tagSince := p.tagSince, observed := p.observed, regObs := p.regObs } = p

/-- As Proc.moved, with pending tags that may be set. -/
def Proc.movedPending (p q : Proc) : Prop := p.moved { q with pend := p.pend }

/-! ### What a completed instruction does -/

/-- A fixed-latency instruction (R14, R19): one result enters flight, due L cycles on; the PC moves on; nothing else
changes. -/
def State.flies (s : State) (i : Instr) (w : BitVec 2) (latency : Nat) (ws : List (Nat × Word)) (flags : BitVec 5)
    (xi : Option (BitVec 16)) : Prop :=
  ∃ t, exec i s = .next t
    ∧ (t.core s.ctx.core).flight = (s.core s.ctx.core).flight ++ [{
        pn := s.ctx.pn, writes := ws.filter (fun e => e.1 != 0), xi := xi, flags := flags, due := s.ticks + latency
        seq := (s.core s.ctx.core).seq }]
    ∧ (t.core s.ctx.core).seq = (s.core s.ctx.core).seq + 1
    ∧ t.me.pc = s.nextPc ∧ t.me.earliest = s.ticks + stallGap w ∧ s.me.moved t.me
    ∧ (s.core s.ctx.core).onlyFlight (t.core s.ctx.core) s.ctx.pn ∧ s.onlyCore t s.ctx.core

/-- One register written with a fixed latency (R19). -/
def State.computes (s : State) (i : Instr) (w : BitVec 2) (latency : Nat) (d : BitVec 5) (v : Word) : Prop :=
  s.flies i w latency [(s.rd d, v)] 0 none

/-- An instruction of two sources, of one, and of none besides its immediate. -/
def Binary (mk : BitVec 2 → BitVec 5 → BitVec 5 → BitVec 5 → Instr) (latency : Nat) (f : Word → Word → Word) : Prop :=
  ∀ (s : State) w d a b, s.clear { reads := [s.ra a, s.rb b], writes := [s.rd d] } = true →
    s.computes (mk w d a b) w latency d (f (s.g (s.ra a)) (s.g (s.rb b)))
def Unary (mk : BitVec 2 → BitVec 5 → BitVec 5 → Instr) (latency : Nat) (f : Word → Word) : Prop :=
  ∀ (s : State) w d a, s.clear { reads := [s.ra a], writes := [s.rd d] } = true →
    s.computes (mk w d a) w latency d (f (s.g (s.ra a)))

/-- A scalar floating-point member of two operands, of a fused triple, and of one operand (R101, R106): operands of the
format, rounding by FCTL.RM, latency 6, flags that arrive with the result. -/
def FloatBinary (f : Fmt) (mk : BitVec 2 → BitVec 5 → BitVec 5 → BitVec 5 → Instr)
    (op : Mode → Val → Val → Nat × BitVec 5) : Prop :=
  ∀ (s : State) w d a b, s.clear { reads := [s.ra a, s.rb b], writes := [s.rd d] } = true →
    let r := op (rmMode s.me.fctl) (f.operand (s.g (s.ra a))) (f.operand (s.g (s.rb b)))
    s.flies (mk w d a b) w 6 [(s.rd d, word r.1)] r.2 none
def FloatFused (f : Fmt) (mk : BitVec 2 → BitVec 5 → BitVec 5 → BitVec 5 → Instr)
    (op : Mode → Val → Val → Val → Val × BitVec 5) : Prop :=
  ∀ (s : State) w d a b, s.clear { reads := [s.ra a, s.rb b, s.rd d], writes := [s.rd d] } = true →
    let v := op (rmMode s.me.fctl) (f.operand (s.g (s.ra a))) (f.operand (s.g (s.rb b))) (f.operand (s.g (s.rd d)))
    let r := f.convert .ieee (rmMode s.me.fctl) v.1
    s.flies (mk w d a b) w 6 [(s.rd d, word r.1)] (v.2 ||| r.2) none
def FloatUnary (mk : BitVec 2 → BitVec 5 → BitVec 5 → Instr) (op : Mode → Word → Word × BitVec 5) : Prop :=
  ∀ (s : State) w d a, s.clear { reads := [s.ra a], writes := [s.rd d] } = true →
    let r := op (rmMode s.me.fctl) (s.g (s.ra a))
    s.flies (mk w d a) w 6 [(s.rd d, r.1)] r.2 none

/-- A result that the core itself delivers after a fixed time: its registers are pending until then (R13). -/
def State.delivers (s : State) (i : Instr) (w : BitVec 2) (latency : Nat) (ws : List (Nat × Word)) (npc : Word) : Prop :=
  ∃ t, exec i s = .next t
    ∧ (t.core s.ctx.core).flight = (s.core s.ctx.core).flight ++ [{
        pn := s.ctx.pn, writes := ws.filter (fun e => e.1 != 0), due := s.ticks + latency
        seq := (s.core s.ctx.core).seq, var := true }]
    ∧ (∀ n, n < s.me.pend.length → t.me.isPending n = (s.me.isPending n || (n != 0 && ws.any (fun e => e.1 == n))))
    ∧ t.me.pc = npc ∧ t.me.earliest = s.ticks + stallGap w ∧ s.me.movedPending t.me
    ∧ (s.core s.ctx.core).onlyFlight (t.core s.ctx.core) s.ctx.pn ∧ s.onlyCore t s.ctx.core

/-- An operation of the divider (R82): it is queued there with its result, its destination pending. -/
def State.divides (s : State) (i : Instr) (w : BitVec 2) (d : BitVec 5) (v : Word) (flags : BitVec 5) (bound : Nat) : Prop :=
  ∃ t, exec i s = .next t
    ∧ (t.core s.ctx.core).divider = (s.core s.ctx.core).divider ++ [{
        pn := s.ctx.pn, dest := s.rd d, value := v, flags := flags, cycles := bound, startBy := s.ticks }]
    ∧ (∀ n, n < s.me.pend.length → t.me.isPending n = (s.me.isPending n || (n != 0 && n == s.rd d)))
    ∧ t.me.pc = s.nextPc ∧ t.me.earliest = s.ticks + stallGap w ∧ s.me.movedPending t.me
    ∧ (∀ n, n ≠ s.ctx.pn → (t.core s.ctx.core).proc n = (s.core s.ctx.core).proc n)
    ∧ { t.core s.ctx.core with procs := (s.core s.ctx.core).procs, divider := (s.core s.ctx.core).divider }
        = s.core s.ctx.core
    ∧ s.onlyCore t s.ctx.core

/-- An instruction that acts on the process alone: g says how, beside the PC and the stall count. -/
def State.actsOnProcess (s : State) (i : Instr) (w : BitVec 2) (npc : Word) (g : Proc → Proc) : Prop :=
  ∃ t, exec i s = .next t
    ∧ t.me.pc = npc ∧ t.me.earliest = s.ticks + stallGap w ∧ (g s.me).moved t.me
    ∧ (s.core s.ctx.core).onlyProc (t.core s.ctx.core) s.ctx.pn ∧ s.onlyCore t s.ctx.core

/-- The process while it is blocked in a state for a wait: what R40's block leaves in its record. -/
def State.blocking (s : State) (st : ProcState) (w : Wait) (p : Proc) : Proc :=
  { p with
    state := st, wait := w, waitSince := s.ticks + 1, probeAt := s.ticks + 4096, bpc := s.ctx.pc, binst := s.ctx.word,
    bDone := p.repDone, bRemain := p.repRemain }

/-- An instruction that blocks its process, the PC on the next instruction already (R40). -/
def State.blocks (s : State) (i : Instr) (w : BitVec 2) (st : ProcState) (wt : Wait) : Prop :=
  s.actsOnProcess i w s.nextPc (s.blocking st wt)

/-- A transfer of control is allowed: inline handler code stays within its words (R195). -/
def State.mayJump (s : State) (target : Word) : Bool :=
  match (s.core s.ctx.core).inlineOf s.ctx.pn with
  | some (base, n) => base ≤ target.toNat && target.toNat < base + 4 * n
  | none => true

/-- A register compare (R94): with N = 0 it branches, else it skips N instructions when its condition is false. -/
def Compares (mk : BitVec 2 → BitVec 2 → BitVec 5 → BitVec 5 → BitVec 9 → Instr) (c : Word → Word → Bool) : Prop :=
  ∀ (s : State) w (n : BitVec 2) a b (o : BitVec 9), s.clear { reads := [s.ra a, s.rb b] } = true →
    (n = 0#2 → c (s.g (s.ra a)) (s.g (s.rb b)) = true → s.mayJump (s.ctx.pc + ((o.signExtend 64 : Word) <<< 2)) = true →
      s.actsOnProcess (mk w n a b o) w (pc56 (s.ctx.pc + ((o.signExtend 64 : Word) <<< 2))) id)
    ∧ (n = 0#2 → c (s.g (s.ra a)) (s.g (s.rb b)) = false → s.actsOnProcess (mk w n a b o) w s.nextPc id)
    ∧ (n ≠ 0#2 → c (s.g (s.ra a)) (s.g (s.rb b)) = true → s.actsOnProcess (mk w n a b o) w s.nextPc id)
    ∧ (n ≠ 0#2 → c (s.g (s.ra a)) (s.g (s.rb b)) = false → s.actsOnProcess (mk w n a b o) w
        (pc56 (word (s.skipFrom s.ctx.core s.ctx.slot n.toNat (s.ctx.pc + 4).toNat))) id)

/-- A compare with an immediate (R94): it skips N instructions when its condition is false. -/
def ComparesImm (mk : BitVec 2 → BitVec 2 → BitVec 5 → BitVec 14 → Instr) (c : Word → Word → Bool) : Prop :=
  ∀ (s : State) w (n : BitVec 2) a (i : BitVec 14), s.clear { reads := [s.ra a] } = true →
    (c (s.g (s.ra a)) (i.signExtend 64) = true → s.actsOnProcess (mk w n a i) w s.nextPc id)
    ∧ (c (s.g (s.ra a)) (i.signExtend 64) = false → s.actsOnProcess (mk w n a i) w
        (pc56 (word (s.skipFrom s.ctx.core s.ctx.slot n.toNat (s.ctx.pc + 4).toNat))) id)

/-! ### Accesses (R116 to R138) -/

/-- A process record in which the architectural registers are as before, but PC and pending tags (R15, R147). -/
def Proc.keeps (p q : Proc) : Prop :=
  q.regs = p.regs ∧ q.wsz = p.wsz ∧ q.xi = p.xi ∧ q.prio = p.prio ∧ q.fctl = p.fctl ∧ q.vstat = p.vstat ∧ q.tvec = p.tvec
  ∧ q.cause = p.cause ∧ q.fpc = p.fpc ∧ q.faddr = p.faddr ∧ q.finst = p.finst ∧ q.schk = p.schk ∧ q.srctr = p.srctr
  ∧ q.depth = p.depth ∧ q.depmax = p.depmax

/-- A request with the fields the issuing process gives it. -/
def State.requestOf (s : State) (r : Req) : Req :=
  { r with pn := s.ctx.pn, fpc := s.ctx.pc, finst := s.ctx.word, job := s.jobOf s.ctx.core }

/-- Where the issuing core's checks let a request go, none where they find a trap or miss the TLB. -/
def State.placeOf (s : State) (r : Req) : Option Req :=
  match s.locate s.ctx.core r with
  | .trap _ => none
  | .miss => none
  | l => some (placed s.ctx.core r l)

/-- Whether a request leaves its core at its issue, and whether the island check then discards it (R317, R358). -/
def Req.sends (q : Req) : Bool := !q.kind.buffered || q.ownPool
def State.shutOut (s : State) (q : Req) : Bool := q.sends && s.reqShut s.ctx.core q

/-- A request as it enters the request table or the store buffer, with the bytes that held stores of its region give it
(R204). -/
def State.entry (s : State) (q : Req) : Req :=
  { q with
    tag := (s.core s.ctx.core).nextTag, blocks := q.blocks || q.mesh, lost := s.shutOut q
    kept := (s.core s.ctx.core).heldBytes q
    due := if q.ownPool && q.kind.buffered then s.ticks + 1 else s.ticks
    phase := if q.kind.buffered && !q.ownPool then .buffered else .sent }

/-- The request is entered: it stands in its table, its destinations are pending, the process goes on or waits for it. -/
def State.enters (s t : State) (w : BitVec 2) (q : Req) : Prop :=
  let c := s.core s.ctx.core
  let d := t.core s.ctx.core
  q ∈ d.reqs ∧ d.reqs.length = c.reqs.length + 1 ∧ (∀ x ∈ c.reqs, x.tag ≠ q.tag → x ∈ d.reqs) ∧ d.nextTag = c.nextTag + 1
  ∧ (∀ n, n < s.me.pend.length → t.me.isPending n = (s.me.isPending n || (n != 0 && q.dests.contains n)))
  ∧ s.me.keeps t.me ∧ t.me.pc = s.nextPc ∧ t.me.earliest = s.ticks + stallGap w
  ∧ (if q.blocks then t.me.state = .blockedSync ∧ t.me.wait = .access q.tag
      else t.me.state = .running ∧ t.me.wait = s.me.wait)
  ∧ (∀ n, n ≠ s.ctx.pn → d.proc n = c.proc n) ∧ (∀ k, k ≠ s.ctx.core → t.core k = s.core k)
  ∧ t.mem = s.mem
  ∧ (if q.lost then (t.pkg (pkgOf s.ctx.core)).isldrop = (s.pkg (pkgOf s.ctx.core)).isldrop + 1
      else t.dies = s.dies ∧ t.pkgs = s.pkgs)

/-- The request finds no entry (R124): it stands aside, its destinations pending, and its process waits. -/
def State.standsAside (s t : State) (w : BitVec 2) (q : Req) : Prop :=
  let c := s.core s.ctx.core
  let d := t.core s.ctx.core
  { s.entry q with phase := .full, lost := false } ∈ d.reqs ∧ d.nextTag = c.nextTag + 1
  ∧ (∀ n, n < s.me.pend.length → t.me.isPending n = (s.me.isPending n || (n != 0 && q.dests.contains n)))
  ∧ s.me.keeps t.me ∧ t.me.pc = s.nextPc ∧ t.me.earliest = s.ticks + stallGap w ∧ t.me.state = .blockedSync
  ∧ t.me.wait = .bufferFull c.nextTag
  ∧ (∀ n, n ≠ s.ctx.pn → d.proc n = c.proc n) ∧ s.onlyCore t s.ctx.core

/-- The request is held by its process's speculation region (R204). -/
def State.holds1 (s t : State) (w : BitVec 2) (q : Req) : Prop :=
  let c := s.core s.ctx.core
  let d := t.core s.ctx.core
  d.hold.items = c.hold.items ++ [.store { q with tag := c.nextTag }] ∧ d.reqs = c.reqs ∧ d.nextTag = c.nextTag + 1
  ∧ t.me.pc = s.nextPc ∧ t.me.earliest = s.ticks + stallGap w ∧ t.me.pend = s.me.pend ∧ s.me.keeps t.me
  ∧ s.onlyCore t s.ctx.core

/-- Whether an open speculation region bars or holds a request (R204, R205). -/
def State.inRegion (s : State) : Bool := (s.core s.ctx.core).regionOf s.ctx.pn

/-- The instruction ends in a trap, what its process has as before. -/
def State.endsIn (s : State) (i : Instr) (c : Cause) (a : Word) : Prop :=
  ∃ u, exec i s = .next (u.trap c a) ∧ u.ctx = s.ctx ∧ s.me.keeps u.me ∧ u.me.pend = s.me.pend
    ∧ u.me.pc = s.me.pc ∧ s.onlyCore u s.ctx.core

/-- Kinds of access that an open speculation region bars at mesh and global addresses (R205). -/
def AccessKind.barred : AccessKind → Bool
  | .readf | .take | .put | .fill | .amo _ | .cas => true
  | .load _ | .store | .peek | .clear | .ovwr | .iterClaim => false

/-- What a memory instruction does at issue: barred in a region (R205); entered where its checks pass and an entry is free,
or put aside where none is (R124); held in a region where it stores to a mesh or global address, or SPECOVF where the hold
buffer has no room (R204); a trap with the address in FADDR where its checks fail; a wait for the walker on a TLB miss.
Nothing in memory changes. -/
def State.accesses (s : State) (i : Instr) (w : BitVec 2) (r0 : Req) : Prop :=
  let r := s.requestOf r0
  let barred := r0.kind.barred && s.inRegion && (spaceOf (isKernel s.ctx.core) r.ea).leaves
  let held (q : Req) := q.kind.buffered && q.leaves && s.inRegion
  (barred = true → s.endsIn i .prot r.ea)
  ∧ (barred = false →
    (∀ q, s.placeOf r = some q → held q = false → (s.core s.ctx.core).entryFree q = true →
      ∃ t, exec i s = .next t ∧ s.enters t w (s.entry q))
    ∧ (∀ q, s.placeOf r = some q → held q = false → (s.core s.ctx.core).entryFree q = false →
      ∃ t, exec i s = .next t ∧ s.standsAside t w q)
    ∧ (∀ q, s.placeOf r = some q → held q = true → (s.core s.ctx.core).hold.room 8 = true →
      ∃ t, exec i s = .next t ∧ s.holds1 t w q)
    ∧ (∀ q, s.placeOf r = some q → held q = true → (s.core s.ctx.core).hold.room 8 = false → s.endsIn i .specovf 0)
    ∧ (∀ c, s.locate s.ctx.core r = .trap c → s.endsIn i c r.ea)
    ∧ (s.locate s.ctx.core r = .miss →
      ∃ t, exec i s = .next t ∧ t.me.state = .blockedSync ∧ t.me.wait = .walk r ∧ t.me.pc = s.nextPc
        ∧ s.me.keeps t.me ∧ t.me.pend = s.me.pend ∧ t.mem = s.mem
        ∧ (t.die (dieOf s.ctx.core)).walks = (s.die (dieOf s.ctx.core)).walks ++ [{
            job := r.job, va := r.ea.toNat, asker := .access s.ctx.core s.ctx.pn }]))

/-! ### Properties of states -/

/-- Memory has its canonical form. -/
def State.canonical (s : State) : Prop := s.mem.wf = true

end Sys2Proof.Machine
end

