-- ==== Sys2Proof/Certificates/Slice0/Obligations.lean ====
section
/-! DEFINITION. The statements about the machine, each a proposition that a docstring names with the rules it formalises. -/

open Sys2Proof Sys2Proof.Machine

/-- O1 (R80, R19, R82, R18, R13, R14). Every member of the ALU family completes with its result, and changes nothing else; its F codes from 33 on name no instruction. -/
def Obligations.AluFamilyResults : Prop :=
  Binary .add 1 (fun a b => a + b)
  ∧ Binary .sub 1 (fun a b => a - b)
  ∧ Binary .and 1 (fun a b => a &&& b)
  ∧ Binary .or 1 (fun a b => a ||| b)
  ∧ Binary .xor 1 (fun a b => a ^^^ b)
  ∧ Binary .andn 1 (fun a b => a &&& ~~~b)
  ∧ Binary .orn 1 (fun a b => a ||| ~~~b)
  ∧ Binary .sll 1 (fun a b => a <<< (b.toNat % 64))
  ∧ Binary .srl 1 (fun a b => a >>> (b.toNat % 64))
  ∧ Binary .sra 1 (fun a b => a.sshiftRight (b.toNat % 64))
  ∧ Binary .ror 1 (fun a b => a.rotateRight (b.toNat % 64))
  ∧ Binary .mul 4 (fun a b => a * b)
  ∧ Binary .mulh 4 (fun a b => wordOfInt (a.toInt * b.toInt / 2 ^ 64))
  ∧ Binary .mulhu 4 (fun a b => word (a.toNat * b.toNat / 2 ^ 64))
  ∧ Binary .min 1 (fun a b => if a.toInt ≤ b.toInt then a else b)
  ∧ Binary .max 1 (fun a b => if a.toInt ≤ b.toInt then b else a)
  ∧ Binary .minu 1 (fun a b => if a.toNat ≤ b.toNat then a else b)
  ∧ Binary .maxu 1 (fun a b => if a.toNat ≤ b.toNat then b else a)
  ∧ Binary .slt 1 (fun a b => if a.toInt < b.toInt then 1 else 0)
  ∧ Binary .sltu 1 (fun a b => if a.toNat < b.toNat then 1 else 0)
  ∧ Unary .clz 1 (fun a => clz a)
  ∧ Unary .ctz 1 (fun a => ctz a)
  ∧ Unary .popc 1 (fun a => popc a)
  ∧ Unary .brev 1 (fun a => brev a)
  ∧ Unary .bswap 1 (fun a => bswap a)
  ∧ Unary .sextb 1 (fun a => (a.setWidth 8).signExtend 64)
  ∧ Unary .sexth 1 (fun a => (a.setWidth 16).signExtend 64)
  ∧ Unary .sextw 1 (fun a => (a.setWidth 32).signExtend 64)
  ∧ Unary .zextw 1 (fun a => (a.setWidth 32).setWidth 64)
  ∧ (∀ (s : State) w d a b, s.clear { reads := [s.ra a, s.rb b], writes := [s.rd d], var := true } = true →
      s.divides (.div w d a b) w d (divSigned (s.g (s.ra a)) (s.g (s.rb b))) 0 34)
  ∧ (∀ (s : State) w d a b, s.clear { reads := [s.ra a, s.rb b], writes := [s.rd d], var := true } = true →
      s.divides (.divu w d a b) w d (divUnsigned (s.g (s.ra a)) (s.g (s.rb b))) 0 34)
  ∧ (∀ (s : State) w d a b, s.clear { reads := [s.ra a, s.rb b], writes := [s.rd d], var := true } = true →
      s.divides (.rem w d a b) w d (remSigned (s.g (s.ra a)) (s.g (s.rb b))) 0 34)
  ∧ (∀ (s : State) w d a b, s.clear { reads := [s.ra a, s.rb b], writes := [s.rd d], var := true } = true →
      s.divides (.remu w d a b) w d (remUnsigned (s.g (s.ra a)) (s.g (s.rb b))) 0 34)
  ∧ (∀ x : BitVec 32, x.extractLsb' 24 6 = 0x01#6 → 33 ≤ (x.extractLsb' 0 9).toNat → decode x = none)

/-- O2 (R80, R81). The ALU functions are those of R80 and R81, bit by bit and by division with remainder -/
def Obligations.ArithmeticFunctions : Prop :=
  (∀ a : Word, (clz a).toNat ≤ 64 ∧ (∀ i, 64 - (clz a).toNat ≤ i → i < 64 → a.getLsbD i = false)
      ∧ ((clz a).toNat < 64 → a.getLsbD (63 - (clz a).toNat) = true))
  ∧ (∀ a : Word, (ctz a).toNat ≤ 64 ∧ (∀ i, i < (ctz a).toNat → a.getLsbD i = false)
      ∧ ((ctz a).toNat < 64 → a.getLsbD (ctz a).toNat = true))
  ∧ (∀ a : Word, (popc a).toNat = ((List.range 64).filter (fun i => a.getLsbD i)).length)
  ∧ (∀ (a : Word) i, i < 64 → (brev a).getLsbD i = a.getLsbD (63 - i))
  ∧ (∀ (a : Word) i, i < 64 → (bswap a).getLsbD i = a.getLsbD (8 * (7 - i / 8) + i % 8))
  ∧ (∀ a b : Word, (mulhu a b).toNat * 2 ^ 64 + (a * b).toNat = a.toNat * b.toNat)
  ∧ (∀ a b : Word, (mulh a b).toInt * 2 ^ 64 + ((a * b).toNat : Int) = a.toInt * b.toInt)
  ∧ (∀ a : Word, divSigned a 0 = ~~~0 ∧ divUnsigned a 0 = ~~~0 ∧ remSigned a 0 = a ∧ remUnsigned a 0 = a)
  ∧ divSigned 0x8000000000000000 (~~~0) = 0x8000000000000000 ∧ remSigned 0x8000000000000000 (~~~0) = 0
  ∧ (∀ a b : Word, b ≠ 0 → (divUnsigned a b).toNat = a.toNat / b.toNat ∧ (remUnsigned a b).toNat = a.toNat % b.toNat)
  ∧ (∀ a b : Word, b ≠ 0 → ¬ (a = 0x8000000000000000 ∧ b = ~~~0) →
      (divSigned a b).toInt = a.toInt.tdiv b.toInt ∧ (remSigned a b).toInt = a.toInt.tmod b.toInt)

/-- O3 (R83, R84, R85, R19, R34). Immediate, immediate-shift and U-format instructions complete with their results -/
def Obligations.ImmediateFormsResults : Prop :=
  (∀ i : BitVec 14, Unary (fun w d a => .addi w d a i) 1 (fun a => a + i.signExtend 64))
  ∧ (∀ i : BitVec 14, Unary (fun w d a => .andi w d a i) 1 (fun a => a &&& i.signExtend 64))
  ∧ (∀ i : BitVec 14, Unary (fun w d a => .ori w d a i) 1 (fun a => a ||| i.signExtend 64))
  ∧ (∀ i : BitVec 14, Unary (fun w d a => .xori w d a i) 1 (fun a => a ^^^ i.signExtend 64))
  ∧ (∀ i : BitVec 14, Unary (fun w d a => .slti w d a i) 1 (fun a => if a.toInt < (i.signExtend 64).toInt then 1 else 0))
  ∧ (∀ i : BitVec 14, Unary (fun w d a => .sltiu w d a i) 1 (fun a => if a.toNat < (i.signExtend 64).toNat then 1 else 0))
  ∧ (∀ n : BitVec 6, Unary (fun w d a => .slli w d a n) 1 (fun a => a <<< n.toNat))
  ∧ (∀ n : BitVec 6, Unary (fun w d a => .srli w d a n) 1 (fun a => a >>> n.toNat))
  ∧ (∀ n : BitVec 6, Unary (fun w d a => .srai w d a n) 1 (fun a => a.sshiftRight n.toNat))
  ∧ (∀ n : BitVec 6, Unary (fun w d a => .rori w d a n) 1 (fun a => a.rotateRight n.toNat))
  ∧ (∀ (s : State) w d (i : BitVec 19), s.clear { writes := [s.rd d] } = true →
      s.computes (.liu w d i) w 1 d (i.signExtend 64 <<< 14))
  ∧ (∀ (s : State) w d (i : BitVec 19), s.clear { writes := [s.rd d] } = true →
      s.computes (.addpc w d i) w 1 d ((if s.ctx.rep.isSome then s.ctx.pc + 4 else s.ctx.pc) + (i.signExtend 64 <<< 2)))

/-- O4 (R86, R87, R19). Bit-field extracts and inserts complete, and take and place the bits R87 names -/
def Obligations.BitFieldResults : Prop :=
  (∀ p l : BitVec 6, Unary (fun w d a => .bfxi w d a p l) 1 (fun a => bfxs a p.toNat (l.toNat + 1)))
  ∧ (∀ p l : BitVec 6, Unary (fun w d a => .bfxui w d a p l) 1 (fun a => bfxz a p.toNat (l.toNat + 1)))
  ∧ Binary .bfx 1 (fun a b => bfxs a (b.toNat % 256) (min (b.toNat / 256 % 128) 64))
  ∧ Binary .bfxu 1 (fun a b => bfxz a (b.toNat % 256) (min (b.toNat / 256 % 128) 64))
  ∧ (∀ (s : State) w d a p l, s.clear { reads := [s.ra a, s.rd d], writes := [s.rd d] } = true →
      s.computes (.bfii w d a p l) w 1 d (bfins (s.g (s.rd d)) (s.g (s.ra a)) p.toNat (l.toNat + 1)))
  ∧ (∀ (s : State) w d a b, s.clear { reads := [s.ra a, s.rb b, s.rd d], writes := [s.rd d] } = true →
      s.computes (.bfi w d a b) w 1 d (bfins (s.g (s.rd d)) (s.g (s.ra a)) ((s.g (s.rb b)).toNat % 256)
        (min ((s.g (s.rb b)).toNat / 256 % 128) 64)))
  ∧ (∀ (old a : Word) p n i, i < 64 → (bfxz a p n).getLsbD i = (decide (i < n) && decide (p + i < 64) && a.getLsbD (p + i))
      ∧ (bfins old a p n).getLsbD i
        = (if p ≤ i ∧ i < p + n then a.getLsbD (i - p) else old.getLsbD i))
  ∧ (∀ (a : Word) p n i, 0 < n → p < 64 → i < 64 →
      (bfxs a p n).getLsbD i = a.getLsbD (min (p + i) (min (p + n) 64 - 1)))
  ∧ (∀ (a : Word) p n, n = 0 ∨ 64 ≤ p → bfxs a p n = 0)

/-- O5 (R94, R95, R21, R23, R18). Compares branch with N = 0, and annul the next N instructions when their condition is false. Where a skip looks at the words it passes is the model’s choice (log entry 10). -/
def Obligations.BranchesAndSkips : Prop :=
  Compares .cbEq (fun a b => a == b)
  ∧ Compares .cbNe (fun a b => a != b)
  ∧ Compares .cbLt (fun a b => decide (a.toInt < b.toInt))
  ∧ Compares .cbGe (fun a b => decide (b.toInt ≤ a.toInt))
  ∧ Compares .cbLtu (fun a b => decide (a.toNat < b.toNat))
  ∧ Compares .cbGeu (fun a b => decide (b.toNat ≤ a.toNat))
  ∧ Compares .cbBset (fun a b => a &&& b != 0)
  ∧ Compares .cbBclr (fun a b => a &&& b == 0)
  ∧ ComparesImm .cbiEq (fun a b => a == b)
  ∧ ComparesImm .cbiNe (fun a b => a != b)
  ∧ ComparesImm .cbiLt (fun a b => decide (a.toInt < b.toInt))
  ∧ ComparesImm .cbiGe (fun a b => decide (b.toInt ≤ a.toInt))
  ∧ ComparesImm .cbiLtu (fun a b => decide (a.toNat < b.toNat))
  ∧ ComparesImm .cbiGeu (fun a b => decide (b.toNat ≤ a.toNat))
  ∧ ComparesImm .cbiBset (fun a b => a &&& b != 0)
  ∧ ComparesImm .cbiBclr (fun a b => a &&& b == 0)
  ∧ (∀ (s : State) core i n (pc : Word),
      (∀ k v, k < n → s.wordAt core i ((pc + 4).toNat + 4 * k) = some v → v.extractLsb' 24 6 ≠ 0x15#6) →
      word (s.skipFrom core i n (pc + 4).toNat) = pc + word (4 * (1 + n)))
  ∧ (∀ (s : State) core i n addr v, s.wordAt core i addr = some v → v.extractLsb' 24 6 = 0x15#6 →
      s.skipFrom core i (n + 1) addr = s.skipFrom core i n (addr + 8))
  ∧ (∀ (s : State) core i n addr v, s.wordAt core i addr = some v → v.extractLsb' 24 6 ≠ 0x15#6 →
      s.skipFrom core i (n + 1) addr = s.skipFrom core i n (addr + 4))

/-- O6 (R95, R96, R23). J, JL and JLR transfer control, and the links hold the address after the jump -/
def Obligations.JumpsAndLinks : Prop :=
  (∀ (s : State) w (o : BitVec 24), s.clear {} = true → s.mayJump (s.ctx.pc + ((o.signExtend 64 : Word) <<< 2)) = true →
      s.actsOnProcess (.j w o) w (pc56 (s.ctx.pc + ((o.signExtend 64 : Word) <<< 2))) id)
  ∧ (∀ (s : State) w (o : BitVec 24), s.clear { writes := [1], var := true } = true →
      s.mayJump (s.ctx.pc + ((o.signExtend 64 : Word) <<< 2)) = true →
      s.delivers (.jl w o) w 1 [(1, s.ctx.pc + 4)] (pc56 (s.ctx.pc + ((o.signExtend 64 : Word) <<< 2))))
  ∧ (∀ (s : State) w d a (i : BitVec 14), s.clear { reads := [s.ra a], writes := [s.rd d], var := true } = true →
      (s.g (s.ra a) + ((i.signExtend 64 : Word) <<< 2)).toNat % 4 = 0 →
      s.mayJump (s.g (s.ra a) + ((i.signExtend 64 : Word) <<< 2)) = true →
      s.delivers (.jlr w d a i) w 1 [(s.rd d, s.ctx.pc + 4)] (pc56 (s.g (s.ra a) + ((i.signExtend 64 : Word) <<< 2))))
  ∧ (∀ (s : State) w d a (i : BitVec 14), s.clear { reads := [s.ra a], writes := [s.rd d], var := true } = true →
      (s.g (s.ra a) + ((i.signExtend 64 : Word) <<< 2)).toNat % 4 ≠ 0 →
      exec (.jlr w d a i) s = .next
        ((s.begun w { reads := [s.ra a], writes := [s.rd d], var := true }).trap .align
          (s.g (s.ra a) + ((i.signExtend 64 : Word) <<< 2))))

/-- O7 (R24, R25, R26, R97). REP starts or continues its sequence, and each repeat steps the registers, REPST and the PC as R24 says -/
def Obligations.RepeatProgress : Prop :=
  (∀ (s : State) w c m t v, s.fetched s.ctx.core s.ctx.slot (s.ctx.pc + 4).toNat = .word v →
      repeatLegal (isKernel s.ctx.core) m v = true → s.clear {} = true →
      ∃ u, exec (.rep w c m t) s = .next u ∧ u.me.pc = pc56 s.ctx.pc ∧ u.me.inRep = true
        ∧ u.me.repDone = (if s.me.repRemain = 0 then 0 else s.me.repDone)
        ∧ u.me.repRemain = (if s.me.repRemain = 0 then BitVec.ofNat 7 (c.toNat + 1) else s.me.repRemain)
        ∧ s.me.moved u.me ∧ (s.core s.ctx.core).onlyProc (u.core s.ctx.core) s.ctx.pn ∧ s.onlyCore u s.ctx.core)
  ∧ (∀ (s : State) w c m t v, s.fetched s.ctx.core s.ctx.slot (s.ctx.pc + 4).toNat = .word v →
      repeatLegal (isKernel s.ctx.core) m v = false → s.me.state = .running →
      exec (.rep w c m t) s = .next (s.trap .ill 0))
  ∧ (∀ (s : State) w c m t f, s.fetched s.ctx.core s.ctx.slot (s.ctx.pc + 4).toNat = .fault f → s.me.state = .running →
      exec (.rep w c m t) s = .next (s.trap f (s.ctx.pc + 4)))
  ∧ (∀ (s : State) core i pn x f, (s.proc core pn).inRep = true → s.fetched core i (s.proc core pn).pc.toNat = .word x →
      s.fetched core i ((s.proc core pn).pc + 4).toNat = .fault f →
      s.turnAt core i (s.proc core pn) = some (.fault f ((s.proc core pn).pc + 4) x)
      ∧ s.takeTurn core i pn (.fault f ((s.proc core pn).pc + 4) x)
        = .next ((s.atTurn core i pn x none).trap f ((s.proc core pn).pc + 4)))
  ∧ (∀ (s : State) w, s.clear {} = true → s.ctx.rep.isSome = true → 1 < min s.me.repRemain.toNat 64 →
      ∃ u, exec (.nop w) s = .next u ∧ u.me.pc = s.ctx.pc ∧ u.me.repDone = s.me.repDone + 1
        ∧ u.me.repRemain = BitVec.ofNat 7 (min s.me.repRemain.toNat 64 - 1))
  ∧ (∀ (s : State) w, s.clear {} = true → s.ctx.rep.isSome = true → min s.me.repRemain.toNat 64 ≤ 1 →
      ∃ u, exec (.nop w) s = .next u ∧ u.me.pc = pc56 (s.ctx.pc + 8) ∧ u.me.repDone = 0 ∧ u.me.repRemain = 0
        ∧ u.me.inRep = false)
  ∧ (∀ (x : BitVec 32) (i : Nat) (s : State) (d a b : BitVec 5), s.ctx.rep = some (repOffsets x i) →
      s.rd d = d.toNat + (if x.getLsbD 17 then i * 2 ^ (x.extractLsb' 13 2).toNat else 0)
      ∧ s.ra a = a.toNat + (if x.getLsbD 16 then i * 2 ^ (x.extractLsb' 13 2).toNat else 0)
      ∧ s.rb b = b.toNat + (if x.getLsbD 15 then i * 2 ^ (x.extractLsb' 13 2).toNat else 0))

/-- O8 (R98, R99, R100, R31). NOP, SCHK, YIELD, IFSYNC and ALIGN do what R98 to R100 and R31 say. The model’s choices, not the spec’s: YIELD by a handler or the overflow process, and ALIGN by the overflow process or on a kernel core, only advance (log 28) -/
def Obligations.MiscGroupResults : Prop :=
  (∀ (s : State) w, s.clear {} = true → s.actsOnProcess (.nop w) w s.nextPc id)
  ∧ (∀ (s : State) w v, s.clear {} = true →
      s.actsOnProcess (.schk w v) w s.nextPc (fun p => { p with schk := v == 1 }))
  ∧ (∀ (s : State) w, s.clear {} = true → (255 ≤ s.ctx.pn ∨ (s.core s.ctx.core).readyAt s.me.prio.toNat = []) →
      s.actsOnProcess (.yield w) w s.nextPc (fun p => { p with rot := s.ticks }))
  ∧ (∀ (s : State) w h l, s.clear {} = true → s.ctx.pn < 255 →
      (s.core s.ctx.core).readyAt s.me.prio.toNat = h :: l → s.ctx.slot < (s.core s.ctx.core).slots.length →
      (s.ctx.slot ≠ 15 ∨ (s.core s.ctx.core).slot15Work = false) →
      ∃ t, exec (.yield w) s = .next t ∧ ((t.core s.ctx.core).slot s.ctx.slot).leaving = some (.yield, h)
        ∧ t.me.pc = s.nextPc ∧ t.me.rot = s.ticks ∧ s.onlyCore t s.ctx.core)
  ∧ (∀ (s : State) w h l, s.clear {} = true → s.ctx.pn < 255 →
      (s.core s.ctx.core).readyAt s.me.prio.toNat = h :: l → s.ctx.slot < (s.core s.ctx.core).slots.length →
      s.ctx.slot = 15 → (s.core s.ctx.core).slot15Work = true →
      ∃ t, exec (.yield w) s = .next t ∧ ((t.core s.ctx.core).slot 15).leaving = some (.yield, 1024)
        ∧ (t.core s.ctx.core).readyAt s.me.prio.toNat = h :: l
        ∧ t.me.pc = s.nextPc ∧ t.me.rot = s.ticks ∧ s.onlyCore t s.ctx.core)
  ∧ (∀ (s : State) w, s.clear {} = true → s.inHandler = false → s.blocks (.ifsync w) w .blockedSync (.ifsync 0 0))
  ∧ (∀ (s : State) w k, s.clear {} = true → s.inHandler = false → (s.ctx.pn = 255 ∨ isKernel s.ctx.core = true) →
      s.actsOnProcess (.align w k) w s.nextPc id)
  ∧ (∀ (s : State) w k, s.clear {} = true → s.inHandler = false → s.ctx.pn ≠ 255 → isKernel s.ctx.core = false →
      (s.cluster (dieOf s.ctx.core) (clusterOf s.ctx.core)).aligns = [] →
      2 < s.alignParty (dieOf s.ctx.core) (clusterOf s.ctx.core) (s.core s.ctx.core).launchId →
      ∃ t, exec (.align w k) s = .next t ∧ t.me.held = true ∧ t.me.wait = .align ∧ t.me.pc = s.nextPc
        ∧ t.me.regs = s.me.regs ∧ t.mem = s.mem)
  ∧ (∀ (s : State) w (k : BitVec 8), s.clear {} = true → s.inHandler = false → s.ctx.pn ≠ 255 → isKernel s.ctx.core = false →
      let as := (s.cluster (dieOf s.ctx.core) (clusterOf s.ctx.core)).aligns
      as.find? (fun e => e.1 == (s.core s.ctx.core).launchId && e.2.1 == k.toNat) = none → 8 ≤ as.length →
      s.actsOnProcess (.align w k) w s.nextPc id)
  ∧ (∀ (s : State) w (k : BitVec 8) lid n p joined, s.clear {} = true → s.inHandler = false → s.ctx.pn ≠ 255 →
      isKernel s.ctx.core = false →
      let die := dieOf s.ctx.core
      let as := (s.cluster die (clusterOf s.ctx.core)).aligns
      as.find? (fun e => e.1 == (s.core s.ctx.core).launchId && e.2.1 == k.toNat) = some (lid, n, p, joined) →
      joined ≠ [] → (p + 1) / 2 ≤ joined.length + 1 →
      ∃ t, exec (.align w k) s = .next t ∧ t.me.pc = s.nextPc ∧ t.me.regs = s.me.regs ∧ t.mem = s.mem
        ∧ (∀ e ∈ joined, (t.proc e.1 e.2).held = false ∧ (t.proc e.1 e.2).wait = .none)
        ∧ (t.cluster die (clusterOf s.ctx.core)).aligns
          = as.filter (fun e => !(e.1 == (s.core s.ctx.core).launchId && e.2.1 == k.toNat)))
  ∧ (∀ (s : State) w (k : BitVec 8), s.clear {} = true → s.inHandler = true →
      exec (.align w k) s = .next ((s.begun w {}).trap .prot 0))

/-- O9 (R88, R89, R90, R91). HPACK, HUNPK, HLWR and HLRD build, take apart, write and read header layouts -/
def Obligations.HeaderFieldResults : Prop :=
  (∀ (s : State) w d a b, let fs := (s.core s.ctx.core).fields ((s.g (s.rb b)).toNat % 16)
      s.clear { reads := s.rb b :: fs.map (fun f => s.ra a + f.1), writes := [s.rd d, s.rd d + 1] } = true →
      let h := fs.foldl (fun h f => insertField h f.2.1 f.2.2.1 (s.g (s.ra a + f.1)).toNat) 0
      s.flies (.hpack w d a b) w 2 [(s.rd d, word h), (s.rd d + 1, word (h / 2 ^ 64))] 0 none)
  ∧ (∀ (s : State) w d a b, let fs := (s.core s.ctx.core).fields ((s.g (s.rb b)).toNat % 16)
      s.clear { reads := [s.rb b, s.ra a, s.ra a + 1], writes := fs.map (fun f => s.rd d + f.1) } = true →
      let h := (s.g (s.ra a + 1)).toNat * 2 ^ 64 + (s.g (s.ra a)).toNat
      s.flies (.hunpk w d a b) w 2 (fs.map (fun f => (s.rd d + f.1,
        if f.2.2.2 then sextN f.2.2.1 (word (h / 2 ^ f.2.1 % 2 ^ f.2.2.1)) else word (h / 2 ^ f.2.1 % 2 ^ f.2.2.1)))) 0 none)
  ∧ (∀ (s : State) w a b, s.clear { reads := [s.ra a, s.rb b] } = true →
      ∃ t, exec (.hlwr w a b) s = .next t
        ∧ (∀ i, (t.core s.ctx.core).layoutAt i = if i = (s.g (s.rb b)).toNat % 128
            then (s.g (s.ra a)).setWidth 16 &&& 0x7FFF else (s.core s.ctx.core).layoutAt i)
        ∧ t.me.pc = s.nextPc ∧ t.me.earliest = s.ticks + stallGap w ∧ s.me.moved t.me
        ∧ { t.core s.ctx.core with procs := (s.core s.ctx.core).procs, layout := (s.core s.ctx.core).layout }
            = s.core s.ctx.core
        ∧ s.onlyCore t s.ctx.core)
  ∧ (∀ (s : State) w d a, s.clear { reads := [s.ra a], writes := [s.rd d], var := true } = true →
      s.delivers (.hlrd w d a) w 2
        [(s.rd d, ((s.core s.ctx.core).layoutAt ((s.g (s.ra a)).toNat % 128)).setWidth 64)] s.nextPc)

/-- O10 (R92, R93). GETX, PUTX and ADDX use XI + k exactly, and an index outside the window raises WINDOW -/
def Obligations.RelativeAccessResults : Prop :=
  (∀ (s : State) w d k n, (s.me.xi.toInt + k.toInt : Int) = (n : Nat) → n < s.me.wsz →
      s.clear { reads := [n], writes := [s.rd d] } = true → s.computes (.getx w d k) w 1 d (s.g n))
  ∧ (∀ (s : State) w a k n, (s.me.xi.toInt + k.toInt : Int) = (n : Nat) → n < s.me.wsz →
      s.clear { reads := [s.ra a], writes := [n], var := true } = true →
      s.delivers (.putx w a k) w 1 [(n, s.g (s.ra a))] s.nextPc)
  ∧ (∀ (s : State) w d k (n : Int), s.me.xi.toInt + k.toInt = n → (n < 0 ∨ (s.me.wsz : Int) ≤ n) →
      s.clear { writes := [s.rd d] } = true →
      exec (.getx w d k) s = .next ((s.begun w { writes := [s.rd d] }).trap .window (wordOfInt n)))
  ∧ (∀ (s : State) w a k (n : Int), s.me.xi.toInt + k.toInt = n → (n < 0 ∨ (s.me.wsz : Int) ≤ n) →
      s.clear { reads := [s.ra a], var := true } = true →
      exec (.putx w a k) s = .next ((s.begun w { reads := [s.ra a], var := true }).trap .window (wordOfInt n)))
  ∧ (∀ (s : State) w k, s.clear {} = true → s.flies (.addx w k) w 1 [] 0 (some (s.me.xi + k.signExtend 16)))

/-- O11 (R15, R16, R25, R109, R110). RDCR reads every control register, and WRCR writes exactly its writable bits -/
def Obligations.ControlRegisterAccess : Prop :=
  (∀ (s : State) w d c, c.toNat < 0x12 → s.controlReady c.toNat = true → s.clear { writes := [s.rd d] } = true →
      s.computes (.rdcr w d c) w 1 d (
        let p := s.me
        let k := s.core s.ctx.core
        match c.toNat with
        | 0x00 => p.xi.signExtend 64
        | 0x01 => word p.wsz
        | 0x02 => p.prio.setWidth 64
        | 0x03 => p.fctl.setWidth 64
        | 0x04 => p.tvec
        | 0x05 => p.cause.setWidth 64
        | 0x06 => p.fpc
        | 0x07 => p.faddr
        | 0x08 => p.finst.setWidth 64
        | 0x09 => word (p.repDone.toNat + 256 * p.repRemain.toNat)
        | 0x0A => word (s.ticks - (s.die (dieOf s.ctx.core)).epoch)
        | 0x0B => k.lcn.setWidth 64
        | 0x0C => k.jseed
        | 0x0D => p.srctr.setWidth 64
        | 0x0E => if p.schk then 1 else 0
        | 0x0F => p.depth.setWidth 64
        | 0x10 => p.depmax.setWidth 64
        | _ => p.vstat.setWidth 64))
  ∧ (∀ (s : State) w a c, c.toNat < 0x12 → s.controlReady c.toNat = true → s.clear { reads := [s.ra a] } = true →
      (s.inHandler && c.toNat == 0x04) = false → (s.ctx.rep.isSome && c.toNat == 0x09) = false →
      ∃ t, exec (.wrcr w a c) s = .next t ∧ t.me.pc = s.nextPc ∧ t.me.regs = s.me.regs
        ∧ (let v := s.g (s.ra a)
           let p := s.me
           let n := c.toNat
           t.me.xi = (if n = 0 then v.setWidth 16 else p.xi) ∧ t.me.wsz = p.wsz
           ∧ t.me.prio = (if n = 2 then v.setWidth 7 else p.prio)
           ∧ t.me.fctl = (if n = 3 then v.setWidth 9 &&& 0x1F3 else p.fctl)
           ∧ t.me.tvec = (if n = 4 then v &&& 0xFFFFFFFFFFFFFC else p.tvec)
           ∧ t.me.cause = (if n = 5 then v.setWidth 8 else p.cause)
           ∧ t.me.fpc = (if n = 6 then v &&& 0xFFFFFFFFFFFFFC else p.fpc)
           ∧ t.me.faddr = (if n = 7 then v else p.faddr)
           ∧ t.me.finst = (if n = 8 then v.setWidth 32 else p.finst)
           ∧ (n = 9 → t.me.repDone = v.extractLsb' 0 6 ∧ t.me.repRemain = v.extractLsb' 8 7)
           ∧ t.me.srctr = (if n = 0x0D then v.setWidth 40 else p.srctr)
           ∧ t.me.schk = (if n = 0x0E then v.getLsbD 0 else p.schk) ∧ t.me.depth = p.depth
           ∧ t.me.depmax = (if n = 0x10 ∧ isKernel s.ctx.core = true then v.setWidth 8 else p.depmax)
           ∧ t.me.vstat = (if n = 0x11 then v.setWidth 5 else p.vstat))
        ∧ (s.core s.ctx.core).onlyProc (t.core s.ctx.core) s.ctx.pn ∧ s.onlyCore t s.ctx.core)
  ∧ (∀ (s : State) w a, s.controlReady 0x04 = true → s.clear { reads := [s.ra a] } = true → s.inHandler = true →
      exec (.wrcr w a 0x04) s = .next ((s.begun w { reads := [s.ra a] }).trap .prot 0))
  ∧ (∀ x : BitVec 32, x.extractLsb' 24 6 = 0x38#6 → 0x12 ≤ (x.extractLsb' 0 8).toNat → decode x = none)

/-- O12 (R101, R102, R103, R104, R105, R106, R107, R108, R82, R17). Every scalar floating-point member completes with its result and flags in flight -/
def Obligations.ScalarFloatResults : Prop :=
  FloatBinary fp32 .faddS (fpAdd fp32)
  ∧ FloatBinary fp32 .fsubS (fpSub fp32)
  ∧ FloatBinary fp32 .fmulS (fpMul fp32)
  ∧ FloatBinary fp32 .fminS (fpMinMax fp32 false)
  ∧ FloatBinary fp32 .fmaxS (fpMinMax fp32 true)
  ∧ FloatBinary fp32 .feqS (fpEq)
  ∧ FloatBinary fp32 .fltS (fpLt)
  ∧ FloatBinary fp32 .fleS (fpLe)
  ∧ FloatFused fp32 .fmaddS (fun m x y z => x.fma m y z)
  ∧ FloatFused fp32 .fmsubS (fun m x y z => x.fma m y z.negate)
  ∧ FloatFused fp32 .fnmaddS (fun m x y z => x.negate.fma m y z.negate)
  ∧ FloatBinary fp64 .faddD (fpAdd fp64)
  ∧ FloatBinary fp64 .fsubD (fpSub fp64)
  ∧ FloatBinary fp64 .fmulD (fpMul fp64)
  ∧ FloatBinary fp64 .fminD (fpMinMax fp64 false)
  ∧ FloatBinary fp64 .fmaxD (fpMinMax fp64 true)
  ∧ FloatBinary fp64 .feqD (fpEq)
  ∧ FloatBinary fp64 .fltD (fpLt)
  ∧ FloatBinary fp64 .fleD (fpLe)
  ∧ FloatFused fp64 .fmaddD (fun m x y z => x.fma m y z)
  ∧ FloatFused fp64 .fmsubD (fun m x y z => x.fma m y z.negate)
  ∧ FloatFused fp64 .fnmaddD (fun m x y z => x.negate.fma m y z.negate)
  ∧ FloatUnary .fclass (fun _ x => (fclass x, 0))
  ∧ FloatUnary .fcvtSD (fpConvert fp64 fp32)
  ∧ FloatUnary .fcvtDS (fpConvert fp32 fp64)
  ∧ FloatUnary .fcvtSL (fpFromInt fp32)
  ∧ FloatUnary .fcvtLS (fpToInt fp32)
  ∧ FloatUnary .fcvtDL (fpFromInt fp64)
  ∧ FloatUnary .fcvtLD (fpToInt fp64)
  ∧ FloatUnary .fcvtBS (fpConvert fp32 bf16)
  ∧ FloatUnary .fcvtSB (fpConvert bf16 fp32)
  ∧ (∀ (s : State) w d a b, s.clear { reads := [s.ra a, s.rb b], writes := [s.rd d], var := true } = true →
      let r := fp32.div .ieee (rmMode s.me.fctl) (fp32.operand (s.g (s.ra a))) (fp32.operand (s.g (s.rb b)))
      s.divides (.fdivS w d a b) w d (word r.1) r.2 14)
  ∧ (∀ (s : State) w d a, s.clear { reads := [s.ra a], writes := [s.rd d], var := true } = true →
      let r := fp32.sqrt (rmMode s.me.fctl) (fp32.operand (s.g (s.ra a)))
      s.divides (.fsqrtS w d a) w d (word r.1) r.2 14)
  ∧ (∀ (s : State) w d a b, s.clear { reads := [s.ra a, s.rb b], writes := [s.rd d], var := true } = true →
      let r := fp64.div .ieee (rmMode s.me.fctl) (fp64.operand (s.g (s.ra a))) (fp64.operand (s.g (s.rb b)))
      s.divides (.fdivD w d a b) w d (word r.1) r.2 28)
  ∧ (∀ (s : State) w d a, s.clear { reads := [s.ra a], writes := [s.rd d], var := true } = true →
      let r := fp64.sqrt (rmMode s.me.fctl) (fp64.operand (s.g (s.ra a)))
      s.divides (.fsqrtD w d a) w d (word r.1) r.2 28)

/-- O13 (R101, R102, R103, R104, R105, R106, R108). NaNs, infinities and zeros give the results and flags of R102 to R108 -/
def Obligations.FloatSpecialOperands : Prop :=
  ∀ f, f = fp32 ∨ f = fp64 → ∀ (m : Mode) (a b c : Val),
    ((a.isNan || b.isNan) = true →
      fpAdd f m a b = (f.nanCode, snanFlag a b) ∧ fpSub f m a b = (f.nanCode, snanFlag a b)
      ∧ fpMul f m a b = (f.nanCode, snanFlag a b) ∧ f.div .ieee m a b = (f.nanCode, snanFlag a b)
      ∧ fpEq m a b = (0, snanFlag a b) ∧ fpLt m a b = (0, flagNV) ∧ fpLe m a b = (0, flagNV))
    ∧ fpAdd f m (.inf false) (.inf true) = (f.nanCode, flagNV) ∧ fpSub f m (.inf true) (.inf true) = (f.nanCode, flagNV)
    ∧ ((a.isInf && b.isZero) = true → fpMul f m a b = (f.nanCode, flagNV) ∧ fpMul f m b a = (f.nanCode, flagNV)
      ∧ (a.fma m b c).1.isNan = true ∧ (a.fma m b c).2 = flagNV)
    ∧ ((a.isInf && b.isInf || a.isZero && b.isZero) = true → f.div .ieee m a b = (f.nanCode, flagNV))
    ∧ (∀ n k e, 0 < k → b.isZero = true → f.div .ieee m (.fin n k e) b
        = (f.signed (n != b.neg?) (f.infCode.getD 0), flagDZ))
    ∧ (∀ n e, f.sqrt m (.fin n 0 e) = (f.signed n 0, 0)) ∧ (∀ k e, 0 < k → f.sqrt m (.fin true k e) = (f.nanCode, flagNV))
    ∧ f.sqrt m (.inf true) = (f.nanCode, flagNV)
    ∧ (∀ larger, (a.isNan && b.isNan) = true → fpMinMax f larger m a b = (f.nanCode, snanFlag a b))
    ∧ (∀ larger, a.isNan = true → b.isNan = false →
        fpMinMax f larger m a b = ((f.convert .ieee .rne b).1, snanFlag a b)
        ∧ fpMinMax f larger m b a = ((f.convert .ieee .rne b).1, snanFlag a b))
    ∧ (∀ x : Word, ∃ i j, i < 10 ∧ j < 10 ∧ fclass x = word (2 ^ i + 2 ^ (16 + j)))
    ∧ (a.isNan = true → toIntRange m (-(2 ^ 63)) (2 ^ 63 - 1) (-(2 ^ 63)) a = (-(2 ^ 63), flagNV))
    ∧ toIntRange m (-(2 ^ 63)) (2 ^ 63 - 1) (-(2 ^ 63)) (.inf false) = (2 ^ 63 - 1, flagNV)
    ∧ toIntRange m (-(2 ^ 63)) (2 ^ 63 - 1) (-(2 ^ 63)) (.inf true) = (-(2 ^ 63), flagNV)
    ∧ toIntRange m (-(2 ^ 63)) (2 ^ 63 - 1) (-(2 ^ 63)) (.fin true 1 63) = (-(2 ^ 63), 0)
    ∧ toIntRange m (-(2 ^ 63)) (2 ^ 63 - 1) (-(2 ^ 63)) (.fin false 1 63) = (2 ^ 63 - 1, flagNV)

/-- O14 (R55, R62, R101). A value that a format holds converts into that format as its own code, with no flag -/
def Obligations.RepresentableValuesConvertExactly : Prop :=
  ∀ f, f ∈ [fp64, fp32, bf16, e5m2, e4m3, e2m1] → ∀ (o : Overflow) (m : Mode) (code : Nat), code < 2 ^ f.width →
    (f.decode code).isNan = false → (f.decode code).isInf = false → f.convert o m (f.decode code) = (code, 0)

/-- O15 (R81). DIV, DIVU, REM and REMU complete without a trap, with the results of R81 -/
def Obligations.DivisionResults : Prop :=
  (∀ (s : State) w d a b, s.clear { reads := [s.ra a, s.rb b], writes := [s.rd d], var := true } = true →
      s.divides (.div w d a b) w d (divSigned (s.g (s.ra a)) (s.g (s.rb b))) 0 34)
  ∧ (∀ (s : State) w d a b, s.clear { reads := [s.ra a, s.rb b], writes := [s.rd d], var := true } = true →
      s.divides (.divu w d a b) w d (divUnsigned (s.g (s.ra a)) (s.g (s.rb b))) 0 34)
  ∧ (∀ (s : State) w d a b, s.clear { reads := [s.ra a, s.rb b], writes := [s.rd d], var := true } = true →
      s.divides (.rem w d a b) w d (remSigned (s.g (s.ra a)) (s.g (s.rb b))) 0 34)
  ∧ (∀ (s : State) w d a b, s.clear { reads := [s.ra a, s.rb b], writes := [s.rd d], var := true } = true →
      s.divides (.remu w d a b) w d (remUnsigned (s.g (s.ra a)) (s.g (s.rb b))) 0 34)
  ∧ (∀ a : Word, divSigned a 0 = 0xFFFFFFFFFFFFFFFF ∧ divUnsigned a 0 = 0xFFFFFFFFFFFFFFFF ∧ remSigned a 0 = a
      ∧ remUnsigned a 0 = a)
  ∧ divSigned 0x8000000000000000 (-1) = 0x8000000000000000 ∧ remSigned 0x8000000000000000 (-1) = 0
  ∧ (∀ a b : Word, b ≠ 0 → (divUnsigned a b).toNat = a.toNat / b.toNat ∧ remUnsigned a b = a - divUnsigned a b * b)
  ∧ (∀ a b : Word, b ≠ 0 → ¬ (a = 0x8000000000000000 ∧ b = -1) →
      (divSigned a b).toInt = a.toInt.tdiv b.toInt ∧ remSigned a b = a - divSigned a b * b)

/-- The rational number of a finite value. -/
def finiteValue (neg : Bool) (m : Nat) (e : Int) : Rat := (if neg then -1 else 1) * (m : Rat) * (2 : Rat) ^ e

/-- O16 (R104). FEQ, FLT and FLE write 1 exactly when the relation of the two numbers holds -/
def Obligations.FloatCompares : Prop :=
  (FloatBinary fp32 .feqS fpEq ∧ FloatBinary fp32 .fltS fpLt ∧ FloatBinary fp32 .fleS fpLe
    ∧ FloatBinary fp64 .feqD fpEq ∧ FloatBinary fp64 .fltD fpLt ∧ FloatBinary fp64 .fleD fpLe)
  ∧ ∀ (m : Mode),
    (∀ x y k l e f,
      fpEq m (.fin x k e) (.fin y l f) = (if finiteValue x k e = finiteValue y l f then 1 else 0, 0)
      ∧ fpLt m (.fin x k e) (.fin y l f) = (if finiteValue x k e < finiteValue y l f then 1 else 0, 0)
      ∧ fpLe m (.fin x k e) (.fin y l f) = (if finiteValue x k e ≤ finiteValue y l f then 1 else 0, 0))
    ∧ (∀ e f, fpEq m (.fin true 0 e) (.fin false 0 f) = (1, 0))
    ∧ (∀ x k e,
      fpEq m (.inf false) (.fin x k e) = (0, 0) ∧ fpEq m (.fin x k e) (.inf false) = (0, 0)
      ∧ fpEq m (.inf true) (.fin x k e) = (0, 0) ∧ fpEq m (.fin x k e) (.inf true) = (0, 0)
      ∧ fpLt m (.inf true) (.fin x k e) = (1, 0) ∧ fpLt m (.fin x k e) (.inf true) = (0, 0)
      ∧ fpLt m (.inf false) (.fin x k e) = (0, 0) ∧ fpLt m (.fin x k e) (.inf false) = (1, 0)
      ∧ fpLe m (.inf true) (.fin x k e) = (1, 0) ∧ fpLe m (.fin x k e) (.inf true) = (0, 0)
      ∧ fpLe m (.inf false) (.fin x k e) = (0, 0) ∧ fpLe m (.fin x k e) (.inf false) = (1, 0))
    ∧ (∀ x y, fpEq m (.inf x) (.inf y) = (if x = y then 1 else 0, 0)
      ∧ fpLt m (.inf x) (.inf y) = (if x = true ∧ y = false then 1 else 0, 0)
      ∧ fpLe m (.inf x) (.inf y) = (if x = true ∨ y = false then 1 else 0, 0))
    ∧ (∀ a b : Val, (a.isNan || b.isNan) = true →
      fpEq m a b = (0, if (a.isSnan || b.isSnan) = true then flagNV else 0)
      ∧ fpLt m a b = (0, flagNV) ∧ fpLe m a b = (0, flagNV))

/-- The class of R105's table, from the exponent and fraction fields of a code: the sign adds one up to infinity. -/
def classOfFields (neg : Bool) (exponent fraction top quiet : Nat) : Nat :=
  if exponent = top then
    if fraction = 0 then (if neg then 7 else 6) else if quiet ≤ fraction then 8 else 9
  else if exponent = 0 then
    if fraction = 0 then (if neg then 1 else 0) else (if neg then 3 else 2)
  else (if neg then 5 else 4)

/-- O17 (R105). FCLASS sets one bit for the FP64 class and one for the FP32 class, and raises no flag -/
def Obligations.ClassesOfFclass : Prop :=
  FloatUnary .fclass (fun _ x => (fclass x, 0))
  ∧ (∀ x : Word, fclass x =
      word (2 ^ classOfFields (x.getLsbD 63) (x.extractLsb' 52 11).toNat (x.extractLsb' 0 52).toNat 0x7FF (2 ^ 51)
        + 2 ^ (16 + classOfFields (x.getLsbD 31) (x.extractLsb' 23 8).toNat (x.extractLsb' 0 23).toNat 0xFF (2 ^ 22))))
  ∧ fclass 0x7F800001 = 0x02000004

/-- O18 (R40, R111, R112, R113, R114). TRAP records its trap, and with TVEC set goes on at TVEC with TVEC cleared -/
def Obligations.RecoverableTrapEntry : Prop :=
  (∀ (s : State) w k i, s.clear {} = true → s.ctx.pn < 256 → s.me.tvec ≠ 0 →
      (s.core s.ctx.core).slotOf s.ctx.pn = some i →
      ∃ t, exec (.trap w k) s = .next t
        ∧ t.me = { s.me with
            cause := 0x15, faddr := k.setWidth 64, fpc := pc56 s.ctx.pc &&& ~~~(3 : Word), finst := s.ctx.word
            pc := s.me.tvec, tvec := 0, inRep := false, earliest := s.ticks + 1, tagSince := none, wait := .none }
        ∧ (s.core s.ctx.core).onlyProc (t.core s.ctx.core) s.ctx.pn ∧ s.onlyCore t s.ctx.core)
  ∧ (∀ (s : State) w k i, s.clear {} = true → s.ctx.pn < 256 → s.me.tvec = 0 → isKernel s.ctx.core = false →
      (s.core s.ctx.core).slotOf s.ctx.pn = some i → ((s.core s.ctx.core).slot i).leaving = none →
      ∃ t, exec (.trap w k) s = .next t
        ∧ t.me = { s.me with
            cause := 0x15, faddr := k.setWidth 64, fpc := pc56 s.ctx.pc &&& ~~~(3 : Word), finst := s.ctx.word
            pc := pc56 s.ctx.pc &&& ~~~(3 : Word), state := .faulted, inRep := false, held := false, wait := .none
            earliest := s.ticks + 1, tagSince := none, closeReason := 0 }
        ∧ ((t.core s.ctx.core).slot i).proc = none
        ∧ (t.core s.ctx.core).faultOut = (s.core s.ctx.core).faultOut ++ [{
            kind := 1, cause := 0x15, pid := BitVec.ofNat 31 (pidOf s.ctx.core s.ctx.pn)
            job := (s.core s.ctx.core).gateJob, fpc := pc56 s.ctx.pc &&& ~~~(3 : Word), faddr := k.setWidth 64
            finst := s.ctx.word, extra := s.me.closeReason }]
        ∧ (∀ n, n ≠ s.ctx.pn → (t.core s.ctx.core).proc n = (s.core s.ctx.core).proc n) ∧ s.onlyCore t s.ctx.core)

/-- O19 (R38, R40, R112, R114). A word that is no instruction raises ILL when it issues -/
def Obligations.IllegalWordsTrap : Prop :=
  (∀ (s : State) x i, decode x = none → s.me.state = .running → s.ctx.pn < 256 → isKernel s.ctx.core = false →
      (s.core s.ctx.core).slotOf s.ctx.pn = some i → ((s.core s.ctx.core).slot i).leaving = none →
      ∃ t, exec (.illegalWord x) s = .next t
        ∧ t.me.state = .faulted ∧ t.me.cause = 0x01 ∧ t.me.faddr = 0 ∧ t.me.finst = x
        ∧ t.me.fpc = pc56 s.ctx.pc &&& ~~~(3 : Word) ∧ t.me.regs = s.me.regs ∧ t.me.pend = s.me.pend
        ∧ t.me.tvec = s.me.tvec ∧ t.me.fctl = s.me.fctl ∧ t.me.xi = s.me.xi
        ∧ ((t.core s.ctx.core).slot i).proc = none ∧ t.mem = s.mem)
  ∧ (∀ (s : State) x i, decode x = none → s.me.state = .running → s.ctx.pn < 256 → isKernel s.ctx.core = true →
      s.me.tvec ≠ 0 → (s.core s.ctx.core).slotOf s.ctx.pn = some i →
      ∃ t, exec (.illegalWord x) s = .next t
        ∧ t.me.state = .running ∧ t.me.pc = s.me.tvec ∧ t.me.tvec = 0 ∧ t.me.cause = 0x01 ∧ t.me.faddr = 0
        ∧ t.me.finst = x ∧ t.me.regs = s.me.regs ∧ t.mem = s.mem)
  ∧ decode 0x00000000 = none ∧ decode 0xFFFFFFFF = none
  ∧ (∀ x : BitVec 32, (x.extractLsb' 24 6).toNat ∈ [0x00, 0x3B, 0x3C, 0x3D, 0x3E, 0x3F] → decode x = none)
  ∧ (∀ x : BitVec 32, x.extractLsb' 24 6 = 0x14#6 → (decode x).isSome = true)
  ∧ (∀ x : BitVec 32, x.extractLsb' 24 6 = 0x39#6 → x.extractLsb' 14 10 ≠ 0#10 → decode x = none)

/-- O20 (R10, R12, R20, R38, R39, R333). A word waits, or is checked for legality, window names and early reads in that order. The model’s choices, not the spec’s: FADDR names the first failing register in the order of the sources, then the destination (log 8) -/
def Obligations.IssueChecksInOrder : Prop :=
  (∀ (s : State) w d a b n, s.me.state = .running → n ∈ [s.ra a, s.rb b, s.rd d] → s.me.isPending n = true →
      exec (.add w d a b) s = .next { s with ctx := { s.ctx with
        issued := false, stall := [s.ra a, s.rb b, s.rd d] } })
  ∧ (∀ (s : State) w d a b n, s.me.state = .running → ([s.ra a, s.rb b, s.rd d].any s.me.isPending) = false →
      [s.ra a, s.rb b, s.rd d].find? (fun k => s.me.wsz ≤ k) = some n →
      exec (.add w d a b) s = .next (s.trap .window (word n)))
  ∧ (∀ (s : State) w d a b n, s.me.state = .running → ([s.ra a, s.rb b, s.rd d].any s.me.isPending) = false →
      (∀ k ∈ [s.ra a, s.rb b, s.rd d], k < s.me.wsz) → s.me.schk = true → 0 < n →
      [s.ra a, s.rb b].find? (fun k => k != 0 && (s.core s.ctx.core).flight.any (fun f =>
        f.pn == s.ctx.pn && f.writes.any (fun e => e.1 == k))) = some n →
      exec (.add w d a b) s = .next (s.trap .stallshort (word n)))
  ∧ (∀ (s : State) w a b, s.me.state = .running → ([s.ra a, s.rb b].any s.me.isPending) = false →
      isKernel s.ctx.core = false → exec (.gset w a b) s = .next (s.trap .ill 0))
  ∧ (∀ (s : State) w a, s.me.state = .running → s.me.isPending (s.ra a) = false → isKernel s.ctx.core = true →
      exec (.mrel w a) s = .next (s.trap .ill 0))

/-- O21 (R117, R119, R120, R122, R123, R124, R129, R135, R138, R13, R205, R358). Loads, PEEK, AMOs and CAS enter the request table with their destinations pending -/
def Obligations.LoadsAndAtomicsIssue : Prop :=
  (∀ (s : State) w d a (o : BitVec 11), s.clear { reads := [s.ra a], writes := [s.rd d], var := true } = true →
      s.accesses (.lb w d a o) w {
        kind := .load true, ea := s.g (s.ra a) + (o.signExtend 64 : Word) * 1, size := 1, dest := s.rd d })
  ∧ (∀ (s : State) w d a (o : BitVec 11), s.clear { reads := [s.ra a], writes := [s.rd d], var := true } = true →
      s.accesses (.lh w d a o) w {
        kind := .load true, ea := s.g (s.ra a) + (o.signExtend 64 : Word) * 2, size := 2, dest := s.rd d })
  ∧ (∀ (s : State) w d a (o : BitVec 11), s.clear { reads := [s.ra a], writes := [s.rd d], var := true } = true →
      s.accesses (.lw w d a o) w {
        kind := .load true, ea := s.g (s.ra a) + (o.signExtend 64 : Word) * 4, size := 4, dest := s.rd d })
  ∧ (∀ (s : State) w d a (o : BitVec 11), s.clear { reads := [s.ra a], writes := [s.rd d], var := true } = true →
      s.accesses (.ld w d a o) w {
        kind := .load false, ea := s.g (s.ra a) + (o.signExtend 64 : Word) * 8, size := 8, dest := s.rd d })
  ∧ (∀ (s : State) w d a (o : BitVec 11), s.clear { reads := [s.ra a], writes := [s.rd d], var := true } = true →
      s.accesses (.lbu w d a o) w {
        kind := .load false, ea := s.g (s.ra a) + (o.signExtend 64 : Word) * 1, size := 1, dest := s.rd d })
  ∧ (∀ (s : State) w d a (o : BitVec 11), s.clear { reads := [s.ra a], writes := [s.rd d], var := true } = true →
      s.accesses (.lhu w d a o) w {
        kind := .load false, ea := s.g (s.ra a) + (o.signExtend 64 : Word) * 2, size := 2, dest := s.rd d })
  ∧ (∀ (s : State) w d a (o : BitVec 11), s.clear { reads := [s.ra a], writes := [s.rd d], var := true } = true →
      s.accesses (.lwu w d a o) w {
        kind := .load false, ea := s.g (s.ra a) + (o.signExtend 64 : Word) * 4, size := 4, dest := s.rd d })
  ∧ (∀ (s : State) w d a (o : BitVec 11), s.clear { reads := [s.ra a], writes := [s.rd d, s.rd d + 1], var := true } = true →
      s.accesses (.peek w d a o) w {
        kind := .peek, ea := s.g (s.ra a) + (o.signExtend 64 : Word) * 8, size := 8, dest := s.rd d })
  ∧ (∀ (s : State) w d a b z, s.clear { reads := [s.ra a, s.rb b], writes := [s.rd d], var := true } = true →
      s.accesses (.aadd w d a b z) w {
        kind := .amo 0, ea := s.g (s.ra a), size := if z = 1 then 4 else 8, data := s.g (s.rb b), dest := s.rd d })
  ∧ (∀ (s : State) w d a b z, s.clear { reads := [s.ra a, s.rb b], writes := [s.rd d], var := true } = true →
      s.accesses (.aand w d a b z) w {
        kind := .amo 1, ea := s.g (s.ra a), size := if z = 1 then 4 else 8, data := s.g (s.rb b), dest := s.rd d })
  ∧ (∀ (s : State) w d a b z, s.clear { reads := [s.ra a, s.rb b], writes := [s.rd d], var := true } = true →
      s.accesses (.aor w d a b z) w {
        kind := .amo 2, ea := s.g (s.ra a), size := if z = 1 then 4 else 8, data := s.g (s.rb b), dest := s.rd d })
  ∧ (∀ (s : State) w d a b z, s.clear { reads := [s.ra a, s.rb b], writes := [s.rd d], var := true } = true →
      s.accesses (.axor w d a b z) w {
        kind := .amo 3, ea := s.g (s.ra a), size := if z = 1 then 4 else 8, data := s.g (s.rb b), dest := s.rd d })
  ∧ (∀ (s : State) w d a b z, s.clear { reads := [s.ra a, s.rb b], writes := [s.rd d], var := true } = true →
      s.accesses (.amin w d a b z) w {
        kind := .amo 4, ea := s.g (s.ra a), size := if z = 1 then 4 else 8, data := s.g (s.rb b), dest := s.rd d })
  ∧ (∀ (s : State) w d a b z, s.clear { reads := [s.ra a, s.rb b], writes := [s.rd d], var := true } = true →
      s.accesses (.amax w d a b z) w {
        kind := .amo 5, ea := s.g (s.ra a), size := if z = 1 then 4 else 8, data := s.g (s.rb b), dest := s.rd d })
  ∧ (∀ (s : State) w d a b z, s.clear { reads := [s.ra a, s.rb b], writes := [s.rd d], var := true } = true →
      s.accesses (.aminu w d a b z) w {
        kind := .amo 6, ea := s.g (s.ra a), size := if z = 1 then 4 else 8, data := s.g (s.rb b), dest := s.rd d })
  ∧ (∀ (s : State) w d a b z, s.clear { reads := [s.ra a, s.rb b], writes := [s.rd d], var := true } = true →
      s.accesses (.amaxu w d a b z) w {
        kind := .amo 7, ea := s.g (s.ra a), size := if z = 1 then 4 else 8, data := s.g (s.rb b), dest := s.rd d })
  ∧ (∀ (s : State) w d a b z, s.clear { reads := [s.ra a, s.rb b], writes := [s.rd d], var := true } = true →
      s.accesses (.aswap w d a b z) w {
        kind := .amo 8, ea := s.g (s.ra a), size := if z = 1 then 4 else 8, data := s.g (s.rb b), dest := s.rd d })
  ∧ (∀ (s : State) w d a b z, s.clear { reads := [s.ra a, s.rb b], writes := [s.rd d], var := true } = true →
      s.accesses (.afadd w d a b z) w {
        kind := .amo 9, ea := s.g (s.ra a), size := if z = 1 then 4 else 8, data := s.g (s.rb b), dest := s.rd d })
  ∧ (∀ (s : State) w d a b z, s.clear { reads := [s.ra a, s.rb b], writes := [s.rd d], var := true } = true →
      s.accesses (.afamax w d a b z) w {
        kind := .amo 10, ea := s.g (s.ra a), size := if z = 1 then 4 else 8, data := s.g (s.rb b), dest := s.rd d })
  ∧ (∀ (s : State) w d a b z, s.clear { reads := [s.ra a, s.rb b, s.rd d], writes := [s.rd d], var := true } = true →
      s.accesses (.cas w d a b z) w {
        kind := .cas, ea := s.g (s.ra a), size := if z = 1 then 4 else 8, data := s.g (s.rb b)
        cmp := s.g (s.rd d), dest := s.rd d })

/-- O22 (R117, R120, R123, R124, R129, R204, R205). Stores, CLEAR and OVWR enter the store buffer; in a speculation region stores are held -/
def Obligations.StoresIssue : Prop :=
  (∀ (s : State) w r a (o : BitVec 11), s.clear { reads := [s.ra a, s.rd r] } = true →
      s.accesses (.sb w r a o) w {
        kind := .store, ea := s.g (s.ra a) + (o.signExtend 64 : Word) * 1, size := 1, data := s.g (s.rd r) })
  ∧ (∀ (s : State) w r a (o : BitVec 11), s.clear { reads := [s.ra a, s.rd r] } = true →
      s.accesses (.sh w r a o) w {
        kind := .store, ea := s.g (s.ra a) + (o.signExtend 64 : Word) * 2, size := 2, data := s.g (s.rd r) })
  ∧ (∀ (s : State) w r a (o : BitVec 11), s.clear { reads := [s.ra a, s.rd r] } = true →
      s.accesses (.sw w r a o) w {
        kind := .store, ea := s.g (s.ra a) + (o.signExtend 64 : Word) * 4, size := 4, data := s.g (s.rd r) })
  ∧ (∀ (s : State) w r a (o : BitVec 11), s.clear { reads := [s.ra a, s.rd r] } = true →
      s.accesses (.sd w r a o) w {
        kind := .store, ea := s.g (s.ra a) + (o.signExtend 64 : Word) * 8, size := 8, data := s.g (s.rd r) })
  ∧ (∀ (s : State) w r a (o : BitVec 11), s.clear { reads := [s.ra a, s.rd r] } = true →
      s.accesses (.clear w r a o) w {
        kind := .clear, ea := s.g (s.ra a) + (o.signExtend 64 : Word) * 8, size := 8, data := s.g (s.rd r) })
  ∧ (∀ (s : State) w r a (o : BitVec 11), s.clear { reads := [s.ra a, s.rd r] } = true →
      s.accesses (.ovwr w r a o) w {
        kind := .ovwr, ea := s.g (s.ra a) + (o.signExtend 64 : Word) * 8, size := 8, data := s.g (s.rd r) })
  ∧ (∀ (s : State) w r a (o : BitVec 11) q, s.clear { reads := [s.ra a, s.rd r] } = true → s.inRegion = true →
      s.placeOf (s.requestOf { kind := .store, ea := s.g (s.ra a) + (o.signExtend 64 : Word) * 8, size := 8, data := s.g (s.rd r) })
        = some q → q.leaves = true → (s.core s.ctx.core).hold.room 8 = true →
      ∃ t, exec (.sd w r a o) s = .next t ∧ (t.core s.ctx.core).hold.items
        = (s.core s.ctx.core).hold.items ++ [.store { q with tag := (s.core s.ctx.core).nextTag }]
        ∧ (t.core s.ctx.core).reqs = (s.core s.ctx.core).reqs ∧ t.me.pc = s.nextPc ∧ s.me.keeps t.me ∧ t.mem = s.mem)

/-- O23 (R129, R130, R117, R195, R205, R40). READF, TAKE, PUT and FILL issue their request and leave the process BLOCKED-SYNC -/
def Obligations.BlockingAccessesIssue : Prop :=
  (∀ (s : State) w d a (o : BitVec 11), s.clear { reads := [s.ra a], writes := [s.rd d], var := true } = true →
      s.inHandler = false → s.accesses (.readf w d a o) w {
        kind := .readf, ea := s.g (s.ra a) + (o.signExtend 64 : Word) * 8, size := 8, dest := s.rd d, blocks := true })
  ∧ (∀ (s : State) w d a (o : BitVec 11), s.clear { reads := [s.ra a], writes := [s.rd d], var := true } = true →
      s.inHandler = false → s.accesses (.take w d a o) w {
        kind := .take, ea := s.g (s.ra a) + (o.signExtend 64 : Word) * 8, size := 8, dest := s.rd d, blocks := true })
  ∧ (∀ (s : State) w r a (o : BitVec 11), s.clear { reads := [s.ra a, s.rd r] } = true →
      s.inHandler = false → s.accesses (.put w r a o) w {
        kind := .put, ea := s.g (s.ra a) + (o.signExtend 64 : Word) * 8, size := 8, data := s.g (s.rd r), blocks := true })
  ∧ (∀ (s : State) w r a (o : BitVec 11), s.clear { reads := [s.ra a, s.rd r] } = true →
      s.inHandler = false → s.accesses (.fill w r a o) w {
        kind := .fill, ea := s.g (s.ra a) + (o.signExtend 64 : Word) * 8, size := 8, data := s.g (s.rd r), blocks := true })
  ∧ (∀ (s : State) w d a (o : BitVec 11), s.clear { reads := [s.ra a], writes := [s.rd d], var := true } = true →
      s.inHandler = true → ∀ i ∈ [Instr.readf w d a o, Instr.take w d a o], exec i s = .next
        ((s.begun w { reads := [s.ra a], writes := [s.rd d], var := true }).trap .prot
          (s.g (s.ra a) + (o.signExtend 64 : Word) * 8)))
  ∧ (∀ (s : State) w r a (o : BitVec 11), s.clear { reads := [s.ra a, s.rd r] } = true →
      s.inHandler = true → ∀ i ∈ [Instr.put w r a o, Instr.fill w r a o], exec i s = .next
        ((s.begun w { reads := [s.ra a, s.rd r] }).trap .prot (s.g (s.ra a) + (o.signExtend 64 : Word) * 8)))
  ∧ (∀ (s : State) w d a (o : BitVec 11), s.clear { reads := [s.ra a], writes := [s.rd d], var := true } = true →
      s.inRegion = true → (spaceOf (isKernel s.ctx.core) (s.g (s.ra a) + (o.signExtend 64 : Word) * 8)).leaves = true →
      exec (.take w d a o) s = .next ((s.begun w { reads := [s.ra a], writes := [s.rd d], var := true }).trap .prot
        (s.g (s.ra a) + (o.signExtend 64 : Word) * 8)))

/-- O24 (R139, R140, R141, R195, R278, R281, R282). Fences hold their process until its earlier accesses are complete; XFENCE carries one path to another -/
def Obligations.FencesHoldAndRelease : Prop :=
  (∀ (s : State) w, s.clear {} = true → s.inHandler = false →
      s.blocks (.fenceC w) w .blockedSync (.fence .core (s.core s.ctx.core).nextTag))
  ∧ (∀ (s : State) w, s.clear {} = true → s.inHandler = false →
      s.blocks (.fenceD w) w .blockedSync (.fence .die (s.core s.ctx.core).nextTag))
  ∧ (∀ (s : State) w, s.clear {} = true → s.inHandler = false →
      s.blocks (.fenceG w) w .blockedSync (.fence .all (s.core s.ctx.core).nextTag))
  ∧ (∀ (s : State) w p q, s.pathA p < 7 → s.pathA p = s.pathB q → s.clear {} = true → s.inHandler = false →
      s.actsOnProcess (.xfence w p q) w s.nextPc id)
  ∧ (∀ (s : State) w p q, s.pathA p < 7 → s.pathB q < 7 → s.pathA p ≠ s.pathB q → s.clear {} = true → s.inHandler = false →
      s.blocks (.xfence w p q) w .blockedSync (.xfence (pathOf (s.pathA p)) (pathOf (s.pathB q))))
  ∧ (∀ (s : State) w p q, (7 ≤ s.pathA p ∨ 7 ≤ s.pathB q) → s.me.state = .running →
      exec (.xfence w p q) s = .next (s.trap .ill 0))
  ∧ (∀ (s : State) w p q, s.pathA p < 7 → s.pathB q < 7 → s.clear {} = true → s.inHandler = true →
      ∀ i ∈ [Instr.fenceC w, Instr.fenceD w, Instr.fenceG w, Instr.xfence w p q],
        exec i s = .next ((s.begun w {}).trap .prot 0))
  ∧ (∀ (s : State) core pn scope upto, (s.proc core pn).wait = .fence scope upto →
      (s.core core).fenceDone scope pn upto = true → (s.proc core pn).state = .blockedSync →
      ∃ t, exec (.fenceRelease core pn) s = .next t ∧ (t.proc core pn).wait = .none
        ∧ (t.proc core pn).state = (if (s.core core).slotOf pn = none then .ready else .running)
        ∧ (t.proc core pn).fencedDie = (if scope = .die then s.mem.age else (s.proc core pn).fencedDie)
        ∧ (t.proc core pn).fenced = (if scope = .all then s.mem.age else (s.proc core pn).fenced) ∧ t.mem = s.mem)
  ∧ (∀ (s : State) core pn scope upto, (s.proc core pn).wait = .fence scope upto →
      (s.core core).fenceDone scope pn upto = false → exec (.fenceRelease core pn) s = .next s)
  ∧ (∀ (c : Core) scope pn upto, c.fenceDone scope pn upto = c.reqs.all (fun r => decide (r.pn ≠ pn) || decide (upto ≤ r.tag)
      || r.ended || decide (r.phase = .performed) || (decide (scope = .core) && r.inBuffer)))
  ∧ (∀ (s : State) core pn p q, (s.proc core pn).wait = .xfence p q → (s.proc core pn).state = .blockedSync →
      ∃ t, exec (.xfenceRelease core pn) s = .next t ∧ (t.proc core pn).wait = .none
        ∧ (t.proc core pn).carried = (p, q, (s.proc core pn).observedAge p) :: (s.proc core pn).carried
        ∧ (p, q, (s.proc core pn).observedAge p) ∈ t.carries ∧ t.mem = s.mem)

/-- The bytes of a memory after n bytes of a number are stored from a key, little-endian. -/
def storedAt (m m' : Memory) (k n v : Nat) : Prop :=
  ∀ a, m'.byte a = if k ≤ a ∧ a < k + n then BitVec.ofNat 8 (v / 256 ^ (a - k)) else m.byte a

/-- The full/empty bits of a memory after one word's bit is set. -/
def bitAt (m m' : Memory) (w : Nat) (b : Bool) : Prop := ∀ x, m'.isFull x = if x = w then b else m.isFull x

/-- An access at its point of service writes v over its bytes, sets the word's bit, and reads result. -/
def Writes (m : Memory) (r : Req) (pid k : Nat) (seen : Word) (v : Nat) (b : Bool) (result : Word) : Prop :=
  ∃ m' r', m.serve r pid k seen = some (m', r') ∧ storedAt m m' k r.size v ∧ bitAt m m' (k / 8) b ∧ m'.wf = true
    ∧ m'.poison = m.poison ∧ r'.phase = .performed ∧ r'.result = result

/-- An access at its point of service leaves every byte, sets the word's bit, and reads result. -/
def Reads (m : Memory) (r : Req) (pid k : Nat) (seen : Word) (b : Bool) (result : Word) : Prop :=
  ∃ m' r', m.serve r pid k seen = some (m', r') ∧ (∀ a, m'.byte a = m.byte a) ∧ bitAt m m' (k / 8) b ∧ m'.wf = true
    ∧ m'.poison = m.poison ∧ r'.phase = .performed ∧ r'.result = result

/-- O25 (R127, R128, R129, R131, R134, R135, R137, R138, R166). At the point of service each kind of access reads, writes and sets the full/empty bit as R128 to R138 say -/
def Obligations.ServiceOfAccesses : Prop :=
  ∀ (m : Memory) (r : Req) (pid k : Nat) (seen : Word), m.wf = true → m.isPoisoned k = false → r.host = false →
    r.size ∈ [1, 2, 4, 8] → k % r.size = 0 →
    let old := m.read k r.size
    let full := m.isFull (k / 8)
    (r.kind = .store → Writes m r pid k seen r.data.toNat true r.result)
    ∧ (r.kind = .fill → Writes m r pid k seen r.data.toNat true r.result)
    ∧ (r.kind = .clear → Writes m r pid k seen r.data.toNat false r.result)
    ∧ (r.kind = .ovwr → Writes m r pid k seen r.data.toNat full r.result)
    ∧ (r.kind = .put → full = false → Writes m r pid k seen r.data.toNat true r.result)
    ∧ (r.kind = .put → full = true → m.serve r pid k seen = none)
    ∧ (r.kind = .readf → full = true → Reads m r pid k seen true (BitVec.ofNat 64 old))
    ∧ (r.kind = .take → full = true → Reads m r pid k seen false (BitVec.ofNat 64 old))
    ∧ ((r.kind = .readf ∨ r.kind = .take) → full = false → m.serve r pid k seen = none)
    ∧ (∀ g, r.kind = .load g → (r.fe = false ∨ full = true) → Reads m r pid k seen full
        (let v := seen.toNat / 256 ^ (k % 8) % 256 ^ r.size
         if g = true then ((word v).setWidth (8 * r.size)).signExtend 64 else word v))
    ∧ (∀ g, r.kind = .load g → r.fe = true → full = false → m.serve r pid k seen = none)
    ∧ (r.kind = .peek → Reads m r pid k seen full (BitVec.ofNat 64 old))
    ∧ (∀ op, r.kind = .amo op → Writes m r pid k seen (amoNew op r.size old (r.data.toNat % 256 ^ r.size)).1 full
        (if op ≤ 8 then ((word old).setWidth (8 * r.size)).signExtend 64 else word old))
    ∧ (r.kind = .cas → old = r.cmp.toNat % 256 ^ r.size →
        Writes m r pid k seen (r.data.toNat % 256 ^ r.size) full (((word old).setWidth (8 * r.size)).signExtend 64))
    ∧ (r.kind = .cas → old ≠ r.cmp.toNat % 256 ^ r.size →
        Reads m r pid k seen full (((word old).setWidth (8 * r.size)).signExtend 64))
    ∧ (r.kind = .iterClaim → r.size = 8 → Writes m r pid k seen
        (old + claimChunk r.data.toNat (r.cmp.toNat / 2 ^ 32) (r.cmp.toNat % 2 ^ 32) old) full (BitVec.ofNat 64 old))

/-- O26 (R134, R136, R166). The AMO functions are those of R134 on numbers of the access’s width -/
def Obligations.AtomicFunctions : Prop :=
  (∀ n old b, n = 4 ∨ n = 8 → old < 256 ^ n → b < 256 ^ n →
    let f := if n = 4 then fp32 else fp64
    amoNew 0 n old b = ((old + b) % 256 ^ n, 0)
    ∧ (∀ i, (amoNew 1 n old b).1.testBit i = (old.testBit i && b.testBit i)
      ∧ (amoNew 2 n old b).1.testBit i = (old.testBit i || b.testBit i)
      ∧ (amoNew 3 n old b).1.testBit i = (old.testBit i ^^ b.testBit i))
    ∧ (let sg (x : Nat) : Int := (BitVec.ofNat (8 * n) x).toInt
       amoNew 4 n old b = (if sg old ≤ sg b then old else b, 0)
       ∧ amoNew 5 n old b = (if sg old ≤ sg b then b else old, 0))
    ∧ amoNew 6 n old b = (if old ≤ b then old else b, 0) ∧ amoNew 7 n old b = (if old ≤ b then b else old, 0)
    ∧ amoNew 8 n old b = (b, 0) ∧ amoNew 9 n old b = fpAdd f .rne (f.decode old) (f.decode b)
    ∧ (((f.decode old).isNan || (f.decode b).isNan) = true →
        amoNew 10 n old b = (f.nanCode, snanFlag (f.decode old) (f.decode b)))
    ∧ (((f.decode old).isNan || (f.decode b).isNan) = false →
        amoNew 10 n old b = (if old % 2 ^ (8 * n - 1) < b % 2 ^ (8 * n - 1) then b % 2 ^ (8 * n - 1)
          else old % 2 ^ (8 * n - 1), 0)))
  ∧ (∀ n p minch c, 0 < p → c ≤ n → claimChunk n p minch c ≤ n - c ∧ (min (n - c) minch ≤ claimChunk n p minch c)
      ∧ n - c ≤ claimChunk n p minch c * p)

/-- O27 (R154, R155, R156, R157, R158, R160, R161, R162, R163). START, STOP, PRI, SLEEPC, WHO, DONE and BWAIT do what R155 to R163 say. The model’s choices, not the spec’s: START takes g3, the priority and W of its process as they are at issue, and one whose process is killed still makes its tiller (log 24); BWAIT takes over what XFENCEs have carried (log 7) -/
def Obligations.ProcessInstructions : Prop :=
  (∀ (s : State) w d a b, s.clear { reads := [s.ra a, s.rb b], writes := [s.rd d], var := true } = true →
      s.inHandler = false → (s.g (s.ra a)).toNat % 4 = 0 →
      ∃ t, exec (.start w d a b) s = .next t
        ∧ (t.core s.ctx.core).starts = (s.core s.ctx.core).starts ++ [{
            pn := s.ctx.pn, dest := s.rd d, entry := s.g (s.ra a), arg := s.g (s.rb b), gp := s.g 3, prio := s.me.prio
            wsz := s.me.wsz, depmax := s.me.depmax, last := s.ticks + 8 }]
        ∧ (∀ n, n < s.me.pend.length → t.me.isPending n = (s.me.isPending n || (n != 0 && n == s.rd d)))
        ∧ t.me.pc = s.nextPc ∧ t.me.earliest = s.ticks + stallGap w ∧ s.me.movedPending t.me ∧ s.onlyCore t s.ctx.core)
  ∧ (∀ (s : State) w d a b, s.clear { reads := [s.ra a, s.rb b], writes := [s.rd d], var := true } = true →
      s.inHandler = false → (s.g (s.ra a)).toNat % 4 ≠ 0 →
      exec (.start w d a b) s = .next ((s.begun w { reads := [s.ra a, s.rb b], writes := [s.rd d], var := true }).trap
        .align (s.g (s.ra a))))
  ∧ (∀ (s : State) w i, s.clear {} = true → s.inHandler = false → s.inRegion = false →
      (s.core s.ctx.core).slotOf s.ctx.pn = some i → ((s.core s.ctx.core).slot i).leaving = none →
      ∃ t, exec (.stop w) s = .next t ∧ (t.me.state = .ended ∨ t.me.state = .free)
        ∧ ((t.core s.ctx.core).slot i).proc = none
        ∧ (∀ n, n ≠ s.ctx.pn → (t.core s.ctx.core).proc n = (s.core s.ctx.core).proc n) ∧ s.onlyCore t s.ctx.core)
  ∧ (∀ (s : State) w a, s.clear { reads := [s.ra a] } = true →
      s.actsOnProcess (.pri w a) w s.nextPc (fun p => { p with
        prio := (s.g (s.ra a)).setWidth 7, prioWas := some (s.me.prio, s.ticks) }))
  ∧ (∀ (p : Proc) q t, p.prioWas = some (q, t) → p.prioAt t = q ∧ p.prioAt (t + 1) = p.prio)
  ∧ (∀ (s : State) w a, s.clear { reads := [s.ra a] } = true → s.inHandler = false →
      (s.g (s.ra a)).toNat ≤ (s.cyc (dieOf s.ctx.core)).toNat → s.actsOnProcess (.sleepc w a) w s.nextPc id)
  ∧ (∀ (s : State) w a, s.clear { reads := [s.ra a] } = true → s.inHandler = false →
      (s.cyc (dieOf s.ctx.core)).toNat < (s.g (s.ra a)).toNat →
      s.blocks (.sleepc w a) w .sleeping (.sleep (s.g (s.ra a))))
  ∧ (∀ (s : State) w d, s.clear { writes := [s.rd d], var := true } = true → s.inHandler = false →
      s.delivers (.who w d) w 2 [(s.rd d, s.whoValue s.ctx.core s.ctx.pn)] s.nextPc)
  ∧ (∀ (s : State) core pn, pn < 256 → core < 2048 * 4096 →
      let v := s.whoValue core pn
      v.extractLsb' 0 8 = BitVec.ofNat 8 pn ∧ v.extractLsb' 32 2 = BitVec.ofNat 2 (core / 512 % 4)
      ∧ v.extractLsb' 36 12 = BitVec.ofNat 12 (core / 2048) ∧ v.getLsbD 62 = false
      ∧ v.getLsbD 63 = (decide (256 ≤ core % 512))
      ∧ (core % 512 < 256 → v.extractLsb' 34 2 = 0 ∧ v.extractLsb' 16 5 = BitVec.ofNat 5 (coordX core)
        ∧ v.extractLsb' 24 5 = BitVec.ofNat 5 (coordY core)
        ∧ v.extractLsb' 48 5 = BitVec.ofNat 5 ((s.core core).launch.getD {}).rx
        ∧ v.extractLsb' 56 5 = BitVec.ofNat 5 ((s.core core).launch.getD {}).ry)
      ∧ (256 ≤ core % 512 → core % 512 < 260 → v.extractLsb' 34 2 = BitVec.ofNat 2 (core % 512 - 256)
        ∧ v.extractLsb' 16 8 = 0 ∧ v.extractLsb' 24 8 = 0 ∧ v.extractLsb' 48 8 = 0 ∧ v.extractLsb' 56 7 = 0))
  ∧ (∀ (s : State) w, s.clear {} = true → s.inHandler = false → (s.launchOf s.ctx.core).isSome = true →
      s.blocks (.done w) w .blockedSync (.doneBarrier (s.core s.ctx.core).nextTag false))
  ∧ (∀ (s : State) w, s.clear {} = true → s.inHandler = false → s.launchOf s.ctx.core = none →
      exec (.done w) s = .next ((s.begun w {}).trap .prot 0))
  ∧ (∀ (s : State) w a l r x y m n, s.clear { reads := [s.ra a] } = true → s.inHandler = false →
      s.launchOf s.ctx.core = some (l, r) → subRect l (s.g (s.ra a)) = some (x, y, m, n) →
      0 < barrierCount l r x y m n → s.blocks (.bwait w a) w .blockedSync (.barrier ((s.g (s.ra a)).setWidth 32)))
  ∧ (∀ (s : State) w a l r x y m n, s.clear { reads := [s.ra a] } = true → s.inHandler = false →
      s.launchOf s.ctx.core = some (l, r) → subRect l (s.g (s.ra a)) = some (x, y, m, n) →
      barrierCount l r x y m n = 0 →
      s.actsOnProcess (.bwait w a) w s.nextPc (fun p => { p with carried := s.carries }))
  ∧ (∀ (s : State) w a l r, s.clear { reads := [s.ra a] } = true → s.inHandler = false →
      s.launchOf s.ctx.core = some (l, r) → subRect l (s.g (s.ra a)) = none →
      exec (.bwait w a) s = .next ((s.begun w { reads := [s.ra a] }).trap .prot (s.g (s.ra a))))

/-- O28 (R13, R14, R17, R19, R82, R155, R78, R145). Results of the fixed-latency units, the divider, START and WSET reach their registers. The model’s choices, not the spec’s: the lowest aligned window is allocated (log 16), a WSET holds its process RUNNING until the descriptor is loaded (log 28), and a killed process’s START makes its tiller (log 24) -/
def Obligations.ResultsArrive : Prop :=
  (∀ (s : State) core idx f rest, takeAt (s.core core).flight idx = some (f, rest) → s.ticks < f.due →
      exec (.fixedLatencyResult core idx) s = .next s)
  ∧ (∀ (s : State) core idx f rest n v, takeAt (s.core core).flight idx = some (f, rest) → f.due ≤ s.ticks →
      f.writes = [(n, v)] → 0 < n → n < (s.proc core f.pn).regs.length → (s.proc core f.pn).state = .running →
      ∃ t, exec (.fixedLatencyResult core idx) s = .next t
        ∧ (t.proc core f.pn).regs = (s.proc core f.pn).regs.set n v
        ∧ (t.proc core f.pn).fctl = (s.proc core f.pn).fctl ||| (f.flags ++ 0#4)
        ∧ (t.proc core f.pn).xi = f.xi.getD (s.proc core f.pn).xi
        ∧ (t.core core).flight = rest.map (fun g =>
            if g.pn = f.pn ∧ g.seq < f.seq then { g with writes := g.writes.filter (fun e => e.1 != n) } else g)
        ∧ (∀ k, k ≠ f.pn → (t.core core).proc k = (s.core core).proc k) ∧ s.onlyCore t core)
  ∧ (∀ (s : State) core o rest, (s.core core).divider = o :: rest → 0 < o.dest →
      o.dest < (s.proc core o.pn).regs.length → (s.proc core o.pn).pend.length = (s.proc core o.pn).regs.length →
      (s.proc core o.pn).state = .running →
      ∃ t, exec (.dividerResult core) s = .next t
        ∧ (t.proc core o.pn).regs = (s.proc core o.pn).regs.set o.dest o.value
        ∧ (t.proc core o.pn).isPending o.dest = false
        ∧ (t.proc core o.pn).fctl = (s.proc core o.pn).fctl ||| (o.flags ++ 0#4)
        ∧ (t.core core).divider = rest.map (fun x => { x with startBy := max x.startBy s.ticks })
        ∧ (∀ k, k ≠ o.pn → (t.core core).proc k = (s.core core).proc k) ∧ s.onlyCore t core)
  ∧ (∀ (s : State) core x rest n b, (s.core core).starts = x :: rest → x.ended = false → (s.core core).freeNumber = some n →
      (s.core core).allocWindow x.wsz = some b → x.wsz ∈ [16, 32, 64, 128] → x.pn ≠ n →
      (s.proc core x.pn).state = .running → 0 < x.dest → x.dest < (s.proc core x.pn).regs.length →
      ∃ t, exec (.startCompletion core x.pn) s = .next t ∧ (t.core core).starts = rest
        ∧ (t.proc core n).state = .ready ∧ (t.proc core n).pc = pc56 x.entry ∧ (t.proc core n).prio = x.prio
        ∧ (t.proc core n).wsz = x.wsz ∧ (t.proc core n).reg 5 = x.arg ∧ (t.proc core n).reg 6 = word x.pn
        ∧ (t.proc core n).reg 3 = x.gp ∧ (t.proc core n).tvec = 0 ∧ (t.proc core n).xi = 0
        ∧ (∀ k, k ∉ [3, 5, 6] → (t.proc core n).reg k = 0) ∧ (∀ k, (t.proc core n).isPending k = false)
        ∧ n ∈ look [] (t.core core).ready x.prio.toNat
        ∧ (t.proc core x.pn).reg x.dest = word n ∧ (t.proc core x.pn).isPending x.dest = false ∧ s.onlyCore t core)
  ∧ (∀ (s : State) core x rest, (s.core core).starts = x :: rest → x.ended = false → (s.core core).freeNumber = none →
      (s.proc core x.pn).state = .running → 0 < x.dest → x.dest < (s.proc core x.pn).regs.length →
      ∃ t, exec (.startCompletion core x.pn) s = .next t ∧ (t.proc core x.pn).reg x.dest = -1 ∧ s.onlyCore t core)
  ∧ (∀ (s : State) core x rest n, (s.core core).starts = x :: rest → x.ended = false → (s.core core).freeNumber = some n →
      (s.core core).allocWindow x.wsz = none →
      (s.proc core x.pn).state = .running → 0 < x.dest → x.dest < (s.proc core x.pn).regs.length →
      ∃ t, exec (.startCompletion core x.pn) s = .next t ∧ (t.proc core x.pn).reg x.dest = -2 ∧ s.onlyCore t core)
  ∧ (∀ (s : State) core x rest n b, (s.core core).starts = x :: rest → x.ended = true → (s.core core).freeNumber = some n →
      (s.core core).allocWindow x.wsz = some b →
      ∃ t, exec (.startCompletion core x.pn) s = .next t ∧ (t.core core).starts = rest
        ∧ (t.proc core n).state = .ready ∧ (t.proc core n).pc = pc56 x.entry
        ∧ (∀ k, k ≠ n → (t.core core).proc k = (s.core core).proc k) ∧ s.onlyCore t core)
  ∧ (∀ (s : State) core pn n d u rest, (s.core core).wsetOps = (pn, n, d, u) :: rest →
      ∃ t, exec (.wsetCompletion core) s = .next t ∧ look 0 (t.core core).wdesc n = d
        ∧ (∀ k, k ≠ n → look 0 (t.core core).wdesc k = look 0 (s.core core).wdesc k)
        ∧ (t.core core).wsetOps = rest ∧ (∀ v, (s.proc core pn).wait = .wset v → (t.proc core pn).held = false
          ∧ (t.proc core pn).wait = .none) ∧ s.onlyCore t core)

/-- Whether what a message is addressed to has not moved to another core (R184). -/
def Sys2Proof.Machine.State.liveEnd (s : State) (core : Nat) (m : Msg) : Bool :=
  2 ≤ m.kind.toNat || (((s.core core).epFind m.handle.toNat).bind (fun e => e.newPlace)).isNone

/-- The guard that a register names: its handle, TAG and enable (R190). -/
def guardOf (h : Nat) (v : Word) : Guard := { handle := h, tag := v.extractLsb' 0 4, enabled := v.getLsbD 8 }

/-- A process waits on a channel: its state, its wait, the PC past the instruction, nothing else of it changed. -/
def Sys2Proof.Machine.State.waitsOn (s t : State) (st : ProcState) (wt : Wait) : Prop :=
  t.me.state = st ∧ t.me.wait = wt ∧ t.me.pc = s.nextPc ∧ s.me.keeps t.me
  ∧ (∀ n, n ≠ s.ctx.pn → (t.core s.ctx.core).proc n = (s.core s.ctx.core).proc n)
  ∧ (∀ k, k ≠ s.ctx.core → t.core k = s.core k) ∧ t.mem = s.mem ∧ t.dies = s.dies ∧ t.pkgs = s.pkgs

/-- An endpoint of the issuing core that passes the checks of R175, its gate's (R336) and its region's bar of R205 included. -/
def Sys2Proof.Machine.State.chanOk (s : State) (h : Nat) (f : ChanForm) (e : Endpoint) : Prop :=
  s.gateShut s.ctx.core = false ∧ (s.core s.ctx.core).epCheck h s.ctx.pn f false = some e
  ∧ (e.buffered = false → s.inRegion = false)

/-- Every earlier access of the issuing process that a release orders is performed (R180). -/
def Sys2Proof.Machine.State.released (s : State) : Prop := (s.core s.ctx.core).releaseHolds s.ctx.pn (s.core s.ctx.core).nextTag = true

/-- Every access of a process is performed; of the issuing process. -/
def Sys2Proof.Machine.State.calm (s : State) (core pn : Nat) : Prop := ∀ r ∈ (s.core core).reqs, r.pn = pn → r.phase = .performed
def Sys2Proof.Machine.State.quiet (s : State) : Prop := s.calm s.ctx.core s.ctx.pn

/-- An instruction that reads its pool behind its process's own writes waits where one of them, behind an acquire of its
process, cannot be performed yet (R276, R300; log 7). -/
def Sys2Proof.Machine.State.awaitsOwn (s : State) (i : Instr) (w : BitVec 2) (u : Use) : Prop :=
  let t := (s.begun w u).settleOwn s.ctx.core s.ctx.pn
  (t.core s.ctx.core).ownWritesDone s.ctx.pn (t.core s.ctx.core).nextTag = false →
    s.blocks i w .blockedSync (.ownWrites (s.core s.ctx.core).nextTag)

/-- A handle that fails a check of R175, and any handle of a core whose gate belongs to no job, traps PROT. -/
def Sys2Proof.Machine.State.refusesHandle (s : State) (i : Instr) (w : BitVec 2) (u : Use) (h : Nat) (f : ChanForm) : Prop :=
  (s.core s.ctx.core).epCheck h s.ctx.pn f false = none ∨ s.gateShut s.ctx.core = true →
    exec i s = .next ((s.begun w u).trap .prot (word h))

/-- An open region bars a rendezvous form, whose handle passes the checks (R205). -/
def Sys2Proof.Machine.State.barsRendezvous (s : State) (i : Instr) (w : BitVec 2) (u : Use) (h : Nat) (f : ChanForm) (a : Word) : Prop :=
  ∀ e, (s.core s.ctx.core).epCheck h s.ctx.pn f false = some e → s.gateShut s.ctx.core = false → e.buffered = false →
    s.inRegion = true → exec i s = .next ((s.begun w u).trap .prot a)

/-- A tile, or a record, that does not lie in the scratchpad or, where ok, in a claimed operand slot, traps LOCALBOUND; a
misaligned one ALIGN (R175). -/
def Sys2Proof.Machine.State.checksTile (s : State) (i : Instr) (w : BitVec 2) (u : Use) (a : Word) (n unit : Nat) (ok : Bool) : Prop :=
  let c := s.core s.ctx.core
  let inside := c.inScratchpad a n || (ok && c.inClaimedSlot a n)
  (inside = false → exec i s = .next ((s.begun w u).trap .localbound a))
  ∧ (inside = true → a.toNat % unit ≠ 0 → exec i s = .next ((s.begun w u).trap .align a))

/-- The offer of a rendezvous send is on its way to the core of the receiver, its own end recorded as waiting. -/
def Sys2Proof.Machine.State.offers (s t : State) (h : Nat) (e : Endpoint) (data : Word) : Prop :=
  s.waitsOn t .blockedChan (.sending h) ∧ t.me.pend = s.me.pend
  ∧ t.ep s.ctx.core h = { e with
      state := 1, wpn := BitVec.ofNat 8 s.ctx.pn, wseq := e.wseq + 1, engine := false, killed := none, bytes := none
      xferData := data }
  ∧ t.net = s.net ++ [{
      src := s.ctx.core, dst := e.peerCore, at_ := pkgOf s.ctx.core, job := s.jobOf s.ctx.core
      gen := (s.pkg (pkgOf s.ctx.core)).gen, line := none, body := .offer e.phandle.toNat h data }]

/-- A buffered send has taken a credit and waits for the accesses before it, then departs. -/
def Sys2Proof.Machine.State.departsWith (s t : State) (h : Nat) (e : Endpoint) (data : Word) : Prop :=
  s.waitsOn t .blockedSync (.departing h data (s.core s.ctx.core).nextTag) ∧ t.me.pend = s.me.pend
  ∧ t.ep s.ctx.core h = { e with credit := e.credit - 1 } ∧ t.net = s.net

/-- A buffered send without a credit waits for one. -/
def Sys2Proof.Machine.State.wantsCredit (s t : State) (h : Nat) (e : Endpoint) (data : Word) : Prop :=
  s.waitsOn t .blockedChan (.credit h data) ∧ t.me.pend = s.me.pend ∧ t.net = s.net
  ∧ t.ep s.ctx.core h = { e with
      state := 1, wpn := BitVec.ofNat 8 s.ctx.pn, wseq := e.wseq + 1, wdata := data, engine := false, killed := none
      bytes := none }

/-- A receive at an end without an offer or message is recorded there and waits. -/
def Sys2Proof.Machine.State.awaits (s t : State) (h : Nat) (e : Endpoint) (off : Word) (wt : Wait) (dest : Nat) : Prop :=
  s.waitsOn t .blockedChan wt ∧ t.net = s.net
  ∧ (∀ n, n < s.me.pend.length → t.me.isPending n = (s.me.isPending n || (n != 0 && n == dest)))
  ∧ t.ep s.ctx.core h = { e with
      state := 2, wpn := BitVec.ofNat 8 s.ctx.pn, wseq := e.wseq + 1, wdata := if e.isTile then off else e.wdata
      engine := false }

/-- O29 (R175, R176, R177, R178, R180, R184, R185, R186, R193, R204, R205, R336). Sends and receives block, record their end, and offer or take a credit as R176, R177, R185 and R193 say. The model’s choices, not the spec’s: a SENDH waits for its process’s earlier writes to its own pool to be performed (log 7) -/
def Obligations.ChannelInstructions : Prop :=
  (∀ (s : State) w a b e, s.clear { reads := [s.ra a, s.rb b] } = true →
      s.chanOk (handleOf (s.g (s.ra a))) { dirIn := false, typs := [0], mode := some false } e → e.isHost = false →
      e.state ≠ 7 → e.peerCore ≠ s.ctx.core → s.released →
      ∃ t, exec (.send w a b) s = .next t ∧ s.offers t (handleOf (s.g (s.ra a))) e (s.g (s.rb b)))
  ∧ (∀ (s : State) w a b e, s.clear { reads := [s.ra a, s.rb b] } = true →
      s.chanOk (handleOf (s.g (s.ra a))) { dirIn := false, typs := [0], mode := some false } e → (¬ s.released ∨ e.state = 7) →
      ∃ t, exec (.send w a b) s = .next t
        ∧ s.waitsOn t .blockedChan (.offering (handleOf (s.g (s.ra a))) (s.g (s.rb b)) (s.core s.ctx.core).nextTag) ∧ t.net = s.net)
  ∧ (∀ (s : State) w a b e, s.clear { reads := [s.ra a, s.rb b] } = true → (handleOf (s.g (s.ra a)) ≠ loopbackHandle ∨ s.ctx.pn ≠ 255) →
      s.chanOk (handleOf (s.g (s.ra a))) { dirIn := false, typs := [1], mode := none } e → e.buffered = false → e.isHost = false →
      e.state ≠ 7 → e.peerCore ≠ s.ctx.core → s.released → (s.core s.ctx.core).inScratchpad (s.g (s.rb b)) e.len = true →
      (s.g (s.rb b)).toNat % 32 = 0 →
      ∃ t, exec (.tsend w a b) s = .next t ∧ s.offers t (handleOf (s.g (s.ra a))) e (s.g (s.rb b)))
  ∧ (∀ (s : State) w a b e, s.clear { reads := [s.ra a, s.rb b] } = true → (handleOf (s.g (s.ra a)) ≠ loopbackHandle ∨ s.ctx.pn ≠ 255) →
      s.chanOk (handleOf (s.g (s.ra a))) { dirIn := false, typs := [1], mode := none } e → e.buffered = true → e.credit ≠ 0 →
      e.state ≠ 7 → s.inRegion = false → (s.core s.ctx.core).inScratchpad (s.g (s.rb b)) e.len = true →
      (s.g (s.rb b)).toNat % 32 = 0 →
      ∃ t, exec (.tsend w a b) s = .next t ∧ s.departsWith t (handleOf (s.g (s.ra a))) e (s.g (s.rb b)))
  ∧ (∀ (s : State) w a b e, s.clear { reads := [s.ra a, s.rb b] } = true →
      s.chanOk (handleOf (s.g (s.ra a))) { dirIn := false, typs := [0], mode := some true } e → s.inRegion = false → e.state ≠ 7 → e.credit ≠ 0 →
      ∃ t, exec (.sendb w a b) s = .next t ∧ s.departsWith t (handleOf (s.g (s.ra a))) e (s.g (s.rb b)))
  ∧ (∀ (s : State) w a b e, s.clear { reads := [s.ra a, s.rb b] } = true →
      s.chanOk (handleOf (s.g (s.ra a))) { dirIn := false, typs := [0], mode := some true } e → s.inRegion = false → e.state ≠ 7 → e.credit = 0 →
      ∃ t, exec (.sendb w a b) s = .next t ∧ s.wantsCredit t (handleOf (s.g (s.ra a))) e (s.g (s.rb b)))
  ∧ (∀ (s : State) w a b e, s.clear { reads := [s.ra a, s.rb b] } = true →
      s.chanOk (handleOf (s.g (s.ra a))) { dirIn := false, typs := [0], mode := some true } e → s.inRegion = false → e.state = 7 →
      ∃ t, exec (.sendb w a b) s = .next t ∧ s.waitsOn t .blockedChan (.offering (handleOf (s.g (s.ra a))) (s.g (s.rb b)) 0)
        ∧ t.ep s.ctx.core (handleOf (s.g (s.ra a))) = e ∧ t.net = s.net)
  ∧ (∀ (s : State) w a b e, s.clear { reads := [s.ra a, s.rb b] } = true →
      s.chanOk (handleOf (s.g (s.ra a))) { dirIn := false, typs := [0], mode := some true } e → s.inRegion = true → e.state ≠ 7 →
      e.credit ≠ 0 → (s.core s.ctx.core).hold.room 64 = true →
      ∃ t m, exec (.sendb w a b) s = .next t ∧ m.words = [s.g (s.rb b)] ∧ m.kind = 0 ∧ m.handle = e.phandle
        ∧ (t.core s.ctx.core).hold.items
          = (s.core s.ctx.core).hold.items ++ [.message (handleOf (s.g (s.ra a))) m e.peerCore 64]
        ∧ t.ep s.ctx.core (handleOf (s.g (s.ra a))) = { e with credit := e.credit - 1 } ∧ t.net = s.net ∧ t.me.pc = s.nextPc)
  ∧ (∀ (s : State) w a b e, s.clear { reads := [s.ra a, s.rb b] } = true →
      s.chanOk (handleOf (s.g (s.ra a))) { dirIn := false, typs := [2], mode := some true, inbox := true } e → s.inRegion = false →
      e.state ≠ 7 → e.credit ≠ 0 → (s.core s.ctx.core).inScratchpad (s.g (s.rb b)) 128 = true → (s.g (s.rb b)).toNat % 64 = 0 →
      s.quiet → s.activeControl s.ctx.core s.ctx.pn (s.g (s.rb b)) &&& ~~~(0x3F1F : Word) = 0 →
      ∃ t, exec (.sendh w a b) s = .next t ∧ s.departsWith t (handleOf (s.g (s.ra a))) e (s.g (s.rb b)))
  ∧ (∀ (s : State) w d a e, s.clear { reads := [s.ra a], writes := [s.rd d], var := true } = true → s.ctx.pn ≠ 255 →
      s.chanOk (handleOf (s.g (s.ra a))) { dirIn := true, typs := [0], mode := none } e → e.buffered = false → e.state = 0 → s.released →
      ∃ t, exec (.recv w d a) s = .next t ∧ s.awaits t (handleOf (s.g (s.ra a))) e 0 (.receiving (handleOf (s.g (s.ra a))) (s.rd d)) (s.rd d))
  ∧ (∀ (s : State) w d a e, s.clear { reads := [s.ra a], writes := [s.rd d], var := true } = true → s.ctx.pn ≠ 255 →
      s.chanOk (handleOf (s.g (s.ra a))) { dirIn := true, typs := [0], mode := none } e → e.buffered = false → e.state = 1 → s.released →
      ∃ t, exec (.recv w d a) s = .next t ∧ s.waitsOn t .blockedChan (.receiving (handleOf (s.g (s.ra a))) (s.rd d))
        ∧ (t.ep s.ctx.core (handleOf (s.g (s.ra a)))).state = 5 ∧ (t.ep s.ctx.core (handleOf (s.g (s.ra a)))).wdata = e.wdata
        ∧ (t.ep s.ctx.core (handleOf (s.g (s.ra a)))).xferDone = s.ticks + 6)
  ∧ (∀ (s : State) w d a e, s.clear { reads := [s.ra a], writes := [s.rd d], var := true } = true → s.ctx.pn ≠ 255 →
      s.chanOk (handleOf (s.g (s.ra a))) { dirIn := true, typs := [0], mode := none } e → e.buffered = true →
      e.state ≠ 7 → (s.core s.ctx.core).messageFor (handleOf (s.g (s.ra a))) = none →
      ∃ t, exec (.recv w d a) s = .next t ∧ s.awaits t (handleOf (s.g (s.ra a))) e 0 (.receivingB (handleOf (s.g (s.ra a))) (s.rd d) 0) (s.rd d))
  ∧ (∀ (s : State) w a b e, s.clear { reads := [s.ra a, s.rb b] } = true →
      s.chanOk (handleOf (s.g (s.ra a))) { dirIn := true, typs := [1], mode := none } e → e.buffered = false → e.state = 0 → s.released →
      ((s.core s.ctx.core).inScratchpad (s.g (s.rb b)) e.len || (s.core s.ctx.core).inClaimedSlot (s.g (s.rb b)) e.len)
        = true → (s.g (s.rb b)).toNat % 32 = 0 →
      ∃ t, exec (.trecv w a b) s = .next t ∧ s.awaits t (handleOf (s.g (s.ra a))) e (s.g (s.rb b)) (.receiving (handleOf (s.g (s.ra a))) 0) 0)
  ∧ (∀ (s : State) w a b e, s.clear { reads := [s.ra a, s.rb b] } = true →
      s.chanOk (handleOf (s.g (s.ra a))) { dirIn := false, typs := [0], mode := some false } e → e.isHost = false →
      e.state ≠ 7 → e.peerCore = s.ctx.core → s.released → ∀ x, (s.core s.ctx.core).epFind e.phandle.toNat = some x →
      x.state = 0 → e.phandle.toNat % 2 ^ 20 ≠ handleOf (s.g (s.ra a)) % 2 ^ 20 →
      ∃ t, exec (.send w a b) s = .next t ∧ s.waitsOn t .blockedChan (.sending (handleOf (s.g (s.ra a)))) ∧ t.net = s.net
        ∧ (t.ep s.ctx.core (handleOf (s.g (s.ra a)))).state = 1
        ∧ t.ep s.ctx.core e.phandle.toNat = { x with
            state := 1, wdata := s.g (s.rb b), xferSrc := s.ctx.core, xferBack := handleOf (s.g (s.ra a)) })
  ∧ (∀ (s : State) w a b e, s.clear { reads := [s.ra a, s.rb b] } = true →
      s.chanOk (handleOf (s.g (s.ra a))) { dirIn := false, typs := [2], mode := some true, inbox := true } e →
      (s.core s.ctx.core).inScratchpad (s.g (s.rb b)) 128 = true → (s.g (s.rb b)).toNat % 64 = 0 →
      s.awaitsOwn (.sendh w a b) w { reads := [s.ra a, s.rb b] }
      ∧ (s.quiet → s.activeControl s.ctx.core s.ctx.pn (s.g (s.rb b)) &&& ~~~(0x3F1F : Word) ≠ 0 →
        exec (.sendh w a b) s = .next ((s.begun w { reads := [s.ra a, s.rb b] }).trap .prot (s.g (s.rb b)))))
  ∧ (∀ (s : State) w a b e, s.clear { reads := [s.ra a, s.rb b] } = true → (handleOf (s.g (s.ra a)) ≠ loopbackHandle ∨ s.ctx.pn ≠ 255) →
      s.chanOk (handleOf (s.g (s.ra a))) { dirIn := false, typs := [1], mode := none } e → e.buffered = true → s.inRegion = true →
      (s.core s.ctx.core).inScratchpad (s.g (s.rb b)) e.len = true → (s.g (s.rb b)).toNat % 32 = 0 →
      s.awaitsOwn (.tsend w a b) w { reads := [s.ra a, s.rb b] }
      ∧ (s.quiet → e.state ≠ 7 → e.credit ≠ 0 → (s.core s.ctx.core).hold.room (64 + e.len) = true →
        ∃ t m, exec (.tsend w a b) s = .next t ∧ m.kind = 1 ∧ m.handle = e.phandle
          ∧ (t.core s.ctx.core).hold.items
            = (s.core s.ctx.core).hold.items ++ [.message (handleOf (s.g (s.ra a))) m e.peerCore (64 + e.len)]
          ∧ t.ep s.ctx.core (handleOf (s.g (s.ra a))) = { e with credit := e.credit - 1 } ∧ t.net = s.net ∧ t.me.pc = s.nextPc))
  ∧ (∀ (s : State) w a b e, s.clear { reads := [s.ra a, s.rb b] } = true →
      s.chanOk (handleOf (s.g (s.ra a))) { dirIn := false, typs := [0], mode := some true } e → s.inRegion = true →
      (s.core s.ctx.core).hold.room 64 = false →
      exec (.sendb w a b) s = .next ((s.begun w { reads := [s.ra a, s.rb b] }).trap .specovf 0))
  ∧ (∀ (s : State) w a b, s.clear { reads := [s.ra a, s.rb b] } = true →
      (s.refusesHandle (.send w a b) w { reads := [s.ra a, s.rb b] } (handleOf (s.g (s.ra a)))
        { dirIn := false, typs := [0], mode := some false })
      ∧ ((handleOf (s.g (s.ra a)) ≠ loopbackHandle ∨ s.ctx.pn ≠ 255) → s.refusesHandle (.tsend w a b) w { reads := [s.ra a, s.rb b] } (handleOf (s.g (s.ra a)))
        { dirIn := false, typs := [1], mode := none })
      ∧ (s.refusesHandle (.sendb w a b) w { reads := [s.ra a, s.rb b] } (handleOf (s.g (s.ra a)))
        { dirIn := false, typs := [0], mode := some true })
      ∧ (s.refusesHandle (.sendh w a b) w { reads := [s.ra a, s.rb b] } (handleOf (s.g (s.ra a)))
        { dirIn := false, typs := [2], mode := some true, inbox := true })
      ∧ (s.refusesHandle (.trecv w a b) w { reads := [s.ra a, s.rb b] } (handleOf (s.g (s.ra a)))
        { dirIn := true, typs := [1], mode := none }))
  ∧ (∀ (s : State) w d a, s.clear { reads := [s.ra a], writes := [s.rd d], var := true } = true → ((handleOf (s.g (s.ra a)) ≠ stagingHandle ∧ handleOf (s.g (s.ra a)) ≠ loopbackHandle) ∨ s.ctx.pn ≠ 255) →
      s.refusesHandle (.recv w d a) w { reads := [s.ra a], writes := [s.rd d], var := true } (handleOf (s.g (s.ra a)))
        { dirIn := true, typs := [0], mode := none })
  ∧ (∀ (s : State) w a b, s.clear { reads := [s.ra a, s.rb b] } = true →
      (s.barsRendezvous (.send w a b) w { reads := [s.ra a, s.rb b] } (handleOf (s.g (s.ra a)))
        { dirIn := false, typs := [0], mode := some false } (word (handleOf (s.g (s.ra a)))))
      ∧ ((handleOf (s.g (s.ra a)) ≠ loopbackHandle ∨ s.ctx.pn ≠ 255) → s.barsRendezvous (.tsend w a b) w { reads := [s.ra a, s.rb b] } (handleOf (s.g (s.ra a)))
        { dirIn := false, typs := [1], mode := none } (s.g (s.rb b)))
      ∧ (s.barsRendezvous (.trecv w a b) w { reads := [s.ra a, s.rb b] } (handleOf (s.g (s.ra a)))
        { dirIn := true, typs := [1], mode := none } (s.g (s.rb b))))
  ∧ (∀ (s : State) w d a, s.clear { reads := [s.ra a], writes := [s.rd d], var := true } = true → ((handleOf (s.g (s.ra a)) ≠ stagingHandle ∧ handleOf (s.g (s.ra a)) ≠ loopbackHandle) ∨ s.ctx.pn ≠ 255) →
      s.barsRendezvous (.recv w d a) w { reads := [s.ra a], writes := [s.rd d], var := true } (handleOf (s.g (s.ra a)))
        { dirIn := true, typs := [0], mode := none } (word (handleOf (s.g (s.ra a)))))
  ∧ (∀ (s : State) w a b e, s.clear { reads := [s.ra a, s.rb b] } = true → (handleOf (s.g (s.ra a)) ≠ loopbackHandle ∨ s.ctx.pn ≠ 255) →
      s.chanOk (handleOf (s.g (s.ra a))) { dirIn := false, typs := [1], mode := none } e →
      s.checksTile (.tsend w a b) w { reads := [s.ra a, s.rb b] } (s.g (s.rb b)) e.len 32 false)
  ∧ (∀ (s : State) w a b e, s.clear { reads := [s.ra a, s.rb b] } = true → s.chanOk (handleOf (s.g (s.ra a)))
      { dirIn := false, typs := [2], mode := some true, inbox := true } e →
      s.checksTile (.sendh w a b) w { reads := [s.ra a, s.rb b] } (s.g (s.rb b)) 128 64 false)
  ∧ (∀ (s : State) w a b e, s.clear { reads := [s.ra a, s.rb b] } = true →
      s.chanOk (handleOf (s.g (s.ra a))) { dirIn := true, typs := [1], mode := none } e →
      s.checksTile (.trecv w a b) w { reads := [s.ra a, s.rb b] } (s.g (s.rb b)) e.len 32 true)

/-- O30 (R190, R191, R203, R204, R206, R207). ALTB, ALTG, ALTT, ALTW, SPECB, COMMIT and ABORT set up, wait for and end alternatives and regions -/
def Obligations.AlternativesAndRegions : Prop :=
  (∀ (s : State) w, s.clear {} = true → s.inHandler = false →
      s.actsOnProcess (.altb w) w s.nextPc (fun p => { p with altSet := {} }))
  ∧ (∀ (s : State) w a b e, s.clear { reads := [s.ra a, s.rb b] } = true → s.inHandler = false →
      s.gateShut s.ctx.core = false → (s.core s.ctx.core).epCheck (handleOf (s.g (s.ra a))) s.ctx.pn { dirIn := true, typs := [0, 1], mode := none } true = some e →
      s.me.altSet.guards.length < 16 →
      s.actsOnProcess (.altg w a b) w s.nextPc (fun p => { p with altSet := { p.altSet with
        guards := p.altSet.guards ++ [guardOf (handleOf (s.g (s.ra a))) (s.g (s.rb b))] } }))
  ∧ (∀ (s : State) w a b, s.clear { reads := [s.ra a, s.rb b] } = true → s.inHandler = false →
      s.actsOnProcess (.altt w a b) w s.nextPc (fun p => { p with altSet := { p.altSet with
        timeout := some (s.g (s.ra a), (s.g (s.rb b)).extractLsb' 0 4, (s.g (s.rb b)).getLsbD 8) } }))
  ∧ (∀ (s : State) w d i, s.clear { writes := [s.rd d], var := true } = true → s.inHandler = false → s.inRegion = false →
      (s.core s.ctx.core).slotOf s.ctx.pn = some i → s.me.altSet.guards.all (fun g => !g.enabled) = true →
      s.me.altSet.timeout.any (fun x => x.2.2) = false → 0 < s.rd d → s.rd d < s.me.regs.length →
      ∃ t, exec (.altw w d) s = .next t ∧ t.me.reg (s.rd d) = -1 ∧ t.me.pc = s.nextPc ∧ t.me.state = .running
        ∧ t.mem = s.mem)
  ∧ (∀ (s : State) w d i r, s.clear { writes := [s.rd d], var := true } = true → s.inHandler = false →
      s.inRegion = false → (s.core s.ctx.core).slotOf s.ctx.pn = some i →
      (s.core s.ctx.core).altResult s.me.altSet (s.cyc (dieOf s.ctx.core)) = some r →
      0 < s.rd d → s.rd d < s.me.regs.length →
      ∃ t, exec (.altw w d) s = .next t ∧ t.me.reg (s.rd d) = r ∧ t.me.altSet = {} ∧ t.me.pc = s.nextPc
        ∧ t.me.state = .running ∧ t.mem = s.mem)
  ∧ (∀ (s : State) w d, s.clear { writes := [s.rd d], var := true } = true → s.inHandler = false →
      s.inRegion = false → (s.me.altSet.timeout.any (fun x => x.2.2) || s.me.altSet.guards.any (fun g => g.enabled)) = true →
      (s.core s.ctx.core).altResult s.me.altSet (s.cyc (dieOf s.ctx.core)) = none →
      ∃ t, exec (.altw w d) s = .next t ∧ t.me.state = .alt ∧ t.me.wait = .alt (s.rd d) ∧ t.me.pc = s.nextPc
        ∧ t.me.altSet = s.me.altSet ∧ t.me.regs = s.me.regs ∧ t.mem = s.mem)
  ∧ (∀ (s : State) w, s.clear {} = true → s.ctx.pn < 255 → (s.core s.ctx.core).hold.owner = none →
      ∃ t, exec (.specb w) s = .next t ∧ (t.core s.ctx.core).hold = { owner := some s.ctx.pn }
        ∧ t.me.pc = s.nextPc ∧ s.me.moved t.me ∧ s.onlyCore t s.ctx.core)
  ∧ (∀ (s : State) w q, s.clear {} = true → s.ctx.pn < 255 → (s.core s.ctx.core).hold.owner = some q → q ≠ s.ctx.pn →
      s.blocks (.specb w) w .blockedSync .specb)
  ∧ (∀ (s : State) w, s.clear {} = true → (s.core s.ctx.core).hold.owner = some s.ctx.pn →
      exec (.specb w) s = .next ((s.begun w {}).trap .prot 0))
  ∧ (∀ (s : State) w, s.clear {} = true → s.inHandler = false → (s.core s.ctx.core).hold.owner ≠ some s.ctx.pn →
      s.actsOnProcess (.commit w) w s.nextPc id)
  ∧ (∀ (s : State) w, s.clear {} = true → s.inHandler = false → (s.core s.ctx.core).hold.owner = some s.ctx.pn →
      ∃ t, exec (.commit w) s = .next t ∧ t.me.state = .blockedSync ∧ t.me.wait = .commit ∧ t.me.pc = s.nextPc
        ∧ (t.core s.ctx.core).hold = { (s.core s.ctx.core).hold with committing := true }
        ∧ s.me.keeps t.me ∧ s.onlyCore t s.ctx.core)
  ∧ (∀ (s : State) w, s.clear {} = true → s.inHandler = false → (s.core s.ctx.core).hold.owner = some s.ctx.pn →
      ∃ t, exec (.abort w) s = .next t ∧ (t.core s.ctx.core).hold = {} ∧ t.me.pc = s.nextPc ∧ t.mem = s.mem
        ∧ (∀ k, k ≠ s.ctx.core → t.core k = s.core k))

/-- O31 (R176, R177, R178, R181, R185, R186, R187, R198). Offers, transfers, releases, withdrawals, credits and messages end the waits that R177 to R187 name -/
def Obligations.ChannelEvents : Prop :=
  (∀ (s : State) k p h back data e, s.arrived k = some p → p.body = .offer h back data → s.foreign p = false →
      ((s.unpacket k).core p.dst).epFind h = some e → e.state = 0 →
      ∃ t, exec (.offerArrival k) s = .next t
        ∧ t.ep p.dst h = { e with state := 1, wdata := data, xferSrc := p.src, xferBack := back }
        ∧ t.net = (s.unpacket k).net ∧ t.mem = s.mem ∧ (∀ j, j ≠ p.dst → t.core j = s.core j))
  ∧ (∀ (s : State) k p h back data e, s.arrived k = some p → p.body = .offer h back data → s.foreign p = false →
      ((s.unpacket k).core p.dst).epFind h = some e → e.state = 2 → e.isTile = false →
      ∃ t, exec (.offerArrival k) s = .next t
        ∧ t.ep p.dst h = { e with
            state := 5, before := 2, xferData := data, xferSrc := p.src, xferBack := back, xferDone := s.ticks + 6
            bytes := none }
        ∧ t.mem = s.mem)
  ∧ (∀ (s : State) core i e d, s.ep core i = e → i < 2 ^ 20 → e.state = 5 → e.xferDone ≤ s.ticks → e.isTile = false →
      e.isHost = false → e.engine = false → e.closing = 0 → e.moving = false → e.xferSrc ≠ core →
      (s.proc core e.owner.toNat).wait = .receiving (e.handleAt i) d → (s.proc core e.owner.toNat).state = .blockedChan →
      s.quarantines (dieOf core) (s.jobOf core) = false → 0 < d → d < (s.proc core e.owner.toNat).regs.length →
      ∃ t, exec (.transferEnd core i) s = .next t ∧ (t.ep core i).state = 0
        ∧ (t.proc core e.owner.toNat).reg d = e.srcData ∧ (t.proc core e.owner.toNat).isPending d = false
        ∧ (t.proc core e.owner.toNat).state = (if (s.core core).slotOf e.owner.toNat = none then .ready else .running)
        ∧ t.net = s.net ++ [{
            src := core, dst := e.xferSrc, at_ := pkgOf core, job := s.jobOf core, gen := (s.pkg (pkgOf core)).gen
            line := none, body := .release e.xferBack false 0 none }]
        ∧ t.mem = s.mem)
  ∧ (∀ (s : State) k p h, s.arrived k = some p → p.body = .release h false 0 none → (s.ep p.dst h).state = 1 →
      (s.ep p.dst h).engine = false → (s.ep p.dst h).closing = 0 → (s.ep p.dst h).moving = false →
      (s.proc p.dst (s.ep p.dst h).owner.toNat).wait = .sending h →
      (s.proc p.dst (s.ep p.dst h).owner.toNat).state = .blockedChan →
      ∃ t, exec (.releaseAnswer k) s = .next t ∧ (t.ep p.dst h).state = 0
        ∧ (t.proc p.dst (s.ep p.dst h).owner.toNat).wait = .none
        ∧ (t.proc p.dst (s.ep p.dst h).owner.toNat).state
            = (if (s.core p.dst).slotOf (s.ep p.dst h).owner.toNat = none then .ready else .running)
        ∧ t.mem = s.mem)
  ∧ (∀ (s : State) k p h back e, s.arrived k = some p → p.body = .offerWithdrawal h back (.kill 0x40) →
      p.src ≠ p.dst → ((s.unpacket k).core p.dst).epFind h = some e → e.state = 1 → e.xferBack = back → e.xferSrc = p.src →
      (s.ep p.src back).state = 1 →
      (s.ep p.src back).closing = 0 → (s.ep p.src back).moving = false →
      ∃ t, exec (.channelWithdrawal k) s = .next t ∧ (t.ep p.dst h).state = 0 ∧ (t.ep p.src back).state = 0
        ∧ t.mem = s.mem)
  ∧ (∀ (s : State) k p h back e, s.arrived k = some p → p.body = .offerWithdrawal h back .close →
      p.src ≠ p.dst → ((s.unpacket k).core p.dst).epFind h = some e → e.state = 1 → e.xferBack = back → e.xferSrc = p.src →
      (s.ep p.src back).state = 1 → (s.ep p.src back).closing ≠ 0 → (s.ep p.src back).engine = false →
      (s.proc p.src (s.ep p.src back).owner.toNat).wait = .sending back →
      ∃ t, exec (.channelWithdrawal k) s = .next t ∧ (t.ep p.dst h).state = 0 ∧ (t.ep p.src back).state = 6
        ∧ (t.ep p.src back).close = (s.ep p.src back).closing
        ∧ (t.proc p.src (s.ep p.src back).owner.toNat).cause = Cause.prot.code
        ∧ (t.proc p.src (s.ep p.src back).owner.toNat).faddr = word back ∧ t.mem = s.mem)
  ∧ (∀ (s : State) k p h back a e i, s.arrived k = some p → p.body = .offerWithdrawal h back (.deadlock a) →
      p.src ≠ p.dst → ((s.unpacket k).core p.dst).epFind h = some e → e.state = 1 → e.xferBack = back → e.xferSrc = p.src →
      (s.ep p.src back).state = 1 → (s.ep p.src back).closing = 0 → (s.ep p.src back).moving = false →
      (s.proc p.src (s.ep p.src back).owner.toNat).wait = .sending back →
      (s.core p.src).slotOf (s.ep p.src back).owner.toNat = some i →
      ∃ t, exec (.channelWithdrawal k) s = .next t ∧ (t.ep p.dst h).state = 0 ∧ (t.ep p.src back).state = 0
        ∧ (t.proc p.src (s.ep p.src back).owner.toNat).cause = Cause.deadlock.code
        ∧ (t.proc p.src (s.ep p.src back).owner.toNat).faddr = a ∧ t.mem = s.mem)
  ∧ (∀ (s : State) k p h back why e, s.arrived k = some p → p.body = .offerWithdrawal h back why →
      ((s.unpacket k).core p.dst).epFind h = some e → e.state ≠ 7 →
      (e.state ≠ 1 ∧ e.state ≠ 4 ∨ e.xferBack ≠ back ∨ e.xferSrc ≠ p.src) →
      exec (.channelWithdrawal k) s = .next (s.unpacket k))
  ∧ (∀ (s : State) k p h, s.arrived k = some p → p.body = .credit h → (s.ep p.dst h).valid = true →
      (s.ep p.dst h).newPlace = none → (s.ep p.dst h).state ≠ 1 →
      ∃ t, exec (.creditReturn k) s = .next t
        ∧ (t.ep p.dst h).credit = (if (s.ep p.dst h).credit.toNat ≤ (s.ep p.dst h).dm1.toNat
            then (s.ep p.dst h).credit + 1 else (s.ep p.dst h).credit)
        ∧ (∀ j, j ≠ p.dst → t.core j = s.core j) ∧ t.mem = s.mem)
  ∧ (∀ (s : State) k p h g src, s.arrived k = some p → p.body = .credit h → (s.ep p.dst h).valid = true →
      (s.ep p.dst h).newPlace = none → (s.ep p.dst h).state = 1 → (s.ep p.dst h).engine = false →
      (s.ep p.dst h).closing = 0 → (s.ep p.dst h).moving = false → (s.ep p.dst h).credit.toNat ≤ (s.ep p.dst h).dm1.toNat →
      (s.proc p.dst (s.ep p.dst h).owner.toNat).wait = .credit g src → g % 2 ^ 20 = h % 2 ^ 20 →
      (s.proc p.dst (s.ep p.dst h).owner.toNat).state = .blockedChan →
      (s.core p.dst).regionOf (s.ep p.dst h).owner.toNat = false →
      ∃ t, exec (.creditReturn k) s = .next t ∧ (t.ep p.dst h).state = 0 ∧ (t.ep p.dst h).credit = (s.ep p.dst h).credit
        ∧ (t.proc p.dst (s.ep p.dst h).owner.toNat).state = .blockedSync
        ∧ (t.proc p.dst (s.ep p.dst h).owner.toNat).wait = .departing g src (s.core p.dst).nextTag
        ∧ (∀ j, j ≠ p.dst → t.core j = s.core j) ∧ t.mem = s.mem)
  ∧ (∀ (s : State) core pn h src upto, (s.proc core pn).wait = .departing h src upto →
      (s.core core).releaseHolds pn upto = true → (s.ep core h).isHost = false → (s.proc core pn).state = .blockedSync →
      ∃ t, exec (.messageDeparture core pn) s = .next t
        ∧ t.net = s.net ++ [{
            src := core, dst := (s.ep core h).peerCore, at_ := pkgOf core, job := s.jobOf core
            gen := (s.pkg (pkgOf core)).gen, line := none, body := .message (s.buildMessage core pn h src) }]
        ∧ (t.proc core pn).wait = .none
        ∧ (t.proc core pn).state = (if (s.core core).slotOf pn = none then .ready else .running) ∧ t.mem = s.mem)
  ∧ (∀ (s : State) k p m u, s.arrived k = some p → p.body = .message m → s.foreign p = false → s.coreDone p.dst = false →
      2 ≤ m.kind.toNat → (s.core p.dst).divert = false → (s.core p.dst).normalRun m.units = some u →
      ∃ t, exec (.messageArrival k) s = .next t
        ∧ (t.core p.dst).normal = (s.core p.dst).normal ++ [{ msg := m, first := u, units := m.units }])
  ∧ (∀ (s : State) k p m, s.arrived k = some p → p.body = .message m → s.foreign p = false → s.coreDone p.dst = false →
      s.closedFor p.dst m = false → s.liveEnd p.dst m = true →
      (s.core p.dst).normalRun m.units = none → (s.core p.dst).stagingRun m.units = none →
      ∃ t, exec (.messageArrival k) s = .next t ∧ (t.core p.dst).divert = true
        ∧ (t.core p.dst).normal = (s.core p.dst).normal ∧ t.net.length = s.net.length ∧ t.mem = s.mem)
  ∧ (∀ (s : State) k p m x, s.arrived k = some p → p.body = .message m → s.foreign p = false → s.coreDone p.dst = false →
      s.closedFor p.dst m = false → s.liveEnd p.dst m = true →
      ((s.core p.dst).divert = true ∨ (s.core p.dst).normalRun m.units = none) →
      (s.core p.dst).stagingRun m.units = some x → (∀ d, (s.proc p.dst 255).wait ≠ .staged d) →
      ∃ t, exec (.messageArrival k) s = .next t ∧ (t.core p.dst).divert = true
        ∧ (t.core p.dst).staging = (s.core p.dst).staging ++ [{
            msg := { m with reason := 1 }, first := x.1, units := m.units, skipped := x.2 }]
        ∧ (t.core p.dst).normal = (s.core p.dst).normal)
  ∧ (∀ (s : State) k p m u e, s.arrived k = some p → p.body = .message m → s.foreign p = false → s.coreDone p.dst = false →
      m.kind.toNat ≤ 1 → (s.core p.dst).epFind m.handle.toNat = some e → e.state ≠ 6 → e.newPlace = none →
      e.state ≠ 2 → e.state ≠ 3 → (s.core p.dst).divert = false → (s.core p.dst).normalRun m.units = some u →
      ∃ t, exec (.messageArrival k) s = .next t
        ∧ (t.core p.dst).normal = (s.core p.dst).normal ++ [{ msg := m, first := u, units := m.units }])
  ∧ (∀ (s : State) k p m u e d, s.arrived k = some p → p.body = .message m → s.foreign p = false →
      s.coreDone p.dst = false → m.kind = 0 → (s.core p.dst).epFind m.handle.toNat = some e → e.state = 2 →
      e.newPlace = none → e.engine = false → e.isTile = false → e.closing = 0 → e.moving = false → s.mem.poison = [] →
      (s.core p.dst).messageFor m.handle.toNat = none →
      (s.core p.dst).divert = false → (s.core p.dst).normalRun m.units = some u →
      (s.proc p.dst e.owner.toNat).wait = .receivingB m.handle.toNat d 0 →
      (s.proc p.dst e.owner.toNat).state = .blockedChan → 0 < d → d < (s.proc p.dst e.owner.toNat).regs.length →
      ∃ t, exec (.messageArrival k) s = .next t ∧ (t.ep p.dst m.handle.toNat).state = 0
        ∧ (t.proc p.dst e.owner.toNat).reg d = m.words.getD 0 0
        ∧ (t.proc p.dst e.owner.toNat).state
            = (if (s.core p.dst).slotOf e.owner.toNat = none then .ready else .running))
  ∧ (∀ (s : State) k p m, s.arrived k = some p → p.body = .message m → s.foreign p = false → s.coreDone p.dst = false →
      s.closedFor p.dst m = true → exec (.messageArrival k) s = .next (s.unpacket k))

/-- A future is allocated for the issuing process: the entry freed longest ago, its next generation, its target pending
and holding the PENDING word (R236, R237, R239). -/
def Sys2Proof.Machine.State.allocates (s t : State) (target eng : Nat) (promise : Option Word) : Prop :=
  let c := s.core s.ctx.core
  let e := c.freeOrder.headD 0
  let g := if (c.future e).gen = 7 then 1 else (c.future e).gen + 1
  (t.core s.ctx.core).future e
      = { used := true, gen := g, owner := s.ctx.pn, target := target, engine := BitVec.ofNat 4 eng, promise := promise }
  ∧ (t.core s.ctx.core).freeOrder = c.freeOrder.drop 1
  ∧ (0 < target → target < s.me.regs.length → t.me.reg target
      = futureWord (futureHandle s.ctx.core e g.toNat) 0 false 0 (BitVec.ofNat 4 eng).toNat 0 0)
  ∧ (∀ n, n ≠ target → t.me.reg n = s.me.reg n)
  ∧ (∀ n, n < s.me.pend.length → t.me.isPending n = (s.me.isPending n || (n != 0 && n == target)))
  ∧ t.me.pc = s.nextPc ∧ t.me.state = .running ∧ t.mem = s.mem
  ∧ (∀ n, n ≠ s.ctx.pn → (t.core s.ctx.core).proc n = (s.core s.ctx.core).proc n)
  ∧ (∀ k, k ≠ s.ctx.core → t.core k = s.core k)

/-- O32 (R306, R308, R309). LPATCH, LARM, the inline call and the inline return do what R306, R308 and R309 say. The model’s choices, not the spec’s: the inline return reads its three words in one step, in the order of R309, and waits as a load does (log 15) -/
def Obligations.LaunchInstructions : Prop :=
  (∀ (s : State) w a b, s.clear { reads := [s.ra a, s.rb b] } = true → s.inHandler = false → s.gateShut s.ctx.core = true →
      exec (.lpatch w a b) s = .next ((s.begun w { reads := [s.ra a, s.rb b] }).trap .prot (s.g (s.ra a))))
  ∧ (∀ (s : State) w a b, s.clear { reads := [s.ra a, s.rb b] } = true → s.inHandler = false → s.gateShut s.ctx.core = false →
      ∃ t, exec (.lpatch w a b) s = .next t ∧ t.me.state = .blockedSync ∧ t.me.wait = .launchUnit ∧ t.me.pc = s.nextPc
        ∧ s.me.keeps t.me ∧ t.me.pend = s.me.pend ∧ t.mem = s.mem
        ∧ (t.die (dieOf s.ctx.core)).launchReqs = (s.die (dieOf s.ctx.core)).launchReqs ++ [
            .patch s.ctx.core s.ctx.pn (s.g (s.ra a)) (s.g (s.rb b))])
  ∧ (∀ (s : State) w d a, s.clear { reads := [s.ra a], writes := [s.rd d], var := true } = true → s.inHandler = false →
      s.gateShut s.ctx.core = false → a ≠ 0 → (s.die (dieOf s.ctx.core)).launchQ.length < 64 →
      (s.core s.ctx.core).freeOrder ≠ [] → (s.g (s.ra a)).toNat < 1024 →
      lrValid (s.lrec (dieOf s.ctx.core) (s.g (s.ra a)).toNat) = true →
      lrJob (s.lrec (dieOf s.ctx.core) (s.g (s.ra a)).toNat) = s.jobOf s.ctx.core →
      ∃ t, exec (.larm w d a) s = .next t ∧ s.allocates t (s.rd d) 3 none
        ∧ (t.die (dieOf s.ctx.core)).launchQ = (s.die (dieOf s.ctx.core)).launchQ ++ [{
            id := (s.die (dieOf s.ctx.core)).nextLaunch, record := s.lrec (dieOf s.ctx.core) (s.g (s.ra a)).toNat
            core := s.ctx.core, entry := (s.core s.ctx.core).freeOrder.headD 0, pn := s.ctx.pn }])
  ∧ (∀ (s : State) w d a, s.clear { reads := [s.ra a], writes := [s.rd d], var := true } = true → s.inHandler = false →
      a ≠ 0 → (s.die (dieOf s.ctx.core)).launchQ.length < 64 → (s.core s.ctx.core).freeOrder ≠ [] →
      (s.gateShut s.ctx.core = true ∨ ((s.g (s.ra a)).toNat < 1024 →
        lrValid (s.lrec (dieOf s.ctx.core) (s.g (s.ra a)).toNat) = true →
        lrJob (s.lrec (dieOf s.ctx.core) (s.g (s.ra a)).toNat) ≠ s.jobOf s.ctx.core)) →
      exec (.larm w d a) s = .next ((s.begun w { reads := [s.ra a], writes := [s.rd d], var := true }).trap .prot
        (s.g (s.ra a))))
  ∧ (∀ (s : State) w d a r, s.clear { reads := [s.ra a, 2, 1], writes := [s.rd d, 1, 2, 5, 6, 7, 8, 9, 10, 11, 12], var := true }
        = true → s.inHandler = false → s.gateShut s.ctx.core = false → a ≠ 0 →
      64 ≤ (s.die (dieOf s.ctx.core)).launchQ.length →
      (s.g (s.ra a)).toNat < 1024 → s.lrec (dieOf s.ctx.core) (s.g (s.ra a)).toNat = r → lrValid r = true →
      lrJob r = s.jobOf s.ctx.core → s.me.depmax.toNat ≤ s.me.depth.toNat →
      exec (.larm w d a) s = .next ((s.begun w {
        reads := [s.ra a, 2, 1], writes := [s.rd d, 1, 2, 5, 6, 7, 8, 9, 10, 11, 12], var := true }).trap .launchdepth
          (s.g (s.ra a))))
  ∧ (∀ (s : State) w d a r i, s.clear { reads := [s.ra a, 2, 1], writes := [s.rd d, 1, 2, 5, 6, 7, 8, 9, 10, 11, 12], var := true }
        = true → s.inHandler = false → s.gateShut s.ctx.core = false → a ≠ 0 →
      64 ≤ (s.die (dieOf s.ctx.core)).launchQ.length →
      (s.g (s.ra a)).toNat < 1024 → s.lrec (dieOf s.ctx.core) (s.g (s.ra a)).toNat = r → lrValid r = true →
      lrJob r = s.jobOf s.ctx.core → s.me.depth.toNat < s.me.depmax.toNat → s.inRegion = false →
      (s.core s.ctx.core).slotOf s.ctx.pn = some i → 12 < s.me.regs.length → s.rd d < s.me.regs.length →
      (∀ k, k < 4 → ∃ off, s.locate s.ctx.core { kind := .store, ea := s.g 2 - 32 + word (8 * k), size := 8 } = .own off) →
      ∃ t, exec (.larm w d a) s = .next t ∧ t.me.pc = pc56 (lrEntry r) ∧ t.me.depth = s.me.depth + 1
        ∧ (s.rd d ≠ 1 → t.me.reg 1 = pc56 (s.ctx.pc + (if s.ctx.rep.isSome then 8 else 4)))
        ∧ (s.rd d ≠ 2 → t.me.reg 2 = s.g 2 - 32)
        ∧ (∀ k, k < 8 → s.rd d ≠ 5 + k → t.me.reg (5 + k) = lrArg r k)
        ∧ (s.rd d ≠ 0 → t.me.reg (s.rd d) = 0x0100060100000000)
        ∧ (∀ n, 12 < n → n ≠ s.rd d → t.me.reg n = s.me.reg n) ∧ t.me.state = .running
        ∧ (t.core s.ctx.core).reqs.length = (s.core s.ctx.core).reqs.length + 4 ∧ t.mem = s.mem)
  ∧ (∀ (s : State) w i, s.clear { var := true } = true → s.inHandler = false → s.me.depth = 0 → s.inRegion = false →
      (s.core s.ctx.core).slotOf s.ctx.pn = some i → ((s.core s.ctx.core).slot i).leaving = none →
      ∃ t, exec (.larmReturn w) s = .next t ∧ (t.me.state = .ended ∨ t.me.state = .free)
        ∧ ((t.core s.ctx.core).slot i).proc = none ∧ s.onlyCore t s.ctx.core)
  ∧ (∀ (s : State) w o0 o1 o2, s.clear { reads := [2], writes := [1, 2], var := true } = true → s.inHandler = false →
      s.me.depth ≠ 0 → 2 < s.me.regs.length → (∀ r ∈ (s.core s.ctx.core).reqs, r.phase = .performed) →
      (∀ o k, (o, k) ∈ [(o0, 0), (o1, 8), (o2, 16)] →
        s.locate s.ctx.core { pn := s.ctx.pn, ea := s.g 2 + k, size := 8, job := s.jobOf s.ctx.core } = .own o
        ∧ s.mem.isPoisoned (poolKey s.ctx.core o) = false) →
      let word (t : State) (o : Nat) : Word :=
        t.wordSeen s.ctx.core s.ctx.pn .c (poolKey s.ctx.core o / 8)
      let after (t : State) (o : Nat) : State := t.sawWord s.ctx.core s.ctx.pn .c (poolKey s.ctx.core o / 8)
      let b := (s.begun w { reads := [2], writes := [1, 2], var := true }).block .blockedSync (.inlineReturn (s.g 2) none)
      (word b o2 = s.g 2 →
        ∃ t, exec (.larmReturn w) s = .next t ∧ t.me.pc = pc56 (word (after b o2) o0) &&& ~~~3
          ∧ t.me.reg 1 = word (after (after b o2) o0) o1
          ∧ t.me.reg 2 = s.g 2 + 32 ∧ t.me.depth = s.me.depth - 1 ∧ (∀ n, 2 < n → t.me.reg n = s.me.reg n)
          ∧ t.mem = s.mem ∧ t.dies = s.dies ∧ t.pkgs = s.pkgs ∧ (∀ k, k ≠ s.ctx.core → t.core k = s.core k))
      ∧ (word b o2 ≠ s.g 2 → exec (.larmReturn w) s
        = .next ((after b o2).trapBlocked s.ctx.core s.ctx.pn .prot (s.g 2))))
  ∧ (∀ (s : State) w, s.clear { reads := [2], writes := [1, 2], var := true } = true → s.inHandler = false →
      s.me.depth ≠ 0 →
      let b := (s.begun w { reads := [2], writes := [1, 2], var := true }).block .blockedSync (.inlineReturn (s.g 2) none)
      let mark := b.stackWord s.ctx.core s.ctx.pn { pn := s.ctx.pn, ea := s.g 2 + 16, size := 8, job := s.jobOf s.ctx.core }
      (∀ u c a, mark = .trap u c a → exec (.larmReturn w) s = .next (u.trapBlocked s.ctx.core s.ctx.pn c a))
      ∧ (∀ u, mark = .wait u → exec (.larmReturn w) s = .next (u.modProc s.ctx.core s.ctx.pn (fun p => { p with
          wait := .inlineReturn (s.g 2) none })))
      ∧ (∀ va, mark = .walk va → ∃ t, exec (.larmReturn w) s = .next t
        ∧ t.me.wait = .inlineReturn (s.g 2) (some va) ∧ t.me.state = .blockedSync ∧ s.me.keeps t.me ∧ t.mem = s.mem
        ∧ (t.die (dieOf s.ctx.core)).walks = (s.die (dieOf s.ctx.core)).walks ++ [{
            job := s.jobOf s.ctx.core, va := va.toNat, asker := .access s.ctx.core s.ctx.pn }]))

/-- O33 (R165, R166, R237, R240, R241, R242, R243, R244, R245). FWAIT, FTEST, FCANCEL, FPASS, FPROM, NESTSET and ITER do what R240 to R245, R165 and R166 say. The model’s choices, not the spec’s: NESTSET completes at once and keeps a past nest while its claims are out, and an ITER behind an outstanding claim issues and waits (log 24); NESTSET waits for its process’s writes to its own pool (log 7) -/
def Obligations.FutureAndIterationInstructions : Prop :=
  (∀ (s : State) w d a i, s.clear (s.futureUse [s.rd d] a) = true → s.inHandler = false →
      s.futureOk s.ctx.core (handleOf (s.g (s.ra a))) = true → handleCore (handleOf (s.g (s.ra a))) = s.ctx.core → s.ctx.pn < 256 →
      (s.core s.ctx.core).slotOf s.ctx.pn = some i → 0 < s.rd d → s.rd d < s.me.regs.length →
      ((s.core s.ctx.core).future (handleEntry (handleOf (s.g (s.ra a))))).gen.toNat = handleGen (handleOf (s.g (s.ra a))) →
      ((s.core s.ctx.core).future (handleEntry (handleOf (s.g (s.ra a))))).used = false →
      ∃ t, exec (.fwait w d a) s = .next t
        ∧ t.me.reg (s.rd d) = ((s.core s.ctx.core).future (handleEntry (handleOf (s.g (s.ra a))))).status
        ∧ t.me.state = .running ∧ t.me.pc = s.nextPc ∧ (∀ n, n ≠ s.rd d → t.me.reg n = s.me.reg n) ∧ t.mem = s.mem)
  ∧ (∀ (s : State) w d a i, s.clear (s.futureUse [s.rd d] a) = true → s.inHandler = false →
      s.futureOk s.ctx.core (handleOf (s.g (s.ra a))) = true → handleCore (handleOf (s.g (s.ra a))) = s.ctx.core → s.ctx.pn < 256 →
      (s.core s.ctx.core).slotOf s.ctx.pn = some i → 0 < s.rd d → s.rd d < s.me.regs.length →
      ((s.core s.ctx.core).future (handleEntry (handleOf (s.g (s.ra a))))).gen.toNat ≠ handleGen (handleOf (s.g (s.ra a))) →
      ∃ t, exec (.fwait w d a) s = .next t ∧ t.me.reg (s.rd d) = word (handleOf (s.g (s.ra a)) + 4 * 2 ^ 32) ∧ t.me.state = .running
        ∧ t.me.pc = s.nextPc ∧ t.mem = s.mem)
  ∧ (∀ (s : State) w d a f, s.clear (s.futureUse [s.rd d] a) = true → s.inHandler = false →
      s.futureOk s.ctx.core (handleOf (s.g (s.ra a))) = true → handleCore (handleOf (s.g (s.ra a))) = s.ctx.core → s.ctx.pn < 256 →
      (s.core s.ctx.core).future (handleEntry (handleOf (s.g (s.ra a)))) = f → f.gen.toNat = handleGen (handleOf (s.g (s.ra a))) → f.used = true →
      f.late = false → (s.core s.ctx.core).waiters.length < 128 →
      ∃ t, exec (.fwait w d a) s = .next t ∧ s.waitsOn t .blockedFut (.future (handleOf (s.g (s.ra a))) (s.rd d) true)
        ∧ (t.core s.ctx.core).waiters = (s.core s.ctx.core).waiters ++ [
            (handleEntry (handleOf (s.g (s.ra a))), handleGen (handleOf (s.g (s.ra a))), pidOf s.ctx.core s.ctx.pn)])
  ∧ (∀ (s : State) w d a, s.clear (s.futureUse [s.rd d] a) = true → s.inHandler = false →
      s.delivers (.ftest w d a) w 2 [(s.rd d,
        match (s.core s.ctx.core).futureOf s.ctx.pn (s.ra a) with
        | some e => (s.core s.ctx.core).pendingWord s.ctx.core e
        | none => s.g (s.ra a))] s.nextPc)
  ∧ (∀ (s : State) w a, s.clear (s.futureUse [] a) = true → s.inHandler = false →
      s.futureOk s.ctx.core (handleOf (s.g (s.ra a))) = true → handleCore (handleOf (s.g (s.ra a))) = s.ctx.core →
      ((s.core s.ctx.core).future (handleEntry (handleOf (s.g (s.ra a))))).used = false → s.actsOnProcess (.fcancel w a) w s.nextPc id)
  ∧ (∀ (s : State) w a f, s.clear (s.futureUse [] a) = true → s.inHandler = false →
      s.futureOk s.ctx.core (handleOf (s.g (s.ra a))) = true → handleCore (handleOf (s.g (s.ra a))) = s.ctx.core →
      (s.core s.ctx.core).future (handleEntry (handleOf (s.g (s.ra a)))) = f → f.used = true → f.gen.toNat = handleGen (handleOf (s.g (s.ra a))) → f.engine = 0 →
      s.isLate s.ctx.core (handleEntry (handleOf (s.g (s.ra a)))) = false →
      (s.core s.ctx.core).vecQ.any (fun v => v.entry == handleEntry (handleOf (s.g (s.ra a))) && !v.started) = true →
      ∃ t, exec (.fcancel w a) s = .next t
        ∧ ((t.core s.ctx.core).future (handleEntry (handleOf (s.g (s.ra a))))).used = false
        ∧ ((t.core s.ctx.core).future (handleEntry (handleOf (s.g (s.ra a))))).status
            = futureWord (futureHandle s.ctx.core (handleEntry (handleOf (s.g (s.ra a)))) f.gen.toNat) 3 f.late 0 0 0 0
        ∧ (t.core s.ctx.core).vecQ = (s.core s.ctx.core).vecQ.filter (fun v => v.entry != handleEntry (handleOf (s.g (s.ra a))))
        ∧ t.mem = s.mem)
  ∧ (∀ (s : State) w d a, s.clear (s.futureUse [s.rd d] a) = true → s.inHandler = false →
      (s.core s.ctx.core).futureOf s.ctx.pn (s.ra a) = none →
      s.actsOnProcess (.fpass w d a) w s.nextPc (fun p => p.setReg (s.rd d) (s.g (s.ra a))))
  ∧ (∀ (s : State) w d a e, s.clear (s.futureUse [s.rd d] a) = true → s.inHandler = false →
      (s.core s.ctx.core).futureOf s.ctx.pn (s.ra a) = some e → 0 < s.rd d → s.rd d ≠ s.ra a → s.rd d < s.me.regs.length →
      s.me.pend.length = s.me.regs.length →
      ∃ t, exec (.fpass w d a) s = .next t ∧ ((t.core s.ctx.core).future e).target = s.rd d
        ∧ t.me.reg (s.rd d) = s.g (s.ra a) ∧ t.me.isPending (s.rd d) = true ∧ t.me.isPending (s.ra a) = false
        ∧ t.me.pc = s.nextPc ∧ t.mem = s.mem)
  ∧ (∀ (s : State) w d a, s.clear (s.futureUse [s.rd d] a) = true → s.inHandler = false →
      s.futureOk s.ctx.core (handleOf (s.g (s.ra a))) = true →
      let f := (s.coreFor (handleCore (handleOf (s.g (s.ra a)))) (s.jobOf s.ctx.core)).future (handleEntry (handleOf (s.g (s.ra a))))
      s.actsOnProcess (.fprom w d a) w s.nextPc (fun p => p.setReg (s.rd d)
        (if f.gen.toNat = handleGen (handleOf (s.g (s.ra a))) then f.promise.getD (-1) else -1)))
  ∧ (∀ (s : State) w a r, s.clear { reads := [s.ra a] } = true →
      (s.core s.ctx.core).inScratchpad (s.g (s.ra a)) 64 = true → (s.g (s.ra a)).toNat % 64 = 0 →
      s.quiet → s.mem.poisonIn (poolKey s.ctx.core (s.g (s.ra a)).toNat) 64 = none →
      let e := nestEntry (BitVec.ofNat 512 (packWords ((s.begun w { reads := [s.ra a] }).recordWords s.ctx.core s.ctx.pn
        (s.g (s.ra a)) 8)))
      e.ok = true → e.caddr.toNat % 8 = 0 → spaceOf (isKernel s.ctx.core) e.caddr = .global →
      s.locate s.ctx.core { e.claim 0 with job := s.jobOf s.ctx.core } = .away r → r.target < 2 →
      ∃ t, exec (.nestset w a) s = .next t ∧ t.me.pc = s.nextPc ∧ s.me.keeps t.me ∧ t.me.pend = s.me.pend
        ∧ t.mem = s.mem ∧ (∀ k, k ≠ s.ctx.core → t.core k = s.core k)
        ∧ t.me.iter = { e with gen := s.me.iter.gen + 1 }
        ∧ t.me.pastNests = (s.me.iter :: s.me.pastNests).filter (fun o =>
          ((s.core s.ctx.core).claims s.ctx.pn).any (fun r => r.nest == o.gen)))
  ∧ (∀ (s : State) w a l, s.clear { reads := [s.ra a] } = true →
      (s.core s.ctx.core).inScratchpad (s.g (s.ra a)) 64 = true → (s.g (s.ra a)).toNat % 64 = 0 →
      s.quiet → s.mem.poisonIn (poolKey s.ctx.core (s.g (s.ra a)).toNat) 64 = some l → s.me.asyncTrap = none →
      ∃ t, exec (.nestset w a) s = .next t ∧ t.me.pc = s.nextPc ∧ s.me.keeps t.me ∧ t.me.pend = s.me.pend
        ∧ t.mem = s.mem ∧ t.me.iter = s.me.iter ∧ t.me.pastNests = s.me.pastNests
        ∧ t.me.asyncTrap = some (.poison, word (l * 64 % 2 ^ 21)))
  ∧ (∀ (s : State) w a, s.clear { reads := [s.ra a] } = true →
      (s.core s.ctx.core).inScratchpad (s.g (s.ra a)) 64 = true → (s.g (s.ra a)).toNat % 64 = 0 →
      s.awaitsOwn (.nestset w a) w { reads := [s.ra a] })
  ∧ (∀ (s : State) w d, let n := s.rd d
      s.clear { writes := [n, n + 1, n + 2, n + 3], var := true } = true →
      let e := s.me.iter
      let quiet := (s.core s.ctx.core).claims s.ctx.pn = []
      (quiet → e.next < e.stop →
        ∃ t, exec (.iter w d) s = .next t ∧ t.me.iter = { e with next := e.next + 1 } ∧ t.me.pc = s.nextPc
          ∧ (t.core s.ctx.core).flight = (s.core s.ctx.core).flight ++ [{
              pn := s.ctx.pn, due := s.ticks + 2, seq := (s.core s.ctx.core).seq, var := true
              writes := [(n, word e.next), (n + 1, word (e.next % e.e0)), (n + 2, word (e.next / e.e0 % e.e1)),
                (n + 3, word (e.next / (e.e0 * e.e1) % e.e2
                  + (if e.rank = 4 then e.next / (e.e0 * e.e1 * e.e2) * 2 ^ 32 else 0)))].filter (fun x => x.1 != 0) }]
          ∧ t.me.regs = s.me.regs ∧ s.onlyCore t s.ctx.core)
      ∧ (quiet → e.exhausted = true → e.next = e.stop →
        ∃ t, exec (.iter w d) s = .next t ∧ t.me.iter = e ∧ t.me.pc = s.nextPc
          ∧ (t.core s.ctx.core).flight = (s.core s.ctx.core).flight ++ [{
              pn := s.ctx.pn, due := s.ticks + 2, seq := (s.core s.ctx.core).seq, var := true
              writes := [(n, -1), (n + 1, 0), (n + 2, 0), (n + 3, 0)].filter (fun x => x.1 != 0) }]
          ∧ t.me.regs = s.me.regs ∧ s.onlyCore t s.ctx.core)
      ∧ ((¬ quiet ∨ (e.exhausted = false ∧ e.stop ≤ e.next)) →
          s.accesses (.iter w d) w { e.claim n with nest := e.gen }))

/-- An operation of a process stands at the tail of its die's sheaf queue, and the process goes on (R288, R293). -/
def Sys2Proof.Machine.State.queuesOnSheaf (s t : State) (o : SheafOp) : Prop :=
  (t.die (dieOf s.ctx.core)).sheafQ = (s.die (dieOf s.ctx.core)).sheafQ ++ [o]
  ∧ t.me.state = .running ∧ t.me.pc = s.nextPc ∧ t.mem = s.mem ∧ t.pkgs = s.pkgs
  ∧ (∀ k, k ≠ s.ctx.core → t.core k = s.core k) ∧ (∀ k, k ≠ dieOf s.ctx.core → t.die k = s.die k)

/-- The die's queue takes an operation of the issuing process at once (R288, R292, R297). -/
def Sys2Proof.Machine.State.sheafOpen (s : State) : Prop :=
  (s.core s.ctx.core).releaseHolds s.ctx.pn (s.core s.ctx.core).nextTag = true
  ∧ (s.die (dieOf s.ctx.core)).sheafQ.length < 256 ∧ (s.pkg (pkgOf s.ctx.core)).nextSsn ≤ ssnLimit

/-- An instruction that traps after it has begun to issue. -/
def Sys2Proof.Machine.State.traps (s : State) (i : Instr) (w : BitVec 2) (u : Use) (c : Cause) (f : Word) : Prop :=
  exec i s = .next ((s.begun w u).trap c f)

/-- O34 (R291, R292, R293, R294, R295). SHPUB, SHST, SHCAS and SHACQ check, wait and enter the die’s queue as R291 and R293 to R295 say -/
def Obligations.SheafInstructions : Prop :=
  (∀ (s : State) w d a b, s.clear { reads := [s.ra a, s.rb b], writes := [s.rd d], var := true } = true →
      (s.sheafMember s.ctx.core = false → s.traps (.shst w d a b) w { reads := [s.ra a, s.rb b], writes := [s.rd d], var := true } .prot 0)
      ∧ (s.sheafMember s.ctx.core = true → 65536 ≤ (s.g (s.ra a)).toNat → s.traps (.shst w d a b) w { reads := [s.ra a, s.rb b], writes := [s.rd d], var := true } .prot (s.g (s.ra a)))
      ∧ (s.sheafMember s.ctx.core = true → (s.g (s.ra a)).toNat < 65536 → (s.g (s.ra a)).toNat % 8 ≠ 0 →
        s.traps (.shst w d a b) w { reads := [s.ra a, s.rb b], writes := [s.rd d], var := true } .align (s.g (s.ra a)))
      ∧ (s.sheafMember s.ctx.core = true → (s.g (s.ra a)).toNat < 65536 → (s.g (s.ra a)).toNat % 8 = 0 →
        (s.sheafOpen → ((s.core s.ctx.core).slotOf s.ctx.pn).isSome = true →
          ∃ t, exec (.shst w d a b) s = .next t
            ∧ s.queuesOnSheaf t (.st s.ctx.core s.ctx.pn (s.rd d) ((s.g (s.ra a)).toNat / 8) (s.g (s.rb b)))
            ∧ s.me.keeps t.me
            ∧ (∀ n, n < s.me.pend.length → t.me.isPending n = (s.me.isPending n || (n != 0 && n == s.rd d))))
        ∧ (¬ s.sheafOpen → ∃ t, exec (.shst w d a b) s = .next t
          ∧ s.waitsOn t .blockedSync (.sheafRelease 1 (s.rd d) (s.g (s.ra a)) (s.g (s.rb b)) 0 0
              (s.core s.ctx.core).nextTag))))
  ∧ (∀ (s : State) w d a b, s.clear { reads := [s.ra a, s.rb b, s.rd d], writes := [s.rd d], var := true } = true →
      (s.sheafMember s.ctx.core = false → s.traps (.shcas w d a b) w { reads := [s.ra a, s.rb b, s.rd d], writes := [s.rd d], var := true } .prot 0)
      ∧ (s.sheafMember s.ctx.core = true → 65536 ≤ (s.g (s.ra a)).toNat → s.traps (.shcas w d a b) w { reads := [s.ra a, s.rb b, s.rd d], writes := [s.rd d], var := true } .prot (s.g (s.ra a)))
      ∧ (s.sheafMember s.ctx.core = true → (s.g (s.ra a)).toNat < 65536 → (s.g (s.ra a)).toNat % 8 ≠ 0 →
        s.traps (.shcas w d a b) w { reads := [s.ra a, s.rb b, s.rd d], writes := [s.rd d], var := true } .align (s.g (s.ra a)))
      ∧ (s.sheafMember s.ctx.core = true → (s.g (s.ra a)).toNat < 65536 → (s.g (s.ra a)).toNat % 8 = 0 →
        (s.sheafOpen → ((s.core s.ctx.core).slotOf s.ctx.pn).isSome = true →
          ∃ t, exec (.shcas w d a b) s = .next t
            ∧ s.queuesOnSheaf t (.cas s.ctx.core s.ctx.pn (s.rd d) ((s.g (s.ra a)).toNat / 8) (s.g (s.rb b)) (s.g (s.rd d)))
            ∧ s.me.keeps t.me
            ∧ (∀ n, n < s.me.pend.length → t.me.isPending n = (s.me.isPending n || (n != 0 && n == s.rd d))))
        ∧ (¬ s.sheafOpen → ∃ t, exec (.shcas w d a b) s = .next t
          ∧ s.waitsOn t .blockedSync (.sheafRelease 2 (s.rd d) (s.g (s.ra a)) (s.g (s.rb b)) (s.g (s.rd d)) 0
              (s.core s.ctx.core).nextTag))))
  ∧ (∀ (s : State) w d a b, s.clear { reads := [s.ra a, s.rb b], writes := [s.rd d], var := true, ready := (s.core s.ctx.core).futureFree } = true → s.sheafMember s.ctx.core = false →
      s.traps (.shpub w d a b) w { reads := [s.ra a, s.rb b], writes := [s.rd d], var := true, ready := (s.core s.ctx.core).futureFree } .prot 0)
  ∧ (∀ (s : State) w d a b, s.clear { reads := [s.ra a, s.rb b], writes := [s.rd d], var := true, ready := (s.core s.ctx.core).futureFree } = true → s.sheafMember s.ctx.core = true →
      (s.g (s.rb b)).toNat / 2 ^ 32 < 64 → (s.g (s.rb b)).toNat % 2 ^ 32 % 64 = 0 → (s.g (s.ra a)).toNat % 64 = 0 →
      (s.core s.ctx.core).inScratchpad (s.g (s.ra a)) (((s.g (s.rb b)).toNat / 2 ^ 32 + 1) * 64) = true →
      s.sheafOpen → ((s.core s.ctx.core).slotOf s.ctx.pn).isSome = true →
      ∃ t, exec (.shpub w d a b) s = .next t ∧ s.allocates t (s.rd d) 5 none
        ∧ s.queuesOnSheaf t (.pub s.ctx.core s.ctx.pn ((s.core s.ctx.core).freeOrder.headD 0) (s.g (s.ra a)) (s.g (s.rb b))))
  ∧ (∀ (s : State) w a, s.clear { reads := [s.ra a] } = true → s.inHandler = false →
      let n := (s.die (dieOf s.ctx.core)).applied
      (s.sheafMember s.ctx.core = false → s.traps (.shacq w a) w { reads := [s.ra a] } .prot 0)
      ∧ (s.sheafMember s.ctx.core = true → ((s.g (s.ra a)).getLsbD 63 = true ∨ (s.g (s.ra a)).toNat % 2 ^ 48 ≤ n) →
        ∃ t, exec (.shacq w a) s = .next t ∧ t.me.state = .running ∧ t.me.pc = s.nextPc ∧ s.me.keeps t.me
          ∧ t.me.pend = s.me.pend ∧ s.onlyCore t s.ctx.core)
      ∧ (s.sheafMember s.ctx.core = true → (s.g (s.ra a)).getLsbD 63 = false → n < (s.g (s.ra a)).toNat % 2 ^ 48 →
        ∃ t, exec (.shacq w a) s = .next t ∧ t.me.pend = s.me.pend
          ∧ s.waitsOn t .blockedSync (.sheafAcquire ((s.g (s.ra a)).toNat % 2 ^ 48))))

/-- O35 (R78, R209, R210, R211, R212, R251, R292). EWR, EWRA, ERD and WSET write and read engine registers as R77, R78, R209 to R212, R251 and R292 say. The model’s choices, not the spec’s: EWR and EWRA of GBUD, GRAMP and LAND on a kernel core leave the value unchanged, and WSET reads its record at issue and holds its process RUNNING (log 28); an instruction that starts an operation waits for its process’s writes to its own pool (log 7) -/
def Obligations.EngineRegisterInstructions : Prop :=
  (∀ (s : State) w a (n : BitVec 8), s.clear { reads := [s.ra a] } = true →
      (∃ t, exec (.ewr w a 0 n) s = .next t ∧ t.me.pc = s.nextPc ∧ s.me.moved t.me ∧ s.onlyCore t s.ctx.core
        ∧ (t.core s.ctx.core).vecS = (s.core s.ctx.core).vecS.write n.toNat (s.g (s.ra a))
        ∧ ((s.core s.ctx.core).vecQ.any (fun v => v.started) = true →
            (t.core s.ctx.core).vecA = (s.core s.ctx.core).vecA)
        ∧ ((s.core s.ctx.core).vecQ.any (fun v => v.started) = false → (s.core s.ctx.core).vecDirty = [] → n.toNat < 4 →
            (t.core s.ctx.core).vecA.read n.toNat = (t.core s.ctx.core).vecS.read n.toNat))
      ∧ (∃ t, exec (.ewr w a 1 n) s = .next t ∧ t.me.pc = s.nextPc ∧ s.me.moved t.me ∧ s.onlyCore t s.ctx.core
        ∧ (t.core s.ctx.core).copyS = (s.core s.ctx.core).copyS.write n.toNat (s.g (s.ra a))
        ∧ ((s.core s.ctx.core).copyQ.any (fun v => v.started) = true →
            (t.core s.ctx.core).copyA = (s.core s.ctx.core).copyA)
        ∧ ((s.core s.ctx.core).copyQ.any (fun v => v.started) = false → (s.core s.ctx.core).copyDirty = [] → n.toNat ≤ 5 →
            (t.core s.ctx.core).copyA.read n.toNat = (t.core s.ctx.core).copyS.read n.toNat))
      ∧ (∃ t, exec (.ewr w a 2 n) s = .next t ∧ t.me.pc = s.nextPc ∧ s.me.moved t.me ∧ s.onlyCore t s.ctx.core
        ∧ (∀ k, k < 32 → (t.core s.ctx.core).opslot k = { (s.core s.ctx.core).opslot k with
            sblk := if n.toNat = 0x10 + k then s.g (s.ra a) else ((s.core s.ctx.core).opslot k).sblk
            sband := if n.toNat = 0x30 + k then (s.g (s.ra a)).setWidth 16 else ((s.core s.ctx.core).opslot k).sband }))
      ∧ s.actsOnProcess (.ewr w a 5 n) w s.nextPc (fun p =>
          if n = 1 then { p with bidx := (s.g (s.ra a)).setWidth 13 } else p))
  ∧ (∀ (s : State) w a (n : BitVec 8), s.clear { reads := [s.ra a] } = true →
      ((s.core s.ctx.core).vecQ ≠ [] → s.traps (.ewra w a 0 n) w { reads := [s.ra a] } .prot (word n.toNat))
      ∧ ((s.core s.ctx.core).vecQ = [] → ∃ t, exec (.ewra w a 0 n) s = .next t ∧ t.me.pc = s.nextPc ∧ s.me.moved t.me
        ∧ (t.core s.ctx.core).vecS = (s.core s.ctx.core).vecS.write n.toNat (s.g (s.ra a))
        ∧ (t.core s.ctx.core).vecA = (s.core s.ctx.core).vecA.write n.toNat (s.g (s.ra a)) ∧ s.onlyCore t s.ctx.core)
      ∧ ((s.core s.ctx.core).copyQ ≠ [] → s.traps (.ewra w a 1 n) w { reads := [s.ra a] } .prot (word n.toNat))
      ∧ ((s.core s.ctx.core).copyQ = [] → ∃ t, exec (.ewra w a 1 n) s = .next t ∧ t.me.pc = s.nextPc ∧ s.me.moved t.me
        ∧ (t.core s.ctx.core).copyS = (s.core s.ctx.core).copyS.write n.toNat (s.g (s.ra a))
        ∧ (t.core s.ctx.core).copyA = (s.core s.ctx.core).copyA.write n.toNat (s.g (s.ra a)) ∧ s.onlyCore t s.ctx.core)
      ∧ s.actsOnProcess (.ewra w a 5 n) w s.nextPc (fun p =>
          if n = 1 then { p with bidx := (s.g (s.ra a)).setWidth 13 } else p))
  ∧ (∀ (s : State) w d (n : BitVec 8), s.clear { writes := [s.rd d], var := true } = true →
      let c := s.core s.ctx.core
      s.delivers (.erd w d 0 n) w 2 [(s.rd d, (if n.toNat < 0x80 then c.vecA else c.vecS).read (n.toNat % 0x80))] s.nextPc
      ∧ s.delivers (.erd w d 1 n) w 2 [(s.rd d, (if n.toNat < 0x80 then c.copyA else c.copyS).read (n.toNat % 0x80))] s.nextPc
      ∧ s.delivers (.erd w d 2 n) w 2 [(s.rd d, s.arrayRead s.ctx.core (n.toNat % 0x80))] s.nextPc
      ∧ s.delivers (.erd w d 5 n) w 2 [(s.rd d, s.sheafRead s.ctx.core s.ctx.pn (n.toNat % 0x80))] s.nextPc)
  ∧ (∀ (s : State) w a n, s.clear { reads := [s.ra a], legal := s.rb n < 8 } = true →
      ((s.g (s.ra a)).toNat % 32 ≠ 0 →
        s.traps (.wset w a n) w { reads := [s.ra a], legal := s.rb n < 8 } .align (s.g (s.ra a)))
      ∧ ((s.g (s.ra a)).toNat % 32 = 0 → (s.core s.ctx.core).inScratchpad (s.g (s.ra a)) 32 = false →
        s.traps (.wset w a n) w { reads := [s.ra a], legal := s.rb n < 8 } .localbound (s.g (s.ra a)))
      ∧ ((s.g (s.ra a)).toNat % 32 = 0 → (s.core s.ctx.core).inScratchpad (s.g (s.ra a)) 32 = true →
        s.awaitsOwn (.wset w a n) w { reads := [s.ra a], legal := s.rb n < 8 })
      ∧ ((s.g (s.ra a)).toNat % 32 = 0 → (s.core s.ctx.core).inScratchpad (s.g (s.ra a)) 32 = true → s.quiet →
        ∃ t, exec (.wset w a n) s = .next t ∧ t.me.held = true ∧ t.me.pc = s.nextPc ∧ s.me.keeps t.me
          ∧ t.me.pend = s.me.pend ∧ t.mem = s.mem ∧ (∀ k, k ≠ s.ctx.core → t.core k = s.core k)
          ∧ (t.core s.ctx.core).wdesc = (s.core s.ctx.core).wdesc
          ∧ (t.core s.ctx.core).wsetOps = (s.core s.ctx.core).wsetOps ++ [(s.ctx.pn, s.rb n,
              BitVec.ofNat 256 (packWords ((s.begun w { reads := [s.ra a], legal := s.rb n < 8 }).recordWords
                s.ctx.core s.ctx.pn (s.g (s.ra a)) 4)) &&& wdMask, s.ticks + 8)]))
  ∧ (∀ (s : State) core pn (a : Word) n, s.mem.hist = [] → (s.core core).reqs = [] →
      s.mem.poisonIn (poolKey core a.toNat) (8 * n) = none → a.toNat % 8 = 0 →
      s.recordWords core pn a n = (List.range n).map (fun i => word (s.mem.read (poolKey core (a.toNat + 8 * i)) 8)))

/-- A vector instruction of member code fn: a bad record address traps; a good one queues the operation and returns a
future (R208, R217). two says whether B names a record. -/
def VectorMember (mk : BitVec 2 → BitVec 5 → BitVec 5 → BitVec 5 → Instr) (fn : Nat) (two : Bool) : Prop :=
  ∀ (s : State) w d a b,
    let c := s.core s.ctx.core
    let u : Use := { reads := if two then [s.ra a, s.rb b] else [s.ra a], writes := [s.rd d], var := true
                     ready := c.vecQ.length < 8 && c.futureFree }
    s.clear u = true →
    (c.inScratchpad (s.g (s.ra a)) 32 = false → s.traps (mk w d a b) w u .localbound (s.g (s.ra a)))
    ∧ (c.inScratchpad (s.g (s.ra a)) 32 = true → (s.g (s.ra a)).toNat % 32 ≠ 0 →
        s.traps (mk w d a b) w u .align (s.g (s.ra a)))
    ∧ (c.inScratchpad (s.g (s.ra a)) 32 = true → (s.g (s.ra a)).toNat % 32 = 0 →
        (two = true → fn ≠ 16 → c.inScratchpad (s.g (s.rb b)) 32 = true ∧ (s.g (s.rb b)).toNat % 32 = 0) →
        (fn = 16 → (s.g (s.rb b)).toNat < 0x1000000 ∧ inScratch c.part (s.g (s.rb b)).toNat 4 = true
          ∧ (s.g (s.rb b)).toNat % 4 = 0) →
        ∃ t, exec (mk w d a b) s = .next t ∧ s.allocates t (s.rd d) 0 none
          ∧ (t.core s.ctx.core).vecQ = c.vecQ ++ [{
              fn := fn, a := s.g (s.ra a), b := s.g (s.rb b), pn := s.ctx.pn, entry := c.freeOrder.headD 0, upto := c.nextTag }])

/-- O36 (R208, R217, R218, R239). Each of the 23 vector instructions checks its addresses, returns a future and queues its operation -/
def Obligations.VectorInstructions : Prop :=
  VectorMember .vadd 0 true
  ∧ VectorMember .vsub 1 true
  ∧ VectorMember .vmul 2 true
  ∧ VectorMember .vfma 3 true
  ∧ VectorMember .vmax 4 true
  ∧ VectorMember .vmin 5 true
  ∧ VectorMember .vabs 6 false
  ∧ VectorMember .vneg 7 false
  ∧ VectorMember .vexp 8 false
  ∧ VectorMember .vlog 9 false
  ∧ VectorMember .vrcp 10 false
  ∧ VectorMember .vrsq 11 false
  ∧ VectorMember .vcvt 12 false
  ∧ VectorMember .vrsum 13 false
  ∧ VectorMember .vrmax 14 false
  ∧ VectorMember .vamax 15 false
  ∧ VectorMember .vscale 16 true
  ∧ VectorMember .vsel 17 true
  ∧ VectorMember .vcmp 18 true
  ∧ VectorMember .vtrans 19 false
  ∧ VectorMember .vgath 20 true
  ∧ VectorMember .vscat 21 true
  ∧ VectorMember .vbcast 22 false

/-- O37 (R226, R227, R228, R233, R234, R239). CPY and CPYM check their pair of addresses and queue the copy with its promise -/
def Obligations.CopyInstructions : Prop :=
  (∀ (s : State) w d a b,
      let c := s.core s.ctx.core
      let x := s.g (s.ra a)
      let y := s.g (s.rb b)
      let u : Use := { reads := [s.ra a, s.rb b], writes := [s.rd d], var := true
                       ready := c.copyQ.length < 16 && c.futureFree }
      s.clear u = true →
      (∀ e f, s.copyFault s.ctx.core false x y c.copyNext = some (e, f) → s.traps (.cpy w d a b) w u e f)
      ∧ (s.copyFault s.ctx.core false x y c.copyNext = none →
        let p := s.promise s.ctx.core false x y c.copyNext
        ∃ t, exec (.cpy w d a b) s = .next t ∧ s.allocates t (s.rd d) 1 (some p)
          ∧ (t.core s.ctx.core).copyQ = c.copyQ ++ [{
              multi := false, src := x, dst := y, pn := s.ctx.pn, entry := c.freeOrder.headD 0, promise := p
              upto := c.nextTag }]
          ∧ (t.core s.ctx.core).copyP = some (p, c.freeOrder.headD 0)))
  ∧ (∀ (s : State) w d a b,
      let c := s.core s.ctx.core
      let x := s.g (s.ra a)
      let y := s.g (s.rb b)
      let u : Use := { reads := [s.ra a, s.rb b], writes := [s.rd d], var := true
                       ready := c.copyQ.length < 16 && c.futureFree }
      s.clear u = true →
      (∀ e f, s.copyFault s.ctx.core true x y c.copyNext = some (e, f) → s.traps (.cpym w d a b) w u e f)
      ∧ (s.copyFault s.ctx.core true x y c.copyNext = none →
        let p := s.promise s.ctx.core true x y c.copyNext
        ∃ t, exec (.cpym w d a b) s = .next t ∧ s.allocates t (s.rd d) 1 (some p)
          ∧ (t.core s.ctx.core).copyQ = c.copyQ ++ [{
              multi := true, src := x, dst := y, pn := s.ctx.pn, entry := c.freeOrder.headD 0, promise := p
              upto := c.nextTag }]
          ∧ (t.core s.ctx.core).copyP = some (p, c.freeOrder.headD 0)))
  ∧ (∀ (s : State) core (a b : Word) g, copyKind a = .mesh → s.copyFault core false a b g = some (.prot, a))
  ∧ (∀ (s : State) core (a b : Word) (g : Geometry), copyKind a = .pool → copyKind b = .pool → g.len = 0 →
      g.spitch % 8 = 0 → g.dpitch % 8 = 0 → a.toNat % 8 = 0 → b.toNat % 8 = 0 → s.copyFault core false a b g = none)

/-- O38 (R247, R253, R254, R256, R266). MCLAIM, MREL, MTASK and MMERGE claim and release slots, enqueue tasks and wait for merges as R253 to R256 and R266 say. The model’s choices, not the spec’s: MTASK waits for its process’s writes to its own pool (log 7) -/
def Obligations.ArrayInstructions : Prop :=
  (∀ (s : State) w d a, s.clear { reads := [s.ra a], writes := [s.rd d], var := true, legal := !isKernel s.ctx.core } = true →
      let m := (s.g (s.ra a)).toNat % 2 ^ 32
      let mine (n : Nat) : Prop := ((s.core s.ctx.core).opslot n).owner = none
        ∨ ((s.core s.ctx.core).opslot n).owner = some s.ctx.pn
      ∃ t, exec (.mclaim w d a) s = .next t ∧ t.me.pc = s.nextPc ∧ s.me.movedPending t.me ∧ s.onlyCore t s.ctx.core
        ∧ ((∀ n, n < 32 → m.testBit n = true → mine n) →
            (t.core s.ctx.core).flight.getLast? = some {
              pn := s.ctx.pn, writes := [(s.rd d, word m)].filter (fun e => e.1 != 0), due := s.ticks + 2
              seq := (s.core s.ctx.core).seq, var := true }
            ∧ (∀ n, n < 32 → m.testBit n = true → ((t.core s.ctx.core).opslot n).owner = some s.ctx.pn
                ∧ ((t.core s.ctx.core).opslot n).releaseAt = none)
            ∧ (∀ n, (32 ≤ n ∨ m.testBit n = false) → (t.core s.ctx.core).opslot n = (s.core s.ctx.core).opslot n))
        ∧ (¬ (∀ n, n < 32 → m.testBit n = true → mine n) →
            (t.core s.ctx.core).flight.getLast? = some {
              pn := s.ctx.pn, writes := [(s.rd d, 0)].filter (fun e => e.1 != 0), due := s.ticks + 2
              seq := (s.core s.ctx.core).seq, var := true }
            ∧ (∀ n, (t.core s.ctx.core).opslot n = (s.core s.ctx.core).opslot n)))
  ∧ (∀ (s : State) w a, s.clear { reads := [s.ra a], legal := !isKernel s.ctx.core } = true →
      (s.core s.ctx.core).tasks = [] → (∀ e ∈ (s.core s.ctx.core).opslots, e.2.releaseAt = none) →
      let m := (s.g (s.ra a)).toNat % 2 ^ 32
      ∃ t, exec (.mrel w a) s = .next t ∧ t.me.pc = s.nextPc ∧ s.me.moved t.me ∧ s.onlyCore t s.ctx.core
        ∧ (∀ n, m.testBit n = true → ((s.core s.ctx.core).opslot n).owner = some s.ctx.pn →
            ((t.core s.ctx.core).opslot n).owner = none ∧ ((t.core s.ctx.core).opslot n).filled = false)
        ∧ (∀ n, (m.testBit n = false ∨ ((s.core s.ctx.core).opslot n).owner ≠ some s.ctx.pn) →
            (t.core s.ctx.core).opslot n = (s.core s.ctx.core).opslot n))
  ∧ (∀ (s : State) w d a,
      let u : Use := { reads := [s.ra a], writes := [s.rd d], var := true, legal := !isKernel s.ctx.core, ready := (s.core s.ctx.core).tasks.length < 8 && (s.core s.ctx.core).futureFree }
      s.clear u = true →
      let c := s.core s.ctx.core
      (c.inScratchpad (s.g (s.ra a)) 64 = false → s.traps (.mtask w d a) w u .localbound (s.g (s.ra a)))
      ∧ (c.inScratchpad (s.g (s.ra a)) 64 = true → (s.g (s.ra a)).toNat % 64 ≠ 0 →
          s.traps (.mtask w d a) w u .align (s.g (s.ra a)))
      ∧ (c.inScratchpad (s.g (s.ra a)) 64 = true → (s.g (s.ra a)).toNat % 64 = 0 → s.awaitsOwn (.mtask w d a) w u)
      ∧ (c.inScratchpad (s.g (s.ra a)) 64 = true → (s.g (s.ra a)).toNat % 64 = 0 → s.quiet →
          ∃ t, exec (.mtask w d a) s = .next t ∧ s.allocates t (s.rd d) 2 none
            ∧ (t.core s.ctx.core).taskSeq = c.taskSeq + 1
            ∧ (t.core s.ctx.core).tasks = c.tasks ++ [{
                record := BitVec.ofNat 512 (packWords ((s.begun w u).recordWords s.ctx.core s.ctx.pn (s.g (s.ra a)) 8))
                pn := s.ctx.pn
                entry := c.freeOrder.headD 0, seq := c.taskSeq }]))
  ∧ (∀ (s : State) w d a b, s.clear { reads := [s.ra a, s.rb b], writes := [s.rd d], var := true, legal := !isKernel s.ctx.core } = true →
      ∃ t, exec (.mmerge w d a b) s = .next t
        ∧ s.waitsOn t .blockedSync (.merge (s.rd d) ((s.g (s.ra a)).getLsbD 0) ((s.g (s.rb b)).getLsbD 0)
            (s.core s.ctx.core).taskSeq)
        ∧ (t.core s.ctx.core).merges = (s.core s.ctx.core).merges ++ [{
            pn := s.ctx.pn, seq := (s.core s.ctx.core).taskSeq }]
        ∧ (∀ n, n < s.me.pend.length → t.me.isPending n = (s.me.isPending n || (n != 0 && n == s.rd d))))
  ∧ (∀ (s : State) w d a b, isKernel s.ctx.core = true → s.me.state = .running →
      (s.waitsTag { reads := [s.ra a], writes := [s.rd d], var := true, legal := !isKernel s.ctx.core } = false → s.waitsFlight { reads := [s.ra a], writes := [s.rd d], var := true, legal := !isKernel s.ctx.core } = false → exec (.mclaim w d a) s = .next (s.trap .ill 0))
      ∧ (s.waitsTag { reads := [s.ra a] } = false → exec (.mrel w a) s = .next (s.trap .ill 0))
      ∧ (s.waitsTag { reads := [s.ra a, s.rb b], writes := [s.rd d], var := true, legal := !isKernel s.ctx.core } = false → s.waitsFlight { reads := [s.ra a, s.rb b], writes := [s.rd d], var := true, legal := !isKernel s.ctx.core } = false → exec (.mmerge w d a b) s = .next (s.trap .ill 0)))

/-- O39 (R333, R334, R335, R337, R338). GSET, GRESUME and GKILL run on kernel cores alone, check their selector or process, and act as R333 to R338 say. The model’s choices, not the spec’s: a GRESUME or GKILL behind an earlier GSET, GRESUME or GKILL of its core blocks and is performed in its turn (log 25); class 8 naming a kernel core raises PROT (log 29) -/
def Obligations.GateInstructions : Prop :=
  (∀ (s : State) w a b, s.clear { reads := [s.ra a, s.rb b], legal := isKernel s.ctx.core } = true →
      let x := s.g (s.ra a)
      let y := s.g (s.rb b)
      let n := imageBytes (selClass x)
      (s.selectorOk s.ctx.core x = false → s.traps (.gset w a b) w { reads := [s.ra a, s.rb b], legal := isKernel s.ctx.core } .prot x)
      ∧ (s.selectorOk s.ctx.core x = true → (s.core s.ctx.core).inScratchpad y n = false →
          s.traps (.gset w a b) w { reads := [s.ra a, s.rb b], legal := isKernel s.ctx.core } .localbound y)
      ∧ (s.selectorOk s.ctx.core x = true → (s.core s.ctx.core).inScratchpad y n = true → y.toNat % min n 64 ≠ 0 →
          s.traps (.gset w a b) w { reads := [s.ra a, s.rb b], legal := isKernel s.ctx.core } .align y)
      ∧ (s.selectorOk s.ctx.core x = true → (s.core s.ctx.core).inScratchpad y n = true → y.toNat % min n 64 = 0 →
          ∃ t, exec (.gset w a b) s = .next t ∧ s.waitsOn t .blockedSync (.gset x y) ∧ t.me.pend = s.me.pend))
  ∧ (∀ (s : State) w a, s.clear { reads := [s.ra a], legal := isKernel s.ctx.core } = true →
      (s.core s.ctx.core).kernelHead.isSome = true → s.blocks (.gresume w a) w .blockedSync (.kernelOp false (s.g (s.ra a)))
        ∧ s.blocks (.gkill w a) w .blockedSync (.kernelOp true (s.g (s.ra a))))
  ∧ (∀ (s : State) w a, s.clear { reads := [s.ra a], legal := isKernel s.ctx.core } = true → (s.core s.ctx.core).kernelHead = none →
      let x := s.g (s.ra a)
      (pidOnDie s.ctx.core x = none → s.traps (.gresume w a) w { reads := [s.ra a], legal := isKernel s.ctx.core } .prot x)
      ∧ (∀ k n, pidOnDie s.ctx.core x = some (k, n) → (s.proc k n).state ≠ .faulted → s.traps (.gresume w a) w { reads := [s.ra a], legal := isKernel s.ctx.core } .prot x)
      ∧ (∀ k n, pidOnDie s.ctx.core x = some (k, n) → (s.proc k n).state = .faulted →
          ∃ t, exec (.gresume w a) s = .next t ∧ (t.proc k n).state = .ready
            ∧ (s.proc k n).keeps (t.proc k n) ∧ (t.proc k n).pc = (s.proc k n).pc
            ∧ (look [] (t.core k).ready (s.proc k n).prio.toNat).getLast? = some n
            ∧ t.me.pc = s.nextPc ∧ t.me.state = .running ∧ t.mem = s.mem ∧ t.dies = s.dies ∧ t.pkgs = s.pkgs
            ∧ (∀ j, j ≠ k → j ≠ s.ctx.core → t.core j = s.core j)))
  ∧ (∀ (s : State) w a, s.clear { reads := [s.ra a], legal := isKernel s.ctx.core } = true → (s.core s.ctx.core).kernelHead = none →
      let x := s.g (s.ra a)
      (pidOnDie s.ctx.core x = none → s.traps (.gkill w a) w { reads := [s.ra a], legal := isKernel s.ctx.core } .prot x)
      ∧ (∀ k, pidOnDie s.ctx.core x = some (k, 255) → s.traps (.gkill w a) w { reads := [s.ra a], legal := isKernel s.ctx.core } .prot x)
      ∧ (∀ k n, pidOnDie s.ctx.core x = some (k, n) → n ≠ 255 → (k ≠ s.ctx.core ∨ n ≠ s.ctx.pn) →
          (s.proc k n).state = .ready → (s.proc k n).wait = .none → (s.core k).slotOf n = none → s.me.wait = .none →
          ∃ t, exec (.gkill w a) s = .next t ∧ ((t.proc k n).state = .ended ∨ (t.proc k n).state = .free)
            ∧ t.me.pc = s.nextPc ∧ t.mem = s.mem)
      ∧ (∀ k n, pidOnDie s.ctx.core x = some (k, n) → n ≠ 255 → (s.proc k n).state ≠ .free →
          (s.proc k n).state ≠ .ended → s.me.wait = .none →
          ∃ t, exec (.gkill w a) s = .next t ∧ ((t.proc k n).state = .ended ∨ (t.proc k n).state = .free)
            ∧ (∀ i, (s.core k).slotOf n = some i → ((t.core k).slot i).proc = none)
            ∧ (∀ r ∈ (t.core k).reqs, r.pn = n → r.ended = true) ∧ (∀ r ∈ (t.core k).flight, r.pn ≠ n)
            ∧ (∀ r ∈ (t.core k).divider, r.pn ≠ n) ∧ (∀ r ∈ (t.core k).starts, r.pn = n → r.ended = true)
            ∧ (∀ r ∈ (t.core k).vecQ, r.pn = n → r.started = true)
            ∧ (∀ r ∈ (t.core k).copyQ, r.pn = n → r.started = true)
            ∧ (∀ e ∈ (t.core k).futures, e.2.used = true → e.2.owner = n → e.2.ownerLive = false)
            ∧ ((k ≠ s.ctx.core ∨ n ≠ s.ctx.pn) → t.me.pc = s.nextPc)))
  ∧ (∀ (s : State) w a b, isKernel s.ctx.core = false → s.me.state = .running →
      (s.waitsTag { reads := [s.ra a, s.rb b] } = false → exec (.gset w a b) s = .next (s.trap .ill 0))
      ∧ (s.waitsTag { reads := [s.ra a] } = false →
        exec (.gresume w a) s = .next (s.trap .ill 0) ∧ exec (.gkill w a) s = .next (s.trap .ill 0)))

/-- A switch has begun that brings a process into a slot: the slot issues from the fourth die cycle on (R11, R150). -/
def Sys2Proof.Machine.State.switchesIn (s t : State) (core i pn : Nat) : Prop :=
  ((t.core core).slot i).proc = some pn ∧ ((t.core core).slot i).switchEnd = some (s.ticks + 4)
  ∧ (s.proc core pn).keeps (t.proc core pn) ∧ (∀ q, pn ∉ look [] (t.core core).ready q) ∧ t.mem = s.mem
  ∧ (∀ k, k ≠ core → t.core k = s.core k)

/-- The process in a slot has been told to leave it, for another that is off the lists (R150, R152, R153). -/
def Sys2Proof.Machine.State.asksToLeave (s t : State) (core i : Nat) (why : Leave) (inc : Nat) : Prop :=
  (t.core core).slot i = { (s.core core).slot i with leaving := some (why, inc) }
  ∧ (∀ j, j ≠ i → (t.core core).slot j = (s.core core).slot j) ∧ (∀ n, t.proc core n = s.proc core n)
  ∧ t.mem = s.mem ∧ t.dies = s.dies ∧ t.pkgs = s.pkgs ∧ (∀ k, k ≠ core → t.core k = s.core k)

/-- O40 (R11, R31, R149, R150, R152, R153, R158). Placements, departures, switches, rotation, slot 15 and deadlines move processes as R11, R31 and R150 to R158 say -/
def Obligations.SchedulerEvents : Prop :=
  (∀ (s : State) core p h i, (s.core core).slots.length = 16 → (s.core core).headReady = some (p, h) →
      (s.core core).schedAt ≠ some s.ticks → i < 15 → ((s.core core).slot i).isEmpty = true →
      (∀ j, j < i → ((s.core core).slot j).isEmpty = false) →
      ∃ t, exec (.schedulerPlacement core) s = .next t ∧ s.switchesIn t core i h ∧ (t.proc core h).state = .running
        ∧ (∀ n, n ≠ h → t.proc core n = s.proc core n))
  ∧ (∀ (s : State) core p h i pn why, (s.core core).slots.length = 16 → (s.core core).headReady = some (p, h) →
      (s.core core).schedAt ≠ some s.ticks → (s.core core).chooseSlot s.ticks p = some (i, some why) → i < 16 →
      ((s.core core).slot i).proc = some pn → (s.proc core pn).state = .running →
      ∃ t, exec (.schedulerPlacement core) s = .next t ∧ s.asksToLeave t core i why h)
  ∧ (∀ (s : State) core, (s.core core).headReady = none → exec (.schedulerPlacement core) s = .next s)
  ∧ (∀ (s : State) core slot pn inc why, (s.core core).slots.length = 16 → slot < 16 →
      ((s.core core).slot slot).leaving = some (why, inc) → ((s.core core).slot slot).proc = some pn →
      (s.proc core pn).state = .running → (s.proc core pn).held = false → (s.proc core pn).wait = .none →
      (s.core core).inFlight pn = false → (why = .preempt ∨ why = .rotate) → inc < 1024 → inc ≠ pn →
      (s.proc core inc).state = .ready → (slot ≠ 15 ∨ ((s.core core).slot15Work = false ∧ pn ≠ 255)) →
      ∃ t, exec (.slotDeparture core slot) s = .next t ∧ s.switchesIn t core slot inc
        ∧ (t.proc core inc).state = .running ∧ (t.proc core pn).state = .ready ∧ (s.proc core pn).keeps (t.proc core pn)
        ∧ (t.proc core pn).pc = (s.proc core pn).pc
        ∧ (why = .preempt → (look [] (t.core core).ready (s.proc core pn).prio.toNat).head? = some pn)
        ∧ (why = .rotate → (look [] (t.core core).ready (s.proc core pn).prio.toNat).getLast? = some pn))
  ∧ (∀ (s : State) core pn inc why, (s.core core).slots.length = 16 →
      ((s.core core).slot 15).leaving = some (why, inc) → ((s.core core).slot 15).proc = some pn →
      (s.proc core pn).state = .running → (s.proc core pn).held = false → (s.proc core pn).wait = .none →
      (s.core core).inFlight pn = false → (why = .preempt ∨ why = .rotate) → inc < 1024 → inc ≠ pn →
      (s.proc core inc).state = .ready → (s.core core).slot15Work = true →
      ∃ t, exec (.slotDeparture core 15) s = .next t ∧ ((t.core core).slot 15).isEmpty = true
        ∧ (t.proc core pn).state = .ready ∧ (t.proc core inc).state = .ready
        ∧ (look [] (t.core core).ready (s.proc core inc).prio.toNat).head? = some inc)
  ∧ (∀ (s : State) core slot, ((s.core core).slot slot).leaving = none → exec (.slotDeparture core slot) s = .next s)
  ∧ (∀ (s : State) core slot pn e, (s.core core).slots.length = 16 → slot < 16 →
      ((s.core core).slot slot).switchEnd = some e → ((s.core core).slot slot).proc = some pn →
      (s.ticks < e → exec (.switchEnd core slot) s = .next s)
      ∧ (e ≤ s.ticks → (s.proc core pn).lateTrap = none → ∃ t, exec (.switchEnd core slot) s = .next t
        ∧ (t.core core).slot slot = { (s.core core).slot slot with switchEnd := none }
        ∧ (∀ n, t.proc core n = s.proc core n) ∧ s.onlyCore t core))
  ∧ (∀ (s : State) core p h i pn e, (s.core core).slots.length = 16 → (s.core core).headReady = some (p, h) →
      (s.core core).schedAt ≠ some s.ticks → (s.core core).chooseSlot s.ticks p = some (i, some .displace) → i < 16 →
      ((s.core core).slot i).settled = some pn → (s.proc core pn).state = .running → (s.proc core pn).tagSince = some e →
      (e + 64 ≤ s.ticks → ∃ t, exec (.pendingWaitExpiry core i) s = .next t ∧ s.asksToLeave t core i .displace h)
      ∧ (s.ticks < e + 64 → exec (.pendingWaitExpiry core i) s = .next s))
  ∧ (∀ (s : State) core, (s.core core).slots.length = 16 →
      (s.rotating core = none → exec (.rotation core) s = .next s)
      ∧ (∀ i h, s.rotating core = some (i, h) → ∃ t, exec (.rotation core) s = .next t
        ∧ s.asksToLeave t core i .rotate h
        ∧ (∃ pn, ((s.core core).slot i).proc = some pn ∧ 16384 ≤ s.ticks - (s.proc core pn).rot
          ∧ h ∈ look [] (s.core core).ready ((s.proc core pn).prioAt s.ticks).toNat)))
  ∧ (∀ (s : State) core, (s.core core).slots.length = 16 →
      (∀ pn, ((s.core core).slot 15).resident = some pn → pn < 255 → (s.proc core pn).state = .running →
        ((s.core core).handlerWork = true ∨ (s.core core).overflowWork = true) →
        ∃ t, exec (.slot15Handover core) s = .next t ∧ s.asksToLeave t core 15 .slot15 1024)
      ∧ (((s.core core).slot 15).isEmpty = true → (s.core core).overflowWork = true → (s.core core).handlerWork = false →
        ∃ t, exec (.slot15Handover core) s = .next t ∧ s.switchesIn t core 15 255 ∧ (t.proc core 255).state = .running)
      ∧ ((s.core core).handlerWork = false → (s.core core).overflowWork = false →
        exec (.slot15Handover core) s = .next s))
  ∧ (∀ (s : State) core pn (e : Word), (s.proc core pn).wait = .sleep e → (s.proc core pn).state = .sleeping →
      (s.proc core pn).moving = false →
      ((s.cyc (dieOf core)).toNat < e.toNat → exec (.sleepDeadline core pn) s = .next s)
      ∧ (e.toNat ≤ (s.cyc (dieOf core)).toNat → ∃ t, exec (.sleepDeadline core pn) s = .next t
        ∧ (s.proc core pn).keeps (t.proc core pn) ∧ (t.proc core pn).pc = (s.proc core pn).pc
        ∧ (t.proc core pn).wait = .none ∧ s.onlyCore t core ∧ (∀ n, n ≠ pn → t.proc core n = s.proc core n)
        ∧ ((s.core core).slotOf pn ≠ none → (t.proc core pn).state = .running)
        ∧ ((s.core core).slotOf pn = none → (t.proc core pn).state = .ready
          ∧ (look [] (t.core core).ready (s.proc core pn).prio.toNat).getLast? = some pn)))
  ∧ (∀ (s : State) core pn, (s.proc core pn).wait = .align → (s.proc core pn).held = true →
      (s.ticks < (s.proc core pn).waitSince + 256 → exec (.alignTimeout core pn) s = .next s)
      ∧ ((s.proc core pn).waitSince + 256 ≤ s.ticks → ∃ t, exec (.alignTimeout core pn) s = .next t
        ∧ t.proc core pn = { s.proc core pn with held := false, wait := .none }
        ∧ (∀ n, n ≠ pn → t.proc core n = s.proc core n) ∧ t.mem = s.mem ∧ (∀ k, k ≠ core → t.core k = s.core k)))

/-- O41 (R27, R28, R29, R100, R124, R132, R358). Lines, fills, IFSYNC, the store buffer and retries go on as R27 to R29, R100, R124 and R132 say. The model’s choices, not the spec’s: a fetch below 2^48 finds PROT (log 27), a next-line request that hits is answered after 4 die cycles (log 9), and a barred memory request of the own package is discarded as it leaves (log 19) -/
def Obligations.FetchAndBufferEvents : Prop :=
  (∀ (s : State) die cl, (s.portLines die cl = [] ∨ (s.cluster die cl).portAt = some s.ticks) →
      exec (.lineDelivery die cl) s = .next s)
  ∧ (∀ (s : State) die cl core i pn l since b, dieOf core = die → clusterOf core = cl → i < 16 →
      (s.core core).slots.length = 16 → (s.cluster die cl).invalidating = [] →
      (s.cluster die cl).portAt ≠ some s.ticks → (s.cluster die cl).asks = [(l, core, i, since)] →
      since + 4 ≤ s.ticks → (s.cluster die cl).find (s.jobOf core) (l / 4) = some b →
      ((s.core core).slot i).proc = some pn → (s.proc core pn).pc.toNat / 16 = l → l ∈ ((s.core core).slot i).want →
      ∃ t, exec (.lineDelivery die cl) s = .next t
        ∧ ((t.core core).slot i).cur = some { addr := l, bytes := (b.drop (l % 4 * 16)).take 16 }
        ∧ (t.cluster die cl).portAt = some s.ticks
        ∧ t.mem = s.mem ∧ t.pkgs = s.pkgs ∧ (∀ n, t.proc core n = s.proc core n) ∧ (∀ k, k ≠ core → t.core k = s.core k))
  ∧ (∀ (s : State) die cl job line core u b, (s.cluster die cl).invalidating = [] → (s.cluster die cl).asks = [] →
      (s.cluster die cl).fills = [(job, line, core)] →
      s.fillFrom core job line = (u, some (.inl b)) →
      ∃ t, exec (.icacheFill die cl 0) s = .next t ∧ (t.cluster die cl).find job line = some b
        ∧ (t.cluster die cl).fills = [] ∧ t.mem = u.mem ∧ t.cores = u.cores)
  ∧ (∀ (s : State) die cl job line core u, (s.cluster die cl).invalidating = [] → (s.cluster die cl).asks = [] →
      (s.cluster die cl).fills = [(job, line, core)] → s.fillFrom core job line = (u, none) →
      exec (.icacheFill die cl 0) s = .next u)
  ∧ (∀ (s : State) core job line, line * 64 < 2 ^ 48 → s.fillFrom core job line = (s, some (.inr .prot)))
  ∧ (∀ (s : State) die cl idx, (s.cluster die cl).invalidating ≠ [] → (s.cluster die cl).asks = [] →
      exec (.icacheFill die cl idx) s = .next s)
  ∧ (∀ (s : State) core pn x, (s.proc core pn).wait = .ifsync 0 x →
      ((s.core core).storesDone pn (s.core core).nextTag = false → exec (.ifsyncRelease core pn) s = .next s)
      ∧ ((s.core core).storesDone pn (s.core core).nextTag = true → ∃ t, exec (.ifsyncRelease core pn) s = .next t
        ∧ (t.proc core pn).wait = .ifsync 1 (s.ticks + 600) ∧ (t.cluster (dieOf core) (clusterOf core)).lines = []
        ∧ (core, pn) ∈ (t.cluster (dieOf core) (clusterOf core)).invalidating
        ∧ (∀ i, (s.core core).slotOf pn = some i → ((t.core core).slot i).cur = none
          ∧ ((t.core core).slot i).nextLine = none ∧ ((t.core core).slot i).last = none)
        ∧ t.mem = s.mem ∧ (∀ k, k ≠ core → t.core k = s.core k)))
  ∧ (∀ (s : State) core pn i x, (s.proc core pn).wait = .ifsync 1 x → (s.core core).slotOf pn = some i →
      (s.proc core pn).state = .blockedSync →
      ∃ t, exec (.ifsyncRelease core pn) s = .next t ∧ (t.proc core pn).state = .running
        ∧ (t.proc core pn).pc = (s.proc core pn).pc ∧ (s.proc core pn).keeps (t.proc core pn)
        ∧ (core, pn) ∉ (t.cluster (dieOf core) (clusterOf core)).invalidating ∧ t.mem = s.mem)
  ∧ (∀ (s : State) core tag r, (s.core core).req tag = some r → r.tag = tag →
      (r.phase ≠ .buffered → exec (.storeBufferDrain core tag) s = .next s)
      ∧ (r.phase = .buffered → r.order ≠ .strong → r.lost = false → s.reqShut core r = false → r.homePkg = pkgOf core →
        ∃ t, exec (.storeBufferDrain core tag) s = .next t ∧ (t.core core).req tag = some { r with phase := .sent }
          ∧ (t.core core).reqs.length = (s.core core).reqs.length ∧ s.onlyCore t core
          ∧ (∀ n, t.proc core n = s.proc core n))
      ∧ (r.phase = .buffered → r.order ≠ .strong → r.lost = false → s.reqShut core r = false → r.homePkg ≠ pkgOf core →
        ∃ t, exec (.storeBufferDrain core tag) s = .next t ∧ (t.core core).req tag = some { r with phase := .sent }
          ∧ t.net.length = s.net.length + 1 ∧ t.mem = s.mem ∧ (∀ n, t.proc core n = s.proc core n))
      ∧ (r.phase = .buffered → r.order ≠ .strong → s.reqShut core r = true →
        ∃ t, exec (.storeBufferDrain core tag) s = .next t
          ∧ (t.core core).req tag = some { r with phase := .sent, lost := true }
          ∧ (t.pkg (pkgOf core)).isldrop = (s.pkg (pkgOf core)).isldrop + 1 ∧ t.net = s.net ∧ t.mem = s.mem
          ∧ (∀ n, t.proc core n = s.proc core n)))
  ∧ (∀ (s : State) core tag r i, (s.core core).req tag = some r → r.tag = tag → r.phase = .full → r.blocks = false →
      (s.proc core r.pn).wait = .bufferFull tag → (s.proc core r.pn).state = .blockedSync →
      (s.core core).slotOf r.pn = some i → r.homePkg = pkgOf core → r.lost = false → s.reqShut core r = false →
      ((s.core core).entryFree r = false → exec (.bufferEntryFreed core tag) s = .next s)
      ∧ ((s.core core).entryFree r = true → ∃ t, exec (.bufferEntryFreed core tag) s = .next t
        ∧ (t.core core).req tag = some { r with phase := if r.kind.buffered && !r.ownPool then .buffered else .sent }
        ∧ (t.proc core r.pn).state = .running ∧ (t.proc core r.pn).pc = (s.proc core r.pn).pc ∧ s.onlyCore t core))
  ∧ (∀ (s : State) core tag r, (s.core core).req tag = some r → r.tag = tag → r.phase = .refused → r.homePkg = pkgOf core →
      r.lost = false → s.reqShut core r = false →
      (s.ticks < r.due → exec (.requestRetry core tag) s = .next s)
      ∧ (r.due ≤ s.ticks → ∃ t, exec (.requestRetry core tag) s = .next t
        ∧ (t.core core).req tag = some { r with phase := .sent } ∧ s.onlyCore t core
        ∧ (∀ n, t.proc core n = s.proc core n)))

/-- O42 (R119, R127, R131, R137). An access to the core’s own pool is performed at its arrival, changes what its service changes, and waits where it must -/
def Obligations.ArrivalsAtThePool : Prop :=
  (∀ (s : State) core tag r k m r', (s.core core).req tag = some r → r.tag = tag → r.phase = .sent → r.homeWait = false → r.due ≤ s.ticks →
      s.mayPerform core r = true → r.place = .bytes k → r.ownPool = true → r.home = core → r.homeIsDie = false → r.lost = false →
      (s.die (dieOfKey k)).waits = [] → s.findPacket (.memory core tag) = none → r.plain = true →
      s.mem.serve r (pidOf core r.pn) k (s.wordSeen core r.pn r.path (k / 8)) = some (m, r') →
      ∃ t, exec (.memoryRequestArrival core tag) s = .next t ∧ t.mem = m
        ∧ (r.kind.buffered = true → (t.core core).req tag = none)
        ∧ (r.kind.buffered = false → (t.core core).req tag = some r')
        ∧ (∀ j, j ≠ core → t.core j = s.core j) ∧ t.pkgs = s.pkgs)
  ∧ (∀ (s : State) core tag r k m r', (s.core core).req tag = some r → r.tag = tag → r.phase = .sent → r.homeWait = false → r.due ≤ s.ticks →
      s.mayPerform core r = true → r.place = .bytes k → r.ownPool = true → r.home = core → r.homeIsDie = false → r.lost = false →
      (s.die (dieOfKey k)).waits = [] → s.findPacket (.memory core tag) = none → r.syncs = true →
      s.mem.serve r (pidOf core r.pn) k (s.wordSeen core r.pn r.path (k / 8)) = some (m, r') → r.kind.buffered = false →
      ∃ t, exec (.syncRequestArrival core tag) s = .next t ∧ t.mem = m ∧ (t.core core).req tag = some r'
        ∧ (∀ j, j ≠ core → t.core j = s.core j) ∧ t.pkgs = s.pkgs)
  ∧ (∀ (s : State) core tag r k, (s.core core).req tag = some r → r.tag = tag → r.phase = .sent → r.homeWait = false → r.due ≤ s.ticks →
      s.mayPerform core r = true → r.place = .bytes k → r.ownPool = true → r.home = core → r.homeIsDie = false → r.lost = false →
      (s.die (dieOfKey k)).waits = [] → s.findPacket (.memory core tag) = none → r.syncs = true →
      s.mem.serve r (pidOf core r.pn) k (s.wordSeen core r.pn r.path (k / 8)) = none →
      ∃ t, exec (.syncRequestArrival core tag) s = .next t ∧ t.mem = s.mem
        ∧ (t.core core).req tag = some { r with phase := .waiting }
        ∧ (t.die (dieOfKey k)).waits = [{ word := k / 8, core := core, tag := tag, server := poolServer core, job := r.job }]
        ∧ (∀ j, j ≠ core → t.core j = s.core j) ∧ t.pkgs = s.pkgs)
  ∧ (∀ (s : State) core tag, (∀ r, (s.core core).req tag = some r → r.phase ≠ .sent) →
      exec (.memoryRequestArrival core tag) s = .next s ∧ exec (.syncRequestArrival core tag) s = .next s)

/-- O43 (R119, R120, R123, R129, R130, R133, R136, R144, R166, R325). Answers write their registers, clear their tags, raise POISON or a trap, and release their processes -/
def Obligations.AnswersReachTheirProcesses : Prop :=
  (∀ (s : State) core tag r, (s.core core).req tag = some r → r.tag = tag → r.phase = .performed → r.fault = none → r.mesh = false →
      s.findPacket (.answer core tag) = none → r.ended = false → r.withdrawn = false →
      ((∃ g, r.kind = .load g) ∨ (∃ op, r.kind = .amo op) ∨ r.kind = .cas) → (s.proc core r.pn).wait = .none →
      (s.proc core r.pn).state = .running → 0 < r.dest → r.dest < (s.proc core r.pn).regs.length →
      r.dest < (s.proc core r.pn).pend.length →
      (r.poisoned = false → ∃ t, exec (.memoryResponse core tag) s = .next t
        ∧ (t.proc core r.pn).reg r.dest = r.loadValue ∧ (t.proc core r.pn).isPending r.dest = false
        ∧ (∀ n, n ≠ r.dest → (t.proc core r.pn).reg n = (s.proc core r.pn).reg n)
        ∧ (t.proc core r.pn).fctl = ((s.proc core r.pn).orFctl r.flags).fctl
        ∧ (t.proc core r.pn).pc = (s.proc core r.pn).pc ∧ (t.proc core r.pn).state = .running
        ∧ (t.core core).reqs = (s.core core).reqs.filter (fun x => x.tag != tag) ∧ s.onlyCore t core)
      ∧ (r.poisoned = true → ∃ t, exec (.memoryResponse core tag) s = .next t
        ∧ (t.proc core r.pn).asyncTrap
          = (s.proc core r.pn).asyncTrap.or
              (some (.poison, (match r.place with | .window _ _ => r.cmp | _ => r.ea) &&& ~~~(63 : Word)))
        ∧ (t.proc core r.pn).pend = (s.proc core r.pn).pend ∧ (s.proc core r.pn).keeps (t.proc core r.pn)
        ∧ (t.core core).reqs = (s.core core).reqs.filter (fun x => x.tag != tag) ∧ s.onlyCore t core))
  ∧ (∀ (s : State) core tag r i, (s.core core).req tag = some r → r.tag = tag → r.phase = .performed → r.fault = none → r.mesh = false →
      s.findPacket (.answer core tag) = none → r.ended = false → r.withdrawn = false → (r.kind = .readf ∨ r.kind = .take) → r.poisoned = false →
      (s.proc core r.pn).state = .blockedSync → (s.proc core r.pn).wait = .access tag → (s.core core).slotOf r.pn = some i →
      0 < r.dest → r.dest < (s.proc core r.pn).regs.length → r.dest < (s.proc core r.pn).pend.length →
      ∃ t, exec (.syncCompletion core tag) s = .next t
        ∧ (t.proc core r.pn).reg r.dest = r.result ∧ (t.proc core r.pn).isPending r.dest = false
        ∧ (∀ n, n ≠ r.dest → (t.proc core r.pn).reg n = (s.proc core r.pn).reg n)
        ∧ (t.proc core r.pn).state = .running ∧ (t.proc core r.pn).pc = (s.proc core r.pn).pc
        ∧ (t.core core).reqs = (s.core core).reqs.filter (fun x => x.tag != tag) ∧ s.onlyCore t core)
  ∧ (∀ (s : State) core pn c a, (s.proc core pn).asyncTrap = some (c, a) → (s.proc core pn).held = false →
      (s.proc core pn).state = .running →
      ∃ u, exec (.poisonDelivery core pn) s = .next (u.trapAt core pn c a (s.proc core pn).pc (s.codeWord core pn))
        ∧ u.proc core pn = { s.proc core pn with asyncTrap := none } ∧ s.onlyCore u core)
  ∧ (∀ (s : State) core pn, (s.proc core pn).asyncTrap = none → exec (.poisonDelivery core pn) s = .next s)
  ∧ (∀ (s : State) core tag r c a, (s.core core).req tag = some r → r.mesh = true → r.answered = false →
      r.phase = .performed → r.fault = some (c, a) → r.ended = false → r.release = false →
      ∃ u, exec (.meshAccessAnswer core tag) s = .next (u.trapBlocked core r.pn c a)
        ∧ (s.proc core r.pn).keeps (u.proc core r.pn) ∧ s.onlyCore u core)
  ∧ (∀ (s : State) core tag r i, (s.core core).req tag = some r → r.tag = tag → r.mesh = true → r.answered = false →
      r.phase = .performed → r.fault = none → r.ended = false →
      ((∃ g, r.kind = .load g) ∨ r.kind = .store ∨ (∃ op, r.kind = .amo op)) →
      (s.proc core r.pn).state = .blockedSync → (s.proc core r.pn).wait = .access tag → (s.core core).slotOf r.pn = some i →
      ∃ t, exec (.meshAccessAnswer core tag) s = .next t ∧ (t.proc core r.pn).state = .running
        ∧ (t.proc core r.pn).pc = (s.proc core r.pn).pc ∧ (s.proc core r.pn).keeps (t.proc core r.pn) ∧ s.onlyCore t core)
  ∧ (∀ (s : State) core tag r, (s.core core).req tag = some r →
      (r.withdrawn = false → exec (.syncWithdrawal core tag) s = .next s)
      ∧ (r.withdrawn = true → (r.phase = .sent ∨ r.phase = .full) → r.homeWait = false →
          exec (.syncWithdrawal core tag) s = .next s)
      ∧ (r.withdrawn = true → ((r.phase ≠ .sent ∧ r.phase ≠ .full) ∨ r.homeWait = true) → ∃ t, exec (.syncWithdrawal core tag) s = .next t ∧ t.mem = s.mem
        ∧ (t.core core).req tag = none ∧ (∀ k, k ≠ core → t.core k = s.core k)))
  ∧ (∀ (s : State) die w rest core pn r p large, (s.die die).walks = w :: rest → w.stale = false →
      w.asker = .access core pn → (s.proc core pn).wait = .walk r → r.ea.toNat = w.va →
      let u := s.modDie die (fun d => { d with walks := rest })
      u.walk die w.job w.va = .leaf p large →
      (p.getLsbD 0 = false → exec (.tlbWalkCompletion die 0) s = .next (u.trapBlocked core pn (absentCause p) r.ea))
      ∧ (p.getLsbD 0 = true → ∃ t, exec (.tlbWalkCompletion die 0) s = .next t
        ∧ (∃ e, (t.core core).tlbFind w.job w.va = some e) ∧ t.mem = s.mem))
  ∧ (∀ (s : State) die w rest server core tag r k, (s.die die).walks = w :: rest → w.asker = .home server core tag →
      (s.core core).req tag = some r → serverOf r.target = server → r.host = false → r.homePkg = pkgOf core →
      let u := s.modDie die (fun d => { d with walks := rest })
      ∀ v, u.homeKey r.home r.target r.job r.ea.toNat = (v, some k) →
      r.tag = tag → (v.die (dieOfKey k)).waits = [] →
      ∀ m q, v.mem.serve { r with homeWait := false } (pidOf core r.pn) k (v.wordSeen core r.pn r.path (k / 8)) = some (m, q) →
      ∃ t, exec (.homeWalkCompletion die 0) s = .next t ∧ t.mem = m)
  ∧ (∀ (s : State) core pn r, (s.core core).reqs = [r] → r.pn = pn → r.kind = .iterClaim → r.phase = .performed →
      r.fault = none → s.findPacket (.answer core r.tag) = none → r.ended = false → r.poisoned = false →
      (s.proc core pn).wait = .none → (s.proc core pn).state = .running → 0 < r.dest →
      r.dest + 3 < (s.proc core pn).regs.length → (s.proc core pn).iter.exhausted = false →
      (s.proc core pn).iter.gen = r.nest →
      (s.proc core pn).iter.next = (s.proc core pn).iter.stop →
      let e := (s.proc core pn).iter
      let k := claimChunk e.count (2 * e.part) e.minch r.result.toNat
      ∃ t, exec (.iterClaimResponse core pn) s = .next t ∧ (t.core core).reqs = [] ∧ s.onlyCore t core
        ∧ (k = 0 → (t.proc core pn).iter = { e with exhausted := true } ∧ (t.proc core pn).reg r.dest = -1
          ∧ (t.proc core pn).reg (r.dest + 1) = 0)
        ∧ (k ≠ 0 → (t.proc core pn).iter = { e with next := r.result.toNat + 1, stop := r.result.toNat + k }
          ∧ (t.proc core pn).reg r.dest = r.result ∧ (t.proc core pn).reg (r.dest + 1) = word (r.result.toNat % e.e0)))

/-- O44 (R162, R163, R168, R169, R170, R191, R194, R197, R203, R206). Handlers start and end, guards time out, regions open and commit, probes travel, and barriers release as their rules say. The model’s choices, not the spec’s: of several SPECB waiters the one that has waited longest takes a freed hold buffer (log 12) -/
def Obligations.HandlersRegionsAndProbes : Prop :=
  (∀ (s : State) core m rest, (s.core core).slots.length = 16 → (s.core core).handler = none →
      ((s.core core).slot 15).isEmpty = true → (s.core core).normal = m :: rest →
      let e : BitVec 512 := look 0 (s.core core).handlers m.msg.hidx.toNat
      (m.msg.kind = 2 ∨ (m.msg.kind = 3 ∧ e.getLsbD 63 = true)) →
      ∃ t, exec (.handlerStart core) s = .next t ∧ (t.core core).handler = some m
        ∧ ((t.core core).slot 15).proc = some 256 ∧ ((t.core core).slot 15).switchEnd = some (s.ticks + 4)
        ∧ (t.proc core 256).state = .running ∧ (t.proc core 256).wsz = 16
        ∧ (m.msg.kind = 2 → (t.proc core 256).pc = word (inboxBase (s.core core).part + m.first * 64 + 64)
          ∧ (t.proc core 256).reg 3 = 0)
        ∧ (m.msg.kind = 3 → (t.proc core 256).pc = e.setWidth 64 &&& 0xFFFFFFFFFFFFFC
          ∧ (t.proc core 256).reg 3 = e.extractLsb' 64 64)
        ∧ (∀ k, k < 7 → (t.proc core 256).reg (5 + k) = m.msg.words.getD k 0)
        ∧ (t.proc core 256).reg 12 = m.msg.sender.setWidth 64 ∧ t.mem = s.mem
        ∧ (∀ n, n ≠ 256 → t.proc core n = s.proc core n) ∧ (∀ k, k ≠ core → t.core k = s.core k))
  ∧ (∀ (s : State) core, ((s.core core).handler ≠ none ∨ (∀ m ∈ (s.core core).normal, m.msg.kind.toNat < 2)) →
      exec (.handlerStart core) s = .next s)
  ∧ (∀ (s : State) core base n m, (s.core core).handler = some m → (s.core core).inlineCode = some (base, n) →
      (s.proc core 256).state = .running →
      let pc := (s.proc core 256).pc.toNat
      let a := (if (s.proc core 256).inRep = true then pc + 4 else pc)
      let ends := pc = base + 4 * (n - 1) ∧ (BitVec.ofNat 32 (s.mem.read (poolKey core pc) 4)).extractLsb' 24 6 = 0x15#6
      (base ≤ a → a < base + 4 * n → ¬ ends → exec (.handlerEnd core) s = .next s)
      ∧ ((a < base ∨ base + 4 * n ≤ a ∨ ends) → ∃ t, exec (.handlerEnd core) s = .next t
        ∧ (t.core core).handler = none ∧ (t.proc core 256).state = .free
        ∧ (t.core core).normal = (s.core core).normal.filter (fun x => x.first != m.first)
        ∧ (∃ p, t.net = s.net ++ [p] ∧ p.dst = m.msg.sender.toNat / 256 ∧ p.body = .credit m.msg.back) ∧ t.mem = s.mem))
  ∧ (∀ (s : State) core pn dest (e : Word) (tag : BitVec 4) i, (s.proc core pn).wait = .alt dest →
      (s.proc core pn).state = .alt → (s.core core).slotOf pn = some i →
      (s.proc core pn).altSet = { guards := [], timeout := some (e, tag, true) } →
      0 < dest → dest < (s.proc core pn).regs.length →
      ((s.cyc (dieOf core)).toNat < e.toNat → exec (.altTimeout core pn) s = .next s)
      ∧ (e.toNat ≤ (s.cyc (dieOf core)).toNat → ∃ t, exec (.altTimeout core pn) s = .next t
        ∧ (t.proc core pn).reg dest = word (tag.toNat + 256) ∧ (t.proc core pn).state = .running
        ∧ (t.proc core pn).altSet = {} ∧ (t.proc core pn).pc = (s.proc core pn).pc ∧ s.onlyCore t core))
  ∧ (∀ (s : State) core pn i, (s.core core).hold.owner = none → (s.core core).specWaiter = some pn →
      (s.core core).slotOf pn = some i → (s.proc core pn).state = .blockedSync →
      ∃ t, exec (.holdBufferFreed core) s = .next t ∧ (t.core core).hold = { owner := some pn }
        ∧ (t.proc core pn).state = .running ∧ (s.proc core pn).keeps (t.proc core pn) ∧ s.onlyCore t core)
  ∧ (∀ (s : State) core, (s.core core).hold.owner ≠ none → exec (.holdBufferFreed core) s = .next s)
  ∧ (∀ (s : State) core pn i, (s.core core).hold.owner = some pn → (s.core core).hold.committing = true →
      (s.core core).slotOf pn = some i → (s.proc core pn).state = .blockedSync →
      ((s.core core).hold.items = [] → (s.core core).committed pn = true →
        ∃ t, exec (.commitCompletion core) s = .next t ∧ (t.core core).hold = {} ∧ (t.proc core pn).state = .running
          ∧ (s.proc core pn).keeps (t.proc core pn) ∧ s.onlyCore t core)
      ∧ (∀ r rest, (s.core core).hold.items = .store r :: rest → (s.core core).entryFree r = true →
        ∃ t, exec (.commitCompletion core) s = .next t ∧ (t.core core).hold.items = rest
          ∧ (t.core core).reqs.length = (s.core core).reqs.length + 1 ∧ t.mem = s.mem))
  ∧ (∀ (s : State) core, (s.core core).hold.committing = false → exec (.commitCompletion core) s = .next s)
  ∧ (∀ (s : State) core pn h, (s.proc core pn).wait ≠ .none →
      (s.ticks < (s.proc core pn).probeAt → exec (.probeSend core pn) s = .next s)
      ∧ ((s.proc core pn).probeAt ≤ s.ticks → s.waitEdges core pn = [h] →
        ∃ t, exec (.probeSend core pn) s = .next t ∧ (t.proc core pn).probeAt = (s.proc core pn).probeAt + 4096
          ∧ (∃ p, t.net = s.net ++ [p] ∧ p.src = core ∧ p.dst = (s.ep core h).peerCore
            ∧ p.body = .probe (pidOf core pn) (s.proc core pn).waitSince h (s.ep core h).wseq.toNat (pidOf core pn) 0 [] false)
          ∧ (s.proc core pn).keeps (t.proc core pn) ∧ t.mem = s.mem))
  ∧ (∀ (s : State) pkt p origin seq h hseq pid hops record trunc, s.arrived pkt = some p →
      p.body = .probe origin seq h hseq pid hops record trunc →
      let u := s.unpacket pkt
      let e := u.ep (pid / 256) h
      let q := u.proc (e.peerPid / 256) (e.peerPid % 256)
      (h ∉ u.waitEdges (pid / 256) (pid % 256) → exec (.probeArrival pkt) s = .next u)
      ∧ (h ∈ u.waitEdges (pid / 256) (pid % 256) → e.wseq.toNat = hseq → e.peerPid = origin → q.waitSince = seq → q.reported ≠ seq →
        ∀ k d, q.wait = .receiving k d → (u.ep (e.peerPid / 256) k).state = 2 →
        ∃ v : State, exec (.probeArrival pkt) s = .next (v.trapBlocked (e.peerPid / 256) (e.peerPid % 256) .deadlock (word k))
          ∧ (∃ m ∈ (v.core (e.peerPid / 256)).faultOut, m.kind = 3 ∧ m.cause = 0x14 ∧ m.faddr = word k
            ∧ m.pid = BitVec.ofNat 31 (pidOf (e.peerPid / 256) (e.peerPid % 256))))
      ∧ (e.peerPid = origin → q.reported = seq → exec (.probeArrival pkt) s = .next u))
  ∧ (∀ (s : State) core pn upto x l r i, (s.proc core pn).wait = .doneBarrier upto x → s.launchOf core = some (l, r) →
      (s.core core).slotOf pn = some i → (s.proc core pn).state = .blockedSync →
      ((s.core core).accessesDone pn upto = false → exec (.barrierAck core pn) s = .next s)
      ∧ ((s.core core).accessesDone pn upto = true → ∃ t, exec (.barrierAck core pn) s = .next t
        ∧ (∀ q ∈ (t.die l.die).running, q.id = l.id → core ∉ q.undone) ∧ (t.proc core pn).state = .running
        ∧ (s.proc core pn).keeps (t.proc core pn) ∧ t.mem = s.mem ∧ (∀ k, k ≠ core → t.core k = s.core k)))
  ∧ (∀ (s : State) core pn d l r x y m n i, (s.proc core pn).wait = .barrier d → s.launchOf core = some (l, r) →
      subRect l (d.setWidth 64) = some (x, y, m, n) → (s.core core).slotOf pn = some i →
      (s.proc core pn).state = .blockedSync →
      (barrierCount l r x y m n ≠ 0 → exec (.bwaitRelease core pn) s = .next s)
      ∧ (barrierCount l r x y m n = 0 → ∃ t, exec (.bwaitRelease core pn) s = .next t
        ∧ (t.proc core pn).state = .running ∧ (t.proc core pn).pc = (s.proc core pn).pc
        ∧ (s.proc core pn).keeps (t.proc core pn) ∧ s.onlyCore t core))

/-- The bytes of a multicast reach the die of a core of the rectangle now (R317, R358, R383). -/
def Sys2Proof.Machine.State.reaches (s : State) (core target : Nat) : Prop :=
  s.crosses core (dieOf target) (s.jobOf core) 0 (2 ^ 22 * target) 2 (word (2 ^ 21 * target)) (.engine core (2 ^ 21 * target))
    = (s, .there)

/-- A future of a core has ended with a status: state, reason and flags in its word, LATE where its promise
has passed (R235), FAILED with the teardown's reason where its job is torn down (R232, R248); the entry is free again
(R237, R239). -/
def Sys2Proof.Machine.State.futureEnds (s t : State) (core entry state : Nat) (reason : BitVec 8) (flags : BitVec 5) : Prop :=
  let f := (s.core core).future entry
  let torn := if state = 1 ∧ f.engine.toNat < 3 then s.tearReason (dieOf core) (s.jobOf core) else none
  ((t.core core).future entry).used = false
  ∧ ((t.core core).future entry).status
      = futureWord ((s.core core).handleFor core entry) (if torn.isSome then 2 else state) (f.late || s.isLate core entry)
          flags f.engine.toNat (torn.getD reason).toNat 0

/-- No sync operation waits anywhere, so that a write releases none (R131). -/
def Sys2Proof.Machine.State.noWaiters (s : State) : Prop := ∀ d, (s.die d).waits = []

/-- A vector operation with the registers and the shape records it starts with (R210, R215). -/
def Sys2Proof.Machine.State.loads (s : State) (core : Nat) (v : VecOp) : VecOp :=
  let v : VecOp := { v with regs := (s.core core).vecA }
  { v with recs := (s.shapeRecords core v.pn v.addresses).2 }

/-- The record check that fails first at the start of a vector operation (R215, R378). -/
def Sys2Proof.Machine.State.startFault (s : State) (core : Nat) (v : VecOp) : Option Cause :=
  (s.loads core v).recordFault (s.core core)
    ((s.loads core v).addresses.any (fun x => (s.mem.poisonIn (poolKey core x.2.toNat) 32).isSome))

/-- A copy with the registers it starts with (R210, R228). -/
def Sys2Proof.Machine.State.captures (s : State) (core : Nat) (o : CopyOp) : CopyOp :=
  let g := (s.core core).copyA.geometry
  { o with len := g.len, rows := g.rows, spitch := g.spitch, dpitch := g.dpitch, rect := g.rect }

/-- O45 (R208, R210, R215, R218, R228, R229, R233, R235, R237, R239, R241). Futures turn LATE, and vector operations and copies start, stop, land and complete as R208 to R235 say. The model’s choices, not the spec’s: an operation with an empty destination skips its operand checks, and vectors and copies read and write at one moment, their completion (log 13) -/
def Obligations.EngineEvents : Prop :=
  (∀ (s : State) core e, s.isLate core e = false → exec (.lateMark core e) s = .next s)
  ∧ (∀ (s : State) core e p, ((s.core core).future e).used = true → ((s.core core).future e).late = false →
      ((s.core core).future e).promise = some p → (s.core core).waiters.all (fun w => w.1 != e) = true →
      p.toNat < (s.cyc (dieOf core)).toNat →
      ∃ t, exec (.lateMark core e) s = .next t ∧ (t.core core).future e = { (s.core core).future e with late := true }
        ∧ (∀ n, t.proc core n = s.proc core n) ∧ s.onlyCore t core)
  ∧ (∀ (s : State) pkt, s.arrived pkt = none → exec (.futureTableRequest pkt) s = .next s)
  ∧ (∀ (s : State) pkt p h pid d x i, s.arrived pkt = some p → p.body = .futureWait h pid →
      ((s.core (handleCore h)).future (handleEntry h)).used = false →
      ((s.core (handleCore h)).future (handleEntry h)).gen.toNat = handleGen h →
      (s.proc (pid / 256) (pid % 256)).wait = .future h d x → s.jobOf (pid / 256) = p.job → (s.proc (pid / 256) (pid % 256)).state = .blockedFut →
      (s.core (pid / 256)).slotOf (pid % 256) = some i → 0 < d → d < (s.proc (pid / 256) (pid % 256)).regs.length →
      ∃ t, exec (.futureTableRequest pkt) s = .next t ∧ (t.proc (pid / 256) (pid % 256)).state = .running
        ∧ (t.proc (pid / 256) (pid % 256)).reg d = ((s.core (handleCore h)).future (handleEntry h)).status
        ∧ (t.proc (pid / 256) (pid % 256)).pc = (s.proc (pid / 256) (pid % 256)).pc ∧ t.mem = s.mem)
  ∧ (∀ (s : State) core v rest, (s.core core).vecQ = v :: rest →
      (v.started = true → exec (.vectorOperationStart core) s = .next s)
      ∧ (v.started = false → ((s.settleOwn core v.pn).core core).ownWritesDone v.pn v.upto = false →
        exec (.vectorOperationStart core) s = .next (s.settleOwn core v.pn))
      ∧ (∀ c, v.started = false → s.calm core v.pn → s.startFault core v = some c →
        ((s.core core).future v.entry).used = true →
        ∃ t, exec (.vectorOperationStart core) s = .next t ∧ s.futureEnds t core v.entry 2 c.code 0
          ∧ (t.core core).vecQ = rest ∧ t.mem = s.mem)
      ∧ (v.started = false → v.fn ≠ 16 → s.calm core v.pn → s.startFault core v = none →
        ((s.loads core v).empty = true ∨ (s.loads core v).operandFault (s.core core) (s.gateShut core) = false) →
        ∃ t x, exec (.vectorOperationStart core) s = .next t ∧ (t.core core).vecQ = x :: rest ∧ x.started = true
          ∧ x.fn = v.fn ∧ x.entry = v.entry ∧ x.pn = v.pn ∧ x.regs = (s.core core).vecA ∧ x.recs = (s.loads core v).recs
          ∧ t.mem = s.mem ∧ s.onlyCore { t with free := s.free } core)
      ∧ (v.started = false → s.calm core v.pn → s.startFault core v = none → (s.loads core v).empty = false →
        (s.loads core v).operandFault (s.core core) (s.gateShut core) = true → ((s.core core).future v.entry).used = true →
        ∃ t, exec (.vectorOperationStart core) s = .next t ∧ s.futureEnds t core v.entry 2 Cause.prot.code 0
          ∧ (t.core core).vecQ = rest ∧ t.mem = s.mem))
  ∧ (∀ (s : State) core v rest, (s.core core).vecQ = v :: rest → v.started = false →
      exec (.vectorOperationCompletion core) s = .next s)
  ∧ (∀ (s : State) core v rest, (s.core core).vecQ = v :: rest → v.started = true → v.reason = 0 → v.waiting = none →
      v.sent = false → v.tiles = [] → v.empty = true → ((s.core core).future v.entry).used = true →
      ∃ t, exec (.vectorOperationCompletion core) s = .next t ∧ s.futureEnds t core v.entry 1 0 v.flags
        ∧ (t.core core).vecQ = rest ∧ t.mem = s.mem)
  ∧ (∀ (s : State) core v rest lo hi, (s.core core).vecQ = v :: rest → v.started = true → v.reason = 0 → v.waiting = none →
      v.sent = false → v.tiles = [] → v.empty = false → (∀ r, r < 4 → (v.shape r).isChan = false) →
      ((s.core core).future v.entry).used = true → v.operandFault (s.core core) (s.gateShut core) = false → s.noWaiters →
      (v.shape 2).bounds = some (lo, hi) → 0 ≤ lo → hi < 2 ^ 21 →
      ∃ t, exec (.vectorOperationCompletion core) s = .next t ∧ ((t.core core).future v.entry).used = false
        ∧ (t.core core).vecQ = rest
        ∧ (∀ a, (a < poolKey core lo.toNat ∨ poolKey core hi.toNat < a) → t.mem.byte a = s.mem.byte a))
  ∧ (∀ (s : State) core o rest, (s.core core).copyQ = o :: rest →
      (o.started = true → exec (.copyStart core) s = .next s)
      ∧ (o.started = false → ((s.settleOwn core o.pn).core core).ownWritesDone o.pn o.upto = false →
        exec (.copyStart core) s = .next (s.settleOwn core o.pn))
      ∧ (∀ c a, o.started = false → s.calm core o.pn → s.copyFault core o.multi o.src o.dst (s.core core).copyA.geometry = some (c, a) →
        ((s.core core).future o.entry).used = true →
        ∃ t, exec (.copyStart core) s = .next t ∧ s.futureEnds t core o.entry 2 c.code 0 ∧ (t.core core).copyQ = rest
          ∧ t.mem = s.mem)
      ∧ (o.started = false → s.calm core o.pn → s.copyFault core o.multi o.src o.dst (s.core core).copyA.geometry = none →
        (s.captures core o).total = 0 → ((s.core core).future o.entry).used = true →
        ∃ t, exec (.copyStart core) s = .next t ∧ s.futureEnds t core o.entry 1 0 0 ∧ (t.core core).copyQ = rest
          ∧ t.mem = s.mem)
      ∧ (o.started = false → s.calm core o.pn → s.copyFault core o.multi o.src o.dst (s.core core).copyA.geometry = none →
        (s.captures core o).total ≠ 0 → o.multi = false → copyKind o.dst ≠ .slot →
        ∃ t, exec (.copyStart core) s = .next t
          ∧ (t.core core).copyQ = { s.captures core o with started := true } :: rest ∧ s.onlyCore t core)
      ∧ (o.started = false → s.calm core o.pn → s.copyFault core o.multi o.src o.dst (s.core core).copyA.geometry = none →
        (s.captures core o).total ≠ 0 → o.multi = true →
        let c := { s.captures core o with started := true }
        ∃ t, exec (.copyStart core) s = .next t ∧ t.mem = s.mem
          ∧ (t.core core).copyQ = { c with
              words := (s.copySource core c c.total 0).2.1
              reason := if (s.copySource core c c.total 0).2.2 then 0 else Cause.poison.code } :: rest))
  ∧ (∀ (s : State) core o rest, (s.core core).copyQ = o :: rest → o.started = false →
      exec (.copyPageFault core) s = .next s ∧ exec (.copyCompletion core) s = .next s)
  ∧ (∀ (s u : State) core o rest k c a, (s.core core).copyQ = o :: rest → o.started = true → o.multi = false →
      o.fault = none → s.copyMove core o (o.total - o.moved) o.moved = (u, k, .page c a) →
      ∃ t, exec (.copyPageFault core) s = .next t
        ∧ (∃ q, (t.core core).copyQ = { o with moved := k, fault := some (c, a) } :: q)
        ∧ (∃ m, (t.core core).faultOut = (u.core core).faultOut ++ [m] ∧ m.kind = 2 ∧ m.cause = c.code ∧ m.faddr = a
          ∧ m.extra.toNat % 2 ^ 32 = (s.core core).handleFor core o.entry % 2 ^ 32) ∧ t.mem = u.mem)
  ∧ (∀ (s u : State) core o rest k, (s.core core).copyQ = o :: rest → o.started = true → o.multi = false →
      o.fault = none → s.copyMove core o (o.total - o.moved) o.moved = (u, k, .done) →
      ((u.core core).future o.entry).used = true →
      ∃ t, exec (.copyCompletion core) s = .next t ∧ u.futureEnds t core o.entry 1 0 0 ∧ t.mem = u.mem)
  ∧ (∀ (s : State) core o k, s.noWaiters →
      (o.srcAt k).toNat < 0x1000000 → (o.dstAt o.dst k).toNat < 0x1000000 →
      s.mem.isPoisoned (poolKey core (o.srcAt k).toNat) = false → s.mem.isPoisoned (poolKey core (o.dstAt o.dst k).toNat) = false →
      s.mem.wf = true →
      ∃ u, s.copyWord core o k = (u, .done)
        ∧ storedAt s.mem u.mem (poolKey core (o.dstAt o.dst k).toNat) 8
            (s.readSeen core o.pn .y (poolKey core (o.srcAt k).toNat) 8))
  ∧ (∀ (s : State) core target o rest cs c, (s.core core).copyQ = o :: rest → o.started = true → o.multi = true →
      rectCores (pkgOf core) o.rect = some cs → target ∈ cs → o.cores.any (fun x => x.1 == target) = false →
      (s.die (dieOf target)).isSaved (s.jobOf core) = false → (s.core target).gated = false → s.reaches core target →
      s.copyRefusal core target o = some c →
      ∃ t, exec (.cpymArrival core target) s = .next t ∧ t.mem = s.mem
        ∧ (t.core core).copyQ = { o with cores := o.cores ++ [(target, some c)] } :: rest)
  ∧ (∀ (s : State) core target o rest cs, (s.core core).copyQ = o :: rest → o.started = true → o.multi = true →
      rectCores (pkgOf core) o.rect = some cs → target ∈ cs → o.cores.any (fun x => x.1 == target) = false →
      (s.die (dieOf target)).isSaved (s.jobOf core) = false → (s.core target).gated = false → s.reaches core target →
      s.copyRefusal core target o = none →
      ∃ t, exec (.cpymArrival core target) s = .next t ∧ t.mem = (s.copyLand core target o).mem
        ∧ (t.core core).copyQ.head? = some { o with cores := o.cores ++ [(target, none)] })
  ∧ (∀ (s : State) core target o rest cs, (s.core core).copyQ = o :: rest → o.started = true → o.multi = true →
      rectCores (pkgOf core) o.rect = some cs → target ∈ cs → o.cores.any (fun x => x.1 == target) = false →
      (s.die (dieOf target)).isSaved (s.jobOf core) = false → (s.core target).gated = false →
      s.islandShut core (dieOf target) = true → (s.core core).lost = [] →
      ∃ t, exec (.cpymArrival core target) s = .next t ∧ t.mem = s.mem ∧ (t.core core).copyQ = o :: rest
        ∧ (t.pkg (pkgOf core)).isldrop = (s.pkg (pkgOf core)).isldrop + 1)

/-- O46 (R257, R258, R259, R262, R263, R264, R266, R271, R272, R397). Tasks are chosen, granted, counted, drained, written out and merged as R257 to R272 and R397 say -/
def Obligations.ArrayEvents : Prop :=
  (∀ (s : State) core, (s.core core).tasks.all (fun x => x.started || !s.eligible core x) = true →
      exec (.taskChoice core) s = .next s)
  ∧ (∀ (s : State) core x, (s.core core).tasks = [x] → x.started = false → x.chosen = false → s.eligible core x = true →
      (∀ r, s.taskFault core x = some r → ((s.core core).future x.entry).used = true → x.xdata = 0 →
        ∃ t, exec (.taskChoice core) s = .next t ∧ s.futureEnds t core x.entry 2 r x.flags ∧ (t.core core).tasks = []
          ∧ t.mem = s.mem)
      ∧ (s.taskFault core x = none → x.isDrain4 = false → ∃ t, exec (.taskChoice core) s = .next t
        ∧ (t.core core).tasks = [{ x with chosen := true }] ∧ core ∈ (t.die (dieOf core)).grants ∧ t.mem = s.mem
        ∧ (∀ k, k ≠ core → t.core k = s.core k)))
  ∧ (∀ (s : State) core, (s.core core).tasks.all (fun x => x.started || !x.chosen) = true →
      exec (.governorGrant core) s = .next s)
  ∧ (∀ (s : State) core x, (s.core core).tasks = [x] → x.started = false → x.chosen = true →
      let d := s.die (dieOf core)
      let fits := s.committedBusy (dieOf core) + min x.busy (d.windowStart + 1024 - s.ticks) ≤ d.gallow
      (fits → x.isMac = true → x.zero = false → ∃ t, exec (.governorGrant core) s = .next t
        ∧ (t.core core).tasks = [{ x with started := true }]
        ∧ (t.core core).counting = some (x.seq, false, s.ticks, s.ticks + 64) ∧ t.mem = s.mem)
      ∧ (fits → x.isCount4 = true → x.zero = false → ∃ t, exec (.governorGrant core) s = .next t
        ∧ (t.core core).counting = some (x.seq, x.bank, s.ticks, s.ticks + 32)
        ∧ ((t.core core).bankAt x.bank).state = 1 ∧ ((t.core core).bankAt x.bank).counts = [] ∧ t.mem = s.mem)
      ∧ (¬ fits → x.heldAt ≠ some s.ticks → ∃ t, exec (.governorGrant core) s = .next t
        ∧ (t.core core).holds = (if x.heldAt = none then (s.core core).holds + 1 else (s.core core).holds)
        ∧ (t.core core).holdcyc = (s.core core).holdcyc + 1 ∧ s.onlyCore t core))
  ∧ (∀ (s : State) die, let d := s.die die
      (s.ticks < d.windowStart + 1024 → exec (.governorWindow die) s = .next s)
      ∧ (d.windowStart + 1024 ≤ s.ticks → (∀ e ∈ s.cores, e.2.counting = none) → ∃ t, exec (.governorWindow die) s = .next t
        ∧ t.die die = { d with gprev := d.busy, gallow := min d.gbud.toNat (d.busy + d.gramp.toNat), busy := 0, windowStart := d.windowStart + 1024 }
        ∧ t.cores = s.cores ∧ t.mem = s.mem ∧ (∀ k, k ≠ die → t.die k = s.die k)))
  ∧ (∀ (s : State) core q b f e x, (s.core core).counting = some (q, b, f, e) → (s.core core).task q = some x →
      (s.ticks < e → exec (.panelEnd core) s = .next s ∧ exec (.macCountingEnd core) s = .next s)
      ∧ (e ≤ s.ticks → x.isCount4 = true → x.hold = true → x.out = false → x.panels ≤ x.panel + 1 →
        s.mem.slotPoisoned core x.slotA (some (x.p0 + x.panel)) = false →
        s.mem.slotPoisoned core x.slotB (some (x.p0 + x.panel)) = false →
        ∃ t, exec (.panelEnd core) s = .next t ∧ t.mem = s.mem ∧ (t.core core).counting = none
          ∧ (t.core core).bankAt b = { (s.core core).bankAt b with
              state := 2, depth := 256, counts := s.mem.panelCounts core x.slotA x.slotB (x.p0 + x.panel) }
          ∧ (t.core core).bankAt (!b) = (s.core core).bankAt (!b))
      ∧ (e ≤ s.ticks → x.isCount4 = true → x.hold = false → x.out = false → x.panels ≤ x.panel + 1 →
        s.mem.slotPoisoned core x.slotA (some (x.p0 + x.panel)) = false →
        s.mem.slotPoisoned core x.slotB (some (x.p0 + x.panel)) = false →
        ∃ t, exec (.panelEnd core) s = .next t ∧ t.mem = s.mem ∧ ((t.core core).bankAt b).state = 3
          ∧ (t.core core).drainQ = (s.core core).drainQ ++ [.drain q b])
      ∧ (e ≤ s.ticks → x.isMac = true → x.out = false → s.mem.slotPoisoned core x.slotA none = false →
        s.mem.slotPoisoned core x.slotB none = false → x.xofs + 4096 ≤ 2 ^ 21 → x.xofs % 4096 = 0 → s.mem.wf = true → s.noWaiters →
        (∀ k, k < 4096 → s.mem.isPoisoned (poolKey core (x.xofs + k)) = false) →
        ∃ t, exec (.macCountingEnd core) s = .next t ∧ (t.core core).counting = none
          ∧ (∀ cell, cell < 1024 → t.mem.read (poolKey core (x.xofs + 4 * cell)) 4
              = (macCell (macWide x.op) (s.mem.read (poolKey core (x.xofs + 4 * cell)) 4)
                  ((s.mem.rowValues core x.slotA (cell / 32) x.op).zip (s.mem.rowValues core x.slotB (cell % 32) x.op))).1 % 2 ^ 32)
          ∧ (∀ a, (a < poolKey core x.xofs ∨ poolKey core x.xofs + 4096 ≤ a) → t.mem.byte a = s.mem.byte a)))
  ∧ (∀ (s : State) core q xofs size pn e rest, (s.core core).drainQ = .zero q xofs size pn :: rest →
      (s.core core).drainEnd = some e →
      (s.ticks < e → exec (.tileZeroing core) s = .next s)
      ∧ (e ≤ s.ticks → xofs + size ≤ 2 ^ 21 → xofs % 8 = 0 → size % 8 = 0 → s.mem.wf = true → s.noWaiters →
        (∀ k, k < size → s.mem.isPoisoned (poolKey core (xofs + k)) = false) →
        ∃ t, exec (.tileZeroing core) s = .next t ∧ (t.core core).drainQ = rest
          ∧ (∀ a, t.mem.byte a = if poolKey core xofs ≤ a ∧ a < poolKey core xofs + size then 0 else s.mem.byte a)))
  ∧ (∀ (s : State) core q b e rest, (s.core core).drainQ = .drain q b :: rest → (s.core core).drainEnd = some e →
      (s.core core).task q = none →
      (∃ t, exec (.drain core) s = .next t ∧ (t.core core).drainMark = true ∧ t.mem = s.mem)
      ∧ (e ≤ s.ticks → (s.core core).drainMark = true → (s.core core).tasks.all (fun y => !y.paused) = true →
        ∃ t, exec (.drainEnd core) s = .next t ∧ (t.core core).bankAt b = {} ∧ (t.core core).drainQ = rest
          ∧ t.mem = s.mem))
  ∧ (∀ (s : State) core q b e x rest, (s.core core).drainQ = .drain q b :: rest → (s.core core).drainEnd = some e → (s.core core).task q = some x →
      ((s.core core).drainMark = true → exec (.drain core) s = .next s)
      ∧ ((s.core core).drainMark = false → ∃ t, exec (.drain core) s = .next t ∧ (t.core core).drainMark = true
        ∧ t.mem = (s.drainCells core x ((s.core core).bankAt b) drainOrder 0).1.mem)
      ∧ ((s.ticks < e ∨ (s.core core).drainMark = false) → exec (.drainEnd core) s = .next s)
      ∧ (e ≤ s.ticks → (s.core core).drainMark = true → x.poisoned = false →
        (s.core core).tasks.all (fun y => !y.paused) = true →
        ∃ t, exec (.drainEnd core) s = .next t ∧ (t.core core).bankAt b = {}
          ∧ (t.core core).bankAt (!b) = (s.core core).bankAt (!b) ∧ t.mem = s.mem))
  ∧ (∀ (s : State) core x b cell v, s.mem.wf = true → drainTerm b cell = some v → (x.xofs + 8 * cell) % 8 = 0 →
      x.xofs + 8 * cell + 8 ≤ 2 ^ 21 → s.mem.isPoisoned (poolKey core (x.xofs + 8 * cell)) = false →
      let w := s.mem.word (poolKey core (x.xofs + 8 * cell) / 8)
      ∃ u y, s.drainCell core x b cell = some (u, y)
        ∧ storedAt s.mem u.mem (poolKey core (x.xofs + 8 * cell)) 8
            (BitVec.ofInt 64 (max (-(2 ^ 63)) (min (2 ^ 63 - 1) (w.toInt + v)))).toNat
        ∧ (y = 1 ↔ (2 ^ 63 ≤ w.toInt + v ∨ w.toInt + v < -(2 ^ 63))))
  ∧ (∀ (s : State) core q e x rest, (s.core core).drainQ = .output q :: rest → (s.core core).drainEnd = some e → (s.core core).task q = some x →
      (s.ticks < e → exec (.outputWriteEnd core) s = .next s)
      ∧ (e ≤ s.ticks → x.outaddr.toNat + 31 * x.opitch + x.rowSize ≤ 2 ^ 21 → s.noWaiters →
        (∀ cell, cell < 1024 → s.mem.isPoisoned (poolKey core (x.xofs + x.tileSize / 1024 * cell)) = false) →
        ∃ t, exec (.outputWriteEnd core) s = .next t
          ∧ (∀ a, (a < poolKey core x.outaddr.toNat ∨ poolKey core x.outaddr.toNat + 31 * x.opitch + x.rowSize ≤ a) →
              t.mem.byte a = s.mem.byte a)))
  ∧ (∀ (s : State) core m d dst tsel q, (s.core core).merges = [m] → m.result = none → (s.core core).tasks = [] →
      (s.core core).drainQ = [] → (s.core core).drainEnd = none → (s.proc core m.pn).wait = .merge d dst tsel q →
      let n := (s.core core).bank0.depth + (s.core core).bank1.depth
      (n ≤ 2047 → ∃ t, exec (.mmergePerform core) s = .next t
        ∧ ((t.core core).bankAt dst).depth = n ∧ (t.core core).bankAt (!dst) = {}
        ∧ (t.core core).merges = [{ m with result := some (n, s.ticks + 4) }] ∧ s.onlyCore t core)
      ∧ (2047 < n → ∃ u : State, exec (.mmergePerform core) s = .next (u.trapBlocked core m.pn .depthfault (word n))
        ∧ (u.core core).merges = [] ∧ u.mem = s.mem))
  ∧ (∀ (s : State) core m d dst tsel q n i, (s.core core).merges = [m] → m.result = some (n, s.ticks) →
      (s.proc core m.pn).wait = .merge d dst tsel q → (s.proc core m.pn).state = .blockedSync →
      (s.core core).slotOf m.pn = some i → 0 < d → d < (s.proc core m.pn).regs.length →
      ∃ t, exec (.mmergePerform core) s = .next t ∧ (t.core core).merges = [] ∧ (t.proc core m.pn).reg d = word n
        ∧ (t.proc core m.pn).state = .running ∧ s.onlyCore t core)

/-- Everything outside one package's own record, and the frames on the plane, is as before. -/
def Sys2Proof.Machine.State.onlyPkg (s t : State) (pkg : Nat) : Prop :=
  (∀ k, k ≠ pkg → t.pkg k = s.pkg k) ∧ { t with pkgs := s.pkgs, frames := s.frames } = s

/-- A package is no member any more: MEMBER reads 0, its live bit is gone, its queues are empty (R297). -/
def Sys2Proof.Machine.State.outOfSheaf (s t : State) (pkg : Nat) : Prop :=
  (t.pkg pkg).formed = false ∧ (t.pkg pkg).token = false
  ∧ (t.pkg pkg).live = (s.pkg pkg).live &&& ~~~(1#32 <<< (s.pkg pkg).seat.toNat)
  ∧ (∀ d ∈ dies4 pkg, (t.die d).sheafQ = [] ∧ (t.die d).board = (s.die d).board ∧ (t.die d).applied = (s.die d).applied
    ∧ ∀ x ∈ (t.die d).saved, x.sheafQ = [])
  ∧ t.mem = s.mem

/-- No process of a die waits in an SHACQ (R295). -/
def Sys2Proof.Machine.State.noAcquirers (s : State) (die : Nat) : Prop :=
  ∀ core pn target, dieOf core = die → (s.proc core pn).wait ≠ .sheafAcquire target

/-- O47 (R286, R287, R289, R290, R293, R297, R362, R363, R364, R365, R366). The token, frames, replicas, landings, leaving and formation of a sheaf go on as R286 to R297 and R362 to R367 say. The model’s choices, not the spec’s: a frame is filled up to 64 operations and the first token names the next live position (log 14); leaving clears the package’s own live bit, and a landing fault is reported to kernel core 256 (log 23) -/
def Obligations.SheafEvents : Prop :=
  (∀ (s : State) pkg, (s.pkg pkg).formed = false →
      (∀ order, exec (.tokenArrival pkg order) s = .next s) ∧ (∀ i b, exec (.frameReceipt pkg i b) s = .next s)
      ∧ (∀ q n, exec (.frameRepair pkg q n) s = .next s) ∧ (∀ die, pkgOfDie die = pkg → exec (.frameApply die) s = .next s)
      ∧ exec (.landing pkg) s = .next s ∧ exec (.sheafLeave pkg) s = .next s ∧ exec (.lightLoss pkg) s = .next s
      ∧ exec (.sheafLeaveRequest pkg) s = .next s ∧ exec (.silenceTimeout pkg) s = .next s)
  ∧ (∀ (s : State) pkg order, let p := s.pkg pkg
      p.formed = true → p.token = true → (∀ d ∈ dies4 pkg, (s.die d).sheafQ = []) →
      ∃ t, exec (.tokenArrival pkg order) s = .next t ∧ s.onlyPkg t pkg
        ∧ t.pkg pkg = { p with token := false, holder := nextLive p.live p.seat.toNat, silentSince := s.ticks }
        ∧ ∃ (h : List Nat) (k : Token), k = { live := p.live, next := nextLive p.live p.seat.toNat }
          ∧ t.frames = s.frames ++ [{ ssn := p.nextSsn - 1, pkg := pkg, pos := p.seat.toNat, heard := h, token := some k }])
  ∧ (∀ (s : State) pkg order, let p := s.pkg pkg
      let q := (s.die (4 * pkg)).sheafQ
      let job := (q.head?.map (fun o => s.jobOf o.core)).getD 0
      p.formed = true → p.token = true → p.nextSsn ≤ ssnLimit → q ≠ [] → q.length ≤ 64 → q.all (fun o => !o.isPub) = true →
      (∀ i, 0 < i → i < 4 → (s.die (4 * pkg + i)).sheafQ = []) →
      ∃ t, exec (.tokenArrival pkg order) s = .next t ∧ (t.die (4 * pkg)).sheafQ = [] ∧ (t.pkg pkg).nextSsn = p.nextSsn + 1
        ∧ (t.pkg pkg).token = false ∧ t.mem = s.mem ∧ t.cores = s.cores
        ∧ ∃ f, t.frames = s.frames ++ [{ ssn := p.nextSsn, pkg := pkg, pos := p.seat.toNat, job := job, ops := q }, f]
          ∧ f.ssn = p.nextSsn ∧ f.token = some { live := p.live, next := nextLive p.live p.seat.toNat })
  ∧ (∀ (s : State) pkg order idx f k, (s.pkg pkg).formed = true → (s.pkg pkg).token = false →
      (s.tokenFor pkg = none → exec (.tokenArrival pkg order) s = .next s)
      ∧ (s.tokenFor pkg = some (idx, f, k) → k.live.getLsbD (s.pkg pkg).seat.toNat = true →
        (∀ d ∈ dies4 pkg, (s.die d).sheafQ = []) →
        ∃ t, exec (.tokenArrival pkg order) s = .next t ∧ s.onlyPkg t pkg ∧ (t.pkg pkg).live = k.live
          ∧ (t.pkg pkg).nextSsn = max (s.pkg pkg).nextSsn (f.ssn + 1) ∧ (t.pkg pkg).token = false
          ∧ (t.pkg pkg).holder = nextLive k.live (s.pkg pkg).seat.toNat)
      ∧ (s.tokenFor pkg = some (idx, f, k) → k.live.getLsbD (s.pkg pkg).seat.toNat = false →
        ∃ t, exec (.tokenArrival pkg order) s = .next t ∧ s.outOfSheaf t pkg))
  ∧ (∀ (s : State) pkg idx intact, (s.pkg pkg).formed = true →
      (s.canHear pkg idx = none → exec (.frameReceipt pkg idx intact) s = .next s)
      ∧ (∀ f, s.canHear pkg idx = some f → f.token = none →
        let p : Pkg := { s.pkg pkg with nextSsn := max (s.pkg pkg).nextSsn (f.ssn + 1), silentSince := s.ticks }
        (intact = false → f.pkg ≠ pkg → ∃ t, exec (.frameReceipt pkg idx intact) s = .next t ∧ t.pkg pkg = p
          ∧ s.onlyPkg t pkg)
        ∧ ((intact = true ∨ f.pkg = pkg) → (s.pkg pkg).frame f.ssn = none → s.appliedByAll pkg < f.ssn →
          ∃ t, exec (.frameReceipt pkg idx intact) s = .next t ∧ s.onlyPkg t pkg
            ∧ t.pkg pkg = { p with got := p.got ++ [{ f with heard := [] }] })
        ∧ (∀ g, intact = true → (s.pkg pkg).frame f.ssn = some g → (g.ops ≠ f.ops ∨ g.bytes ≠ f.bytes ∨ g.pkg ≠ f.pkg) →
          ∃ t, exec (.frameReceipt pkg idx intact) s = .next t ∧ s.outOfSheaf t pkg))
      ∧ (∀ f k, s.canHear pkg idx = some f → f.token = some k → intact = true → k.first = false →
        k.next ≠ (s.pkg pkg).seat.toNat → k.live.getLsbD (s.pkg pkg).seat.toNat = true →
        ∃ t, exec (.frameReceipt pkg idx intact) s = .next t ∧ s.onlyPkg t pkg
          ∧ t.pkg pkg = { s.pkg pkg with
              nextSsn := max (s.pkg pkg).nextSsn (f.ssn + 1), silentSince := s.ticks, live := k.live, holder := k.next }))
  ∧ (∀ (s : State) pkg source ssn f, (s.pkg pkg).formed = true → (s.pkg source).formed = true → pkg ≠ source →
      s.sameStars pkg source = true →
      ssn < (s.pkg pkg).nextSsn → (s.pkg pkg).frame ssn = none → (s.pkg source).frame ssn = some f →
      s.appliedByAll pkg < ssn →
      ∃ t, exec (.frameRepair pkg source ssn) s = .next t ∧ s.onlyPkg t pkg
        ∧ t.pkg pkg = { s.pkg pkg with got := (s.pkg pkg).got ++ [{ f with heard := [] }] })
  ∧ (∀ (s : State) die f, let p := s.pkg (pkgOfDie die)
      let n := (s.die die).applied + 1
      p.formed = true →
      (p.frame n = none → exec (.frameApply die) s = .next s)
      ∧ (p.frame n = some f → f.ops.any SheafOp.isPub = true → p.landed < n → exec (.frameApply die) s = .next s)
      ∧ (∀ c pn d off v, p.frame n = some f → f.ops = [.st c pn d off v] → n < ssnLimit → s.noAcquirers die →
        ∃ t, exec (.frameApply die) s = .next t ∧ (t.die die).applied = n ∧ t.mem = s.mem
          ∧ (∀ i, look 0 (t.die die).board i = if i = off then v else look 0 (s.die die).board i)
          ∧ (∀ k, k ≠ die → t.die k = s.die k)
          ∧ (dieOf c = die → f.ended = [] → f.ssn = n → (s.die die).saved = [] → 0 < d → d < (s.proc c pn).regs.length →
              (s.proc c pn).state = .running → (s.proc c pn).wait = .none → (t.proc c pn).reg d = word n))
      ∧ (∀ c pn d off v cmp, p.frame n = some f → f.ops = [.cas c pn d off v cmp] → n < ssnLimit → s.noAcquirers die →
        let old := look 0 (s.die die).board off
        ∃ t, exec (.frameApply die) s = .next t ∧ (t.die die).applied = n ∧ t.mem = s.mem
          ∧ (∀ i, look 0 (t.die die).board i = if i = off ∧ old = cmp then v else look 0 (s.die die).board i)
          ∧ (dieOf c = die → f.ended = [] → (s.die die).saved = [] → 0 < d → d < (s.proc c pn).regs.length →
              (s.proc c pn).state = .running → (s.proc c pn).wait = .none → (t.proc c pn).reg d = old))
      ∧ (∀ c pn entry src desc, p.frame n = some f → f.ops = [.pub c pn entry src desc] → f.ended = [0] → n < ssnLimit →
        n ≤ p.landed → n ∉ p.landFault → s.noAcquirers die → dieOf c = die → (s.die die).saved = [] →
        ((s.core c).future entry).used = true → ((s.core c).future entry).engine = 5 →
        ((s.core c).future entry).owner = pn → ((s.core c).future entry).ownerLive = false →
        ∃ t, exec (.frameApply die) s = .next t ∧ (t.die die).applied = n ∧ s.futureEnds t c entry 1 0 0 ∧ t.mem = s.mem))
  ∧ (∀ (s : State) pkg f c pn e src desc rest, let p := s.pkg pkg
      let n := s.appliedByAll pkg + 1
      let job := p.sheafJob.toNat
      let at_ (i : Nat) : Nat := p.land.toNat + desc.toNat % 2 ^ 32 + 8 * i
      let key (i : Nat) := s.landingKey pkg (s.dieWithJob pkg job) job (at_ i)
      p.formed = true → p.landed < n → p.frame n = some f → f.ops = .pub c pn e src desc :: rest →
      (∀ i cause, i < f.bytes.length / 8 → key i = .inr cause → (∀ j, j < i → ∃ k, key j = .inl k) →
        ∃ t, exec (.landing pkg) s = .next t ∧ t.mem = s.mem ∧ (t.pkg pkg).landed = n ∧ n ∈ (t.pkg pkg).landFault
          ∧ ∃ m ∈ (t.core (s.dieWithJob pkg job * 512 + 256)).faultOut, m.kind = 5 ∧ m.cause = cause.code
            ∧ m.faddr = word (at_ i))
      ∧ (∀ ks : List Nat, s.mem.wf = true → s.noWaiters → (List.range (f.bytes.length / 8)).map key = ks.map .inl →
        ks.Pairwise (fun x y => x + 8 ≤ y ∨ y + 8 ≤ x) → (∀ k ∈ ks, s.mem.isPoisoned k = false) →
        f.bytes.length % 8 = 0 →
        ∃ t, exec (.landing pkg) s = .next t ∧ (t.pkg pkg).landed = n ∧ (t.pkg pkg).landFault = p.landFault
          ∧ (∀ i, i < ks.length → t.mem.read (ks.getD i 0) 8 = bytesNat ((f.bytes.drop (8 * i)).take 8))
          ∧ (∀ a, (∀ k ∈ ks, a < k ∨ k + 8 ≤ a) → t.mem.byte a = s.mem.byte a)))
  ∧ (∀ (s : State) pkg, (s.pkg pkg).formed = true → ∃ t, s.outOfSheaf t pkg
      ∧ exec (.sheafLeave pkg) s = .next t ∧ exec (.lightLoss pkg) s = .next t ∧ exec (.sheafLeaveRequest pkg) s = .next t)
  ∧ (∀ (s : State) pkg, let p := s.pkg pkg
      (s.silenceDue pkg = none → exec (.silenceTimeout pkg) s = .next s)
      ∧ (∀ x, s.silenceDue pkg = some x → s.ticks < x → exec (.silenceTimeout pkg) s = .next s)
      ∧ (∀ x, s.silenceDue pkg = some x → x ≤ s.ticks → ∃ t, exec (.silenceTimeout pkg) s = .next t ∧ s.onlyPkg t pkg
        ∧ t.pkg pkg = { p with
            live := p.live &&& ~~~(1#32 <<< p.holder), token := true, holder := p.seat.toNat, silentSince := s.ticks }))
  ∧ (∀ (s : State) pkg, let p := s.pkg pkg
      (∃ t, exec (.sheafForm pkg) s = .next t ∧ s.onlyPkg t pkg ∧ (t.pkg pkg).formAt = some s.ticks
        ∧ (t.pkg pkg).joinAt = s.ticks + 65536 ∧ (t.pkg pkg).starter = none ∧ (pkg, p.pos.toNat) ∈ (t.pkg pkg).joins)
      ∧ ((p.formAt = none ∨ s.ticks < p.joinAt) → exec (.joinFrameSend pkg) s = .next s)
      ∧ (p.formAt ≠ none → p.joinAt ≤ s.ticks → ∃ t, exec (.joinFrameSend pkg) s = .next t ∧ s.onlyPkg t pkg
        ∧ t.pkg pkg = { p.joined pkg p.pos.toNat with joinAt := s.ticks + 65536 })
      ∧ (∀ q, (p.starter ≠ none ∨ (s.pkg q).formAt = none ∨ s.sameStars pkg q = false) → exec (.joinFrameReceipt pkg q) s = .next s)
      ∧ (∀ q, pkg ≠ q → s.sameStars pkg q = true → p.starter = none → (s.pkg q).formAt ≠ none → ∃ t, exec (.joinFrameReceipt pkg q) s = .next t
        ∧ s.onlyPkg t pkg ∧ t.pkg pkg = p.joined q (s.pkg q).pos.toNat)
      ∧ (∀ x, p.formAt = some x → x + 4200000 ≤ s.ticks → ∃ t, exec (.formationTimeout pkg) s = .next t
        ∧ s.onlyPkg t pkg ∧ t.pkg pkg = { p with formAt := none, joins := [] })
      ∧ ((p.formAt = none ∨ ∃ x, p.formAt = some x ∧ s.ticks < x + 4200000) →
        exec (.formationTimeout pkg) s = .next s))
  ∧ (∀ (s : State) pkg, let p := s.pkg pkg
      (s.startsSheaf pkg = false → exec (.firstTokenSend pkg) s = .next s)
      ∧ (s.startsSheaf pkg = true → ∃ t, exec (.firstTokenSend pkg) s = .next t ∧ (t.pkg pkg).formed = true
        ∧ (t.pkg pkg).live = p.eligible ∧ (t.pkg pkg).nextSsn = 1 ∧ (t.pkg pkg).seat = p.pos ∧ (t.pkg pkg).seats = p.nm1 ∧ t.mem = s.mem
        ∧ (∃ f ∈ t.frames, f.pkg = pkg ∧ f.token = some { live := p.eligible, next := nextLive p.eligible p.pos.toNat, first := true })
        ∧ (∀ d ∈ dies4 pkg, (t.die d).board = [] ∧ (t.die d).applied = 0)))
  ∧ (∀ (s : State) pkg source k rest, let p := s.pkg pkg
      let f : Frame := { ssn := 0, pkg := source, pos := (s.pkg source).pos.toNat, token := some k, heard := [source] }
      s.frames = f :: rest → pkg ≠ source → s.sameStars pkg source = true → k.first = true → p.formAt ≠ none → p.starter = none →
      (k.live.getLsbD p.pos.toNat = true → ∃ t, exec (.firstTokenReceipt pkg source) s = .next t
        ∧ (t.pkg pkg).formed = true ∧ (t.pkg pkg).live = k.live ∧ (t.pkg pkg).nextSsn = 1 ∧ (t.pkg pkg).seat = p.pos ∧ (t.pkg pkg).seats = p.nm1
        ∧ (t.pkg pkg).starter = some (s.pkg source).pos.toNat ∧ (t.pkg pkg).formAt = none ∧ t.mem = s.mem
        ∧ (∀ d ∈ dies4 pkg, (t.die d).board = [] ∧ (t.die d).applied = 0))
      ∧ (k.live.getLsbD p.pos.toNat = false → p.formed = false → ∃ t, exec (.firstTokenReceipt pkg source) s = .next t
        ∧ (t.pkg pkg).formed = false ∧ (t.pkg pkg).formAt = none ∧ s.onlyPkg t pkg))
  ∧ (∀ (s : State) pkg source, s.frames = [] → exec (.firstTokenReceipt pkg source) s = .next s)
  ∧ (∀ (s : State) pkg idx order, (∀ f, s.frames[idx]? = some f → s.sameStars pkg f.pkg = false) → (s.pkg pkg).token = false →
      (∀ i, exec (.frameReceipt pkg idx i) s = .next s)
      ∧ ((∀ f ∈ s.frames, s.sameStars pkg f.pkg = false) → exec (.tokenArrival pkg order) s = .next s))

/-- O48 (R161, R251, R303, R306, R308, R312, R313, R314, R315, R318, R320). LPATCH is performed, launches start and end, and tenants switch as R303 to R320 say. The model’s choices, not the spec’s: a switch begins at the end of the quantum, all tenants on the dies concerned switch with it, and what a preparation keeps and who sees its image (log 24) -/
def Obligations.LaunchAndTenantEvents : Prop :=
  (∀ (s : State) die, (s.die die).launchReqs = [] → exec (.launchUnitRequest die) s = .next s)
  ∧ (∀ (s : State) die core pn sel v rest, (s.die die).launchReqs = .patch core pn sel v :: rest →
      let i := sel.toNat % 1024
      (∀ r, patched (s.lrec die i) (s.jobOf core) sel v = .inl r → (s.proc core pn).state = .blockedSync →
        ∃ t, exec (.launchUnitRequest die) s = .next t ∧ t.lrec die i = r
          ∧ (∀ j, j ≠ i → t.lrec die j = s.lrec die j) ∧ (t.die die).launchReqs = rest
          ∧ ((t.proc core pn).state = .running ∨ (t.proc core pn).state = .ready) ∧ (t.proc core pn).wait = .none
          ∧ (s.proc core pn).keeps (t.proc core pn) ∧ t.mem = s.mem ∧ (∀ k, k ≠ core → t.core k = s.core k))
      ∧ (∀ f, patched (s.lrec die i) (s.jobOf core) sel v = .inr f →
        ∃ u : State, exec (.launchUnitRequest die) s = .next (u.trapBlocked core pn .prot f)
          ∧ (u.die die).launchReqs = rest ∧ u.cores = s.cores ∧ u.mem = s.mem ∧ (∀ j, u.lrec die j = s.lrec die j)))
  ∧ (∀ (r : LRec) job (sel v : Word), lrValid r = true → lrJob r = job →
      (∀ i k : Nat, i < 1024 → k < 8 → sel = word (i + k * 2 ^ 16) → ∃ q, patched r job sel v = .inl q ∧ lrArg q k = v
        ∧ (∀ n, n < 1024 → (n < 512 + 64 * k ∨ 576 + 64 * k ≤ n) → q.getLsbD n = r.getLsbD n))
      ∧ (∀ i : Nat, i < 1024 → sel = word (i + 8 * 2 ^ 16) → ∃ q, patched r job sel v = .inl q ∧ lrPrio q = v.setWidth 7
        ∧ (∀ n, n < 1024 → (n < 64 ∨ 71 ≤ n) → q.getLsbD n = r.getLsbD n))
      ∧ (∀ i x y m n : Nat, i < 1024 → sel = word (i + 9 * 2 ^ 16) → x < 32 → y < 32 → m < 32 → n < 32 →
        v = word (x + y * 2 ^ 8 + m * 2 ^ 16 + n * 2 ^ 24) →
        (if inRange x m (lrPx0 r) (lrPwm1 r) && inRange y n (lrPy0 r) (lrPhm1 r) then
          ∃ q, patched r job sel v = .inl q ∧ lrX0 q = x ∧ lrY0 q = y ∧ lrWm1 q = m ∧ lrHm1 q = n
            ∧ (∀ j, j < 1024 → (j < 80 ∨ 100 ≤ j) → q.getLsbD j = r.getLsbD j)
         else patched r job sel v = .inr v))
      ∧ (∀ k, 10 ≤ sel.toNat / 2 ^ 16 % 16 → k = job → patched r k sel v = .inr sel))
  ∧ (∀ (r : LRec) job sel v, (lrValid r = false ∨ lrJob r ≠ job ∨ sel &&& ~~~(0xF03FF : Word) ≠ 0) → patched r job sel v = .inr sel)
  ∧ (∀ (s : State) die pos q rest, takeAt (s.die die).launchQ pos = some (q, rest) → (s.die die).switching = false →
      let r := q.record
      let cores := lrCores (pkgOfDie die) r
      let older := ((s.die die).launchQ.take pos).any (fun o => lrOverlap o.record r)
      let fit := cores.all (fun e => (s.core e.1).isFree && s.holds (lrJob r) (dieOf e.1)
          && !(s.die (dieOf e.1)).isSaved (lrJob r) && !(s.die (dieOf e.1)).switching)
      (older = true → exec (.launchStart die pos) s = .next s)
      ∧ (older = false → fit = true → lrRectOk r = false → ((s.core q.core).future q.entry).used = true →
        ∃ t, exec (.launchStart die pos) s = .next t ∧ (t.die die).launchQ = rest
          ∧ s.futureEnds t q.core q.entry 2 0x21 0 ∧ t.mem = s.mem)
      ∧ (older = false → fit = false → exec (.launchStart die pos) s = .next s)
      ∧ (∀ c, older = false → fit = true → s.launchCause (pkgOfDie die) r = some c →
        ((s.core q.core).future q.entry).used = true →
        ∃ t, exec (.launchStart die pos) s = .next t ∧ (t.die die).launchQ = rest
          ∧ s.futureEnds t q.core q.entry 2 c.code 0 ∧ t.mem = s.mem)
      ∧ (∀ image, s.noWaiters → older = false → fit = true → s.launchCause (pkgOfDie die) r = none →
        s.shapesImage die r = .inl image → cores.all (fun e => !(s.core e.1).gated) = true →
        ∃ t, exec (.launchStart die pos) s = .next t ∧ (t.die die).launchQ = rest
          ∧ (let home := lrDie (pkgOfDie die) r
            (t.die home).nextLaunch = (s.die home).nextLaunch + 1
            ∧ (t.die home).running = (s.die home).running ++ [{
                id := (s.die home).nextLaunch, record := r, core := q.core, entry := q.entry
                gen := ((s.core q.core).future q.entry).gen, undone := cores.map (fun e => e.1) }]
            ∧ (∀ e ∈ cores, (t.core e.1).launch = some {
                die := home, id := (s.die home).nextLaunch, x0 := lrX0 r, y0 := lrY0 r, wm1 := lrWm1 r, hm1 := lrHm1 r
                rx := e.2.1, ry := e.2.2, job := lrJob r }))
          ∧ (∀ e ∈ cores, (t.die (dieOf e.1)).gbud = 0x40000 ∧ (t.die (dieOf e.1)).gramp = 0x4000
            ∧ (t.die (dieOf e.1)).gprev = 0 ∧ (t.die (dieOf e.1)).gallow = 0x4000)
          ∧ (t.pkg (pkgOfDie die)).land = 0 ∧ (∀ k, (∀ e ∈ cores, e.1 ≠ k) → t.core k = s.core k)
          ∧ (∀ e ∈ cores, (t.core e.1).part = lrPart r)))
  ∧ (∀ (c : Core) (r : LRec) j ref, let d := c.prepared r j ref
      let rank := ref.ry * (lrWm1 r + 1) + ref.rx
      let sp : Word := if lrSpbase r = 0 then 0 else word (lrSpbase r + (rank + 1) * 2 ^ lrSplog r)
      (d.proc 0).state = .ready ∧ (d.proc 0).pc = lrEntry r &&& ~~~(3 : Word) ∧ (d.proc 0).wsz = lrWsz r
      ∧ (d.proc 0).prio = lrPrio r ∧ (d.proc 0).depmax = lrDepmax r ∧ (d.proc 0).depth = 0 ∧ (d.proc 0).reg 5 = lrArg r 0
      ∧ (d.proc 0).reg 6 = word (ref.rx * 65536 + ref.ry) ∧ (d.proc 0).reg 2 = sp
      ∧ (∀ n, n ≠ 2 → n ≠ 5 → n ≠ 6 → (d.proc 0).reg n = 0)
      ∧ (d.proc 255).state = .ready ∧ (d.proc 255).pc = j.oventry.setWidth 64 ∧ (d.proc 255).prio = 127
      ∧ (d.proc 255).wsz = 32 ∧ (d.proc 255).reg 6 = word (2 ^ j.ovhlog.toNat)
      ∧ d.lcn = lrLcnb r + BitVec.ofNat 22 rank ∧ d.handler = none ∧ d.normal = [] ∧ d.staging = []
      ∧ (∀ n, n ≠ 0 → n ≠ 255 → (d.proc n).state = .free))
  ∧ (∀ (s : State) die pos q rest, takeAt (s.die die).running pos = some (q, rest) →
      let cores := (lrCores (pkgOfDie die) q.record).map (fun e => e.1)
      let f := (s.core q.core).future q.entry
      (cores.all (fun c => s.freeOf c die q.id) = false → exec (.launchCompletion die pos) s = .next s)
      ∧ (cores.all (fun c => s.freeOf c die q.id) = true → (s.die (dieOf q.core)).saved = [] → f.gen ≠ q.gen →
        ∃ t, exec (.launchCompletion die pos) s = .next t ∧ (t.die die).running = rest ∧ t.mem = s.mem
          ∧ (t.core q.core).futures = (s.core q.core).futures)
      ∧ (cores.all (fun c => s.freeOf c die q.id) = true → (s.die (dieOf q.core)).saved = [] → f.gen = q.gen → f.used = true →
        f.engine = 3 →
        ∃ t, exec (.launchCompletion die pos) s = .next t ∧ (t.die die).running = rest ∧ t.mem = s.mem
          ∧ (q.reason = 0 → q.killed = false → s.futureEnds t q.core q.entry 1 0 0)
          ∧ (q.reason = 0 → q.killed = true → s.futureEnds t q.core q.entry 2 0x40 0)
          ∧ (q.reason ≠ 0 → s.futureEnds t q.core q.entry 2 q.reason 0)))
  ∧ (∀ (s : State) die, let d := s.die die
      (d.quantumEnd = none → exec (.timeShareQuantum die) s = .next s)
      ∧ (∀ e, d.quantumEnd = some e → s.ticks < e → exec (.timeShareQuantum die) s = .next s)
      ∧ (∀ e n b, d.quantumEnd = some e → e ≤ s.ticks → ((s.turns die).find? (fun x => d.turn < x.1)) = some (n, b) →
        ∃ t, exec (.timeShareQuantum die) s = .next t ∧ t.die die = { d with turn := n, quantumEnd := some (s.ticks + ldQuant b), switching := true }
          ∧ (∀ k, k ≠ die → t.die k = s.die k) ∧ t.cores = s.cores ∧ t.mem = s.mem)
      ∧ (∀ e n b rest, d.quantumEnd = some e → e ≤ s.ticks → (s.turns die).all (fun x => x.1 ≤ d.turn) = true →
        s.turns die = (n, b) :: rest → ∃ t, exec (.timeShareQuantum die) s = .next t
          ∧ t.die die = { d with turn := n, quantumEnd := some (s.ticks + ldQuant b), switching := d.switching || n != d.turn }
          ∧ (∀ k, k ≠ die → t.die k = s.die k) ∧ t.cores = s.cores ∧ t.mem = s.mem))
  ∧ (∀ (s : State) pkg job target, (job = target
        ∨ (∀ d, pkgOfDie d = pkg → s.timeShares target d = true → s.turnOf d target = false)) →
      exec (.tenantSwitch pkg job target) s = .next s)
  ∧ (∀ (s : State) pkg job target d, job ≠ target → s.leavers job target = [(d, job)] → d ∈ s.tenantDies job →
      pkgOfDie d = pkg → s.timeShares target d = true → s.turnOf d target = true →
      let still := (s.die d).switching && (s.tenantCores d).all (fun c => (s.core c).quiet)
      (still = false → ∃ t, exec (.tenantSwitch pkg job target) s = .next t
        ∧ t.die d = { s.die d with switching := true } ∧ (∀ k, k ≠ d → t.die k = s.die k) ∧ t.cores = s.cores ∧ t.mem = s.mem)
      ∧ (still = true → (∀ k, (s.die k).isSaved target = false) → (s.die d).saved = [] → ∃ t, exec (.tenantSwitch pkg job target) s = .next t
        ∧ (t.die d).isSaved job = true ∧ (t.die d).switching = false
        ∧ (∀ c ∈ s.tenantCores d, (t.core c).procs = [] ∧ (t.core c).tlb = [])
        ∧ (∀ a, poolOfDie d a = true → t.mem.byte a = 0) ∧ (∀ a, poolOfDie d a = false → t.mem.byte a = s.mem.byte a)))
  ∧ (∀ (s : State) pkg job target, s.switchDue pkg job target = true →
      let ds := s.leavers job target
      let still := ds.all (fun d => (s.die d.1).switching && (s.tenantCores d.1).all (fun c => (s.core c).quiet))
      (still = false → ∃ t, exec (.tenantSwitch pkg job target) s = .next t ∧ t.cores = s.cores ∧ t.mem = s.mem
        ∧ (∀ e ∈ ds, (t.die e.1).switching = true))
      ∧ (still = true → ∃ t, exec (.tenantSwitch pkg job target) s = .next t
        ∧ (∀ e ∈ ds, (t.die e.1).switching = false ∧ (s.timeShares e.2 e.1 = true → (t.die e.1).isSaved e.2 = true))))
  ∧ (∀ (s : State) job target d, (d, job) ∈ s.leavers job target ↔
      d ∈ s.tenantDies job ∨ (d ∈ s.allDies ∧ s.timeShares target d = true ∧ s.onlyTenant d job = true ∧ job ∈ s.residents d))

/-- The GSET at work on a kernel core may be performed: its process and operands, its class and direction, its image
written and, where it is read, free of poison, the core it reaches awake (R333, R335, R378, R385). -/
def Sys2Proof.Machine.State.gsetTurn (s : State) (core pn : Nat) (x y : Word) (rd : Bool) (cls : Nat) : Prop :=
  (s.core core).gsetHead = some (pn, x, y) ∧ selRd x = rd ∧ selClass x = cls
  ∧ (s.core core).storesDone pn (s.core core).nextTag = true ∧ (s.proc core pn).state = .blockedSync
  ∧ (rd = false → s.mem.poisonIn (poolKey core y.toNat) (imageBytes cls) = none)
  ∧ (classHasCore cls = true → (s.core (dieOf core * 512 + selCore x)).gated = false)

/-- A process that a core held goes on: it waits for nothing, its registers as before. -/
def Sys2Proof.Machine.State.leavesWait (s t : State) (core pn : Nat) : Prop :=
  ((t.proc core pn).state = .running ∨ (t.proc core pn).state = .ready) ∧ (t.proc core pn).wait = .none
  ∧ (t.proc core pn).pc = (s.proc core pn).pc ∧ (s.proc core pn).keeps (t.proc core pn)

/-- Bytes of memory that carry no poison. -/
def Sys2Proof.Machine.Memory.clean (m : Memory) (k n : Nat) : Prop := ∀ i, i < n → m.isPoisoned (k + i) = false

/-- O49 (R172, R183, R184, R196, R229, R303, R316, R327, R329, R334, R335, R336). GSET events write the object their selector names whole, or refuse, as R172, R303, R327 to R336 and R183 to R184 say. The model’s choices, not the spec’s: PROT for an unlisted EPCTL, the refusal of the 1,025th endpoint, the poisoned image and which saved tenant a write reaches (log 25); the two husk writes by which a process moves, and what they refuse (log 20) -/
def Obligations.GsetWrites : Prop :=
  (∀ (s : State) core, (s.core core).gsetHead = none →
      exec (.gsetRead core) s = .next s ∧ exec (.gsetEndpt core) s = .next s ∧ exec (.gsetEpctlClose core) s = .next s
      ∧ exec (.gsetEpctlMoveBegin core) s = .next s ∧ exec (.gsetEpctlMoveEnd core) s = .next s
      ∧ exec (.gsetHusk core) s = .next s ∧ exec (.gsetReg core) s = .next s ∧ exec (.gsetHtab core) s = .next s
      ∧ exec (.gsetLrec core) s = .next s ∧ exec (.gsetFtab core) s = .next s ∧ exec (.gsetJob core) s = .next s
      ∧ exec (.gsetGate core) s = .next s ∧ exec (.gsetDie core) s = .next s ∧ exec (.gsetPkg core) s = .next s
      ∧ exec (.gsetShoot core) s = .next s ∧ exec (.gsetFreply core) s = .next s)
  ∧ (∀ (s : State) core pn x y cls, s.gsetTurn core pn x y true cls → s.mem.wf = true → s.noWaiters →
      y.toNat + imageBytes cls ≤ 2 ^ 21 → s.mem.clean (poolKey core y.toNat) (imageBytes cls) →
      ∃ t, exec (.gsetRead core) s = .next t ∧ s.leavesWait t core pn
        ∧ storedAt s.mem t.mem (poolKey core y.toNat) (imageBytes cls) (s.object core x)
        ∧ (∀ k, k ≠ core → t.core k = s.core k) ∧ t.dies = s.dies ∧ t.pkgs = s.pkgs)
  ∧ (∀ (s : State) core pn x y, s.gsetTurn core pn x y false 0 →
      let k := dieOf core * 512 + selCore x
      let old := look ({} : Endpoint) (s.core k).endpoints (selIndex x)
      let e := old.ofImage (!old.valid) (selRaw x) (s.image core y 32)
      let full := decide (1024 ≤ ((s.core k).endpoints.filter (fun z => z.2.valid)).length)
      let refused := (selRaw x && old.valid) || (e.valid && !old.valid && full)
      (refused = true → exec (.gsetEndpt core) s = .next (s.trapBlocked core pn .prot x))
      ∧ (refused = false → ∃ t, exec (.gsetEndpt core) s = .next t ∧ s.leavesWait t core pn ∧ t.mem = s.mem
          ∧ look ({} : Endpoint) (t.core k).endpoints (selIndex x) = (if e.valid then e else {})
          ∧ (∀ i, i ≠ selIndex x → look ({} : Endpoint) (t.core k).endpoints i = look {} (s.core k).endpoints i)))
  ∧ (∀ (s : State) core pn x y, s.gsetTurn core pn x y false 1 →
      let k := dieOf core * 512 + selCore x
      let e := look ({} : Endpoint) (s.core k).endpoints (selIndex x)
      let v := s.image core y 16
      let h := e.handleAt (selIndex x)
      let dst := v / 2 ^ 64 % 2 ^ 12 * 2048 + v / 2 ^ 64 / 2 ^ 12 % 4 * 512 + v / 2 ^ 64 / 2 ^ 16 % 2 ^ 9
      ((v % 2 ^ 64 = 0 ∨ 3 < v % 2 ^ 64 ∨ e.valid = false) →
        exec (.gsetEpctlClose core) s = .next (s.trapBlocked core pn .prot x))
      ∧ (v % 2 ^ 64 = 1 → e.valid = true → e.state = 0 → e.closing = 0 → e.engine = false →
          ∃ t, exec (.gsetEpctlClose core) s = .next t ∧ s.leavesWait t core pn ∧ t.mem = s.mem ∧ (t.ep k h).state = 6 ∧ (t.ep k h).close = 1)
      ∧ (v % 2 ^ 64 = 2 → e.valid = true → e.state ≠ 5 → e.state ≠ 6 → e.state ≠ 7 →
          ∃ t, exec (.gsetEpctlMoveBegin core) s = .next t ∧ s.leavesWait t core pn ∧ t.mem = s.mem ∧ t.ep k h = { e with before := e.state, state := 7, newPlace := none })
      ∧ (v % 2 ^ 64 = 2 → e.valid = true → e.state = 5 →
          ∃ t, exec (.gsetEpctlMoveBegin core) s = .next t ∧ s.leavesWait t core pn ∧ t.mem = s.mem ∧ t.ep k h = { e with moving := true })
      ∧ (v % 2 ^ 64 = 3 → e.valid = true → e.state = 7 →
          ∃ t, exec (.gsetEpctlMoveEnd core) s = .next t ∧ s.leavesWait t core pn ∧ t.mem = s.mem
          ∧ t.ep k h = (if dst = k then { e with state := e.before, before := 0, newPlace := none } else { e with newPlace := some dst })
          ∧ t.net = s.net ++ (look [] (s.core k).held (h % 2 ^ 20)).map (fun p => { p with
              dst := dst, at_ := pkgOf k, hop := 0, inj := some k, gen := (s.pkg (pkgOf k)).gen, reply := none })
          ∧ look [] (t.core k).held (h % 2 ^ 20) = []))
  ∧ (∀ (s : State) core pn x y, s.gsetTurn core pn x y false 2 →
      let k := dieOf core * 512 + selCore x
      let i := selIndex x
      let v := s.image core y 64
      let p := s.proc k i
      let refused := exec (.gsetHusk core) s = .next (s.trapBlocked core pn .prot x)
      (v / 2 ^ 120 % 16 = 0 → p.state ≠ .free → (s.core k).moveBarred i = true → refused)
      ∧ (v / 2 ^ 120 % 16 = 0 → p.state = .free → p.moving = false → s.savedWith k i = none → refused)
      ∧ (v / 2 ^ 120 % 16 = 0 → p.state ≠ .free → (s.core k).moveBarred i = false → (k, i) ≠ (core, pn) →
          (p.moving = true → (s.core k).movable i = true → ∃ t, exec (.gsetHusk core) s = .next t ∧ s.leavesWait t core pn ∧ t.mem = s.mem ∧ t.proc k i = p)
          ∧ (p.moving = true → (s.core k).movable i = false → exec (.gsetHusk core) s = .next s)
          ∧ (p.moving = false → (s.core k).slotOf i = none → ∃ t, exec (.gsetHusk core) s = .next t
            ∧ t.proc k i = { p with moving := true } ∧ (∀ q, i ∉ look [] (t.core k).ready q) ∧ t.mem = s.mem)
          ∧ (∀ j, p.moving = false → (s.core k).slotOf i = some j →
            (((s.core k).slot j).settled = none ∨ (s.core k).mayLeave j = false) → exec (.gsetHusk core) s = .next s)
          ∧ (∀ j, p.moving = false → (s.core k).slotOf i = some j → p.state = .running → p.wait = .none →
            ((s.core k).slot j).settled.isSome = true → (s.core k).mayLeave j = true → ∃ t, exec (.gsetHusk core) s = .next t
            ∧ (t.proc k i).moving = true ∧ (t.proc k i).state = .ready ∧ ((t.core k).slot j).proc = none ∧ t.mem = s.mem))
      ∧ (v / 2 ^ 120 % 16 ≠ 0 → (p.state = .faulted ∨ (p.moving = true ∧ s.mover v = none)) → (k, i) ≠ (core, pn) →
          ∃ t, exec (.gsetHusk core) s = .next t ∧ s.leavesWait t core pn ∧ t.mem = s.mem ∧ t.proc k i = p.ofImage v
          ∧ ((t.proc k i).state = .ready → i ∈ look [] (t.core k).ready (t.proc k i).prio.toNat))
      ∧ (v / 2 ^ 120 % 16 ≠ 0 → p.state ≠ .faulted → p.moving = false → s.mover v = none → s.savedWith k i = none → refused)
      ∧ (∀ z, v / 2 ^ 120 % 16 ≠ 0 → p.state ≠ .faulted → p.moving = false → s.mover v = none →
          (s.die (dieOf core)).saved = [z] → isKernel k = false → s.jobOf k ≠ z.job →
          ((look ({} : Core) z.cores k).proc i).state ≠ .free →
          ∃ t, exec (.gsetHusk core) s = .next t ∧ s.leavesWait t core pn ∧ t.mem = s.mem
          ∧ (t.die (dieOf core)).saved = [{ z with cores := put z.cores k ((look ({} : Core) z.cores k).writeHusk i v) }])
      ∧ (∀ g n, v / 2 ^ 120 % 16 ≠ 0 → p.state = .free → p.moving = false → s.mover v = some (g, none, n) → g ≠ k → (g, n) ≠ (core, pn) →
          isKernel k = false → (s.core k).gateV = true → s.jobOf k = s.jobOf g →
          (∀ a l b, (s.core k).freeNumber = some i → (s.core k).launch = some a → (s.core g).launch = some l →
            a.die = l.die → a.id = l.id → (s.core k).allocWindow (s.proc g n).wsz = some b →
            ∃ t, exec (.gsetHusk core) s = .next t ∧ s.leavesWait t core pn ∧ t.mem = s.mem ∧ t.proc g n = {} ∧ t.proc k i = { s.proc g n with
              moving := false, wbase := BitVec.ofNat 12 b, wait := (s.proc g n).wait.moved.getD .none })
          ∧ (s.savedWith k i = none → ((s.core k).freeNumber ≠ some i ∨ (s.core k).launch = none
              ∨ (s.core k).allocWindow (s.proc g n).wsz = none) → refused)))
  ∧ (∀ (p : Proc) v, (p.ofImage v).state = ProcState.ofCode (v / 2 ^ 120 % 16)
      ∧ (p.ofImage v).pc = word (v % 2 ^ 56) &&& ~~~(3 : Word) ∧ (p.ofImage v).prio = BitVec.ofNat 7 (v / 2 ^ 56)
      ∧ (p.ofImage v).moving = false ∧ (p.ofImage v).inRep = false ∧ (p.ofImage v).regs = p.regs
      ∧ (p.ofImage v).pend = p.pend ∧ (p.ofImage v).wbase = p.wbase)
  ∧ (∀ (s : State) core pn x y, s.gsetTurn core pn x y false 3 →
      let k := dieOf core * 512 + selCore x
      let i := selIndex x % 256
      let n := selIndex x / 256
      ((s.proc k i).state ≠ .faulted → (s.proc k i).moving = false → s.savedWith k i = none →
        exec (.gsetReg core) s = .next (s.trapBlocked core pn .prot x))
      ∧ (((s.proc k i).state = .faulted ∨ ((s.proc k i).moving = true ∧ (k, i) ≠ (core, pn))) → 0 < n →
          n < (s.proc k i).regs.length → n < (s.proc k i).pend.length →
          ∃ t, exec (.gsetReg core) s = .next t ∧ s.leavesWait t core pn ∧ t.mem = s.mem ∧ (t.proc k i).reg n = word (s.image core y 8) ∧ (t.proc k i).isPending n = false
          ∧ (∀ m, m ≠ n → (t.proc k i).reg m = (s.proc k i).reg m) ∧ (t.proc k i).state = (s.proc k i).state)
      ∧ (∀ z, (s.proc k i).state ≠ .faulted → (s.proc k i).moving = false → (s.die (dieOf core)).saved = [z] →
          isKernel k = false → s.jobOf k ≠ z.job → ((look ({} : Core) z.cores k).proc i).state ≠ .free →
          let c : Core := look {} z.cores k
          let d := c.setProc i ((c.proc i).arrive n (word (s.image core y 8)))
          ∃ t, exec (.gsetReg core) s = .next t ∧ s.leavesWait t core pn ∧ t.mem = s.mem ∧ (t.die (dieOf core)).saved = [{ z with cores := put z.cores k d }]))
  ∧ (∀ (s : State) core pn x y, s.gsetTurn core pn x y false 4 →
      let k := dieOf core * 512 + selCore x
      ∃ t, exec (.gsetHtab core) s = .next t ∧ s.leavesWait t core pn ∧ t.mem = s.mem
        ∧ look 0 (t.core k).handlers (selIndex x) = BitVec.ofNat 512 (s.image core y 64) &&& handlerMask
        ∧ (∀ i, i ≠ selIndex x → look 0 (t.core k).handlers i = look 0 (s.core k).handlers i))
  ∧ (∀ (s : State) core pn x y, s.gsetTurn core pn x y false 5 → ∃ t, exec (.gsetLrec core) s = .next t ∧ s.leavesWait t core pn ∧ t.mem = s.mem
      ∧ t.lrec (dieOf core) (selIndex x) = BitVec.ofNat 1024 (s.image core y 128) &&& lrMask
      ∧ (∀ i, i ≠ selIndex x → t.lrec (dieOf core) i = s.lrec (dieOf core) i))
  ∧ (∀ (s : State) core pn x y, s.gsetTurn core pn x y false 6 →
      let fs := (s.die (dieOf core)).frames
      ((look ({} : FrameEntry) fs (selIndex x)).pin = true →
        exec (.gsetFtab core) s = .next (s.trapBlocked core pn .prot x))
      ∧ ((look ({} : FrameEntry) fs (selIndex x)).pin = false → ∃ t, exec (.gsetFtab core) s = .next t ∧ s.leavesWait t core pn ∧ t.mem = s.mem
        ∧ look ({} : FrameEntry) (t.die (dieOf core)).frames (selIndex x) = FrameEntry.ofImage (s.image core y 16)
        ∧ (∀ i, i ≠ selIndex x → look ({} : FrameEntry) (t.die (dieOf core)).frames i = look {} fs i)))
  ∧ (∀ (s : State) core pn x y, s.gsetTurn core pn x y false 7 → ∃ t, exec (.gsetJob core) s = .next t ∧ s.leavesWait t core pn ∧ t.mem = s.mem
      ∧ look ({} : JobRec) (t.die (dieOf core)).jobs (selIndex x) = JobRec.ofImage (s.image core y 64)
      ∧ (∀ i, i ≠ selIndex x → look ({} : JobRec) (t.die (dieOf core)).jobs i = look {} (s.die (dieOf core)).jobs i))
  ∧ (∀ (s : State) core pn x y, s.gsetTurn core pn x y false 8 →
      let k := dieOf core * 512 + selCore x
      ∃ t, exec (.gsetGate core) s = .next t ∧ s.leavesWait t core pn ∧ t.mem = s.mem ∧ (t.core k).gateJob = BitVec.ofNat 16 (s.image core y 8)
        ∧ (t.core k).gateV = (s.image core y 8).testBit 16 ∧ (t.core k).gated = (s.core k).gated)
  ∧ (∀ (s : State) core pn x y, s.gsetTurn core pn x y false 9 → selIndex x < 6 →
      let v := s.image core y 8
      let i := selIndex x
      ∃ t, exec (.gsetDie core) s = .next t ∧ s.leavesWait t core pn ∧ t.mem = s.mem
        ∧ (t.die (dieOf core)).gbud = (if i = 0 then BitVec.ofNat 20 v else (s.die (dieOf core)).gbud)
        ∧ (t.die (dieOf core)).gramp = (if i = 1 then BitVec.ofNat 20 v else (s.die (dieOf core)).gramp)
        ∧ (∀ n, n < 4 → (t.core (dieOf core * 512 + 256 + n)).frbase
            = if i = n + 2 then word v else (s.core (dieOf core * 512 + 256 + n)).frbase))
  ∧ (∀ (s : State) core pn x y, s.gsetTurn core pn x y false 10 → (selIndex x < 2 ∨ (16 ≤ selIndex x ∧ selIndex x < 32)) →
      let v := word (s.image core y 8)
      let i := selIndex x
      let p := s.pkg (pkgOf core)
      ∃ t, exec (.gsetPkg core) s = .next t ∧ s.leavesWait t core pn ∧ t.mem = s.mem ∧ (t.pkg (pkgOf core)).land = (if i = 0 then v.setWidth 56 else p.land)
        ∧ (t.pkg (pkgOf core)).duty = (if i = 1 then v &&& 0x3FF else p.duty)
        ∧ (∀ n, look 0 (t.pkg (pkgOf core)).ldbind n = if i = n + 16 then v &&& ldMask else look 0 p.ldbind n))
  ∧ (∀ (s : State) core pn x y, s.gsetTurn core pn x y false 12 →
      let k := dieOf core * 512 + selCore x
      let v := s.image core y 8
      (∀ o q f, (s.core k).copyQ = o :: q → (s.core k).handleFor k o.entry = v % 2 ^ 32 → o.fault = some f →
        (v.testBit 32 = true → ∃ t, exec (.gsetFreply core) s = .next t ∧ s.leavesWait t core pn ∧ t.mem = s.mem ∧ (t.core k).copyQ = { o with fault := none } :: q)
        ∧ (v.testBit 32 = false → ((s.core k).future o.entry).used = true →
          ∃ t, exec (.gsetFreply core) s = .next t ∧ s.futureEnds t k o.entry 2 f.1.code 0 ∧ (t.core k).copyQ = q
            ∧ t.mem = s.mem))
      ∧ ((s.core k).copyQ = [] → ∃ t, exec (.gsetFreply core) s = .next t ∧ s.leavesWait t core pn ∧ t.mem = s.mem ∧ (∀ j, j ≠ core → t.core j = s.core j)))
  ∧ (∀ (s : State) core pn x y ev cls l, (s.core core).gsetHead = some (pn, x, y) → selRd x = false → selClass x = cls →
      (s.core core).storesDone pn (s.core core).nextTag = true →
      (classHasCore cls = true → (s.core (dieOf core * 512 + selCore x)).gated = false) →
      s.mem.poisonIn (poolKey core y.toNat) (imageBytes cls) = some l →
      (ev, cls) ∈ [(Instr.gsetEndpt core, 0), (.gsetEpctlClose core, 1), (.gsetEpctlMoveBegin core, 1),
        (.gsetEpctlMoveEnd core, 1), (.gsetHusk core, 2), (.gsetReg core, 3), (.gsetHtab core, 4), (.gsetLrec core, 5),
        (.gsetFtab core, 6), (.gsetJob core, 7), (.gsetGate core, 8), (.gsetDie core, 9), (.gsetPkg core, 10),
        (.gsetShoot core, 11), (.gsetFreply core, 12)] →
      exec ev s = .next ((s.wake core pn).poisonRead core pn (word (l * 64 % 2 ^ 21))))

/-- O50 (R333, R335, R339, R340, R342, R343). A shoot-down writes its leaf, invalidates every core and ends when all have drained, and fault messages reach their ring. The model’s choices, not the spec’s: which cores a shoot-down reaches and when its pin is dropped (log 25) -/
def Obligations.ShootDownsAndFaultMessages : Prop :=
  (∀ (s : State) core pn x y, s.gsetTurn core pn x y false 11 →
      (s.die (dieOf core)).shoots.any (fun h => h.kcore == core) = false →
      let v := s.image core y 32
      let job := v % 2 ^ 16
      let va := v / 2 ^ 64 % 2 ^ 64
      let pte := word (v / 2 ^ 128 % 2 ^ 64)
      (∀ c, s.leafKey (dieOf core) job va pte = .inr c →
        exec (.gsetShoot core) s = .next (s.trapBlocked core pn c (word va)))
      ∧ (s.leafKey (dieOf core) job va pte = .inl none →
        exec (.gsetShoot core) s = .next (s.trapBlocked core pn .page (word va)))
      ∧ (∀ k, s.leafKey (dieOf core) job va pte = .inl (some k) → s.pinOld job va (s.mem.word (k / 8)) = none →
        exec (.gsetShoot core) s = .next s)
      ∧ (∀ k u, s.leafKey (dieOf core) job va pte = .inl (some k) → s.pinOld job va (s.mem.word (k / 8)) = some u →
        s.shootCores job ≠ [] → s.mem.isPoisoned k = false → s.mem.wf = true → s.noWaiters →
        ∃ t, exec (.gsetShoot core) s = .next t ∧ storedAt s.mem t.mem k 8 pte.toNat
          ∧ (∃ h ∈ (t.die (dieOf core)).shoots, h.kcore = core ∧ h.pn = pn ∧ h.job = job ∧ h.va = va ∧ h.pte = pte
            ∧ h.pendingCores = t.shootCores job ∧ h.unacked = []
            ∧ h.home = (if (s.mem.word (k / 8)).getLsbD 0 then some (pteHome (s.mem.word (k / 8))) else none))
          ∧ t.cores = s.cores))
  ∧ (∀ (s : State) job c, job ≠ 0 → (∃ p, (pkgOf c, p) ∈ s.pkgs) →
      (c ∈ s.shootCores job ↔ s.holds job (dieOf c) = true ∧ idxOf c < 260))
  ∧ (∀ (s : State) kcore core, s.shootOf kcore = none →
      exec (.shootdownInvalidate kcore core) s = .next s ∧ exec (.shootdownAck kcore core) s = .next s)
  ∧ (∀ (s : State) kcore core h, s.shootOf kcore = some h →
      ((core ∉ h.pendingCores ∨ ∃ p ∈ h.pendingCores, treeAbove p core = true) →
        exec (.shootdownInvalidate kcore core) s = .next s)
      ∧ (core ∈ h.pendingCores → (∀ p ∈ h.pendingCores, treeAbove p core = false) → (s.core core).gated = false →
        ∃ t, exec (.shootdownInvalidate kcore core) s = .next t ∧ t.mem = s.mem
          ∧ (∀ e ∈ (t.core core).tlb, ¬ (e.job = h.job ∧ h.covers (e.vpn * pageSize e.large) e.large = true))
          ∧ (∀ e ∈ (s.core core).tlb, e ∈ (t.core core).tlb
              ∨ (e.job = h.job ∧ h.covers (e.vpn * pageSize e.large) e.large = true))
          ∧ (∀ l ∈ (t.cluster (dieOf core) (clusterOf core)).lines, ¬ (l.1 = h.job ∧ h.covers (l.2.1 * 64) false = true))
          ∧ t.shootOf kcore = some { h with
              pendingCores := h.pendingCores.filter (· != core), unacked := h.unacked ++ [core], limits := h.limits ++ [(core, (s.core core).nextTag)] }
          ∧ (∀ k, k ≠ core → t.core k = s.core k))
      ∧ (core ∈ h.pendingCores → (∀ p ∈ h.pendingCores, treeAbove p core = false) → (s.core core).gated = true →
        h.unacked ≠ [] →
        ∃ t, exec (.shootdownInvalidate kcore core) s = .next t ∧ t.mem = s.mem ∧ t.cores = s.cores
          ∧ t.shootOf kcore = some { h with pendingCores := h.pendingCores.filter (· != core) }))
  ∧ (∀ (s : State) kcore core h, s.shootOf kcore = some h →
      let limit := ((h.limits.find? (fun e => e.1 == core)).map (fun e => e.2)).getD 0
      ((core ∉ h.unacked ∨ (s.core core).drained h limit = false ∨ (s.coreFor core h.job).drained h limit = false) → exec (.shootdownAck kcore core) s = .next s)
      ∧ (core ∈ h.unacked → (s.core core).drained h limit = true → (s.coreFor core h.job).drained h limit = true → h.pendingCores ≠ [] →
        ∃ t, exec (.shootdownAck kcore core) s = .next t ∧ t.mem = s.mem ∧ t.cores = s.cores
          ∧ t.shootOf kcore = some { h with unacked := h.unacked.filter (· != core) })
      ∧ (h.unacked = [core] → (s.core core).drained h limit = true → (s.coreFor core h.job).drained h limit = true → h.pendingCores = [] → kcore ≠ mailShooter (dieOf kcore) →
        (s.proc kcore h.pn).state = .blockedSync → s.mem.wf = true → s.noWaiters → (h.image + 24).toNat + 8 ≤ 2 ^ 21 →
        s.mem.isPoisoned (poolKey kcore (h.image + 24).toNat) = false →
        ∃ t, exec (.shootdownAck kcore core) s = .next t ∧ t.shootOf kcore = none ∧ s.leavesWait t kcore h.pn
          ∧ storedAt s.mem t.mem (poolKey kcore (h.image + 24).toNat) 8 1))
  ∧ (∀ (s : State) core, (s.core core).faultOut = [] → exec (.faultMessageWrite core) s = .next s)
  ∧ (∀ (s : State) core m rest, (s.core core).faultOut = m :: rest →
      let pn := m.pid.toNat % 256
      let held := m.kind = 1 ∧ ((s.core core).divider.any (fun o => o.pn == pn) || (s.core core).inFlight pn) = true
      let host := (s.pkg (pkgOf core)).servesFaults m.job.toNat (dieOf core)
      let kc := kernelFor core
      let key := (s.core kc).ringKey kc 0
      let turns := (s.pkg (pkgOf core)).turning.getLsbD 1
      ((held ∨ turns = true) → exec (.faultMessageWrite core) s = .next s)
      ∧ (¬ held → turns = false → host = true → ∃ t, exec (.faultMessageWrite core) s = .next t ∧ (t.core core).faultOut = rest
        ∧ (t.pkg (pkgOf core)).forwarded = (s.pkg (pkgOf core)).forwarded ++ [(core, m)] ∧ t.mem = s.mem
        ∧ (∀ k, k ≠ core → t.core k = s.core k))
      ∧ (¬ held → turns = false → host = false → s.mem.isFull (key / 8) = true → exec (.faultMessageWrite core) s = .next s)
      ∧ (¬ held → turns = false → host = false → m.more = [] → s.mem.isFull (key / 8) = false →
        (s.core kc).frbase.toNat % 64 = 0 → (s.core kc).frbase.toNat + 16384 ≤ 2 ^ 21 → s.mem.wf = true → s.noWaiters →
        s.mem.clean key 64 →
        ∃ t, exec (.faultMessageWrite core) s = .next t ∧ (t.core core).faultOut = rest
          ∧ (t.core kc).ringPos = ((s.core kc).ringPos + 1) % 256 ∧ storedAt s.mem t.mem key 64 m.first.toNat
          ∧ t.mem.isFull (key / 8) = true))
  ∧ (∀ m : FaultMsg, m.more.length < 4 → m.first.extractLsb' 0 4 = m.kind ∧ m.first.extractLsb' 4 2 = BitVec.ofNat 2 m.more.length
      ∧ m.first.extractLsb' 8 8 = m.cause ∧ m.first.extractLsb' 16 31 = m.pid ∧ m.first.extractLsb' 48 16 = m.job
      ∧ m.first.extractLsb' 64 64 = m.fpc ∧ m.first.extractLsb' 128 64 = m.faddr ∧ m.first.extractLsb' 192 32 = m.finst
      ∧ m.first.extractLsb' 224 32 = m.extra)

/-- The mailbox of a package takes vendor commands of a device: a port serves it, and the firmware runs (R346, R389). -/
def Sys2Proof.Machine.State.mailOpen (s : State) (pkg dev : Nat) : Prop := (s.pkg pkg).serves dev = true ∧ (s.pkg pkg).recovery = false

/-- A mailbox command completes, and that is all that changes (R349). -/
def Sys2Proof.Machine.State.completesOnly (s t : State) (pkg dev op : Nat) (st : MailStatus) (payload : List Word) : Prop :=
  t.pkg pkg = { s.pkg pkg with mailbox := (s.pkg pkg).mailbox ++ [{ dev := dev, opcode := op, status := st, payload := payload }] }
  ∧ (∀ k, k ≠ pkg → t.pkg k = s.pkg k) ∧ { t with pkgs := s.pkgs } = s

/-- A command waits for a change of MODE, behind those that wait already (R321). -/
def Sys2Proof.Machine.State.keepsCommand (s : State) (pkg : Nat) (h : HeldCmd) : State :=
  s.modPkg pkg (fun p => { p with heldCmds := p.heldCmds ++ [h] })

/-- A mailbox command completes with success, among what else it does (R349). -/
def Sys2Proof.Machine.State.succeeds (s t : State) (pkg dev op : Nat) (payload : List Word) : Prop :=
  (t.pkg pkg).mailbox = (s.pkg pkg).mailbox ++ [{ dev := dev, opcode := op, status := .success, payload := payload }]

/-- O51 (R303, R321, R342, R344, R349, R351, R356, R375, R389, R390). Mailbox commands complete with the status R349 gives them, and have their effect only where it is success. The model’s choices, not the spec’s: FAULTREPLY’s actions, MIGRATE’s stages, the write-back of host lines, the commands that wait and the invalid inputs (log 18), what holds a change of MODE (log 26), and the time of a slot write (log 17) -/
def Obligations.MailboxCommands : Prop :=
  (∀ (s : State) pkg dev, (s.pkg pkg).serves dev = false →
      exec (.faulttake pkg dev) s = .next s ∧ (∀ a c i, exec (.faultreply pkg dev a c i) s = .next s)
      ∧ (∀ j v g, exec (.migrate pkg dev j v g) s = .next s) ∧ (∀ d i r, exec (.lrecwrite pkg dev d i r) s = .next s)
      ∧ (∀ o v, exec (.routeload pkg dev o v) s = .next s) ∧ (∀ d p a, exec (.scrubset pkg dev d p a) s = .next s)
      ∧ (∀ v, exec (.dutyset pkg dev v) s = .next s) ∧ (∀ f o b, exec (.fwsupply pkg dev f o b) s = .next s)
      ∧ (∀ q r b l e h, exec (.hostqreg pkg dev q r b l e h) s = .next s)
      ∧ (∀ op, exec (.mailboxUnsupported pkg dev op) s = .next s))
  ∧ (∀ (s : State) pkg dev, (s.pkg pkg).serves dev = true → (s.pkg pkg).recovery = true →
      (∃ t, exec (.faulttake pkg dev) s = .next t ∧ s.completesOnly t pkg dev 0xC000 .recovery [])
      ∧ (∀ a c i, ∃ t, exec (.faultreply pkg dev a c i) s = .next t ∧ s.completesOnly t pkg dev 0xC001 .recovery [])
      ∧ (∀ j v g, ∃ t, exec (.migrate pkg dev j v g) s = .next t ∧ s.completesOnly t pkg dev 0xC002 .recovery [])
      ∧ (∀ d i r, ∃ t, exec (.lrecwrite pkg dev d i r) s = .next t ∧ s.completesOnly t pkg dev 0xC003 .recovery [])
      ∧ (∀ o v, ∃ t, exec (.routeload pkg dev o v) s = .next t ∧ s.completesOnly t pkg dev 0xC004 .recovery [])
      ∧ (∀ d k a, ∃ t, exec (.scrubset pkg dev d k a) s = .next t ∧ s.completesOnly t pkg dev 0xC005 .recovery [])
      ∧ (∀ v, ∃ t, exec (.dutyset pkg dev v) s = .next t ∧ s.completesOnly t pkg dev 0xC006 .recovery [])
      ∧ (∀ q r b l e h, ∃ t, exec (.hostqreg pkg dev q r b l e h) s = .next t ∧ s.completesOnly t pkg dev 0xC008 .recovery [])
      ∧ (∀ op, (op < 0xC000 ∨ 0xC008 < op) → ∃ t, exec (.mailboxUnsupported pkg dev op) s = .next t
          ∧ s.completesOnly t pkg dev op .recovery []))
  ∧ (∀ (s : State) pkg dev, s.mailOpen pkg dev → let p := s.pkg pkg
      (p.dutyMode 1 = false → ∃ t, exec (.faulttake pkg dev) s = .next t ∧ s.completesOnly t pkg dev 0xC000 .invalidInput [])
      ∧ (p.dutyMode 1 = false → ∀ a c i, ∃ t, exec (.faultreply pkg dev a c i) s = .next t
          ∧ s.completesOnly t pkg dev 0xC001 .invalidInput [])
      ∧ (p.dutyMode 0 = false → p.turning.getLsbD 0 = false → p.heldCmds = [] → ∀ j v g, ∃ t, exec (.migrate pkg dev j v g) s = .next t
          ∧ s.completesOnly t pkg dev 0xC002 .invalidInput [])
      ∧ (p.turning = 0 → p.dutyMode 2 = false → ∀ d i r, ∃ t, exec (.lrecwrite pkg dev d i r) s = .next t
          ∧ s.completesOnly t pkg dev 0xC003 .invalidInput [])
      ∧ (p.turning = 0 → p.heldCmds = [] → p.dutyMode 3 = false → ∀ o v, ∃ t, exec (.routeload pkg dev o v) s = .next t
          ∧ s.completesOnly t pkg dev 0xC004 .invalidInput [])
      ∧ (p.turning = 0 → p.dutyMode 4 = false → ∀ d k a, ∃ t, exec (.scrubset pkg dev d k a) s = .next t
          ∧ s.completesOnly t pkg dev 0xC005 .invalidInput [])
      ∧ (p.turning.getLsbD 2 = true → ∀ d i r, exec (.lrecwrite pkg dev d i r) s = .next s)
      ∧ ((p.turning.getLsbD 3 = true ∨ p.heldCmds.any (fun h => h.op == 0xC004) = true) → ∀ o v,
          exec (.routeload pkg dev o v) s = .next (s.keepsCommand pkg (.routeload dev o v)))
      ∧ (((p.turning.getLsbD 0 = true ∧ p.dutyMode 0 = false) ∨ p.heldCmds.any (fun h => h.op == 0xC002) = true) → ∀ j v g,
          exec (.migrate pkg dev j v g) s = .next (s.keepsCommand pkg (.migrate dev j v g)))
      ∧ (p.turning.getLsbD 4 = true → ∀ d k a, exec (.scrubset pkg dev d k a) s = .next s)
      ∧ (∀ op, (op < 0xC000 ∨ 0xC008 < op) → ∃ t, exec (.mailboxUnsupported pkg dev op) s = .next t
          ∧ s.completesOnly t pkg dev op .unsupported []))
  ∧ (∀ (s : State) pkg dev, s.mailOpen pkg dev → (s.pkg pkg).dutyMode 1 = true →
      (∀ d, s.stoppedDie pkg dev = some d → ∃ t, exec (.faulttake pkg dev) s = .next t ∧ (t.die d).stopReport = false
        ∧ (t.pkg pkg).mailbox = (s.pkg pkg).mailbox ++ [{ dev := dev, opcode := 0xC000, status := .dieStopped, payload := [word d] }])
      ∧ (∀ e rest, s.stoppedDie pkg dev = none → takeFirst ((s.pkg pkg).concerns dev) (s.pkg pkg).forwarded = some (e, rest) →
        ∃ t, exec (.faulttake pkg dev) s = .next t ∧ s.succeeds t pkg dev 0xC000 e.2.words
          ∧ (t.pkg pkg).forwarded = rest ∧ (t.pkg pkg).taken = (s.pkg pkg).taken ++ [e] ∧ t.mem = s.mem ∧ t.cores = s.cores)
      ∧ (s.stoppedDie pkg dev = none → takeFirst ((s.pkg pkg).concerns dev) (s.pkg pkg).forwarded = none →
        ∃ t, exec (.faulttake pkg dev) s = .next t ∧ s.completesOnly t pkg dev 0xC000 .success []))
  ∧ (∀ (s : State) pkg dev a target image, s.mailOpen pkg dev → (s.pkg pkg).dutyMode 1 = true →
      (takeFirst ((s.pkg pkg).answers dev a target) (s.pkg pkg).taken = none →
        ∃ t, exec (.faultreply pkg dev a target image) s = .next t ∧ s.completesOnly t pkg dev 0xC001 .invalidInput [])
      ∧ (∀ e rest, takeFirst ((s.pkg pkg).answers dev a target) (s.pkg pkg).taken = some (e, rest) →
        let pn := target % 256
        (a = 0 → (s.proc e.1 pn).state = .faulted → ∃ t, exec (.faultreply pkg dev a target image) s = .next t
          ∧ s.succeeds t pkg dev 0xC001 [] ∧ (t.pkg pkg).taken = rest ∧ (t.proc e.1 pn).state = .ready
          ∧ (s.proc e.1 pn).keeps (t.proc e.1 pn) ∧ t.mem = s.mem)
        ∧ (a = 1 → (s.proc e.1 pn).state = .faulted → image.toNat / 2 ^ 120 % 16 ≠ 0 → ∃ t, exec (.faultreply pkg dev a target image) s = .next t
          ∧ s.succeeds t pkg dev 0xC001 [] ∧ (t.pkg pkg).taken = (s.pkg pkg).taken
          ∧ t.proc e.1 pn = (s.proc e.1 pn).ofImage image.toNat ∧ t.mem = s.mem)
        ∧ (a = 2 → pn ≠ 255 → (s.proc e.1 pn).state = .ready → (s.proc e.1 pn).wait = .none →
          (s.core e.1).slotOf pn = none → ∃ t, exec (.faultreply pkg dev a target image) s = .next t
          ∧ ((t.proc e.1 pn).state = .ended ∨ (t.proc e.1 pn).state = .free) ∧ t.mem = s.mem)))
  ∧ (∀ (s : State) pkg dev job va g, s.mailOpen pkg dev → (s.pkg pkg).dutyMode 0 = true →
      (s.pkg pkg).heldCmds = [] → let p := s.pkg pkg
      ((p.devDies pkg dev = [] ∨ ldJob (p.binding dev) ≠ job ∨ 5 < g) → ∃ t, exec (.migrate pkg dev job va g) s = .next t
        ∧ s.completesOnly t pkg dev 0xC002 .invalidInput [])
      ∧ (p.devDies pkg dev ≠ [] → ldJob (p.binding dev) = job → (g = 3 ∨ g = 4) →
        ∃ t, exec (.migrate pkg dev job va g) s = .next t ∧ s.completesOnly t pkg dev 0xC002 .success [])
      ∧ (∀ die ds k, p.devDies pkg dev = die :: ds → ldJob (p.binding dev) = job → s.leafKey die job va 0 = .inl (some k) →
        let pte := s.mem.word (k / 8)
        let page := storeKey (pteHome pte) (pteTarget pte) (pteFrame pte * 65536)
        pteOwn pte = 2 → ∃ t, exec (.migrate pkg dev job va 1) s = .next t ∧ s.succeeds t pkg dev 0xC002 []
          ∧ (∀ e ∈ (t.pkg (pteHome pte / 4)).hostLines, e.1 * 64 < page ∨ page + pageSize (pteLg pte) ≤ e.1 * 64)
          ∧ t.mem = s.mem ∧ t.cores = s.cores ∧ t.dies = s.dies)
      ∧ (∀ die ds, p.devDies pkg dev = die :: ds → ldJob (p.binding dev) = job → migrateOwn g ≠ none →
        (p.migrations.any (fun m => m.die == die) = true ∨ (p.turning.getLsbD 0 = true ∧ (job, va) ∉ p.migrating)) →
        exec (.migrate pkg dev job va g) s = .next (s.keepsCommand pkg (.migrate dev job va g)))
      ∧ (∀ die ds k own, p.devDies pkg dev = die :: ds → ldJob (p.binding dev) = job → migrateOwn g = some own →
        p.migrations.any (fun m => m.die == die) = false → (p.turning.getLsbD 0 = false ∨ (job, va) ∈ p.migrating) →
        s.leafKey die job va 0 = .inl (some k) →
        let pte := withOwn (s.mem.word (k / 8)) own
        s.leafKey die job va pte = .inl (some k) → (s.mem.word (k / 8)).getLsbD 0 = false → s.shootCores job ≠ [] →
        s.mem.isPoisoned k = false → s.mem.wf = true → s.noWaiters →
        ∃ t, exec (.migrate pkg dev job va g) s = .next t ∧ storedAt s.mem t.mem k 8 pte.toNat
          ∧ (t.pkg pkg).migrations = p.migrations ++ [{ dev := dev, die := die }]
          ∧ (∃ h ∈ (t.die die).shoots, h.kcore = mailShooter die ∧ h.job = job ∧ h.va = va ∧ h.pte = pte)))
  ∧ (∀ (s : State) pkg dev die i image, s.mailOpen pkg dev → (s.pkg pkg).dutyMode 2 = true → (s.pkg pkg).turning.getLsbD 2 = false →
      let ok := (s.pkg pkg).devDie dev die = true ∧ i < 1024
      (ok → ∃ t, exec (.lrecwrite pkg dev die i image) s = .next t ∧ s.succeeds t pkg dev 0xC003 []
        ∧ t.lrec (4 * pkg + die) i = image &&& lrMask ∧ (∀ j, j ≠ i → t.lrec (4 * pkg + die) j = s.lrec (4 * pkg + die) j)
        ∧ t.mem = s.mem ∧ t.cores = s.cores)
      ∧ (¬ ok → ∃ t, exec (.lrecwrite pkg dev die i image) s = .next t
        ∧ s.completesOnly t pkg dev 0xC003 .invalidInput []))
  ∧ (∀ (s : State) pkg dev o v, s.mailOpen pkg dev → (s.pkg pkg).dutyMode 3 = true → (s.pkg pkg).turning.getLsbD 3 = false →
      (s.pkg pkg).heldCmds = [] →
      (∀ i, i < 4096 → o = 0x8000000000 + 8 * i → ∃ t, exec (.routeload pkg dev o v) s = .next t
        ∧ s.succeeds t pkg dev 0xC004 [] ∧ look 0 (t.pkg pkg).rteShadow i = v &&& 0xFFFFFFFFFF
        ∧ (∀ j, j ≠ i → look 0 (t.pkg pkg).rteShadow j = look 0 (s.pkg pkg).rteShadow j) ∧ t.mem = s.mem ∧ t.cores = s.cores)
      ∧ ((o < 0x8000000000 ∨ fabricOffsetOk o = false) → ∃ t, exec (.routeload pkg dev o v) s = .next t
        ∧ s.completesOnly t pkg dev 0xC004 .invalidInput []))
  ∧ (∀ (s : State) pkg dev die k a, s.mailOpen pkg dev → (s.pkg pkg).dutyMode 4 = true → (s.pkg pkg).turning.getLsbD 4 = false →
      ((s.pkg pkg).devDie dev die = true → ∃ t, exec (.scrubset pkg dev die k a) s = .next t
        ∧ s.succeeds t pkg dev 0xC005 [] ∧ t.die (4 * pkg + die) = { s.die (4 * pkg + die) with period := k, action := a })
      ∧ ((s.pkg pkg).devDie dev die = false → ∃ t, exec (.scrubset pkg dev die k a) s = .next t
        ∧ s.completesOnly t pkg dev 0xC005 .invalidInput []))
  ∧ (∀ (s : State) pkg dev v, s.mailOpen pkg dev → ∃ t, exec (.dutyset pkg dev v) s = .next t
      ∧ s.succeeds t pkg dev 0xC006 [] ∧ (t.pkg pkg).duty = v &&& 0x3FF ∧ t.mem = s.mem ∧ t.cores = s.cores ∧ t.dies = s.dies)
  ∧ (∀ (s : State) pkg dev o (b : List Byte), (s.pkg pkg).serves dev = true →
      (b.length ≤ 4096 → o + b.length ≤ 8192 + 16 * 2 ^ 20 → ∃ t, exec (.fwsupply pkg dev false o b) s = .next t
        ∧ s.succeeds t pkg dev 0xC007 []
        ∧ (∀ i, look 0 (t.pkg pkg).fwStage i = if o ≤ i ∧ i < o + b.length then b.getD (i - o) 0 else look 0 (s.pkg pkg).fwStage i)
        ∧ (t.pkg pkg).fwSlot = (s.pkg pkg).fwSlot ∧ t.mem = s.mem ∧ t.cores = s.cores)
      ∧ (4096 < b.length → ∃ t, exec (.fwsupply pkg dev false o b) s = .next t
        ∧ s.completesOnly t pkg dev 0xC007 .invalidInput [])
      ∧ (∃ t, exec (.fwsupply pkg dev true o b) s = .next t ∧
          (if imageOk (s.pkg pkg).minSvn (s.pkg pkg).staged = true then
            s.succeeds t pkg dev 0xC007 [] ∧ (t.pkg pkg).fwSlot = (s.pkg pkg).staged ∧ t.mem = s.mem
            ∧ (t.pkg pkg).fwDone = some (s.ticks + Config.slotWriteCycles s.ticks)
           else s.completesOnly t pkg dev 0xC007 .invalidInput [])))
  ∧ (∀ (s : State) pkg dev q base log entry h, s.mailOpen pkg dev → q < 256 →
      (base % 4096 = 0 → 4 ≤ log → log ≤ 12 → entry % 64 = 0 → 128 ≤ entry →
        ∃ t, exec (.hostqreg pkg dev q false base log entry h) s = .next t ∧ s.succeeds t pkg dev 0xC008 []
          ∧ hostQueueAt (t.pkg pkg) dev q = {
              base := base, log := log, entrySize := entry, toHost := h, used := true, head := s.mem.read (hostKey pkg base) 8, tail := s.mem.read (hostKey pkg (base + 8)) 8 }
          ∧ t.mem = s.mem ∧ t.cores = s.cores)
      ∧ ((base % 4096 ≠ 0 ∨ log < 4 ∨ 12 < log) → ∃ t, exec (.hostqreg pkg dev q false base log entry h) s = .next t
        ∧ s.completesOnly t pkg dev 0xC008 .invalidInput [])
      ∧ ((hostQueueAt (s.pkg pkg) dev q).used = false → ∃ t, exec (.hostqreg pkg dev q true base log entry h) s = .next t
        ∧ s.completesOnly t pkg dev 0xC008 .invalidInput [])
      ∧ ((hostQueueAt (s.pkg pkg) dev q).used = true →
        hostEnds s pkg (fun e => e.hostDev == dev && e.hostQueue == q && e.state != 6) = [] →
        ∃ t, exec (.hostqreg pkg dev q true base log entry h) s = .next t ∧ s.succeeds t pkg dev 0xC008 []
          ∧ (hostQueueAt (t.pkg pkg) dev q).used = false ∧ t.mem = s.mem ∧ t.cores = s.cores))

/-- The SPDM responder answers, and that is all that changes (R391). -/
def Sys2Proof.Machine.State.replies (s t : State) (pkg dev : Nat) (r : SpdmReply) : Prop :=
  t.pkg pkg = { s.pkg pkg with doe := (s.pkg pkg).doe ++ [(dev, r)] } ∧ (∀ k, k ≠ pkg → t.pkg k = s.pkg k)
  ∧ { t with pkgs := s.pkgs } = s

/-- A signed answer, whose transcript hash is a free value that a later companion signature covers (R391). -/
def Sys2Proof.Machine.State.repliesSigned (s t : State) (pkg dev : Nat) (f : List Byte → SpdmReply) : Prop :=
  let h := Config.transcriptHash s.free
  (t.pkg pkg).doe = (s.pkg pkg).doe ++ [(dev, f (Config.ed25519Sign h))] ∧ look 0 (t.pkg pkg).signed dev = h
  ∧ t.mem = s.mem ∧ t.cores = s.cores ∧ t.dies = s.dies ∧ (∀ k, k ≠ pkg → t.pkg k = s.pkg k)

/-- O52 (R346, R347, R348, R351, R352, R353, R376, R389, R391). Doorbells, heads, host accesses, recalls, restarts, device resets and the SPDM responder complete and act as R347 to R354 and R391 say. The model’s choices, not the spec’s: an HDM access is 8 bytes and a recall brings the host’s bytes (log 21); which endpoint a queue feeds (log 20); other measurement indices and vendors, and the order of an LDRESET (log 26) -/
def Obligations.HostAccessesAndAttestation : Prop :=
  (∀ (s : State) pkg dev q, let h := hostQueueAt (s.pkg pkg) dev q
      (((s.pkg pkg).serves dev = false ∨ h.used = false ∨ h.toHost = true) → exec (.hostDoorbell pkg dev q) s = .next s)
      ∧ ((s.pkg pkg).serves dev = true → h.used = true → h.toHost = false → s.hostIn pkg dev q = none →
        ∃ t, exec (.hostDoorbell pkg dev q) s = .next t ∧ t.mem = s.mem ∧ t.cores = s.cores
          ∧ hostQueueAt (t.pkg pkg) dev q = { h with tail := s.mem.read (hostKey pkg (h.base + 8)) 8 })
      ∧ (∀ core handle, (s.pkg pkg).serves dev = true → h.used = true → h.toHost = false →
        s.hostIn pkg dev q = some (core, handle) → (s.core core).epFind handle = some (s.ep core handle) →
        (s.ep core handle).buffered = false → (s.ep core handle).state = 0 →
        (s.ep core handle).isTile = false → (s.die (dieOf core)).switching = false → h.head < s.mem.read (hostKey pkg (h.base + 8)) 8 →
        (s.ep core handle).hostDev = dev → (s.ep core handle).hostQueue = q → pkgOf core = pkg →
        ∃ t, exec (.hostDoorbell pkg dev q) s = .next t ∧ (t.ep core handle).state = 1
          ∧ (t.ep core handle).wdata = BitVec.ofNat 64 (s.mem.read (hostKey pkg (h.entryAt h.head + 64)) 8))
      ∧ (∀ core handle u, (s.pkg pkg).serves dev = true → h.used = true → h.toHost = false →
        s.hostIn pkg dev q = some (core, handle) → (s.ep core handle).buffered = true → (s.ep core handle).state ≠ 6 →
        (s.die (dieOf core)).switching = false → s.mem.read (hostKey pkg (h.base + 8)) 8 = h.head + 1 →
        (s.ep core handle).hostDev = dev → (s.ep core handle).hostQueue = q → pkgOf core = pkg → s.coreDone core = false →
        (s.modHostQueue pkg dev q (fun x => { x with tail := h.head + 1 })).receiveMessage core
          (s.hostMessage pkg h (s.ep core handle) handle (s.jobOf core)) = some u → s.mem.wf = true →
        ∃ t, exec (.hostDoorbell pkg dev q) s = .next t ∧ t.cores = u.cores
          ∧ (hostQueueAt (t.pkg pkg) dev q).head = (hostQueueAt (u.pkg pkg) dev q).head + 1))
  ∧ (∀ (s : State) pkg dev q, let h := hostQueueAt (s.pkg pkg) dev q
      ((h.used = false ∨ h.toHost = false ∨ h.tail ≤ h.head) → exec (.hostHeadPass pkg dev q) s = .next s)
      ∧ (h.used = true → h.toHost = true → h.head < h.tail → h.owners = [] → s.mem.wf = true →
        ∃ t, exec (.hostHeadPass pkg dev q) s = .next t ∧ storedAt s.mem t.mem (hostKey pkg h.base) 8 (h.head + 1)
          ∧ hostQueueAt (t.pkg pkg) dev q = { h with head := h.head + 1, owners := [] } ∧ t.cores = s.cores)
      ∧ (∀ core handle rest i, h.used = true → h.toHost = true → h.head < h.tail → h.owners = (core, handle) :: rest →
        (s.die (dieOf core)).saved = [] → let e := s.ep core handle
        e.buffered = false → e.engine = false → (s.proc core e.owner.toNat).wait = .sending handle → e.killed = none →
        (s.proc core e.owner.toNat).state = .blockedChan → (s.core core).slotOf e.owner.toNat = some i →
        ∃ t, exec (.hostHeadPass pkg dev q) s = .next t ∧ (t.proc core e.owner.toNat).state = .running
          ∧ (hostQueueAt (t.pkg pkg) dev q).owners = rest ∧ t.ep core handle = e.rest)
      ∧ (∀ core handle rest, h.used = true → h.toHost = true → h.head < h.tail → h.owners = (core, handle) :: rest →
        (s.die (dieOf core)).saved = [] → let e := s.ep core handle
        e.buffered = true → e.state = 0 → e.credit.toNat ≤ e.dm1.toNat →
        ∃ t, exec (.hostHeadPass pkg dev q) s = .next t ∧ (hostQueueAt (t.pkg pkg) dev q).owners = rest
          ∧ (hostQueueAt (t.pkg pkg) dev q).head = h.head + 1 ∧ ((s.core core).epFind handle = some e →
            t.ep core handle = { e with credit := e.credit + 1 })))
  ∧ (∀ (s : State) pkg dev va w v, let job := ldJob ((s.pkg pkg).binding dev)
      ((s.pkg pkg).serves dev = false → exec (.hostMemAccess pkg dev va w v) s = .next s)
      ∧ (∀ k, (s.pkg pkg).serves dev = true → s.hdmKey pkg dev va = some k → s.mem.isPoisoned k = false →
        s.mem.wf = true → s.noWaiters →
        ∃ t, exec (.hostMemAccess pkg dev va w v) s = .next t ∧ t.cores = s.cores ∧ t.dies = s.dies
          ∧ (t.pkg pkg).hostAnswer = some (dev, some (if w then v else s.mem.word (k / 8)))
          ∧ (w = true → storedAt s.mem t.mem k 8 v.toNat) ∧ (w = false → t.mem = s.mem))
      ∧ (∀ k, (s.pkg pkg).serves dev = true → s.hdmKey pkg dev va = some k → s.mem.isPoisoned k = true → w = false →
        ∃ t, exec (.hostMemAccess pkg dev va w v) s = .next t ∧ (t.pkg pkg).hostAnswer = some (dev, none) ∧ t.mem = s.mem)
      ∧ ((s.pkg pkg).serves dev = true → s.hdmKey pkg dev va = none →
        let d := ((s.pkg pkg).devDies pkg dev).headD (4 * pkg)
        ∃ t, exec (.hostMemAccess pkg dev va w v) s = .next t ∧ (t.pkg pkg).hostAnswer = some (dev, none) ∧ t.mem = s.mem
          ∧ t.cores = s.cores ∧ (s.mute d = false → (s.die d).invBuf.length < 256 → ∃ r, (t.die d).invBuf = (s.die d).invBuf ++ [r]
            ∧ r.item = 9 ∧ r.job = job ∧ r.itemid = word va)))
  ∧ (∀ (s : State) pkg line (data : List Byte), s.mem.wf = true → let k := hostKey pkg (line * 64)
      ∃ t, exec (.backInvalidation pkg line data) s = .next t ∧ look [] (t.pkg pkg).hostLines (k / 64) = []
        ∧ (∀ a, t.mem.byte a = if k ≤ a ∧ a < k + 64 ∧ a < k + data.length then data.getD (a - k) 0 else s.mem.byte a)
        ∧ t.cores = s.cores ∧ t.dies = s.dies)
  ∧ (∀ (s : State) pkg dev, (s.pkg pkg).serves dev = true → hostEnds s pkg (fun e => e.hostDev == dev) = [] →
      (∀ c, (s.core c).reqs = [] ∧ (s.core c).vecQ = [] ∧ (s.core c).copyQ = []) →
      let ended := (s.pkg pkg).migrations.filter (fun m => m.dev == dev)
      let held := (s.pkg pkg).heldCmds.filter (fun h => h.dev == dev)
      let other (e : Nat × FaultMsg) : Bool := !(s.pkg pkg).concerns dev e
      ((s.pkg pkg).migrating = [] → ∃ t, exec (.hostWarmRestart pkg [dev]) s = .next t ∧ t.mem = s.mem ∧ dev ∈ (t.pkg pkg).hostDown
        ∧ (t.pkg pkg).taken = (s.pkg pkg).taken.filter other ∧ (t.pkg pkg).forwarded = (s.pkg pkg).forwarded.filter other
        ∧ (t.pkg pkg).dutyHw.getLsbD dev = true ∧ (t.pkg pkg).duty = (s.pkg pkg).duty
        ∧ (t.pkg pkg).mailbox = (s.pkg pkg).mailbox ++ ended.map (fun (m : Migration) =>
            { dev := m.dev, opcode := 0xC002, status := .hostReset }) ++ held.map (fun (h : HeldCmd) =>
            { dev := h.dev, opcode := h.op, status := .hostReset })
        ∧ (t.pkg pkg).heldCmds = (s.pkg pkg).heldCmds.filter (fun h => !(h.dev == dev)))
      ∧ (∀ va k, let b := (s.pkg pkg).binding dev
        let pte := s.mem.word (k / 8)
        ldV b = true → (s.pkg pkg).migrating = [(ldJob b, va)] →
        s.leafKey (s.dieWithJob pkg (ldJob b)) (ldJob b) va 0 = .inl (some k) → pteOwn pte = 2 →
        s.mem.isPoisoned k = false → s.mem.wf = true → s.noWaiters →
        ∃ t, exec (.hostWarmRestart pkg [dev]) s = .next t ∧ (t.pkg pkg).migrating = [] ∧ dev ∈ (t.pkg pkg).hostDown
          ∧ storedAt s.mem t.mem k 8 (withOwn pte 1).toNat)
      ∧ (∀ core m, (s.pkg pkg).taken = [] → (s.pkg pkg).forwarded = [(core, m)] → (s.pkg pkg).migrating = [] →
        (s.pkg pkg).concerns dev (core, m) = true →
        (∃ t, exec (.hostWarmRestart pkg [dev]) s = .next t ∧ (t.core core).faultOut = m :: (s.core core).faultOut)
        ∧ (∃ t, exec (.ldReset pkg dev) s = .next t ∧ (t.core core).faultOut = m :: (s.core core).faultOut))
      ∧ (∃ t, exec (.ldReset pkg dev) s = .next t ∧ t.mem = s.mem
        ∧ (t.pkg pkg).taken = (s.pkg pkg).taken.filter other ∧ (t.pkg pkg).forwarded = (s.pkg pkg).forwarded.filter other ∧ ldV ((t.pkg pkg).binding dev) = false
        ∧ (∀ d, d ≠ dev → (t.pkg pkg).binding d = (s.pkg pkg).binding d)
        ∧ t.phase = s.phase ++ ((s.pkg pkg).devDies pkg dev).map (fun d => .due (.teardown d (ldJob ((s.pkg pkg).binding dev)) 0x42))
        ∧ (t.pkg pkg).mailbox = (s.pkg pkg).mailbox ++ ended.map (fun (m : Migration) =>
            { dev := m.dev, opcode := 0xC002, status := .ldReset }) ++ held.map (fun (h : HeldCmd) =>
            { dev := h.dev, opcode := h.op, status := .ldReset })))
  ∧ (∀ (s : State) pkg dev, (s.pkg pkg).serves dev = false → exec (.ldReset pkg dev) s = .next s)
  ∧ (∀ (s : State) pkg refused,
      ((s.pkg pkg).hostDown = [] → exec (.hostLinkReturn pkg refused) s = .next s)
      ∧ ((s.pkg pkg).hostDown ≠ [] → refused = [] → ∃ t, exec (.hostLinkReturn pkg refused) s = .next t
        ∧ (t.pkg pkg).hostDown = [] ∧ (t.pkg pkg).hostLines = [] ∧ t.mem = s.mem ∧ t.cores = s.cores)
      ∧ (∀ e l, (s.pkg pkg).hostDown ≠ [] → (s.pkg pkg).hostLines = [e] → refused = [l] → hostKey pkg (l * 64) = e.1 * 64 →
        e.2.length = 64 → s.mem.bytes (e.1 * 64) 64 ≠ e.2 → s.mem.wf = true →
        ∃ t, exec (.hostLinkReturn pkg refused) s = .next t ∧ t.mem.bytes (e.1 * 64) 64 = e.2
          ∧ (∀ a, (a < e.1 * 64 ∨ e.1 * 64 + 64 ≤ a) → t.mem.byte a = s.mem.byte a)
          ∧ (t.pkg pkg).hostLines = []))
  ∧ (∀ (s : State) pkg dev, (s.pkg pkg).serves dev = true →
      (∀ v, ∃ t, exec (.getVersion pkg dev v) s = .next t ∧ s.replies t pkg dev (.version 0x13))
      ∧ (∃ t, exec (.getCapabilities pkg dev) s = .next t ∧ s.replies t pkg dev .capabilities)
      ∧ (∃ t, exec (.negotiateAlgorithms pkg dev) s = .next t ∧ s.replies t pkg dev .algorithms)
      ∧ ((s.pkg pkg).recovery = false →
        (∃ t, exec (.getDigests pkg dev) s = .next t ∧ s.replies t pkg dev (.digests (Config.sha384 Config.certificate)))
        ∧ (∃ t, exec (.getCertificate pkg dev 0) s = .next t ∧ s.replies t pkg dev (.certificate Config.certificate))
        ∧ (∀ n, n ≠ 0 → ∃ t, exec (.getCertificate pkg dev n) s = .next t ∧ s.replies t pkg dev .unsupportedRequest)
        ∧ (∀ n, ∃ t, exec (.challenge pkg dev n) s = .next t ∧ s.repliesSigned t pkg dev .challengeAuth)
        ∧ (∀ i n, ∃ t, exec (.getMeasurements pkg dev i n) s = .next t ∧ s.repliesSigned t pkg dev (.measurements
            (if (s.pkg pkg).meas.any (fun e => e.1 == i) then (s.pkg pkg).meas.filter (fun e => e.1 == i) else (s.pkg pkg).meas)))
        ∧ (∀ e, (s.pkg pkg).signed.find? (fun e => e.1 == dev) = some e →
            ∃ t, exec (.vendorDefinedRequest pkg dev Config.vendorId) s = .next t ∧ s.replies t pkg dev (.vendorSignature (Config.mldsaSign e.2)))
        ∧ (∀ v, v ≠ Config.vendorId → ∃ t, exec (.vendorDefinedRequest pkg dev v) s = .next t ∧ s.replies t pkg dev .unsupportedRequest)
        ∧ (∀ c, ∃ t, exec (.spdmUnsupported pkg dev c) s = .next t ∧ s.replies t pkg dev .unsupportedRequest))
      ∧ ((s.pkg pkg).recovery = true → exec (.getDigests pkg dev) s = .next s
        ∧ (∀ n, exec (.getCertificate pkg dev n) s = .next s) ∧ (∀ n, exec (.challenge pkg dev n) s = .next s)
        ∧ (∀ i n, exec (.getMeasurements pkg dev i n) s = .next s)
        ∧ (∀ v, exec (.vendorDefinedRequest pkg dev v) s = .next s) ∧ (∀ c, exec (.spdmUnsupported pkg dev c) s = .next s)))

/-- Of a state, only packets and one package's record differ (R358). -/
def Sys2Proof.Machine.State.onlyNet (s t : State) (pkg : Nat) : Prop :=
  (∀ k, k ≠ pkg → t.pkg k = s.pkg k) ∧ { t with pkgs := s.pkgs, net := s.net } = s

/-- O53 (R5, R355, R356, R317, R357, R358, R359, R360, R361, R363, R375, R385). Packets are forwarded or discarded by the route table, routes switch level by level, and control registers take writes as R5 and R355 to R375 say. The model’s choices, not the spec’s: unusable entries, what a link that is down holds, when a marker arrives and what R360 counts (log 19) -/
def Obligations.FabricAndControlRegisters : Prop :=
  (∀ (s : State) pkt, s.net[pkt]? = none → exec (.packetForward pkt) s = .next s)
  ∧ (∀ (s : State) pkt p, s.net[pkt]? = some p → p.at_ = pkgOf p.dst → (p.hop ≠ 0 ∨ s.islandOk p p.gen = true) →
      exec (.packetForward pkt) s = .next s)
  ∧ (∀ (s : State) p rest, s.net = p :: rest → p.at_ = pkgOf p.dst → p.hop = 0 → s.islandOk p p.gen = false →
      ∃ t, exec (.packetForward 0) s = .next t ∧ t.net = rest ∧ (t.pkg p.at_).isldrop = (s.pkg p.at_).isldrop + 1
        ∧ (t.pkg p.at_).routeerr = (s.pkg p.at_).routeerr ∧ t.mem = s.mem ∧ (p.body.lostKey = none → t.cores = s.cores))
  ∧ (∀ (s : State) (p : Packet) gen, let a := p.inj.getD p.src
      (dieOf a = dieOf p.dst → s.islandOk p gen = true)
      ∧ (dieOf a ≠ dieOf p.dst → s.islandOk p gen
          = rteAllows ((s.pkg (pkgOf a)).rte (if pkgOf a = pkgOf p.dst then (s.pkg (pkgOf a)).gen else gen) (pkgOf p.dst))
            (dieOf a % 4) (dieOf p.dst % 4)))
  ∧ (∀ (s : State) p rest, s.net = p :: rest → p.at_ ≠ pkgOf p.dst → p.hop = 0 → (s.pkg p.at_).busy = false →
      let k := s.pkg p.at_
      let e := k.rte k.gen (pkgOf p.dst)
      let allowed := s.islandOk p k.gen
      let next := Config.neighbour p.at_ (p.port e)
      let i := pkgOf p.dst * 2 + (if k.gen then 1 else 0)
      (allowed = false → ∃ t, exec (.packetForward 0) s = .next t ∧ t.net = rest
        ∧ (t.pkg p.at_).isldrop = k.isldrop + 1 ∧ (t.pkg p.at_).routeerr = k.routeerr ∧ t.mem = s.mem ∧ (p.body.lostKey = none → t.cores = s.cores)
        ∧ (∀ c n, p.body.lostKey = some (c, n) → look true (t.core c).lost n = false))
      ∧ (allowed = true → rteUsable e = false → ∃ t, exec (.packetForward 0) s = .next t ∧ t.net = rest
        ∧ (t.pkg p.at_).routeerr = k.routeerr + 1 ∧ (t.pkg p.at_).isldrop = k.isldrop ∧ t.mem = s.mem ∧ (p.body.lostKey = none → t.cores = s.cores)
        ∧ (∀ c n, p.body.lostKey = some (c, n) → look true (t.core c).lost n = false))
      ∧ (allowed = true → rteUsable e = true → k.linksDown.contains (p.port e) = true →
        exec (.packetForward 0) s = .next s)
      ∧ (allowed = true → rteUsable e = true → k.linksDown.contains (p.port e) = false →
        (p.reply = none → ∃ t, exec (.packetForward 0) s = .next t ∧ s.onlyNet t p.at_
          ∧ t.net = { p with gen := k.gen, at_ := next, hop := 1 } :: rest
          ∧ look 0 (t.pkg p.at_).unanswered i = look 0 k.unanswered i + 1)
        ∧ (p.reply ≠ none → (p.body ≠ .ack ∨ next ≠ pkgOf p.dst) → ∃ t, exec (.packetForward 0) s = .next t
          ∧ s.onlyNet t p.at_ ∧ t.net = { p with gen := k.gen, at_ := next, hop := 1 } :: rest
          ∧ (t.pkg p.at_).unanswered = k.unanswered)
        ∧ (∀ g, p.reply = some g → p.body = .ack → next = pkgOf p.dst → ∃ t, exec (.packetForward 0) s = .next t
          ∧ t.net = rest ∧ t.mem = s.mem ∧ t.cores = s.cores)))
  ∧ (∀ (s : State) p rest, s.net = p :: rest → p.at_ ≠ pkgOf p.dst → 0 < p.hop → (s.pkg p.at_).busy = false →
      let k := s.pkg p.at_
      let e := k.rte p.gen (pkgOf p.dst)
      (p.gen ≠ k.gen → exec (.packetForward 0) s = .next s)
      ∧ (p.gen = k.gen → (rteUsable e = false ∨ 6 ≤ p.hop) → ∃ t, exec (.packetForward 0) s = .next t ∧ t.net = rest
        ∧ (t.pkg p.at_).routeerr = k.routeerr + 1 ∧ t.mem = s.mem)
      ∧ (p.gen = k.gen → rteUsable e = true → p.hop < 6 → k.linksDown.contains (p.port e) = false →
        let next := Config.neighbour p.at_ (p.port e)
        ((p.reply = none ∨ p.body ≠ .ack ∨ next ≠ pkgOf p.dst) → ∃ t, exec (.packetForward 0) s = .next t
          ∧ s.onlyNet t p.at_ ∧ t.net = { p with at_ := next, hop := p.hop + 1 } :: rest)
        ∧ (∀ g, p.reply = some g → p.body = .ack → next = pkgOf p.dst → ∃ t, exec (.packetForward 0) s = .next t
          ∧ t.net = rest ∧ t.mem = s.mem ∧ t.cores = s.cores
          ∧ (let j := pkgOf p.src * 2 + (if g then 1 else 0)
            next ≠ p.at_ → look 0 (t.pkg next).unanswered j = look 0 (s.pkg next).unanswered j - 1))))
  ∧ (∀ (p : Packet) (e : Word), rteUsable e = true → p.port e < 20 ∧ ∃ i, i < rteCount e ∧ p.port e = rtePort e i)
  ∧ (∀ (s : State) pkg, (s.pkg pkg).busy = true → exec (.routeSwitch pkg) s = .next s)
  ∧ (∀ (s : State) pkg, (s.pkg pkg).busy = false → s.holdsOld pkg = true → let p := s.pkg pkg
      ∃ t, exec (.routeSwitch pkg) s = .next t ∧ (t.pkg pkg).busy = true ∧ (t.pkg pkg).gen = p.gen
        ∧ (t.pkg pkg).table (!p.gen) = p.rteShadow ∧ (t.pkg pkg).table p.gen = p.table p.gen
        ∧ (∀ k, k ≠ pkg → t.pkg k = s.pkg k) ∧ t.mem = s.mem ∧ t.cores = s.cores)
  ∧ (∀ (s : State) pkg port level, let p := s.pkg pkg
      ((20 ≤ port ∨ p.busy = false ∨ look 0 p.markers port ≠ level ∨ s.markerSent pkg port level = false) →
        exec (.drainMarker pkg port level) s = .next s)
      ∧ (port < 20 → p.busy = true → look 0 p.markers port = level → s.markerSent pkg port level = true →
        s.holdsOld pkg = true → ∃ t, exec (.drainMarker pkg port level) s = .next t
        ∧ look 0 (t.pkg pkg).markers port = level + 1
        ∧ look 0 (t.pkg pkg).markTaken port = look 0 (s.pkg pkg).markTaken port + 1 ∧ (t.pkg pkg).markLevel = p.markLevel ∧ (t.pkg pkg).busy = true
        ∧ t.mem = s.mem))
  ∧ (∀ (s : State) pkg port, (20 ≤ port → exec (.linkDown pkg port) s = .next s)
      ∧ (port < 20 → ∃ t, exec (.linkDown pkg port) s = .next t ∧ port ∈ (t.pkg pkg).linksDown ∧ t.mem = s.mem
        ∧ t.cores = s.cores ∧ (∀ k, k ≠ pkg → t.pkg k = s.pkg k)))
  ∧ (∀ (s : State) die target o v, (o < 0x8000000000 ∨ (target ≠ 0 ∧ target ≠ 1)) →
      exec (.registerWrite die target o v) s = .next s)
  ∧ (∀ (s : State) die, let pkg := pkgOfDie die
      let p := s.pkg pkg
      (∀ i v, i < 4096 → ∃ t, exec (.registerWrite die 0 (0x8000000000 + 8 * i) v) s = .next t ∧ s.onlyPkg t pkg
        ∧ t.pkg pkg = { p with rteShadow := put p.rteShadow i (v &&& 0xFFFFFFFFFF) })
      ∧ (∀ v : Word, v.getLsbD 1 = true → p.busy = false → ∃ t, exec (.registerWrite die 0 0x8000010000 v) s = .next t
        ∧ t = { s with phase := s.phase ++ [.due (.routeSwitch pkg)] })
      ∧ (∀ v : Word, (v.getLsbD 1 = false ∨ p.busy = true) → exec (.registerWrite die 0 0x8000010000 v) s = .next s)
      ∧ (∀ v : Word, v.getLsbD 10 = false → v.getLsbD 11 = false →
        ∃ t, exec (.registerWrite die 0 0x8000020000 v) s = .next t ∧ s.onlyPkg t pkg
        ∧ t.pkg pkg = { p with pos := v.extractLsb' 0 5, nm1 := v.extractLsb' 5 5, sheafJob := v.extractLsb' 16 16 })
      ∧ (∀ v, exec (.registerWrite die 0 0x8000010008 v) s = .next s ∧ exec (.registerWrite die 0 0x8000020008 v) s = .next s))
  ∧ (∀ (s : State) die, let d := s.die die
      (∀ v : Word, (s.pkg (pkgOfDie die)).dutyMode 4 = false → ∃ t, exec (.registerWrite die 1 0x8000000000 v) s = .next t
        ∧ t.die die = { d with period := v.extractLsb' 0 8, action := v.extractLsb' 8 2 } ∧ t.mem = s.mem)
      ∧ (∀ v : Word, ∃ t, exec (.registerWrite die 1 0x8000000010 v) s = .next t
        ∧ t.die die = { d with invbase := v.extractLsb' 0 56, logn := v.extractLsb' 56 4 })
      ∧ (∀ v : Word, v.getLsbD 16 = true → d.tdWork = none → d.tdQueue = [] →
        ∃ t, exec (.registerWrite die 1 0x8000000020 v) s = .next t
        ∧ t.die die = { d with tdjob := v.extractLsb' 0 16, tdQueue := [(v.toNat % 65536, 0x41)] }
        ∧ t.phase = s.phase ++ [.due (.teardown die (v.toNat % 65536) 0x41)])
      ∧ (∀ v : Word, (v.getLsbD 16 = false ∨ d.tdWork ≠ none ∨ d.tdQueue ≠ []) →
        ∃ t, exec (.registerWrite die 1 0x8000000020 v) s = .next t
        ∧ t.die die = { d with tdjob := v.extractLsb' 0 16 } ∧ t.phase = s.phase)
      ∧ (∀ v : Word, v.getLsbD 9 = true → ∃ t, exec (.registerWrite die 1 0x8000000048 v) s = .next t
        ∧ t.die die = { d with trip := false } ∧ t.phase = s.phase)
      ∧ (∀ v : Word, ∃ t, exec (.registerWrite die 1 0x8000000008 v) s = .next t
        ∧ t = { s with phase := s.phase ++ [.due (.poisonFix die (v.toNat % 2 ^ 56))] })
      ∧ (∀ v : Word, v.getLsbD 0 = true → v.getLsbD 1 = false → ∃ t, exec (.registerWrite die 1 0x8000000050 v) s = .next t
        ∧ t = { s with phase := s.phase ++ [.due (.dieReset die)] })
      ∧ (∀ v, exec (.registerWrite die 1 0x8000000018 v) s = .next s))

/-- O54 (R377, R378, R379, R380, R381, R383, R385, R386, R387, R389, R390). Patrols, poison, records, teardowns, power gating, heat and resets act as R377 to R389 say. The model’s choices, not the spec’s: the codes of patrolVisit and softError, the teardown queue, the temperatures that thermalWarn trips on and whether a die reset leaves the sheaf (log 22) -/
def Obligations.RepairAndResetEvents : Prop :=
  (∀ (s : State) die line e, let d := s.die die
      (s.patrols die line = false → exec (.patrolVisit die line e) s = .next s)
      ∧ exec (.patrolVisit die line 0) s = .next s
      ∧ (d.period = 0 → e ≤ 2 → exec (.patrolVisit die line e) s = .next s)
      ∧ (s.patrols die line = true → ((e = 1 ∧ d.period ≠ 0) ∨ e = 3) → ∃ t, exec (.patrolVisit die line e) s = .next t
        ∧ t.die die = { d with cecnt := d.cecnt + 1 } ∧ t.mem = s.mem ∧ t.cores = s.cores)
      ∧ (s.patrols die line = true → ((e = 2 ∧ d.period ≠ 0) ∨ 4 ≤ e) → s.mem.isPoisoned (line * 64) = false →
        ∃ t, exec (.patrolVisit die line e) s = .next t ∧ t.mem.isPoisoned (line * 64) = true
          ∧ (∀ a, t.mem.byte a = s.mem.byte a) ∧ (∀ l, l ≠ line → t.mem.isPoisoned (l * 64) = s.mem.isPoisoned (l * 64))
          ∧ t.cores = s.cores
          ∧ (s.mute die = false → d.invBuf.length < 256 → ∃ r, (t.die die).invBuf = d.invBuf ++ [r] ∧ r.item = 13
              ∧ r.job = s.mem.tag line ∧ r.itemid = byteAddress (line * 64))
          ∧ (d.action ≠ 1 → t.phase = s.phase)
          ∧ (d.action = 1 → ∀ k ∈ dies4 (pkgOfDie die), s.mem.tag line ≠ 0 → s.holds (s.mem.tag line) k = true →
              Phase.due (.teardown k (s.mem.tag line) 0x28) ∈ t.phase)))
  ∧ (∀ die addr, (addr < 0x1000000000 ∨ 0x2000000000 ≤ addr) →
      addressByte die addr = storeKey (addr / 2 ^ 42) (addr / 2 ^ 40 % 4) addr)
  ∧ (∀ die x y o, x < 32 → y < 32 → o < 2 ^ 21 →
      addressByte die (0x1000000000 + x * 2 ^ 30 + y * 2 ^ 25 + o) = poolKey (coreAt (pkgOfDie die) x y) o)
  ∧ (∀ (s : State) die addr, let k := addressByte die addr / 64 * 64
      (s.mem.isPoisoned k = false → exec (.poisonFix die addr) s = .next s)
      ∧ (s.mem.isPoisoned k = true → s.noWaiters → ∃ t, exec (.poisonFix die addr) s = .next t ∧ t.mem.isPoisoned k = false
        ∧ (∀ a, t.mem.byte a = if k ≤ a ∧ a < k + 64 then 0 else s.mem.byte a)
        ∧ (∀ i, i < 8 → t.mem.isFull (k / 8 + i) = false) ∧ t.mem.tag (k / 64) = 0
        ∧ (∀ l, l * 64 ≠ k → t.mem.isPoisoned (l * 64) = s.mem.isPoisoned (l * 64)) ∧ t.cores = s.cores ∧ t.dies = s.dies))
  ∧ (∀ (s : State) core pn, let p := s.proc core pn
      ((p.state = .free ∨ p.state = .ended ∨ p.state = .faulted) → exec (.softError core 0 pn) s = .next s)
      ∧ (p.state ≠ .free → p.state ≠ .ended → p.state ≠ .faulted → p.asyncTrap = none →
        ∃ t, exec (.softError core 0 pn) s = .next t ∧ t.proc core pn = { p with asyncTrap := some (.poison, 0) }
          ∧ s.onlyCore t core)
      ∧ (∃ t, exec (.softError core 1 pn) s = .next t ∧ t.mem = s.mem ∧ t.cores = s.cores
        ∧ ∀ k ∈ dies4 (pkgOf core), s.jobOf core ≠ 0 → s.holds (s.jobOf core) k = true →
            Phase.due (.teardown k (s.jobOf core) 0x28) ∈ t.phase)
      ∧ ((s.pkg (pkgOf core)).formed = true → ∃ t, exec (.softError core 2 pn) s = .next t ∧ s.outOfSheaf t (pkgOf core))
      ∧ (∀ n, 2 < n → exec (.softError core n pn) s = .next s))
  ∧ (∀ (s : State) die, let d := s.die die
      let a := d.invbase.toNat / 4096 * 4096 + 32 * d.invNext
      let k := storeKey (a / 2 ^ 42) (a / 2 ^ 40 % 4) a
      (d.invBuf = [] → exec (.inventoryRecordWrite die) s = .next s)
      ∧ (∀ r rest, d.invBuf = r :: rest → s.mem.isFull (k / 8) = true → exec (.inventoryRecordWrite die) s = .next s)
      ∧ (∀ r rest, d.invBuf = r :: rest → s.mem.isFull (k / 8) = false → isHostKey k = false → d.tdWork = none →
        k % 32 = 0 → s.mem.wf = true → s.noWaiters → s.mem.clean k 32 →
        ∃ t, exec (.inventoryRecordWrite die) s = .next t ∧ storedAt s.mem t.mem k 32 (packWords r.words)
          ∧ t.mem.isFull (k / 8) = true ∧ t.die die = { d with invBuf := rest, invNext := (d.invNext + 1) % d.ringSize }))
  ∧ (∀ (s : State) die job reason, let d := s.die die
      (d.tdWork.any (fun w => w.1 == job) = true → exec (.teardown die job reason) s = .next s)
      ∧ (d.tdQueue.any (fun w => w.1 == job) = true → (d.tdWork ≠ none ∨ d.switching = true) →
        exec (.teardown die job reason) s = .next s)
      ∧ ((d.tdWork.any (fun w => w.1 == job) || d.tdQueue.any (fun w => w.1 == job)) = false →
        (d.tdWork ≠ none ∨ d.switching = true) → ∃ t, exec (.teardown die job reason) s = .next t
        ∧ t.die die = { d with tdQueue := d.tdQueue ++ [(job, BitVec.ofNat 8 reason)] } ∧ t.cores = s.cores ∧ t.mem = s.mem)
      ∧ (d.tdWork = none → d.switching = false → s.jobCores die job = [] → d.launchQ = [] →
        d.sheafQ = [] → d.saved = [] → (∀ k ∈ dies4 (pkgOfDie die), (s.die k).running = []) →
        ∃ t, exec (.teardown die job reason) s = .next t ∧ (t.die die).tdWork = some (job, BitVec.ofNat 8 reason)
          ∧ (t.die die).tdLevels = 0 ∧ (t.die die).qcnt = 0 ∧ (t.die die).tdQueue = d.tdQueue.filter (fun w => w.1 != job) ∧ t.cores = s.cores ∧ t.mem = s.mem)
      ∧ (∀ c n p, d.tdWork = none → d.switching = false → s.jobCores die job = [c] →
        (s.core c).procs = [(n, p)] → p.state = .ready → p.wait = .none → (s.core c).handler = none →
        (s.core c).vecQ = [] → (s.core c).copyQ = [] → (s.core c).tasks = [] → (s.core c).endpoints = [] →
        d.launchQ = [] → d.sheafQ = [] → d.saved = [] →
        ∃ t, exec (.teardown die job reason) s = .next t
          ∧ ((t.proc c n).state = .ended ∨ (t.proc c n).state = .free) ∧ t.mem = s.mem))
  ∧ (∀ (s : State) pkt, s.quarantined pkt = none → exec (.quarantine pkt) s = .next s)
  ∧ (∀ (s : State) p rest i, s.net = p :: rest → s.quarantined 0 = some p → p.body = .credit i → pkgOf (p.inj.getD p.src) = pkgOf p.dst →
      s.mute (dieOf p.dst) = false →
      let d := s.die (dieOf p.dst)
      ∃ t, exec (.quarantine 0) s = .next t ∧ t.net = rest ∧ (t.die (dieOf p.dst)).qcnt = d.qcnt + 1
        ∧ (∃ r, (t.die (dieOf p.dst)).invBuf = d.invBuf ++ [r] ∧ r.item = 6 ∧ r.reason = 0x41 ∧ r.job = p.job)
        ∧ t.mem = s.mem ∧ t.cores = s.cores)
  ∧ (∀ (s : State) p rest h core n d i, s.net = p :: rest → s.quarantined 0 = some p → p.body = .futureWait h (pidOf core n) →
      n < 256 → isKernel core = true → (s.proc core n).wait = .future h d i → (s.proc core n).state = .blockedFut →
      ∃ t, exec (.quarantine 0) s = .next t ∧ ((t.proc core n).state = .running ∨ (t.proc core n).state = .ready)
        ∧ (t.proc core n).wait = .none ∧ (t.proc core n).reg d = ((s.proc core n).setReg d (futureWord h 2 false 0
          ((s.coreFor (handleCore h) p.job).future (handleEntry h)).engine.toNat 0x41 0)).reg d ∧ t.mem = s.mem)
  ∧ (∀ (s : State) die, let d := s.die die
      (d.tdWork = none → exec (.teardownMarker die) s = .next s)
      ∧ (∀ job why, d.tdWork = some (job, why) → (7 ≤ d.tdLevels ∨ s.drainedOf die job = false) →
        exec (.teardownMarker die) s = .next s)
      ∧ (∀ job why, d.tdWork = some (job, why) → d.tdLevels < 6 → s.drainedOf die job = true →
        ∃ t, exec (.teardownMarker die) s = .next t ∧ t.die die = { d with tdLevels := d.tdLevels + 1 }
          ∧ t.cores = s.cores ∧ t.mem = s.mem)
      ∧ (∀ job why, d.tdWork = some (job, why) → d.tdLevels = 6 → s.drainedOf die job = true → d.running = [] →
        ∃ t, exec (.teardownMarker die) s = .next t
          ∧ (∀ c ∈ s.jobCores die job, (t.core c).procs = [] ∧ (t.core c).endpoints = [] ∧ (t.core c).futures = []
            ∧ (∀ o, o < 2 ^ 21 → t.mem.byte (poolKey c o) = 0 ∧ t.mem.isFull (poolKey c o / 8) = false))
          ∧ (∀ a, a < 2 ^ 56 → t.mem.byte a = s.mem.byte a)
          ∧ (∀ f ∈ (t.die die).frames, f.2.job.toNat ≠ job)))
  ∧ (∀ (s : State) core, let c := s.core core
      let die := dieOf core
      ((isKernel core = true ∨ c.gated = true ∨ c.isFree = false) → exec (.powerGate core) s = .next s)
      ∧ (isKernel core = false → c.gated = false → c.isFree = true → ∃ t, exec (.powerGate core) s = .next t
        ∧ (t.core core).gated = true ∧ (t.core core).procs = [] ∧ (t.die die).pgate.getLsbD (idxOf core) = true
        ∧ (∀ o, o < 2 ^ 21 → t.mem.byte (poolKey core o) = 0 ∧ t.mem.isFull (poolKey core o / 8) = false)
        ∧ (∀ a, a < 2 ^ 56 → t.mem.byte a = s.mem.byte a))
      ∧ ((c.gated = false ∨ c.wakeEnd ≠ none) → exec (.coreWake core) s = .next s)
      ∧ (c.gated = true → c.wakeEnd = none → ∃ t, exec (.coreWake core) s = .next t
        ∧ t.core core = { c with wakeEnd := some (s.ticks + 2100) } ∧ (t.die die).pgate.getLsbD (idxOf core) = false)
      ∧ (c.wakeEnd = none → exec (.coreWakeEnd core) s = .next s)
      ∧ (c.wakeEnd ≠ none → ∃ t, exec (.coreWakeEnd core) s = .next t
        ∧ t.core core = { c with gated := false, wakeEnd := none, tlb := [] } ∧ s.onlyCore t core))
  ∧ (∀ (s : State) die tj, let d := s.die die
      ((tj < 115 ∨ d.inReset = true) → exec (.thermalTrip die tj) s = .next s)
      ∧ (115 ≤ tj → d.inReset = false → ∃ t, exec (.thermalTrip die tj) s = .next t
        ∧ t.die die = { d with tj := BitVec.ofNat 8 (min tj 255), warn := true, trip := true, inReset := true }
        ∧ t.phase = s.phase ++ [.due (.dieReset die)])
      ∧ ((95 ≤ tj ∨ d.inReset = false) → exec (.thermalRecovery die tj) s = .next s)
      ∧ (tj < 95 → d.inReset = true → ∃ t, exec (.thermalRecovery die tj) s = .next t ∧ (t.die die).inReset = false
        ∧ (t.die die).trip = d.trip ∧ t.mem = s.mem)
      ∧ ((tj < 115 ∨ d.inReset = true) → (95 ≤ tj ∨ d.inReset = false) → ∃ t, exec (.thermalWarn die tj) s = .next t
        ∧ t.die die = { d with tj := BitVec.ofNat 8 (min tj 255), warn := decide (105 ≤ tj) } ∧ t.cores = s.cores ∧ t.mem = s.mem)
      ∧ (115 ≤ tj → d.inReset = false → exec (.thermalWarn die tj) s = exec (.thermalTrip die tj) s)
      ∧ (tj < 95 → d.inReset = true → exec (.thermalWarn die tj) s = exec (.thermalRecovery die tj) s))
  ∧ (∀ (s : State) die, let d := s.die die
      let alone := (dies4 (pkgOfDie die)).all (fun k => k == die || (s.die k).inReset)
      let ready := (d.resetWanted = true ∧ d.tdWork = none ∧ d.tdQueue = [] ∧ d.switching = false)
        ∨ (d.resetWanted = false ∧ s.dieJobs die = [] ∧ d.tdWork = none)
      (d.resetWanted = true → (d.tdWork ≠ none ∨ d.tdQueue ≠ [] ∨ d.switching = true) → exec (.dieReset die) s = .next s)
      ∧ (ready → alone = true → (s.pkg (pkgOfDie die)).formed = true →
        ∃ t, exec (.dieReset die) s = .next t ∧ (t.pkg (pkgOfDie die)).formed = false ∧ (t.die die).epoch = s.ticks)
      ∧ (ready → (alone = false ∨ (s.pkg (pkgOfDie die)).formed = false) →
        ∃ t, exec (.dieReset die) s = .next t ∧ (t.die die).epoch = s.ticks ∧ (t.die die).lrecs = [] ∧ (t.die die).jobs = []
          ∧ (t.die die).launchQ = [] ∧ (t.die die).frames = [] ∧ t.cyc die = 0 ∧ (∀ k, k ≠ pkgOfDie die → t.pkg k = s.pkg k)
          ∧ t.pkg (pkgOfDie die) = { s.pkg (pkgOfDie die) with land := 0, got := (t.pkg (pkgOfDie die)).got }
          ∧ (∀ a, coreOfDie die a = true → t.mem.byte a = 0 ∧ t.mem.isFull (a / 8) = false)
          ∧ (∀ a, coreOfDie die a = false → t.mem.byte a = s.mem.byte a)
          ∧ (∀ c, dieOf c = die → isKernel c = false → (t.core c).procs = [])
          ∧ (∀ c, dieOf c ≠ die → t.core c = s.core c))
      ∧ (d.resetWanted = false → (s.dieJobs die ≠ [] ∨ d.tdWork ≠ none) → ∃ t, exec (.dieReset die) s = .next t
        ∧ t.die die = { d with resetWanted := true } ∧ t.cores = s.cores ∧ t.mem = s.mem
        ∧ t.phase = s.phase ++ (s.dieJobs die).map (fun j => .due (.teardown die j 0x41))))
  ∧ (∀ (s : State) pkg, let p := s.pkg pkg
      imageOk p.minSvn p.fwSlot = false → p.formed = false →
      (∃ t, exec (.packageWarmReset pkg) s = .next t ∧ (t.pkg pkg).recovery = true ∧ (t.pkg pkg).ldbind = []
        ∧ (t.pkg pkg).duty = 0 ∧ (t.pkg pkg).land = 0 ∧ (t.pkg pkg).rte0 = [] ∧ (t.pkg pkg).rte1 = [] ∧ (t.pkg pkg).rteShadow = []
        ∧ (t.pkg pkg).fwSlot = p.fwSlot ∧ (∀ a, a < 2 ^ 56 → t.mem.byte a = s.mem.byte a)
        ∧ (∀ c, pkgOf c = pkg → t.core c = {}) ∧ (∀ q ∈ t.net, q.at_ ≠ pkg ∧ pkgOf (q.inj.getD q.src) ≠ pkg))
      ∧ (∃ t, exec (.packageColdReset pkg) s = .next t
        ∧ t.pkg pkg = { ({} : Pkg) with
            fwSlot := if p.fwDone.any (fun e => s.ticks < e) then [] else p.fwSlot
            minSvn := p.minSvn, star := p.star, recovery := true }
        ∧ (∀ q ∈ t.net, q.at_ ≠ pkg ∧ pkgOf (q.inj.getD q.src) ≠ pkg)
        ∧ (∀ a, a < 2 ^ 56 → a / 2 ^ 44 = pkg → isHostKey a = false → t.mem.byte a = 0 ∧ t.mem.isFull (a / 8) = false)
        ∧ (∀ c, pkgOf c = pkg → t.core c = {}) ∧ (∀ c, pkgOf c ≠ pkg → t.core c = s.core c)))

/-- O55 (R9, R10, R24, R32, R38, R40). A step in a core’s issue turn runs the word at the PC of the first ready slot, decoded, and moves the pointer past that slot -/
def Obligations.StepRunsDecodedWord : Prop :=
  (∀ (s : State) core ph pre i others pn w rep x, s.inputs = [] → s.phase = .issue core :: ph →
      let u : State := { s with phase := ph }
      u.idle core = false → rotationFrom (u.core core).rotPtr = pre ++ i :: others →
      (∀ j ∈ pre, u.mayIssue core j = none) → u.mayIssue core i = some pn →
      u.turnAt core i (u.proc core pn) = some (.word w rep) → decode w = some x →
      (∀ t, exec x (u.atTurn core i pn w rep) = .next t → t.ctx.issued = true → step s = .next (t.issued core i others))
      ∧ (∀ t, exec x (u.atTurn core i pn w rep) = .next t → t.ctx.issued = false → others = [] →
          step s = .next (u.stalled core pn t.ctx.stall))
      ∧ (∃ t, exec x (u.atTurn core i pn w rep) = .next t))
  ∧ (∀ (s : State) core ph i others pn w rep, s.inputs = [] → s.phase = .issue core :: ph →
      let u : State := { s with phase := ph }
      u.idle core = false → rotationFrom (u.core core).rotPtr = i :: others → u.mayIssue core i = some pn →
      u.turnAt core i (u.proc core pn) = some (.word w rep) → decode w = none →
      ∀ t, exec (.illegalWord w) (u.atTurn core i pn w rep) = .next t → t.ctx.issued = true →
        step s = .next (t.issued core i others))
  ∧ (∀ (s : State) core i l p, ((s.core core).slot i).cur = some l → l.fault = none → p.inRep = false →
      (s.core core).inlineOf (((s.core core).slot i).proc.getD 0) = none → l.addr = p.pc.toNat / 16 →
      l.bytes.length = 16 → p.pc.toNat % 4 = 0 →
      ∃ w, s.turnAt core i p = some (.word w none)
        ∧ bytesOfWord w = (l.bytes.drop (p.pc.toNat % 16)).take 4)
  ∧ (∀ (s : State) core i l p w v, ((s.core core).slot i).cur = some l → l.fault = none → p.inRep = true →
      (s.core core).inlineOf (((s.core core).slot i).proc.getD 0) = none →
      s.fetched core i p.pc.toNat = .word w → s.fetched core i (p.pc + 4).toNat = .word v →
      s.turnAt core i p = some (.word v (some (repOffsets w p.repDone.toNat))))
  ∧ (∀ (s : State) core i pn w rep, let c := (s.atTurn core i pn w rep).ctx
      c.core = core ∧ c.slot = i ∧ c.pn = pn ∧ c.pc = (s.proc core pn).pc ∧ c.word = w ∧ c.rep = rep)
  ∧ (∀ (s : State) core i, (∀ n, (s.follow core i).proc core n = s.proc core n) ∧ ((s.issued core i []).core core).rotPtr = (i + 1) % 16)

/-- O56 (R1, R3, R9, R321). A step takes an event of the schedule with exec’s meaning of its row, and the hardware’s own events have the same meanings. The model’s choices, not the spec’s: the schedule of inputs and the dropping of what is no event (log 2), and the work in progress that a change of MODE waits for, with the commands that wait (logs 18 and 26) -/
def Obligations.StepTakesEvents : Prop :=
  (∀ (s : State) e rest, s.inputs = some e :: rest →
      (e.isEvent = true → step s = exec e { s with inputs := rest })
      ∧ (e.isEvent = false → step s = .next { s with inputs := rest }))
  ∧ (∀ (s : State) rest, s.inputs = none :: rest → step s = State.hardware { s with inputs := rest })
  ∧ (∀ s : State, s.inputs = [] → s.phase = [] → step s = .next s.tick
      ∧ ((∀ e ∈ s.pkgs, e.2.busy = false ∧ e.2.heldCmds = []) → s.tick.ticks = s.ticks + 1 ∧ s.tick.mem = s.mem
        ∧ s.tick.cores = s.cores ∧ s.tick.dies = s.dies ∧ (∀ k, s.tick.pkg k = (s.pkg k).settleDuty))
      ∧ (∀ k p, s.pkgs = [(k, p)] → p.busy = false → ∃ ph, s.tick = { State.serveHeld { s with
          ticks := s.ticks + 1, pkgs := [(k, p.settleDuty)] } k with phase := ph }))
  ∧ (∀ (s : State) k dev, let bare := s.modPkg k (fun p => { p with heldCmds := [] })
      (∀ o v, (s.pkg k).heldCmds = [.routeload dev o v] → exec (.routeload k dev o v) bare = .next (s.serveHeld k))
      ∧ (∀ j v g, (s.pkg k).heldCmds = [.migrate dev j v g] → exec (.migrate k dev j v g) bare = .next (s.serveHeld k)))
  ∧ (∀ p : Pkg, let q := p.settleDuty
      { q with turning := p.turning } = p
      ∧ (∀ i, i < 5 → q.turning.getLsbD i = (p.turning.getLsbD i && p.atWork i)))
  ∧ (∀ (p : Pkg) (v : Word), let q := p.setDuty v
      { q with duty := p.duty, turning := p.turning } = p ∧ q.duty = v &&& 0x3FF
      ∧ (∀ i, i < 5 → q.dutyMode i = if p.atWork i then p.dutyMode i else v.getLsbD (2 * i)))
  ∧ (∀ (s : State) e ph, s.inputs = [] → s.phase = .due e :: ph → step s = State.happen { s with phase := ph } e)
  ∧ (∀ (s : State) k n,
      s.happen (.fixedLatencyResult k n) = exec (.fixedLatencyResult k n) s
      ∧ s.happen (.dividerResult k) = exec (.dividerResult k) s
      ∧ s.happen (.schedulerPlacement k) = exec (.schedulerPlacement k) s
      ∧ s.happen (.slotDeparture k n) = exec (.slotDeparture k n) s ∧ s.happen (.switchEnd k n) = exec (.switchEnd k n) s
      ∧ s.happen (.pendingWaitExpiry k n) = exec (.pendingWaitExpiry k n) s ∧ s.happen (.rotation k) = exec (.rotation k) s
      ∧ s.happen (.slot15Handover k) = exec (.slot15Handover k) s ∧ s.happen (.sleepDeadline k n) = exec (.sleepDeadline k n) s
      ∧ s.happen (.alignTimeout k n) = exec (.alignTimeout k n) s ∧ s.happen (.lineDelivery k n) = exec (.lineDelivery k n) s
      ∧ s.happen (.ifsyncRelease k n) = exec (.ifsyncRelease k n) s
      ∧ s.happen (.bufferEntryFreed k n) = exec (.bufferEntryFreed k n) s
      ∧ s.happen (.memoryRequestArrival k n) = exec (.memoryRequestArrival k n) s
      ∧ s.happen (.requestRetry k n) = exec (.requestRetry k n) s
      ∧ s.happen (.startCompletion k n) = exec (.startCompletion k n) s ∧ s.happen (.wsetCompletion k) = exec (.wsetCompletion k) s
      ∧ s.happen (.transferEnd k n) = exec (.transferEnd k n) s
      ∧ s.happen (.releaseAnswer k) = exec (.releaseAnswer (s.releaseIdx k)) s
      ∧ s.happen (.handlerStart k) = exec (.handlerStart k) s ∧ s.happen (.handlerEnd k) = exec (.handlerEnd k) s
      ∧ s.happen (.altTimeout k n) = exec (.altTimeout k n) s ∧ s.happen (.holdBufferFreed k) = exec (.holdBufferFreed k) s
      ∧ s.happen (.poisonDelivery k n) = exec (.poisonDelivery k n) s ∧ s.happen (.probeSend k n) = exec (.probeSend k n) s
      ∧ s.happen (.vectorOperationStart k) = exec (.vectorOperationStart k) s
      ∧ s.happen (.copyStart k) = exec (.copyStart k) s ∧ s.happen (.lateMark k n) = exec (.lateMark k n) s
      ∧ s.happen (.taskChoice k) = exec (.taskChoice k) s ∧ s.happen (.governorGrant k) = exec (.governorGrant k) s
      ∧ s.happen (.governorWindow k) = exec (.governorWindow k) s ∧ s.happen (.panelEnd k) = exec (.panelEnd k) s
      ∧ s.happen (.macCountingEnd k) = exec (.macCountingEnd k) s ∧ s.happen (.tileZeroing k) = exec (.tileZeroing k) s
      ∧ s.happen (.drain k) = exec (.drain k) s ∧ s.happen (.drainEnd k) = exec (.drainEnd k) s
      ∧ s.happen (.outputWriteEnd k) = exec (.outputWriteEnd k) s ∧ s.happen (.mmergePerform k) = exec (.mmergePerform k) s
      ∧ s.happen (.coreWakeEnd k) = exec (.coreWakeEnd k) s ∧ s.happen (.silenceTimeout k) = exec (.silenceTimeout k) s
      ∧ s.happen (.joinFrameSend k) = exec (.joinFrameSend k) s ∧ s.happen (.firstTokenSend k) = exec (.firstTokenSend k) s
      ∧ s.happen (.formationTimeout k) = exec (.formationTimeout k) s
      ∧ s.happen (.timeShareQuantum k) = exec (.timeShareQuantum k) s ∧ s.happen (.sheafForm k) = exec (.sheafForm k) s
      ∧ s.happen (.sheafLeaveRequest k) = exec (.sheafLeaveRequest k) s ∧ s.happen (.sheafLeave k) = exec (.sheafLeave k) s
      ∧ s.happen (.routeSwitch k) = exec (.routeSwitch k) s ∧ s.happen (.powerGate k) = exec (.powerGate k) s
      ∧ s.happen (.coreWake k) = exec (.coreWake k) s ∧ s.happen (.poisonFix k n) = exec (.poisonFix k n) s
      ∧ s.happen (.dieReset k) = exec (.dieReset k) s ∧ s.happen (.packageWarmReset k) = exec (.packageWarmReset k) s
      ∧ s.happen (.hostPoll k n) = .next (s.hostServe k (n / 256) (n % 256)))
  ∧ (∀ (s : State) d j r, s.happen (.teardown d j r) = exec (.teardown d j r) s)

/-- O57 (R211, R212, R251, R271, R292, R320, R321, R363, R375, R387). After a package cold reset registers hold the reset values the manual states, memory is canonical, and the first step ticks -/
def Obligations.ResetState : Prop :=
  State.reset.canonical ∧ State.reset.ticks = 0 ∧ State.reset.net = [] ∧ State.reset.frames = []
  ∧ (∀ k, let c := State.reset.core k
      c.procs = [] ∧ c.endpoints = [] ∧ c.futures = [] ∧ c.launch = none ∧ c.gateV = false ∧ c.gated = false
      ∧ c.vecA.smax = 0x43E00000 ∧ c.vecA.lasts = 0x3F800000 ∧ c.vecA.lastr = 0x3F800000 ∧ c.copyA.rows = 1
      ∧ (∀ n, (look ({} : OpSlot) c.opslots n).sblk = 0x6060606060606060 ∧ (look ({} : OpSlot) c.opslots n).sband = 0x3F80)
      ∧ (∀ n, (c.proc n).state = .free))
  ∧ (∀ d, let x := State.reset.die d
      State.reset.cyc d = 0 ∧ x.gbud = 0x40000 ∧ x.gramp = 0x04000 ∧ x.period = 24 ∧ x.action = 0 ∧ x.lrecs = [] ∧ x.jobs = []
      ∧ x.applied = 0 ∧ x.board = [] ∧ x.cecnt = 0 ∧ x.pgate = 0 ∧ x.trip = false)
  ∧ (∀ p, let x := State.reset.pkg p
      x.duty = 0 ∧ x.land = 0 ∧ x.ldbind = [] ∧ x.rte0 = [] ∧ x.rte1 = [] ∧ x.rteShadow = [] ∧ x.formed = false ∧ x.nextSsn = 1
      ∧ x.pos = 0 ∧ x.nm1 = 0 ∧ x.sheafJob = 0)
  ∧ step State.reset = .next State.reset.tick

/-- O58 (R4, R127, R137, R378). Every step that answers a next state keeps memory in its canonical form -/
def Obligations.StepKeepsCanonicalMemory : Prop :=
  ∀ (s t : State), s.canonical → step s = .next t → t.canonical

/-- O59 (R32, R33, R36, R37, R38). Words written out from the encodings of R32 to R37 decode to the instructions they stand for -/
def Obligations.DecodeSamples : Prop :=
  decode 0x81694C0B = some (.mul 2 13 5 6) ∧ decode 0x01734E00 = some (.add 0 14 13 7)
  ∧ decode 0x026B7FFF = some (.addi 0 13 13 0x3FFF) ∧ decode 0x18789802 = some (.ld 0 15 2 2)
  ∧ decode 0x10514C00 = some (.cbLt 0 2 5 6 0) ∧ decode 0x1173C000 = some (.cbiGe 0 2 15 0)
  ∧ decode 0x12000010 = some (.j 0 16) ∧ decode 0x09280001 = some (.liu 0 5 1) ∧ decode 0x14004000 = some (.jlr 0 0 1 0)
  ∧ decode 0x151F0000 = some (.rep 0 7 6 0) ∧ decode 0x30694C00 = some (.vadd 0 13 5 6)
  ∧ decode 0x32694C21 = some (.cpym 0 13 5 6) ∧ decode 0x25014C00 = some (.send 0 5 6)
  ∧ decode 0x1A6D4800 = some (.take 0 13 21 0) ∧ decode 0x1B6D4001 = some (.put 0 13 21 1)
  ∧ decode 0x38F80006 = some (.rdcr 0 31 6) ∧ decode 0x39000007 = some (.trap 0 7)
  ∧ decode 0x00000000 = none ∧ decode 0xFFFFFFFF = none

/-- O60 (R32, R33, R34, R36, R37, R38). For every well-formed instruction that has a word, decoding its word gives it back, and a decoded word is the word of its instruction -/
def Obligations.DecodeOfEncode : Prop :=
  (∀ i w, i.wellFormed = true → encode i = some w → decode w = some i)
  ∧ (∀ w i, decode w = some i → i.wellFormed = true ∧ i.isEvent = false ∧ encode i = some w)
end

