-- ==== Sys2Proof/Laws/Maps.lean ====
section
/-! SUPPORT. Laws of the maps and lists that the state is made of: a read after a write, canonical forms, and what a write
leaves alone. -/

namespace Sys2Proof.Machine

@[simp] theorem look_nil {α : Type} (d : α) (i : Nat) : look d [] i = d := rfl

@[simp] theorem look_put_self {α : Type} (d : α) (m : AMap α) (i : Nat) (v : α) : look d (put m i v) i = v := by
  induction m with
  | nil => simp [put, look]
  | cons e m ih =>
    simp only [put]
    split_ifs <;> simp_all [look]

@[simp] theorem look_put_ne {α : Type} (d : α) (m : AMap α) {i j : Nat} (v : α) (h : j ≠ i) :
    look d (put m i v) j = look d m j := by
  induction m with
  | nil => simp [put, look, h]
  | cons e m ih =>
    simp only [put]
    split_ifs <;> simp_all [look]

theorem look_put {α : Type} (d : α) (m : AMap α) (i j : Nat) (v : α) :
    look d (put m i v) j = if j = i then v else look d m j := by
  by_cases h : j = i
  · subst h; simp
  · simp [h]

@[simp] theorem put_put {α : Type} (m : AMap α) (i : Nat) (u v : α) : put (put m i u) i v = put m i v := by
  induction m with
  | nil => simp [put]
  | cons e m ih =>
    simp only [put]
    split_ifs <;> simp_all [put]

/-! ### Cells -/

@[simp] theorem cellGet_cellPut_self (m : List Host.Cell) (i : Nat) (v : Byte) (lo : Nat) (h : cellsFrom lo m = true) :
    cellGet (cellPut m i v) i = v := by
  induction m generalizing lo with
  | nil => simp only [cellPut]; split_ifs <;> simp_all [cellGet]
  | cons e m ih =>
    have fresh : ∀ (l : List Host.Cell) (k : Nat), cellsFrom k l = true → i < k → cellGet l i = unlistedByte := by
      intro l
      induction l with
      | nil => intros; rfl
      | cons x l il =>
        intro k hk hi
        simp only [cellsFrom, Bool.and_eq_true, decide_eq_true_eq] at hk
        simp only [cellGet]
        rw [if_neg (by omega)]
        exact il _ hk.2 (by omega)
    obtain ⟨a, b⟩ := e
    simp only [cellsFrom, Bool.and_eq_true, decide_eq_true_eq] at h
    simp only [cellPut]
    split_ifs with h1 h2 h3 h4
    · simp only [cellGet]; rw [if_neg (by omega), h2]; exact fresh m (a + 1) h.2 (by omega)
    · simp [cellGet]
    · rw [h4]; exact fresh m (a + 1) h.2 (by omega)
    · simp [cellGet]
    · simp only [cellGet]; rw [if_neg h3]; exact ih _ h.2

theorem cellGet_cellPut_ne (m : List Host.Cell) {i j : Nat} (v : Byte) (h : j ≠ i) :
    cellGet (cellPut m i v) j = cellGet m j := by
  induction m with
  | nil => simp only [cellPut]; split_ifs <;> simp [cellGet, h]
  | cons e m ih =>
    obtain ⟨a, b⟩ := e
    simp only [cellPut]
    split_ifs <;> simp_all [cellGet]

theorem cellsFrom_mono {m : List Host.Cell} {a b : Nat} (h : a ≤ b) (hm : cellsFrom b m = true) : cellsFrom a m = true := by
  cases m with
  | nil => rfl
  | cons e m =>
    simp only [cellsFrom, Bool.and_eq_true, decide_eq_true_eq] at *
    exact ⟨⟨by omega, hm.1.2⟩, hm.2⟩

theorem cellsFrom_cellPut {m : List Host.Cell} {lo : Nat} (i : Nat) (v : Byte) (h : cellsFrom lo m = true) (hi : lo ≤ i) :
    cellsFrom lo (cellPut m i v) = true := by
  induction m generalizing lo with
  | nil => simp only [cellPut]; split_ifs <;> simp_all [cellsFrom]
  | cons e m ih =>
    obtain ⟨a, b⟩ := e
    simp only [cellsFrom, Bool.and_eq_true, decide_eq_true_eq] at h
    simp only [cellPut]
    split_ifs with h1 h2 h3 h4
    · simp [cellsFrom, h]
    · simp only [cellsFrom, Bool.and_eq_true, decide_eq_true_eq]
      exact ⟨⟨hi, by simpa using h2⟩, ⟨by omega, h.1.2⟩, h.2⟩
    · exact cellsFrom_mono (by omega) h.2
    · simp only [cellsFrom, Bool.and_eq_true, decide_eq_true_eq]
      exact ⟨⟨by omega, by simpa using h4⟩, h3 ▸ h.2⟩
    · simp only [cellsFrom, Bool.and_eq_true, decide_eq_true_eq]
      exact ⟨h.1, ih h.2 (by omega)⟩

theorem cellsFrom_filter {m : List Host.Cell} {lo : Nat} (p : Host.Cell → Bool) (h : cellsFrom lo m = true) :
    cellsFrom lo (m.filter p) = true := by
  induction m generalizing lo with
  | nil => rfl
  | cons e m ih =>
    obtain ⟨a, b⟩ := e
    simp only [cellsFrom, Bool.and_eq_true, decide_eq_true_eq] at h
    simp only [List.filter]
    split
    · simp only [cellsFrom, Bool.and_eq_true, decide_eq_true_eq]; exact ⟨h.1, ih h.2⟩
    · exact cellsFrom_mono (by omega) (ih h.2)

/-! ### Keys -/

theorem keysFrom_mono {m : List Nat} {a b : Nat} (h : a ≤ b) (hm : keysFrom b m = true) : keysFrom a m = true := by
  cases m with
  | nil => rfl
  | cons e m =>
    simp only [keysFrom, Bool.and_eq_true, decide_eq_true_eq] at *
    exact ⟨by omega, hm.2⟩

theorem keysFrom_insertKey {m : List Nat} {lo : Nat} (i : Nat) (h : keysFrom lo m = true) (hi : lo ≤ i) :
    keysFrom lo (insertKey m i) = true := by
  induction m generalizing lo with
  | nil => simp [insertKey, keysFrom, hi]
  | cons a m ih =>
    simp only [keysFrom, Bool.and_eq_true, decide_eq_true_eq] at h
    simp only [insertKey]
    split_ifs with h1 h2
    · simp only [keysFrom, Bool.and_eq_true, decide_eq_true_eq]; exact ⟨hi, by omega, h.2⟩
    · simp only [keysFrom, Bool.and_eq_true, decide_eq_true_eq]; exact h
    · simp only [keysFrom, Bool.and_eq_true, decide_eq_true_eq]; exact ⟨h.1, ih h.2 (by omega)⟩

theorem keysFrom_filter {m : List Nat} {lo : Nat} (p : Nat → Bool) (h : keysFrom lo m = true) :
    keysFrom lo (m.filter p) = true := by
  induction m generalizing lo with
  | nil => rfl
  | cons a m ih =>
    simp only [keysFrom, Bool.and_eq_true, decide_eq_true_eq] at h
    simp only [List.filter]
    split
    · simp only [keysFrom, Bool.and_eq_true, decide_eq_true_eq]; exact ⟨h.1, ih h.2⟩
    · exact keysFrom_mono (by omega) (ih h.2)

theorem mem_insertKey (m : List Nat) (i j : Nat) : j ∈ insertKey m i ↔ j = i ∨ j ∈ m := by
  induction m with
  | nil => simp [insertKey]
  | cons a m ih =>
    simp only [insertKey]
    split_ifs with h1 h2
    · simp
    · subst h2; simp
    · simp only [List.mem_cons, ih]; tauto

end Sys2Proof.Machine
end

