-- ==== Sys2Proof/Laws/State.lean ====
section
/-! SUPPORT. What each named update of the state changes and leaves, field by field, so that no proof unfolds a record
update. -/

namespace Sys2Proof.Machine

/-! ### Fields of the state after an update of one part -/

@[simp] theorem State.setDie_cores (s : State) (k : Nat) (d : Die) : (s.setDie k d).cores = s.cores := rfl
@[simp] theorem State.modDie_cores (s : State) (k : Nat) (g : Die → Die) : (s.modDie k g).cores = s.cores := rfl
@[simp] theorem State.setPkg_cores (s : State) (k : Nat) (p : Pkg) : (s.setPkg k p).cores = s.cores := rfl
@[simp] theorem State.modPkg_cores (s : State) (k : Nat) (g : Pkg → Pkg) : (s.modPkg k g).cores = s.cores := rfl
@[simp] theorem State.later_cores (s : State) (e : Due) : (s.later e).cores = s.cores := rfl
@[simp] theorem State.drawn_cores (s : State) : s.drawn.cores = s.cores := rfl
@[simp] theorem State.notIssued_cores (s : State) : s.notIssued.cores = s.cores := rfl
@[simp] theorem State.setCore_dies (s : State) (k : Nat) (c : Core) : (s.setCore k c).dies = s.dies := rfl
@[simp] theorem State.modCore_dies (s : State) (k : Nat) (g : Core → Core) : (s.modCore k g).dies = s.dies := rfl
@[simp] theorem State.setProc_dies (s : State) (k pn : Nat) (p : Proc) : (s.setProc k pn p).dies = s.dies := rfl
@[simp] theorem State.modProc_dies (s : State) (k pn : Nat) (g : Proc → Proc) : (s.modProc k pn g).dies = s.dies := rfl
@[simp] theorem State.modSlot_dies (s : State) (k i : Nat) (g : Slot → Slot) : (s.modSlot k i g).dies = s.dies := rfl
@[simp] theorem State.modMe_dies (s : State) (g : Proc → Proc) : (s.modMe g).dies = s.dies := rfl
@[simp] theorem State.begun_dies (s : State) (w : BitVec 2) (u : Use) : (s.begun w u).dies = s.dies := rfl
@[simp] theorem State.advance_dies (s : State) : s.advance.dies = s.dies := rfl
@[simp] theorem State.jump_dies (s : State) (a : Word) : (s.jump a).dies = s.dies := rfl
@[simp] theorem State.fly_dies (s : State) (l : Nat) (ws : List (Nat × Word)) (fl : BitVec 5)
    (x : Option (BitVec 16)) : (s.fly l ws fl x).dies = s.dies := rfl
@[simp] theorem State.block_dies (s : State) (st : ProcState) (w : Wait) : (s.block st w).dies = s.dies := rfl
@[simp] theorem State.pendDest_dies (s : State) (d : Nat) : (s.pendDest d).dies = s.dies := rfl
@[simp] theorem State.setPkg_dies (s : State) (k : Nat) (p : Pkg) : (s.setPkg k p).dies = s.dies := rfl
@[simp] theorem State.modPkg_dies (s : State) (k : Nat) (g : Pkg → Pkg) : (s.modPkg k g).dies = s.dies := rfl
@[simp] theorem State.later_dies (s : State) (e : Due) : (s.later e).dies = s.dies := rfl
@[simp] theorem State.drawn_dies (s : State) : s.drawn.dies = s.dies := rfl
@[simp] theorem State.notIssued_dies (s : State) : s.notIssued.dies = s.dies := rfl
@[simp] theorem State.setCore_pkgs (s : State) (k : Nat) (c : Core) : (s.setCore k c).pkgs = s.pkgs := rfl
@[simp] theorem State.modCore_pkgs (s : State) (k : Nat) (g : Core → Core) : (s.modCore k g).pkgs = s.pkgs := rfl
@[simp] theorem State.setProc_pkgs (s : State) (k pn : Nat) (p : Proc) : (s.setProc k pn p).pkgs = s.pkgs := rfl
@[simp] theorem State.modProc_pkgs (s : State) (k pn : Nat) (g : Proc → Proc) : (s.modProc k pn g).pkgs = s.pkgs := rfl
@[simp] theorem State.modSlot_pkgs (s : State) (k i : Nat) (g : Slot → Slot) : (s.modSlot k i g).pkgs = s.pkgs := rfl
@[simp] theorem State.modMe_pkgs (s : State) (g : Proc → Proc) : (s.modMe g).pkgs = s.pkgs := rfl
@[simp] theorem State.begun_pkgs (s : State) (w : BitVec 2) (u : Use) : (s.begun w u).pkgs = s.pkgs := rfl
@[simp] theorem State.advance_pkgs (s : State) : s.advance.pkgs = s.pkgs := rfl
@[simp] theorem State.jump_pkgs (s : State) (a : Word) : (s.jump a).pkgs = s.pkgs := rfl
@[simp] theorem State.fly_pkgs (s : State) (l : Nat) (ws : List (Nat × Word)) (fl : BitVec 5)
    (x : Option (BitVec 16)) : (s.fly l ws fl x).pkgs = s.pkgs := rfl
@[simp] theorem State.block_pkgs (s : State) (st : ProcState) (w : Wait) : (s.block st w).pkgs = s.pkgs := rfl
@[simp] theorem State.pendDest_pkgs (s : State) (d : Nat) : (s.pendDest d).pkgs = s.pkgs := rfl
@[simp] theorem State.setDie_pkgs (s : State) (k : Nat) (d : Die) : (s.setDie k d).pkgs = s.pkgs := rfl
@[simp] theorem State.modDie_pkgs (s : State) (k : Nat) (g : Die → Die) : (s.modDie k g).pkgs = s.pkgs := rfl
@[simp] theorem State.later_pkgs (s : State) (e : Due) : (s.later e).pkgs = s.pkgs := rfl
@[simp] theorem State.drawn_pkgs (s : State) : s.drawn.pkgs = s.pkgs := rfl
@[simp] theorem State.notIssued_pkgs (s : State) : s.notIssued.pkgs = s.pkgs := rfl
@[simp] theorem State.setCore_mem (s : State) (k : Nat) (c : Core) : (s.setCore k c).mem = s.mem := rfl
@[simp] theorem State.modCore_mem (s : State) (k : Nat) (g : Core → Core) : (s.modCore k g).mem = s.mem := rfl
@[simp] theorem State.setProc_mem (s : State) (k pn : Nat) (p : Proc) : (s.setProc k pn p).mem = s.mem := rfl
@[simp] theorem State.modProc_mem (s : State) (k pn : Nat) (g : Proc → Proc) : (s.modProc k pn g).mem = s.mem := rfl
@[simp] theorem State.modSlot_mem (s : State) (k i : Nat) (g : Slot → Slot) : (s.modSlot k i g).mem = s.mem := rfl
@[simp] theorem State.modMe_mem (s : State) (g : Proc → Proc) : (s.modMe g).mem = s.mem := rfl
@[simp] theorem State.begun_mem (s : State) (w : BitVec 2) (u : Use) : (s.begun w u).mem = s.mem := rfl
@[simp] theorem State.advance_mem (s : State) : s.advance.mem = s.mem := rfl
@[simp] theorem State.jump_mem (s : State) (a : Word) : (s.jump a).mem = s.mem := rfl
@[simp] theorem State.fly_mem (s : State) (l : Nat) (ws : List (Nat × Word)) (fl : BitVec 5)
    (x : Option (BitVec 16)) : (s.fly l ws fl x).mem = s.mem := rfl
@[simp] theorem State.block_mem (s : State) (st : ProcState) (w : Wait) : (s.block st w).mem = s.mem := rfl
@[simp] theorem State.pendDest_mem (s : State) (d : Nat) : (s.pendDest d).mem = s.mem := rfl
@[simp] theorem State.setDie_mem (s : State) (k : Nat) (d : Die) : (s.setDie k d).mem = s.mem := rfl
@[simp] theorem State.modDie_mem (s : State) (k : Nat) (g : Die → Die) : (s.modDie k g).mem = s.mem := rfl
@[simp] theorem State.setPkg_mem (s : State) (k : Nat) (p : Pkg) : (s.setPkg k p).mem = s.mem := rfl
@[simp] theorem State.modPkg_mem (s : State) (k : Nat) (g : Pkg → Pkg) : (s.modPkg k g).mem = s.mem := rfl
@[simp] theorem State.later_mem (s : State) (e : Due) : (s.later e).mem = s.mem := rfl
@[simp] theorem State.drawn_mem (s : State) : s.drawn.mem = s.mem := rfl
@[simp] theorem State.notIssued_mem (s : State) : s.notIssued.mem = s.mem := rfl
@[simp] theorem State.setCore_carries (s : State) (k : Nat) (c : Core) : (s.setCore k c).carries = s.carries := rfl
@[simp] theorem State.modCore_carries (s : State) (k : Nat) (g : Core → Core) : (s.modCore k g).carries = s.carries := rfl
@[simp] theorem State.setProc_carries (s : State) (k pn : Nat) (p : Proc) : (s.setProc k pn p).carries = s.carries := rfl
@[simp] theorem State.modProc_carries (s : State) (k pn : Nat) (g : Proc → Proc) : (s.modProc k pn g).carries = s.carries := rfl
@[simp] theorem State.modSlot_carries (s : State) (k i : Nat) (g : Slot → Slot) : (s.modSlot k i g).carries = s.carries := rfl
@[simp] theorem State.modMe_carries (s : State) (g : Proc → Proc) : (s.modMe g).carries = s.carries := rfl
@[simp] theorem State.begun_carries (s : State) (w : BitVec 2) (u : Use) : (s.begun w u).carries = s.carries := rfl
@[simp] theorem State.advance_carries (s : State) : s.advance.carries = s.carries := rfl
@[simp] theorem State.jump_carries (s : State) (a : Word) : (s.jump a).carries = s.carries := rfl
@[simp] theorem State.fly_carries (s : State) (l : Nat) (ws : List (Nat × Word)) (fl : BitVec 5)
    (x : Option (BitVec 16)) : (s.fly l ws fl x).carries = s.carries := rfl
@[simp] theorem State.block_carries (s : State) (st : ProcState) (w : Wait) : (s.block st w).carries = s.carries := rfl
@[simp] theorem State.pendDest_carries (s : State) (d : Nat) : (s.pendDest d).carries = s.carries := rfl
@[simp] theorem State.setDie_carries (s : State) (k : Nat) (d : Die) : (s.setDie k d).carries = s.carries := rfl
@[simp] theorem State.modDie_carries (s : State) (k : Nat) (g : Die → Die) : (s.modDie k g).carries = s.carries := rfl
@[simp] theorem State.setPkg_carries (s : State) (k : Nat) (p : Pkg) : (s.setPkg k p).carries = s.carries := rfl
@[simp] theorem State.modPkg_carries (s : State) (k : Nat) (g : Pkg → Pkg) : (s.modPkg k g).carries = s.carries := rfl
@[simp] theorem State.later_carries (s : State) (e : Due) : (s.later e).carries = s.carries := rfl
@[simp] theorem State.drawn_carries (s : State) : s.drawn.carries = s.carries := rfl
@[simp] theorem State.notIssued_carries (s : State) : s.notIssued.carries = s.carries := rfl
@[simp] theorem State.setCore_net (s : State) (k : Nat) (c : Core) : (s.setCore k c).net = s.net := rfl
@[simp] theorem State.modCore_net (s : State) (k : Nat) (g : Core → Core) : (s.modCore k g).net = s.net := rfl
@[simp] theorem State.setProc_net (s : State) (k pn : Nat) (p : Proc) : (s.setProc k pn p).net = s.net := rfl
@[simp] theorem State.modProc_net (s : State) (k pn : Nat) (g : Proc → Proc) : (s.modProc k pn g).net = s.net := rfl
@[simp] theorem State.modSlot_net (s : State) (k i : Nat) (g : Slot → Slot) : (s.modSlot k i g).net = s.net := rfl
@[simp] theorem State.modMe_net (s : State) (g : Proc → Proc) : (s.modMe g).net = s.net := rfl
@[simp] theorem State.begun_net (s : State) (w : BitVec 2) (u : Use) : (s.begun w u).net = s.net := rfl
@[simp] theorem State.advance_net (s : State) : s.advance.net = s.net := rfl
@[simp] theorem State.jump_net (s : State) (a : Word) : (s.jump a).net = s.net := rfl
@[simp] theorem State.fly_net (s : State) (l : Nat) (ws : List (Nat × Word)) (fl : BitVec 5)
    (x : Option (BitVec 16)) : (s.fly l ws fl x).net = s.net := rfl
@[simp] theorem State.block_net (s : State) (st : ProcState) (w : Wait) : (s.block st w).net = s.net := rfl
@[simp] theorem State.pendDest_net (s : State) (d : Nat) : (s.pendDest d).net = s.net := rfl
@[simp] theorem State.setDie_net (s : State) (k : Nat) (d : Die) : (s.setDie k d).net = s.net := rfl
@[simp] theorem State.modDie_net (s : State) (k : Nat) (g : Die → Die) : (s.modDie k g).net = s.net := rfl
@[simp] theorem State.setPkg_net (s : State) (k : Nat) (p : Pkg) : (s.setPkg k p).net = s.net := rfl
@[simp] theorem State.modPkg_net (s : State) (k : Nat) (g : Pkg → Pkg) : (s.modPkg k g).net = s.net := rfl
@[simp] theorem State.later_net (s : State) (e : Due) : (s.later e).net = s.net := rfl
@[simp] theorem State.drawn_net (s : State) : s.drawn.net = s.net := rfl
@[simp] theorem State.notIssued_net (s : State) : s.notIssued.net = s.net := rfl
@[simp] theorem State.setCore_frames (s : State) (k : Nat) (c : Core) : (s.setCore k c).frames = s.frames := rfl
@[simp] theorem State.modCore_frames (s : State) (k : Nat) (g : Core → Core) : (s.modCore k g).frames = s.frames := rfl
@[simp] theorem State.setProc_frames (s : State) (k pn : Nat) (p : Proc) : (s.setProc k pn p).frames = s.frames := rfl
@[simp] theorem State.modProc_frames (s : State) (k pn : Nat) (g : Proc → Proc) : (s.modProc k pn g).frames = s.frames := rfl
@[simp] theorem State.modSlot_frames (s : State) (k i : Nat) (g : Slot → Slot) : (s.modSlot k i g).frames = s.frames := rfl
@[simp] theorem State.modMe_frames (s : State) (g : Proc → Proc) : (s.modMe g).frames = s.frames := rfl
@[simp] theorem State.begun_frames (s : State) (w : BitVec 2) (u : Use) : (s.begun w u).frames = s.frames := rfl
@[simp] theorem State.advance_frames (s : State) : s.advance.frames = s.frames := rfl
@[simp] theorem State.jump_frames (s : State) (a : Word) : (s.jump a).frames = s.frames := rfl
@[simp] theorem State.fly_frames (s : State) (l : Nat) (ws : List (Nat × Word)) (fl : BitVec 5)
    (x : Option (BitVec 16)) : (s.fly l ws fl x).frames = s.frames := rfl
@[simp] theorem State.block_frames (s : State) (st : ProcState) (w : Wait) : (s.block st w).frames = s.frames := rfl
@[simp] theorem State.pendDest_frames (s : State) (d : Nat) : (s.pendDest d).frames = s.frames := rfl
@[simp] theorem State.setDie_frames (s : State) (k : Nat) (d : Die) : (s.setDie k d).frames = s.frames := rfl
@[simp] theorem State.modDie_frames (s : State) (k : Nat) (g : Die → Die) : (s.modDie k g).frames = s.frames := rfl
@[simp] theorem State.setPkg_frames (s : State) (k : Nat) (p : Pkg) : (s.setPkg k p).frames = s.frames := rfl
@[simp] theorem State.modPkg_frames (s : State) (k : Nat) (g : Pkg → Pkg) : (s.modPkg k g).frames = s.frames := rfl
@[simp] theorem State.later_frames (s : State) (e : Due) : (s.later e).frames = s.frames := rfl
@[simp] theorem State.drawn_frames (s : State) : s.drawn.frames = s.frames := rfl
@[simp] theorem State.notIssued_frames (s : State) : s.notIssued.frames = s.frames := rfl
@[simp] theorem State.setCore_ctx (s : State) (k : Nat) (c : Core) : (s.setCore k c).ctx = s.ctx := rfl
@[simp] theorem State.modCore_ctx (s : State) (k : Nat) (g : Core → Core) : (s.modCore k g).ctx = s.ctx := rfl
@[simp] theorem State.setProc_ctx (s : State) (k pn : Nat) (p : Proc) : (s.setProc k pn p).ctx = s.ctx := rfl
@[simp] theorem State.modProc_ctx (s : State) (k pn : Nat) (g : Proc → Proc) : (s.modProc k pn g).ctx = s.ctx := rfl
@[simp] theorem State.modSlot_ctx (s : State) (k i : Nat) (g : Slot → Slot) : (s.modSlot k i g).ctx = s.ctx := rfl
@[simp] theorem State.modMe_ctx (s : State) (g : Proc → Proc) : (s.modMe g).ctx = s.ctx := rfl
@[simp] theorem State.begun_ctx (s : State) (w : BitVec 2) (u : Use) : (s.begun w u).ctx = s.ctx := rfl
@[simp] theorem State.advance_ctx (s : State) : s.advance.ctx = s.ctx := rfl
@[simp] theorem State.jump_ctx (s : State) (a : Word) : (s.jump a).ctx = s.ctx := rfl
@[simp] theorem State.fly_ctx (s : State) (l : Nat) (ws : List (Nat × Word)) (fl : BitVec 5)
    (x : Option (BitVec 16)) : (s.fly l ws fl x).ctx = s.ctx := rfl
@[simp] theorem State.block_ctx (s : State) (st : ProcState) (w : Wait) : (s.block st w).ctx = s.ctx := rfl
@[simp] theorem State.pendDest_ctx (s : State) (d : Nat) : (s.pendDest d).ctx = s.ctx := rfl
@[simp] theorem State.setDie_ctx (s : State) (k : Nat) (d : Die) : (s.setDie k d).ctx = s.ctx := rfl
@[simp] theorem State.modDie_ctx (s : State) (k : Nat) (g : Die → Die) : (s.modDie k g).ctx = s.ctx := rfl
@[simp] theorem State.setPkg_ctx (s : State) (k : Nat) (p : Pkg) : (s.setPkg k p).ctx = s.ctx := rfl
@[simp] theorem State.modPkg_ctx (s : State) (k : Nat) (g : Pkg → Pkg) : (s.modPkg k g).ctx = s.ctx := rfl
@[simp] theorem State.later_ctx (s : State) (e : Due) : (s.later e).ctx = s.ctx := rfl
@[simp] theorem State.drawn_ctx (s : State) : s.drawn.ctx = s.ctx := rfl
@[simp] theorem State.setCore_ticks (s : State) (k : Nat) (c : Core) : (s.setCore k c).ticks = s.ticks := rfl
@[simp] theorem State.modCore_ticks (s : State) (k : Nat) (g : Core → Core) : (s.modCore k g).ticks = s.ticks := rfl
@[simp] theorem State.setProc_ticks (s : State) (k pn : Nat) (p : Proc) : (s.setProc k pn p).ticks = s.ticks := rfl
@[simp] theorem State.modProc_ticks (s : State) (k pn : Nat) (g : Proc → Proc) : (s.modProc k pn g).ticks = s.ticks := rfl
@[simp] theorem State.modSlot_ticks (s : State) (k i : Nat) (g : Slot → Slot) : (s.modSlot k i g).ticks = s.ticks := rfl
@[simp] theorem State.modMe_ticks (s : State) (g : Proc → Proc) : (s.modMe g).ticks = s.ticks := rfl
@[simp] theorem State.begun_ticks (s : State) (w : BitVec 2) (u : Use) : (s.begun w u).ticks = s.ticks := rfl
@[simp] theorem State.advance_ticks (s : State) : s.advance.ticks = s.ticks := rfl
@[simp] theorem State.jump_ticks (s : State) (a : Word) : (s.jump a).ticks = s.ticks := rfl
@[simp] theorem State.fly_ticks (s : State) (l : Nat) (ws : List (Nat × Word)) (fl : BitVec 5)
    (x : Option (BitVec 16)) : (s.fly l ws fl x).ticks = s.ticks := rfl
@[simp] theorem State.block_ticks (s : State) (st : ProcState) (w : Wait) : (s.block st w).ticks = s.ticks := rfl
@[simp] theorem State.pendDest_ticks (s : State) (d : Nat) : (s.pendDest d).ticks = s.ticks := rfl
@[simp] theorem State.setDie_ticks (s : State) (k : Nat) (d : Die) : (s.setDie k d).ticks = s.ticks := rfl
@[simp] theorem State.modDie_ticks (s : State) (k : Nat) (g : Die → Die) : (s.modDie k g).ticks = s.ticks := rfl
@[simp] theorem State.setPkg_ticks (s : State) (k : Nat) (p : Pkg) : (s.setPkg k p).ticks = s.ticks := rfl
@[simp] theorem State.modPkg_ticks (s : State) (k : Nat) (g : Pkg → Pkg) : (s.modPkg k g).ticks = s.ticks := rfl
@[simp] theorem State.later_ticks (s : State) (e : Due) : (s.later e).ticks = s.ticks := rfl
@[simp] theorem State.drawn_ticks (s : State) : s.drawn.ticks = s.ticks := rfl
@[simp] theorem State.notIssued_ticks (s : State) : s.notIssued.ticks = s.ticks := rfl
@[simp] theorem State.setCore_inputs (s : State) (k : Nat) (c : Core) : (s.setCore k c).inputs = s.inputs := rfl
@[simp] theorem State.modCore_inputs (s : State) (k : Nat) (g : Core → Core) : (s.modCore k g).inputs = s.inputs := rfl
@[simp] theorem State.setProc_inputs (s : State) (k pn : Nat) (p : Proc) : (s.setProc k pn p).inputs = s.inputs := rfl
@[simp] theorem State.modProc_inputs (s : State) (k pn : Nat) (g : Proc → Proc) : (s.modProc k pn g).inputs = s.inputs := rfl
@[simp] theorem State.modSlot_inputs (s : State) (k i : Nat) (g : Slot → Slot) : (s.modSlot k i g).inputs = s.inputs := rfl
@[simp] theorem State.modMe_inputs (s : State) (g : Proc → Proc) : (s.modMe g).inputs = s.inputs := rfl
@[simp] theorem State.begun_inputs (s : State) (w : BitVec 2) (u : Use) : (s.begun w u).inputs = s.inputs := rfl
@[simp] theorem State.advance_inputs (s : State) : s.advance.inputs = s.inputs := rfl
@[simp] theorem State.jump_inputs (s : State) (a : Word) : (s.jump a).inputs = s.inputs := rfl
@[simp] theorem State.fly_inputs (s : State) (l : Nat) (ws : List (Nat × Word)) (fl : BitVec 5)
    (x : Option (BitVec 16)) : (s.fly l ws fl x).inputs = s.inputs := rfl
@[simp] theorem State.block_inputs (s : State) (st : ProcState) (w : Wait) : (s.block st w).inputs = s.inputs := rfl
@[simp] theorem State.pendDest_inputs (s : State) (d : Nat) : (s.pendDest d).inputs = s.inputs := rfl
@[simp] theorem State.setDie_inputs (s : State) (k : Nat) (d : Die) : (s.setDie k d).inputs = s.inputs := rfl
@[simp] theorem State.modDie_inputs (s : State) (k : Nat) (g : Die → Die) : (s.modDie k g).inputs = s.inputs := rfl
@[simp] theorem State.setPkg_inputs (s : State) (k : Nat) (p : Pkg) : (s.setPkg k p).inputs = s.inputs := rfl
@[simp] theorem State.modPkg_inputs (s : State) (k : Nat) (g : Pkg → Pkg) : (s.modPkg k g).inputs = s.inputs := rfl
@[simp] theorem State.later_inputs (s : State) (e : Due) : (s.later e).inputs = s.inputs := rfl
@[simp] theorem State.drawn_inputs (s : State) : s.drawn.inputs = s.inputs := rfl
@[simp] theorem State.notIssued_inputs (s : State) : s.notIssued.inputs = s.inputs := rfl
@[simp] theorem State.setCore_phase (s : State) (k : Nat) (c : Core) : (s.setCore k c).phase = s.phase := rfl
@[simp] theorem State.modCore_phase (s : State) (k : Nat) (g : Core → Core) : (s.modCore k g).phase = s.phase := rfl
@[simp] theorem State.setProc_phase (s : State) (k pn : Nat) (p : Proc) : (s.setProc k pn p).phase = s.phase := rfl
@[simp] theorem State.modProc_phase (s : State) (k pn : Nat) (g : Proc → Proc) : (s.modProc k pn g).phase = s.phase := rfl
@[simp] theorem State.modSlot_phase (s : State) (k i : Nat) (g : Slot → Slot) : (s.modSlot k i g).phase = s.phase := rfl
@[simp] theorem State.modMe_phase (s : State) (g : Proc → Proc) : (s.modMe g).phase = s.phase := rfl
@[simp] theorem State.begun_phase (s : State) (w : BitVec 2) (u : Use) : (s.begun w u).phase = s.phase := rfl
@[simp] theorem State.advance_phase (s : State) : s.advance.phase = s.phase := rfl
@[simp] theorem State.jump_phase (s : State) (a : Word) : (s.jump a).phase = s.phase := rfl
@[simp] theorem State.fly_phase (s : State) (l : Nat) (ws : List (Nat × Word)) (fl : BitVec 5)
    (x : Option (BitVec 16)) : (s.fly l ws fl x).phase = s.phase := rfl
@[simp] theorem State.block_phase (s : State) (st : ProcState) (w : Wait) : (s.block st w).phase = s.phase := rfl
@[simp] theorem State.pendDest_phase (s : State) (d : Nat) : (s.pendDest d).phase = s.phase := rfl
@[simp] theorem State.setDie_phase (s : State) (k : Nat) (d : Die) : (s.setDie k d).phase = s.phase := rfl
@[simp] theorem State.modDie_phase (s : State) (k : Nat) (g : Die → Die) : (s.modDie k g).phase = s.phase := rfl
@[simp] theorem State.setPkg_phase (s : State) (k : Nat) (p : Pkg) : (s.setPkg k p).phase = s.phase := rfl
@[simp] theorem State.modPkg_phase (s : State) (k : Nat) (g : Pkg → Pkg) : (s.modPkg k g).phase = s.phase := rfl
@[simp] theorem State.drawn_phase (s : State) : s.drawn.phase = s.phase := rfl
@[simp] theorem State.notIssued_phase (s : State) : s.notIssued.phase = s.phase := rfl
@[simp] theorem State.setCore_free (s : State) (k : Nat) (c : Core) : (s.setCore k c).free = s.free := rfl
@[simp] theorem State.modCore_free (s : State) (k : Nat) (g : Core → Core) : (s.modCore k g).free = s.free := rfl
@[simp] theorem State.setProc_free (s : State) (k pn : Nat) (p : Proc) : (s.setProc k pn p).free = s.free := rfl
@[simp] theorem State.modProc_free (s : State) (k pn : Nat) (g : Proc → Proc) : (s.modProc k pn g).free = s.free := rfl
@[simp] theorem State.modSlot_free (s : State) (k i : Nat) (g : Slot → Slot) : (s.modSlot k i g).free = s.free := rfl
@[simp] theorem State.modMe_free (s : State) (g : Proc → Proc) : (s.modMe g).free = s.free := rfl
@[simp] theorem State.begun_free (s : State) (w : BitVec 2) (u : Use) : (s.begun w u).free = s.free := rfl
@[simp] theorem State.advance_free (s : State) : s.advance.free = s.free := rfl
@[simp] theorem State.jump_free (s : State) (a : Word) : (s.jump a).free = s.free := rfl
@[simp] theorem State.fly_free (s : State) (l : Nat) (ws : List (Nat × Word)) (fl : BitVec 5)
    (x : Option (BitVec 16)) : (s.fly l ws fl x).free = s.free := rfl
@[simp] theorem State.block_free (s : State) (st : ProcState) (w : Wait) : (s.block st w).free = s.free := rfl
@[simp] theorem State.pendDest_free (s : State) (d : Nat) : (s.pendDest d).free = s.free := rfl
@[simp] theorem State.setDie_free (s : State) (k : Nat) (d : Die) : (s.setDie k d).free = s.free := rfl
@[simp] theorem State.modDie_free (s : State) (k : Nat) (g : Die → Die) : (s.modDie k g).free = s.free := rfl
@[simp] theorem State.setPkg_free (s : State) (k : Nat) (p : Pkg) : (s.setPkg k p).free = s.free := rfl
@[simp] theorem State.modPkg_free (s : State) (k : Nat) (g : Pkg → Pkg) : (s.modPkg k g).free = s.free := rfl
@[simp] theorem State.later_free (s : State) (e : Due) : (s.later e).free = s.free := rfl
@[simp] theorem State.notIssued_free (s : State) : s.notIssued.free = s.free := rfl

/-! ### Fields of a core after an update of one part -/

@[simp] theorem Core.setProc_rotPtr (c : Core) (pn : Nat) (p : Proc) : (c.setProc pn p).rotPtr = c.rotPtr := rfl
@[simp] theorem Core.setSlot_rotPtr (c : Core) (i : Nat) (x : Slot) : (c.setSlot i x).rotPtr = c.rotPtr := rfl
@[simp] theorem Core.setProc_slots (c : Core) (pn : Nat) (p : Proc) : (c.setProc pn p).slots = c.slots := rfl
@[simp] theorem Core.setSlot_procs (c : Core) (i : Nat) (x : Slot) : (c.setSlot i x).procs = c.procs := rfl
@[simp] theorem Core.setProc_schedAt (c : Core) (pn : Nat) (p : Proc) : (c.setProc pn p).schedAt = c.schedAt := rfl
@[simp] theorem Core.setSlot_schedAt (c : Core) (i : Nat) (x : Slot) : (c.setSlot i x).schedAt = c.schedAt := rfl
@[simp] theorem Core.setProc_ready (c : Core) (pn : Nat) (p : Proc) : (c.setProc pn p).ready = c.ready := rfl
@[simp] theorem Core.setSlot_ready (c : Core) (i : Nat) (x : Slot) : (c.setSlot i x).ready = c.ready := rfl
@[simp] theorem Core.setProc_flight (c : Core) (pn : Nat) (p : Proc) : (c.setProc pn p).flight = c.flight := rfl
@[simp] theorem Core.setSlot_flight (c : Core) (i : Nat) (x : Slot) : (c.setSlot i x).flight = c.flight := rfl
@[simp] theorem Core.setProc_seq (c : Core) (pn : Nat) (p : Proc) : (c.setProc pn p).seq = c.seq := rfl
@[simp] theorem Core.setSlot_seq (c : Core) (i : Nat) (x : Slot) : (c.setSlot i x).seq = c.seq := rfl
@[simp] theorem Core.setProc_divider (c : Core) (pn : Nat) (p : Proc) : (c.setProc pn p).divider = c.divider := rfl
@[simp] theorem Core.setSlot_divider (c : Core) (i : Nat) (x : Slot) : (c.setSlot i x).divider = c.divider := rfl
@[simp] theorem Core.setProc_layout (c : Core) (pn : Nat) (p : Proc) : (c.setProc pn p).layout = c.layout := rfl
@[simp] theorem Core.setSlot_layout (c : Core) (i : Nat) (x : Slot) : (c.setSlot i x).layout = c.layout := rfl
@[simp] theorem Core.setProc_wdesc (c : Core) (pn : Nat) (p : Proc) : (c.setProc pn p).wdesc = c.wdesc := rfl
@[simp] theorem Core.setSlot_wdesc (c : Core) (i : Nat) (x : Slot) : (c.setSlot i x).wdesc = c.wdesc := rfl
@[simp] theorem Core.setProc_wsetOps (c : Core) (pn : Nat) (p : Proc) : (c.setProc pn p).wsetOps = c.wsetOps := rfl
@[simp] theorem Core.setSlot_wsetOps (c : Core) (i : Nat) (x : Slot) : (c.setSlot i x).wsetOps = c.wsetOps := rfl
@[simp] theorem Core.setProc_starts (c : Core) (pn : Nat) (p : Proc) : (c.setProc pn p).starts = c.starts := rfl
@[simp] theorem Core.setSlot_starts (c : Core) (i : Nat) (x : Slot) : (c.setSlot i x).starts = c.starts := rfl
@[simp] theorem Core.setProc_part (c : Core) (pn : Nat) (p : Proc) : (c.setProc pn p).part = c.part := rfl
@[simp] theorem Core.setSlot_part (c : Core) (i : Nat) (x : Slot) : (c.setSlot i x).part = c.part := rfl
@[simp] theorem Core.setProc_launch (c : Core) (pn : Nat) (p : Proc) : (c.setProc pn p).launch = c.launch := rfl
@[simp] theorem Core.setSlot_launch (c : Core) (i : Nat) (x : Slot) : (c.setSlot i x).launch = c.launch := rfl
@[simp] theorem Core.setProc_lcn (c : Core) (pn : Nat) (p : Proc) : (c.setProc pn p).lcn = c.lcn := rfl
@[simp] theorem Core.setSlot_lcn (c : Core) (i : Nat) (x : Slot) : (c.setSlot i x).lcn = c.lcn := rfl
@[simp] theorem Core.setProc_jseed (c : Core) (pn : Nat) (p : Proc) : (c.setProc pn p).jseed = c.jseed := rfl
@[simp] theorem Core.setSlot_jseed (c : Core) (i : Nat) (x : Slot) : (c.setSlot i x).jseed = c.jseed := rfl
@[simp] theorem Core.setProc_gateJob (c : Core) (pn : Nat) (p : Proc) : (c.setProc pn p).gateJob = c.gateJob := rfl
@[simp] theorem Core.setSlot_gateJob (c : Core) (i : Nat) (x : Slot) : (c.setSlot i x).gateJob = c.gateJob := rfl
@[simp] theorem Core.setProc_gateV (c : Core) (pn : Nat) (p : Proc) : (c.setProc pn p).gateV = c.gateV := rfl
@[simp] theorem Core.setSlot_gateV (c : Core) (i : Nat) (x : Slot) : (c.setSlot i x).gateV = c.gateV := rfl
@[simp] theorem Core.setProc_gated (c : Core) (pn : Nat) (p : Proc) : (c.setProc pn p).gated = c.gated := rfl
@[simp] theorem Core.setSlot_gated (c : Core) (i : Nat) (x : Slot) : (c.setSlot i x).gated = c.gated := rfl
@[simp] theorem Core.setProc_wakeEnd (c : Core) (pn : Nat) (p : Proc) : (c.setProc pn p).wakeEnd = c.wakeEnd := rfl
@[simp] theorem Core.setSlot_wakeEnd (c : Core) (i : Nat) (x : Slot) : (c.setSlot i x).wakeEnd = c.wakeEnd := rfl
@[simp] theorem Core.setProc_endpoints (c : Core) (pn : Nat) (p : Proc) : (c.setProc pn p).endpoints = c.endpoints := rfl
@[simp] theorem Core.setSlot_endpoints (c : Core) (i : Nat) (x : Slot) : (c.setSlot i x).endpoints = c.endpoints := rfl
@[simp] theorem Core.setProc_held (c : Core) (pn : Nat) (p : Proc) : (c.setProc pn p).held = c.held := rfl
@[simp] theorem Core.setSlot_held (c : Core) (i : Nat) (x : Slot) : (c.setSlot i x).held = c.held := rfl
@[simp] theorem Core.setProc_handlers (c : Core) (pn : Nat) (p : Proc) : (c.setProc pn p).handlers = c.handlers := rfl
@[simp] theorem Core.setSlot_handlers (c : Core) (i : Nat) (x : Slot) : (c.setSlot i x).handlers = c.handlers := rfl
@[simp] theorem Core.setProc_normal (c : Core) (pn : Nat) (p : Proc) : (c.setProc pn p).normal = c.normal := rfl
@[simp] theorem Core.setSlot_normal (c : Core) (i : Nat) (x : Slot) : (c.setSlot i x).normal = c.normal := rfl
@[simp] theorem Core.setProc_staging (c : Core) (pn : Nat) (p : Proc) : (c.setProc pn p).staging = c.staging := rfl
@[simp] theorem Core.setSlot_staging (c : Core) (i : Nat) (x : Slot) : (c.setSlot i x).staging = c.staging := rfl
@[simp] theorem Core.setProc_stageTail (c : Core) (pn : Nat) (p : Proc) : (c.setProc pn p).stageTail = c.stageTail := rfl
@[simp] theorem Core.setSlot_stageTail (c : Core) (i : Nat) (x : Slot) : (c.setSlot i x).stageTail = c.stageTail := rfl
@[simp] theorem Core.setProc_divert (c : Core) (pn : Nat) (p : Proc) : (c.setProc pn p).divert = c.divert := rfl
@[simp] theorem Core.setSlot_divert (c : Core) (i : Nat) (x : Slot) : (c.setSlot i x).divert = c.divert := rfl
@[simp] theorem Core.setProc_handler (c : Core) (pn : Nat) (p : Proc) : (c.setProc pn p).handler = c.handler := rfl
@[simp] theorem Core.setSlot_handler (c : Core) (i : Nat) (x : Slot) : (c.setSlot i x).handler = c.handler := rfl
@[simp] theorem Core.setProc_lastStaged (c : Core) (pn : Nat) (p : Proc) : (c.setProc pn p).lastStaged = c.lastStaged := rfl
@[simp] theorem Core.setSlot_lastStaged (c : Core) (i : Nat) (x : Slot) : (c.setSlot i x).lastStaged = c.lastStaged := rfl
@[simp] theorem Core.setProc_owed (c : Core) (pn : Nat) (p : Proc) : (c.setProc pn p).owed = c.owed := rfl
@[simp] theorem Core.setSlot_owed (c : Core) (i : Nat) (x : Slot) : (c.setSlot i x).owed = c.owed := rfl
@[simp] theorem Core.setProc_reqs (c : Core) (pn : Nat) (p : Proc) : (c.setProc pn p).reqs = c.reqs := rfl
@[simp] theorem Core.setSlot_reqs (c : Core) (i : Nat) (x : Slot) : (c.setSlot i x).reqs = c.reqs := rfl
@[simp] theorem Core.setProc_nextTag (c : Core) (pn : Nat) (p : Proc) : (c.setProc pn p).nextTag = c.nextTag := rfl
@[simp] theorem Core.setSlot_nextTag (c : Core) (i : Nat) (x : Slot) : (c.setSlot i x).nextTag = c.nextTag := rfl
@[simp] theorem Core.setProc_hold (c : Core) (pn : Nat) (p : Proc) : (c.setProc pn p).hold = c.hold := rfl
@[simp] theorem Core.setSlot_hold (c : Core) (i : Nat) (x : Slot) : (c.setSlot i x).hold = c.hold := rfl
@[simp] theorem Core.setProc_futures (c : Core) (pn : Nat) (p : Proc) : (c.setProc pn p).futures = c.futures := rfl
@[simp] theorem Core.setSlot_futures (c : Core) (i : Nat) (x : Slot) : (c.setSlot i x).futures = c.futures := rfl
@[simp] theorem Core.setProc_freeOrder (c : Core) (pn : Nat) (p : Proc) : (c.setProc pn p).freeOrder = c.freeOrder := rfl
@[simp] theorem Core.setSlot_freeOrder (c : Core) (i : Nat) (x : Slot) : (c.setSlot i x).freeOrder = c.freeOrder := rfl
@[simp] theorem Core.setProc_waiters (c : Core) (pn : Nat) (p : Proc) : (c.setProc pn p).waiters = c.waiters := rfl
@[simp] theorem Core.setSlot_waiters (c : Core) (i : Nat) (x : Slot) : (c.setSlot i x).waiters = c.waiters := rfl
@[simp] theorem Core.setProc_vecQ (c : Core) (pn : Nat) (p : Proc) : (c.setProc pn p).vecQ = c.vecQ := rfl
@[simp] theorem Core.setSlot_vecQ (c : Core) (i : Nat) (x : Slot) : (c.setSlot i x).vecQ = c.vecQ := rfl
@[simp] theorem Core.setProc_vecA (c : Core) (pn : Nat) (p : Proc) : (c.setProc pn p).vecA = c.vecA := rfl
@[simp] theorem Core.setSlot_vecA (c : Core) (i : Nat) (x : Slot) : (c.setSlot i x).vecA = c.vecA := rfl
@[simp] theorem Core.setProc_vecS (c : Core) (pn : Nat) (p : Proc) : (c.setProc pn p).vecS = c.vecS := rfl
@[simp] theorem Core.setSlot_vecS (c : Core) (i : Nat) (x : Slot) : (c.setSlot i x).vecS = c.vecS := rfl
@[simp] theorem Core.setProc_vecDirty (c : Core) (pn : Nat) (p : Proc) : (c.setProc pn p).vecDirty = c.vecDirty := rfl
@[simp] theorem Core.setSlot_vecDirty (c : Core) (i : Nat) (x : Slot) : (c.setSlot i x).vecDirty = c.vecDirty := rfl
@[simp] theorem Core.setProc_copyQ (c : Core) (pn : Nat) (p : Proc) : (c.setProc pn p).copyQ = c.copyQ := rfl
@[simp] theorem Core.setSlot_copyQ (c : Core) (i : Nat) (x : Slot) : (c.setSlot i x).copyQ = c.copyQ := rfl
@[simp] theorem Core.setProc_copyA (c : Core) (pn : Nat) (p : Proc) : (c.setProc pn p).copyA = c.copyA := rfl
@[simp] theorem Core.setSlot_copyA (c : Core) (i : Nat) (x : Slot) : (c.setSlot i x).copyA = c.copyA := rfl
@[simp] theorem Core.setProc_copyS (c : Core) (pn : Nat) (p : Proc) : (c.setProc pn p).copyS = c.copyS := rfl
@[simp] theorem Core.setSlot_copyS (c : Core) (i : Nat) (x : Slot) : (c.setSlot i x).copyS = c.copyS := rfl
@[simp] theorem Core.setProc_copyDirty (c : Core) (pn : Nat) (p : Proc) : (c.setProc pn p).copyDirty = c.copyDirty := rfl
@[simp] theorem Core.setSlot_copyDirty (c : Core) (i : Nat) (x : Slot) : (c.setSlot i x).copyDirty = c.copyDirty := rfl
@[simp] theorem Core.setProc_copyP (c : Core) (pn : Nat) (p : Proc) : (c.setProc pn p).copyP = c.copyP := rfl
@[simp] theorem Core.setSlot_copyP (c : Core) (i : Nat) (x : Slot) : (c.setSlot i x).copyP = c.copyP := rfl
@[simp] theorem Core.setProc_tasks (c : Core) (pn : Nat) (p : Proc) : (c.setProc pn p).tasks = c.tasks := rfl
@[simp] theorem Core.setSlot_tasks (c : Core) (i : Nat) (x : Slot) : (c.setSlot i x).tasks = c.tasks := rfl
@[simp] theorem Core.setProc_taskSeq (c : Core) (pn : Nat) (p : Proc) : (c.setProc pn p).taskSeq = c.taskSeq := rfl
@[simp] theorem Core.setSlot_taskSeq (c : Core) (i : Nat) (x : Slot) : (c.setSlot i x).taskSeq = c.taskSeq := rfl
@[simp] theorem Core.setProc_counting (c : Core) (pn : Nat) (p : Proc) : (c.setProc pn p).counting = c.counting := rfl
@[simp] theorem Core.setSlot_counting (c : Core) (i : Nat) (x : Slot) : (c.setSlot i x).counting = c.counting := rfl
@[simp] theorem Core.setProc_drainQ (c : Core) (pn : Nat) (p : Proc) : (c.setProc pn p).drainQ = c.drainQ := rfl
@[simp] theorem Core.setSlot_drainQ (c : Core) (i : Nat) (x : Slot) : (c.setSlot i x).drainQ = c.drainQ := rfl
@[simp] theorem Core.setProc_drainEnd (c : Core) (pn : Nat) (p : Proc) : (c.setProc pn p).drainEnd = c.drainEnd := rfl
@[simp] theorem Core.setSlot_drainEnd (c : Core) (i : Nat) (x : Slot) : (c.setSlot i x).drainEnd = c.drainEnd := rfl
@[simp] theorem Core.setProc_drainMark (c : Core) (pn : Nat) (p : Proc) : (c.setProc pn p).drainMark = c.drainMark := rfl
@[simp] theorem Core.setSlot_drainMark (c : Core) (i : Nat) (x : Slot) : (c.setSlot i x).drainMark = c.drainMark := rfl
@[simp] theorem Core.setProc_merges (c : Core) (pn : Nat) (p : Proc) : (c.setProc pn p).merges = c.merges := rfl
@[simp] theorem Core.setSlot_merges (c : Core) (i : Nat) (x : Slot) : (c.setSlot i x).merges = c.merges := rfl
@[simp] theorem Core.setProc_bank0 (c : Core) (pn : Nat) (p : Proc) : (c.setProc pn p).bank0 = c.bank0 := rfl
@[simp] theorem Core.setSlot_bank0 (c : Core) (i : Nat) (x : Slot) : (c.setSlot i x).bank0 = c.bank0 := rfl
@[simp] theorem Core.setProc_bank1 (c : Core) (pn : Nat) (p : Proc) : (c.setProc pn p).bank1 = c.bank1 := rfl
@[simp] theorem Core.setSlot_bank1 (c : Core) (i : Nat) (x : Slot) : (c.setSlot i x).bank1 = c.bank1 := rfl
@[simp] theorem Core.setProc_opslots (c : Core) (pn : Nat) (p : Proc) : (c.setProc pn p).opslots = c.opslots := rfl
@[simp] theorem Core.setSlot_opslots (c : Core) (i : Nat) (x : Slot) : (c.setSlot i x).opslots = c.opslots := rfl
@[simp] theorem Core.setProc_holds (c : Core) (pn : Nat) (p : Proc) : (c.setProc pn p).holds = c.holds := rfl
@[simp] theorem Core.setSlot_holds (c : Core) (i : Nat) (x : Slot) : (c.setSlot i x).holds = c.holds := rfl
@[simp] theorem Core.setProc_holdcyc (c : Core) (pn : Nat) (p : Proc) : (c.setProc pn p).holdcyc = c.holdcyc := rfl
@[simp] theorem Core.setSlot_holdcyc (c : Core) (i : Nat) (x : Slot) : (c.setSlot i x).holdcyc = c.holdcyc := rfl
@[simp] theorem Core.setProc_tlb (c : Core) (pn : Nat) (p : Proc) : (c.setProc pn p).tlb = c.tlb := rfl
@[simp] theorem Core.setSlot_tlb (c : Core) (i : Nat) (x : Slot) : (c.setSlot i x).tlb = c.tlb := rfl
@[simp] theorem Core.setProc_tlbRecent (c : Core) (pn : Nat) (p : Proc) : (c.setProc pn p).tlbRecent = c.tlbRecent := rfl
@[simp] theorem Core.setSlot_tlbRecent (c : Core) (i : Nat) (x : Slot) : (c.setSlot i x).tlbRecent = c.tlbRecent := rfl
@[simp] theorem Core.setProc_frbase (c : Core) (pn : Nat) (p : Proc) : (c.setProc pn p).frbase = c.frbase := rfl
@[simp] theorem Core.setSlot_frbase (c : Core) (i : Nat) (x : Slot) : (c.setSlot i x).frbase = c.frbase := rfl
@[simp] theorem Core.setProc_ringPos (c : Core) (pn : Nat) (p : Proc) : (c.setProc pn p).ringPos = c.ringPos := rfl
@[simp] theorem Core.setSlot_ringPos (c : Core) (i : Nat) (x : Slot) : (c.setSlot i x).ringPos = c.ringPos := rfl
@[simp] theorem Core.setProc_stopped (c : Core) (pn : Nat) (p : Proc) : (c.setProc pn p).stopped = c.stopped := rfl
@[simp] theorem Core.setSlot_stopped (c : Core) (i : Nat) (x : Slot) : (c.setSlot i x).stopped = c.stopped := rfl
@[simp] theorem Core.setProc_lost (c : Core) (pn : Nat) (p : Proc) : (c.setProc pn p).lost = c.lost := rfl
@[simp] theorem Core.setSlot_lost (c : Core) (i : Nat) (x : Slot) : (c.setSlot i x).lost = c.lost := rfl
@[simp] theorem Core.setProc_faultOut (c : Core) (pn : Nat) (p : Proc) : (c.setProc pn p).faultOut = c.faultOut := rfl
@[simp] theorem Core.setSlot_faultOut (c : Core) (i : Nat) (x : Slot) : (c.setSlot i x).faultOut = c.faultOut := rfl

/-! ### Fields of a process after a write of a register or of its tag -/

@[simp] theorem Proc.setReg_state (p : Proc) (n : Nat) (v : Word) : (p.setReg n v).state = p.state := by
  unfold Proc.setReg; split <;> rfl
@[simp] theorem Proc.setPending_state (p : Proc) (n : Nat) (b : Bool) : (p.setPending n b).state = p.state := by
  unfold Proc.setPending; split <;> rfl
@[simp] theorem Proc.setReg_pc (p : Proc) (n : Nat) (v : Word) : (p.setReg n v).pc = p.pc := by
  unfold Proc.setReg; split <;> rfl
@[simp] theorem Proc.setPending_pc (p : Proc) (n : Nat) (b : Bool) : (p.setPending n b).pc = p.pc := by
  unfold Proc.setPending; split <;> rfl
@[simp] theorem Proc.setReg_prio (p : Proc) (n : Nat) (v : Word) : (p.setReg n v).prio = p.prio := by
  unfold Proc.setReg; split <;> rfl
@[simp] theorem Proc.setPending_prio (p : Proc) (n : Nat) (b : Bool) : (p.setPending n b).prio = p.prio := by
  unfold Proc.setPending; split <;> rfl
@[simp] theorem Proc.setReg_prioWas (p : Proc) (n : Nat) (v : Word) : (p.setReg n v).prioWas = p.prioWas := by
  unfold Proc.setReg; split <;> rfl
@[simp] theorem Proc.setPending_prioWas (p : Proc) (n : Nat) (b : Bool) : (p.setPending n b).prioWas = p.prioWas := by
  unfold Proc.setPending; split <;> rfl
@[simp] theorem Proc.setReg_tvec (p : Proc) (n : Nat) (v : Word) : (p.setReg n v).tvec = p.tvec := by
  unfold Proc.setReg; split <;> rfl
@[simp] theorem Proc.setPending_tvec (p : Proc) (n : Nat) (b : Bool) : (p.setPending n b).tvec = p.tvec := by
  unfold Proc.setPending; split <;> rfl
@[simp] theorem Proc.setReg_wsz (p : Proc) (n : Nat) (v : Word) : (p.setReg n v).wsz = p.wsz := by
  unfold Proc.setReg; split <;> rfl
@[simp] theorem Proc.setPending_wsz (p : Proc) (n : Nat) (b : Bool) : (p.setPending n b).wsz = p.wsz := by
  unfold Proc.setPending; split <;> rfl
@[simp] theorem Proc.setReg_fpc (p : Proc) (n : Nat) (v : Word) : (p.setReg n v).fpc = p.fpc := by
  unfold Proc.setReg; split <;> rfl
@[simp] theorem Proc.setPending_fpc (p : Proc) (n : Nat) (b : Bool) : (p.setPending n b).fpc = p.fpc := by
  unfold Proc.setPending; split <;> rfl
@[simp] theorem Proc.setReg_cause (p : Proc) (n : Nat) (v : Word) : (p.setReg n v).cause = p.cause := by
  unfold Proc.setReg; split <;> rfl
@[simp] theorem Proc.setPending_cause (p : Proc) (n : Nat) (b : Bool) : (p.setPending n b).cause = p.cause := by
  unfold Proc.setPending; split <;> rfl
@[simp] theorem Proc.setReg_faddr (p : Proc) (n : Nat) (v : Word) : (p.setReg n v).faddr = p.faddr := by
  unfold Proc.setReg; split <;> rfl
@[simp] theorem Proc.setPending_faddr (p : Proc) (n : Nat) (b : Bool) : (p.setPending n b).faddr = p.faddr := by
  unfold Proc.setPending; split <;> rfl
@[simp] theorem Proc.setReg_finst (p : Proc) (n : Nat) (v : Word) : (p.setReg n v).finst = p.finst := by
  unfold Proc.setReg; split <;> rfl
@[simp] theorem Proc.setPending_finst (p : Proc) (n : Nat) (b : Bool) : (p.setPending n b).finst = p.finst := by
  unfold Proc.setPending; split <;> rfl
@[simp] theorem Proc.setReg_xi (p : Proc) (n : Nat) (v : Word) : (p.setReg n v).xi = p.xi := by
  unfold Proc.setReg; split <;> rfl
@[simp] theorem Proc.setPending_xi (p : Proc) (n : Nat) (b : Bool) : (p.setPending n b).xi = p.xi := by
  unfold Proc.setPending; split <;> rfl
@[simp] theorem Proc.setReg_fctl (p : Proc) (n : Nat) (v : Word) : (p.setReg n v).fctl = p.fctl := by
  unfold Proc.setReg; split <;> rfl
@[simp] theorem Proc.setPending_fctl (p : Proc) (n : Nat) (b : Bool) : (p.setPending n b).fctl = p.fctl := by
  unfold Proc.setPending; split <;> rfl
@[simp] theorem Proc.setReg_vstat (p : Proc) (n : Nat) (v : Word) : (p.setReg n v).vstat = p.vstat := by
  unfold Proc.setReg; split <;> rfl
@[simp] theorem Proc.setPending_vstat (p : Proc) (n : Nat) (b : Bool) : (p.setPending n b).vstat = p.vstat := by
  unfold Proc.setPending; split <;> rfl
@[simp] theorem Proc.setReg_schk (p : Proc) (n : Nat) (v : Word) : (p.setReg n v).schk = p.schk := by
  unfold Proc.setReg; split <;> rfl
@[simp] theorem Proc.setPending_schk (p : Proc) (n : Nat) (b : Bool) : (p.setPending n b).schk = p.schk := by
  unfold Proc.setPending; split <;> rfl
@[simp] theorem Proc.setReg_srctr (p : Proc) (n : Nat) (v : Word) : (p.setReg n v).srctr = p.srctr := by
  unfold Proc.setReg; split <;> rfl
@[simp] theorem Proc.setPending_srctr (p : Proc) (n : Nat) (b : Bool) : (p.setPending n b).srctr = p.srctr := by
  unfold Proc.setPending; split <;> rfl
@[simp] theorem Proc.setReg_repDone (p : Proc) (n : Nat) (v : Word) : (p.setReg n v).repDone = p.repDone := by
  unfold Proc.setReg; split <;> rfl
@[simp] theorem Proc.setPending_repDone (p : Proc) (n : Nat) (b : Bool) : (p.setPending n b).repDone = p.repDone := by
  unfold Proc.setPending; split <;> rfl
@[simp] theorem Proc.setReg_repRemain (p : Proc) (n : Nat) (v : Word) : (p.setReg n v).repRemain = p.repRemain := by
  unfold Proc.setReg; split <;> rfl
@[simp] theorem Proc.setPending_repRemain (p : Proc) (n : Nat) (b : Bool) : (p.setPending n b).repRemain = p.repRemain := by
  unfold Proc.setPending; split <;> rfl
@[simp] theorem Proc.setReg_wait (p : Proc) (n : Nat) (v : Word) : (p.setReg n v).wait = p.wait := by
  unfold Proc.setReg; split <;> rfl
@[simp] theorem Proc.setPending_wait (p : Proc) (n : Nat) (b : Bool) : (p.setPending n b).wait = p.wait := by
  unfold Proc.setPending; split <;> rfl
@[simp] theorem Proc.setReg_waitSince (p : Proc) (n : Nat) (v : Word) : (p.setReg n v).waitSince = p.waitSince := by
  unfold Proc.setReg; split <;> rfl
@[simp] theorem Proc.setPending_waitSince (p : Proc) (n : Nat) (b : Bool) : (p.setPending n b).waitSince = p.waitSince := by
  unfold Proc.setPending; split <;> rfl
@[simp] theorem Proc.setReg_wbase (p : Proc) (n : Nat) (v : Word) : (p.setReg n v).wbase = p.wbase := by
  unfold Proc.setReg; split <;> rfl
@[simp] theorem Proc.setPending_wbase (p : Proc) (n : Nat) (b : Bool) : (p.setPending n b).wbase = p.wbase := by
  unfold Proc.setPending; split <;> rfl
@[simp] theorem Proc.setReg_depth (p : Proc) (n : Nat) (v : Word) : (p.setReg n v).depth = p.depth := by
  unfold Proc.setReg; split <;> rfl
@[simp] theorem Proc.setPending_depth (p : Proc) (n : Nat) (b : Bool) : (p.setPending n b).depth = p.depth := by
  unfold Proc.setPending; split <;> rfl
@[simp] theorem Proc.setReg_depmax (p : Proc) (n : Nat) (v : Word) : (p.setReg n v).depmax = p.depmax := by
  unfold Proc.setReg; split <;> rfl
@[simp] theorem Proc.setPending_depmax (p : Proc) (n : Nat) (b : Bool) : (p.setPending n b).depmax = p.depmax := by
  unfold Proc.setPending; split <;> rfl
@[simp] theorem Proc.setReg_rot (p : Proc) (n : Nat) (v : Word) : (p.setReg n v).rot = p.rot := by
  unfold Proc.setReg; split <;> rfl
@[simp] theorem Proc.setPending_rot (p : Proc) (n : Nat) (b : Bool) : (p.setPending n b).rot = p.rot := by
  unfold Proc.setPending; split <;> rfl
@[simp] theorem Proc.setPending_regs (p : Proc) (n : Nat) (b : Bool) : (p.setPending n b).regs = p.regs := by
  unfold Proc.setPending; split <;> rfl
@[simp] theorem Proc.setReg_pend (p : Proc) (n : Nat) (v : Word) : (p.setReg n v).pend = p.pend := by
  unfold Proc.setReg; split <;> rfl
@[simp] theorem Proc.setReg_earliest (p : Proc) (n : Nat) (v : Word) : (p.setReg n v).earliest = p.earliest := by
  unfold Proc.setReg; split <;> rfl
@[simp] theorem Proc.setPending_earliest (p : Proc) (n : Nat) (b : Bool) : (p.setPending n b).earliest = p.earliest := by
  unfold Proc.setPending; split <;> rfl
@[simp] theorem Proc.setReg_inRep (p : Proc) (n : Nat) (v : Word) : (p.setReg n v).inRep = p.inRep := by
  unfold Proc.setReg; split <;> rfl
@[simp] theorem Proc.setPending_inRep (p : Proc) (n : Nat) (b : Bool) : (p.setPending n b).inRep = p.inRep := by
  unfold Proc.setPending; split <;> rfl
@[simp] theorem Proc.setReg_held (p : Proc) (n : Nat) (v : Word) : (p.setReg n v).held = p.held := by
  unfold Proc.setReg; split <;> rfl
@[simp] theorem Proc.setPending_held (p : Proc) (n : Nat) (b : Bool) : (p.setPending n b).held = p.held := by
  unfold Proc.setPending; split <;> rfl
@[simp] theorem Proc.setReg_tagSince (p : Proc) (n : Nat) (v : Word) : (p.setReg n v).tagSince = p.tagSince := by
  unfold Proc.setReg; split <;> rfl
@[simp] theorem Proc.setPending_tagSince (p : Proc) (n : Nat) (b : Bool) : (p.setPending n b).tagSince = p.tagSince := by
  unfold Proc.setPending; split <;> rfl
@[simp] theorem Proc.setReg_tagRegs (p : Proc) (n : Nat) (v : Word) : (p.setReg n v).tagRegs = p.tagRegs := by
  unfold Proc.setReg; split <;> rfl
@[simp] theorem Proc.setPending_tagRegs (p : Proc) (n : Nat) (b : Bool) : (p.setPending n b).tagRegs = p.tagRegs := by
  unfold Proc.setPending; split <;> rfl
@[simp] theorem Proc.setReg_altSet (p : Proc) (n : Nat) (v : Word) : (p.setReg n v).altSet = p.altSet := by
  unfold Proc.setReg; split <;> rfl
@[simp] theorem Proc.setPending_altSet (p : Proc) (n : Nat) (b : Bool) : (p.setPending n b).altSet = p.altSet := by
  unfold Proc.setPending; split <;> rfl
@[simp] theorem Proc.setReg_iter (p : Proc) (n : Nat) (v : Word) : (p.setReg n v).iter = p.iter := by
  unfold Proc.setReg; split <;> rfl
@[simp] theorem Proc.setPending_iter (p : Proc) (n : Nat) (b : Bool) : (p.setPending n b).iter = p.iter := by
  unfold Proc.setPending; split <;> rfl
@[simp] theorem Proc.setReg_pastNests (p : Proc) (n : Nat) (v : Word) : (p.setReg n v).pastNests = p.pastNests := by
  unfold Proc.setReg; split <;> rfl
@[simp] theorem Proc.setPending_pastNests (p : Proc) (n : Nat) (b : Bool) : (p.setPending n b).pastNests = p.pastNests := by
  unfold Proc.setPending; split <;> rfl
@[simp] theorem Proc.setReg_bidx (p : Proc) (n : Nat) (v : Word) : (p.setReg n v).bidx = p.bidx := by
  unfold Proc.setReg; split <;> rfl
@[simp] theorem Proc.setPending_bidx (p : Proc) (n : Nat) (b : Bool) : (p.setPending n b).bidx = p.bidx := by
  unfold Proc.setPending; split <;> rfl
@[simp] theorem Proc.setReg_asyncTrap (p : Proc) (n : Nat) (v : Word) : (p.setReg n v).asyncTrap = p.asyncTrap := by
  unfold Proc.setReg; split <;> rfl
@[simp] theorem Proc.setPending_asyncTrap (p : Proc) (n : Nat) (b : Bool) : (p.setPending n b).asyncTrap = p.asyncTrap := by
  unfold Proc.setPending; split <;> rfl
@[simp] theorem Proc.setReg_lateTrap (p : Proc) (n : Nat) (v : Word) : (p.setReg n v).lateTrap = p.lateTrap := by
  unfold Proc.setReg; split <;> rfl
@[simp] theorem Proc.setPending_lateTrap (p : Proc) (n : Nat) (b : Bool) : (p.setPending n b).lateTrap = p.lateTrap := by
  unfold Proc.setPending; split <;> rfl
@[simp] theorem Proc.setReg_carried (p : Proc) (n : Nat) (v : Word) : (p.setReg n v).carried = p.carried := by
  unfold Proc.setReg; split <;> rfl
@[simp] theorem Proc.setPending_carried (p : Proc) (n : Nat) (b : Bool) : (p.setPending n b).carried = p.carried := by
  unfold Proc.setPending; split <;> rfl
@[simp] theorem Proc.setReg_observed (p : Proc) (n : Nat) (v : Word) : (p.setReg n v).observed = p.observed := by
  unfold Proc.setReg; split <;> rfl
@[simp] theorem Proc.setPending_observed (p : Proc) (n : Nat) (b : Bool) : (p.setPending n b).observed = p.observed := by
  unfold Proc.setPending; split <;> rfl
@[simp] theorem Proc.setReg_regObs (p : Proc) (n : Nat) (v : Word) : (p.setReg n v).regObs = p.regObs := by
  unfold Proc.setReg; split <;> rfl
@[simp] theorem Proc.setPending_regObs (p : Proc) (n : Nat) (b : Bool) : (p.setPending n b).regObs = p.regObs := by
  unfold Proc.setPending; split <;> rfl
@[simp] theorem Proc.setReg_seen (p : Proc) (n : Nat) (v : Word) : (p.setReg n v).seen = p.seen := by
  unfold Proc.setReg; split <;> rfl
@[simp] theorem Proc.setPending_seen (p : Proc) (n : Nat) (b : Bool) : (p.setPending n b).seen = p.seen := by
  unfold Proc.setPending; split <;> rfl
@[simp] theorem Proc.setReg_fenced (p : Proc) (n : Nat) (v : Word) : (p.setReg n v).fenced = p.fenced := by
  unfold Proc.setReg; split <;> rfl
@[simp] theorem Proc.setPending_fenced (p : Proc) (n : Nat) (b : Bool) : (p.setPending n b).fenced = p.fenced := by
  unfold Proc.setPending; split <;> rfl
@[simp] theorem Proc.setReg_fencedDie (p : Proc) (n : Nat) (v : Word) : (p.setReg n v).fencedDie = p.fencedDie := by
  unfold Proc.setReg; split <;> rfl
@[simp] theorem Proc.setPending_fencedDie (p : Proc) (n : Nat) (b : Bool) : (p.setPending n b).fencedDie = p.fencedDie := by
  unfold Proc.setPending; split <;> rfl
@[simp] theorem Proc.setReg_bpc (p : Proc) (n : Nat) (v : Word) : (p.setReg n v).bpc = p.bpc := by
  unfold Proc.setReg; split <;> rfl
@[simp] theorem Proc.setPending_bpc (p : Proc) (n : Nat) (b : Bool) : (p.setPending n b).bpc = p.bpc := by
  unfold Proc.setPending; split <;> rfl
@[simp] theorem Proc.setReg_binst (p : Proc) (n : Nat) (v : Word) : (p.setReg n v).binst = p.binst := by
  unfold Proc.setReg; split <;> rfl
@[simp] theorem Proc.setPending_binst (p : Proc) (n : Nat) (b : Bool) : (p.setPending n b).binst = p.binst := by
  unfold Proc.setPending; split <;> rfl
@[simp] theorem Proc.setReg_bDone (p : Proc) (n : Nat) (v : Word) : (p.setReg n v).bDone = p.bDone := by
  unfold Proc.setReg; split <;> rfl
@[simp] theorem Proc.setPending_bDone (p : Proc) (n : Nat) (b : Bool) : (p.setPending n b).bDone = p.bDone := by
  unfold Proc.setPending; split <;> rfl
@[simp] theorem Proc.setReg_bRemain (p : Proc) (n : Nat) (v : Word) : (p.setReg n v).bRemain = p.bRemain := by
  unfold Proc.setReg; split <;> rfl
@[simp] theorem Proc.setPending_bRemain (p : Proc) (n : Nat) (b : Bool) : (p.setPending n b).bRemain = p.bRemain := by
  unfold Proc.setPending; split <;> rfl
@[simp] theorem Proc.setReg_probeAt (p : Proc) (n : Nat) (v : Word) : (p.setReg n v).probeAt = p.probeAt := by
  unfold Proc.setReg; split <;> rfl
@[simp] theorem Proc.setPending_probeAt (p : Proc) (n : Nat) (b : Bool) : (p.setPending n b).probeAt = p.probeAt := by
  unfold Proc.setPending; split <;> rfl
@[simp] theorem Proc.setReg_reported (p : Proc) (n : Nat) (v : Word) : (p.setReg n v).reported = p.reported := by
  unfold Proc.setReg; split <;> rfl
@[simp] theorem Proc.setPending_reported (p : Proc) (n : Nat) (b : Bool) : (p.setPending n b).reported = p.reported := by
  unfold Proc.setPending; split <;> rfl
@[simp] theorem Proc.setReg_closeReason (p : Proc) (n : Nat) (v : Word) : (p.setReg n v).closeReason = p.closeReason := by
  unfold Proc.setReg; split <;> rfl
@[simp] theorem Proc.setPending_closeReason (p : Proc) (n : Nat) (b : Bool) : (p.setPending n b).closeReason = p.closeReason := by
  unfold Proc.setPending; split <;> rfl

/-! ### Reading a part back -/

@[simp] theorem State.core_setCore (s : State) (k : Nat) (c : Core) : (s.setCore k c).core k = c := by
  simp [State.core, State.setCore]
theorem State.core_setCore_ne (s : State) {j k : Nat} (c : Core) (h : j ≠ k) : (s.setCore k c).core j = s.core j := by
  simp [State.core, State.setCore, h]
@[simp] theorem State.core_modCore (s : State) (k : Nat) (g : Core → Core) : (s.modCore k g).core k = g (s.core k) := by
  simp [State.modCore]
theorem State.core_modCore_ne (s : State) {j k : Nat} (g : Core → Core) (h : j ≠ k) : (s.modCore k g).core j = s.core j := by
  simp [State.modCore, State.core_setCore_ne, h]
@[simp] theorem State.die_setDie (s : State) (k : Nat) (d : Die) : (s.setDie k d).die k = d := by
  simp [State.die, State.setDie]
theorem State.die_setDie_ne (s : State) {j k : Nat} (d : Die) (h : j ≠ k) : (s.setDie k d).die j = s.die j := by
  simp [State.die, State.setDie, h]
@[simp] theorem State.die_modDie (s : State) (k : Nat) (g : Die → Die) : (s.modDie k g).die k = g (s.die k) := by
  simp [State.modDie]
@[simp] theorem State.pkg_setPkg (s : State) (k : Nat) (p : Pkg) : (s.setPkg k p).pkg k = p := by
  simp [State.pkg, State.setPkg]
theorem State.pkg_setPkg_ne (s : State) {j k : Nat} (p : Pkg) (h : j ≠ k) : (s.setPkg k p).pkg j = s.pkg j := by
  simp [State.pkg, State.setPkg, h]
@[simp] theorem State.pkg_modPkg (s : State) (k : Nat) (g : Pkg → Pkg) : (s.modPkg k g).pkg k = g (s.pkg k) := by
  simp [State.modPkg]
@[simp] theorem State.core_setDie (s : State) (k j : Nat) (d : Die) : (s.setDie k d).core j = s.core j := rfl
@[simp] theorem State.core_modDie (s : State) (k j : Nat) (g : Die → Die) : (s.modDie k g).core j = s.core j := rfl
@[simp] theorem State.core_setPkg (s : State) (k j : Nat) (p : Pkg) : (s.setPkg k p).core j = s.core j := rfl
@[simp] theorem State.core_modPkg (s : State) (k j : Nat) (g : Pkg → Pkg) : (s.modPkg k g).core j = s.core j := rfl
@[simp] theorem State.die_setCore (s : State) (k j : Nat) (c : Core) : (s.setCore k c).die j = s.die j := rfl
@[simp] theorem State.die_modCore (s : State) (k j : Nat) (g : Core → Core) : (s.modCore k g).die j = s.die j := rfl
@[simp] theorem State.pkg_setCore (s : State) (k j : Nat) (c : Core) : (s.setCore k c).pkg j = s.pkg j := rfl
@[simp] theorem State.pkg_modCore (s : State) (k j : Nat) (g : Core → Core) : (s.modCore k g).pkg j = s.pkg j := rfl
@[simp] theorem State.core_later (s : State) (e : Due) (j : Nat) : (s.later e).core j = s.core j := rfl
@[simp] theorem State.core_drawn (s : State) (j : Nat) : s.drawn.core j = s.core j := rfl

@[simp] theorem Core.proc_setProc (c : Core) (pn : Nat) (p : Proc) : (c.setProc pn p).proc pn = p := by
  simp [Core.proc, Core.setProc]
theorem Core.proc_setProc_ne (c : Core) {j pn : Nat} (p : Proc) (h : j ≠ pn) : (c.setProc pn p).proc j = c.proc j := by
  simp [Core.proc, Core.setProc, h]
@[simp] theorem Core.proc_setSlot (c : Core) (i j : Nat) (x : Slot) : (c.setSlot i x).proc j = c.proc j := rfl
@[simp] theorem State.proc_modProc (s : State) (k pn : Nat) (g : Proc → Proc) :
    (s.modProc k pn g).proc k pn = g (s.proc k pn) := by
  simp [State.modProc, State.setProc, State.proc]
@[simp] theorem State.core_modProc (s : State) (k pn : Nat) (g : Proc → Proc) :
    (s.modProc k pn g).core k = (s.core k).setProc pn (g (s.proc k pn)) := by
  simp [State.modProc, State.setProc]
theorem State.core_modProc_ne (s : State) {j k : Nat} (pn : Nat) (g : Proc → Proc) (h : j ≠ k) :
    (s.modProc k pn g).core j = s.core j := by
  simp [State.modProc, State.setProc, State.core_modCore_ne, h]

/-! ### Updates of one part after another -/

@[simp] theorem State.setCore_setCore (s : State) (k : Nat) (a b : Core) : (s.setCore k a).setCore k b = s.setCore k b := by
  simp [State.setCore]
@[simp] theorem State.modCore_modCore (s : State) (k : Nat) (f g : Core → Core) :
    (s.modCore k f).modCore k g = s.modCore k (fun c => g (f c)) := by
  simp [State.modCore]
@[simp] theorem Core.setProc_setProc (c : Core) (pn : Nat) (p q : Proc) : (c.setProc pn p).setProc pn q = c.setProc pn q := by
  simp [Core.setProc]
@[simp] theorem State.modProc_modProc (s : State) (k pn : Nat) (f g : Proc → Proc) :
    (s.modProc k pn f).modProc k pn g = s.modProc k pn (fun p => g (f p)) := by
  simp [State.modProc, State.setProc, State.proc]

/-! ### Registers (R12, R13) -/

@[simp] theorem Proc.reg_zero (p : Proc) : p.reg 0 = 0 := rfl
@[simp] theorem Proc.setReg_zero (p : Proc) (v : Word) : p.setReg 0 v = p := rfl
@[simp] theorem Proc.setPending_zero (p : Proc) (b : Bool) : p.setPending 0 b = p := rfl
@[simp] theorem Proc.isPending_zero (p : Proc) : p.isPending 0 = false := rfl
@[simp] theorem Proc.reg_setPending (p : Proc) (n m : Nat) (b : Bool) : (p.setPending n b).reg m = p.reg m := by
  simp [Proc.reg]
theorem Proc.reg_setReg (p : Proc) {n : Nat} (v : Word) (h0 : n ≠ 0) (h : n < p.regs.length) : (p.setReg n v).reg n = v := by
  simp [Proc.reg, Proc.setReg, h0, h]
theorem Proc.reg_setReg_ne (p : Proc) {n m : Nat} (v : Word) (h : m ≠ n) : (p.setReg n v).reg m = p.reg m := by
  unfold Proc.setReg; split
  · rfl
  · simp [Proc.reg, List.getD_eq_getElem?_getD, List.getElem?_set_ne (Ne.symm h)]

end Sys2Proof.Machine
end

