-- ==== Sys2Proof/Laws/Issue.lean ====
section
/-! SUPPORT. What issuing an instruction that is clear to issue does: one lemma for each shape of completion. -/

namespace Sys2Proof.Machine

@[simp] theorem State.g_eq (s : State) (n : Nat) : s.g n = s.me.reg n := rfl

/-- A clear instruction issues: its stall count is noted, and its body runs. -/
theorem State.issue_clear {s : State} {u : Use} (h : s.clear u = true) (w : BitVec 2) (body : State → State) :
    s.issue w u body = .next (body (s.begun w u)) := by
  simp only [State.clear, Bool.and_eq_true, Bool.not_eq_true', beq_iff_eq, Option.isNone_iff_eq_none] at h
  obtain ⟨⟨⟨⟨⟨⟨h1, h2⟩, h3⟩, h4⟩, h5⟩, h6⟩, h7⟩ := h
  unfold State.issue
  simp only [h1, h2, h3, h4, h5, h6, bne_self_eq_false, Bool.false_eq_true, ↓reduceIte, Bool.not_true, Bool.or_self]
  cases hs : s.me.schk with
  | false => simp
  | true =>
    simp only [hs, Bool.not_true, Bool.false_or, Option.isNone_iff_eq_none] at h7
    simp [h7]

/-- The issuing process after the begin of an issue. -/
theorem State.me_begun (s : State) (w : BitVec 2) (u : Use) :
    (s.begun w u).me = { s.me.observeRegs u.reads with earliest := s.ticks + stallGap w, tagSince := none } := by
  simp [State.begun, State.modMe, State.me]

@[simp] theorem Proc.moved_refl (p : Proc) : p.moved p := rfl

theorem Proc.observeRegs_moved (p : Proc) (rs : List Nat) : p.moved (p.observeRegs rs) := by
  unfold Proc.observeRegs; split <;> rfl

theorem Core.onlyProc_setProc (c : Core) (pn : Nat) (p : Proc) : c.onlyProc (c.setProc pn p) pn :=
  ⟨fun _ h => Core.proc_setProc_ne c p h, rfl⟩

theorem State.onlyCore_setCore (s : State) (k : Nat) (c : Core) : s.onlyCore (s.setCore k c) k :=
  ⟨fun _ h => State.core_setCore_ne s c h, rfl⟩

theorem State.onlyCore_modCore (s : State) (k : Nat) (g : Core → Core) : s.onlyCore (s.modCore k g) k :=
  State.onlyCore_setCore s k _

theorem State.onlyCore_trans {s t u : State} {k : Nat} (h : s.onlyCore t k) (h' : t.onlyCore u k) : s.onlyCore u k := by
  refine ⟨fun j hj => (h'.1 j hj).trans (h.1 j hj), ?_⟩
  have e := h'.2
  have d := h.2
  rw [← e] at d
  simpa using d

/-! ### The next PC (R24, R25) -/

/-- Repeats still to issue, after fields of other kinds change. -/
theorem Proc.remain_congr {p q : Proc} (h : p.repRemain = q.repRemain) : p.remain = q.remain := by
  simp [Proc.remain, h]

/-- The step of the PC is R24's, whatever else the process record holds. -/
theorem Proc.stepPc_pc (s : State) (p : Proc) (h : p.repRemain = s.me.repRemain) :
    (p.stepPc s.ctx.pc s.ctx.rep.isSome).pc = s.nextPc := by
  have hr := Proc.remain_congr h
  unfold Proc.stepPc State.nextPc
  split_ifs <;> simp_all

theorem Proc.stepPc_moved (p q : Proc) (pc : Word) (rep : Bool) (h : p.moved q) : p.moved (q.stepPc pc rep) := by
  unfold Proc.stepPc Proc.moved at *
  split_ifs <;> simpa using h

@[simp] theorem Proc.stepPc_earliest (p : Proc) (pc : Word) (rep : Bool) : (p.stepPc pc rep).earliest = p.earliest := by
  unfold Proc.stepPc; split_ifs <;> rfl
@[simp] theorem Proc.stepPc_pend (p : Proc) (pc : Word) (rep : Bool) : (p.stepPc pc rep).pend = p.pend := by
  unfold Proc.stepPc; split_ifs <;> rfl
@[simp] theorem Proc.observeRegs_repRemain (p : Proc) (rs : List Nat) : (p.observeRegs rs).repRemain = p.repRemain := by
  unfold Proc.observeRegs; split <;> rfl
@[simp] theorem Proc.observeRegs_pend (p : Proc) (rs : List Nat) : (p.observeRegs rs).pend = p.pend := by
  unfold Proc.observeRegs; split <;> rfl

/-- What is left of a process when an instruction begins. -/
theorem Proc.begun_moved (p : Proc) (rs : List Nat) (n : Nat) :
    p.moved { p.observeRegs rs with earliest := n, tagSince := none } := by
  unfold Proc.observeRegs Proc.moved; split <;> rfl

/-! ### Shapes of completion -/

/-- The process after a fixed-latency instruction. -/
def State.steppedProc (s : State) (w : BitVec 2) (u : Use) : Proc :=
  ({ s.me.observeRegs u.reads with earliest := s.ticks + stallGap w, tagSince := none } : Proc).stepPc s.ctx.pc
    s.ctx.rep.isSome

theorem State.steppedProc_pc (s : State) (w : BitVec 2) (u : Use) : (s.steppedProc w u).pc = s.nextPc :=
  Proc.stepPc_pc s _ (by simp)
theorem State.steppedProc_earliest (s : State) (w : BitVec 2) (u : Use) :
    (s.steppedProc w u).earliest = s.ticks + stallGap w := by simp [State.steppedProc]
theorem State.steppedProc_moved (s : State) (w : BitVec 2) (u : Use) : s.me.moved (s.steppedProc w u) :=
  Proc.stepPc_moved _ _ _ _ (Proc.begun_moved _ _ _)

/-- A state whose issuing core is another. -/
def State.withCore (s : State) (c : Core) : State := s.setCore s.ctx.core c

@[simp] theorem State.me_withCore (s : State) (c : Core) : (s.withCore c).me = c.proc s.ctx.pn := by
  simp [State.withCore, State.me, State.proc]

/-- The state after a result enters flight and the PC moves on. -/
theorem State.fly_advance (s : State) (w : BitVec 2) (u : Use) (l : Nat) (ws : List (Nat × Word)) (fl : BitVec 5)
    (xi : Option (BitVec 16)) :
    ((s.begun w u).fly l ws fl xi).advance = s.withCore { (s.core s.ctx.core).setProc s.ctx.pn (s.steppedProc w u) with
      flight := (s.core s.ctx.core).flight ++ [{
        pn := s.ctx.pn, writes := ws.filter (fun e => e.1 != 0), xi := xi, flags := fl, due := s.ticks + l
        seq := (s.core s.ctx.core).seq }]
      seq := (s.core s.ctx.core).seq + 1 } := by
  simp [State.begun, State.fly, State.advance, State.modMe, State.modProc, State.setProc, State.withCore,
    State.proc, Core.setProc, Core.proc, State.steppedProc, State.modCore, State.me]

theorem State.flies_of {s : State} {i : Instr} {w : BitVec 2} {u : Use} {l : Nat} {ws : List (Nat × Word)}
    {fl : BitVec 5} {xi : Option (BitVec 16)} (h : exec i s = .next ((s.begun w u).fly l ws fl xi).advance) :
    s.flies i w l ws fl xi := by
  rw [State.fly_advance] at h
  refine ⟨_, h, ?_, ?_, ?_, ?_, ?_, ?_, ?_⟩
  · simp [State.withCore]
  · simp [State.withCore]
  · simpa [Core.setProc, Core.proc] using State.steppedProc_pc s w u
  · simpa [Core.setProc, Core.proc] using State.steppedProc_earliest s w u
  · simpa [Core.setProc, Core.proc] using State.steppedProc_moved s w u
  · refine ⟨fun n hn => ?_, ?_⟩
    · simp [State.withCore, Core.setProc, Core.proc, hn]
    · simp [State.withCore, Core.setProc]
  · exact State.onlyCore_setCore _ _ _

/-! ### Pending results -/

/-- Tags set for destinations, after an update of the issuing process. -/
theorem State.foldl_pendDest (s : State) (ws : List (Nat × Word)) (g : Proc → Proc) :
    ws.foldl (fun t e => t.pendDest e.1) (s.modMe g)
      = s.modMe (fun p => ws.foldl (fun q e => q.setPending e.1 true) (g p)) := by
  induction ws generalizing g with
  | nil => rfl
  | cons e ws ih =>
    have h : (s.modMe g).pendDest e.1 = s.modMe (fun p => (g p).setPending e.1 true) := by
      simp [State.pendDest, State.modMe]
    simp only [List.foldl_cons, h, ih]

@[simp] theorem Proc.setPending_length (p : Proc) (n : Nat) (b : Bool) : (p.setPending n b).pend.length = p.pend.length := by
  unfold Proc.setPending; split <;> simp

theorem Proc.isPending_setPending (p : Proc) (d n : Nat) (h : n < p.pend.length) :
    (p.setPending d true).isPending n = (p.isPending n || (n != 0 && n == d)) := by
  unfold Proc.isPending Proc.setPending
  by_cases hd : d = 0
  · subst hd; by_cases hn : n = 0 <;> simp [hn]
  · by_cases hn : n = d
    · subst hn; simp [hd, h]
    · have : ¬ d = n := fun e => hn e.symm
      simp [hd, hn, List.getD_eq_getElem?_getD, List.getElem?_set_ne this]

theorem Proc.foldl_setPending_length (p : Proc) (ws : List (Nat × Word)) :
    (ws.foldl (fun q e => q.setPending e.1 true) p).pend.length = p.pend.length := by
  induction ws generalizing p with
  | nil => rfl
  | cons e ws ih => simp [ih]

theorem Proc.isPending_foldl (p : Proc) (ws : List (Nat × Word)) (n : Nat) (h : n < p.pend.length) :
    (ws.foldl (fun q e => q.setPending e.1 true) p).isPending n
      = (p.isPending n || (n != 0 && ws.any (fun e => e.1 == n))) := by
  induction ws generalizing p with
  | nil => simp
  | cons e ws ih =>
    rw [List.foldl_cons, ih _ (by simpa using h), Proc.isPending_setPending _ _ _ h]
    have hc : (n == e.1) = (e.1 == n) := Bool.beq_comm
    rw [List.any_cons, hc]
    cases p.isPending n <;> cases (n != 0) <;> cases (e.1 == n) <;> simp

theorem Proc.foldl_setPending_eq (p : Proc) (ws : List (Nat × Word)) :
    ws.foldl (fun q e => q.setPending e.1 true) p
      = { p with pend := (ws.foldl (fun q e => q.setPending e.1 true) p).pend } := by
  induction ws generalizing p with
  | nil => rfl
  | cons e ws ih =>
    rw [List.foldl_cons, ih]
    unfold Proc.setPending
    split <;> simp

/-- The process after an instruction with pending results, its next PC given. -/
def State.pendedProc (s : State) (w : BitVec 2) (u : Use) (ws : List (Nat × Word)) : Proc :=
  ws.foldl (fun q e => q.setPending e.1 true)
    { s.me.observeRegs u.reads with earliest := s.ticks + stallGap w, tagSince := none }

theorem State.pendedProc_eq (s : State) (w : BitVec 2) (u : Use) (ws : List (Nat × Word)) :
    s.pendedProc w u ws = { ({ s.me.observeRegs u.reads with earliest := s.ticks + stallGap w, tagSince := none } : Proc) with
      pend := (s.pendedProc w u ws).pend } := Proc.foldl_setPending_eq _ _

theorem State.pendedProc_pending (s : State) (w : BitVec 2) (u : Use) (ws : List (Nat × Word)) (n : Nat)
    (h : n < s.me.pend.length) :
    (s.pendedProc w u ws).isPending n = (s.me.isPending n || (n != 0 && ws.any (fun e => e.1 == n))) := by
  rw [State.pendedProc, Proc.isPending_foldl _ _ _ (by simpa using h)]
  simp [Proc.isPending]

theorem Proc.isPending_congr {p q : Proc} (h : p.pend = q.pend) (n : Nat) : p.isPending n = q.isPending n := by
  simp [Proc.isPending, h]

theorem Proc.movedPending_of {p q r x : Proc} {l : List Bool} (h : p.moved q) (e : x = { q with pend := l })
    (m : x.moved r) : p.movedPending r := by
  have h1 := congrArg (fun z : Proc => { z with
    pend := p.pend, pc := p.pc, repDone := p.repDone, repRemain := p.repRemain, inRep := p.inRep, earliest := p.earliest,
    tagSince := p.tagSince, observed := p.observed, regObs := p.regObs }) m
  have h2 := congrArg (fun z : Proc => { z with pend := p.pend }) h
  subst e
  exact h1.trans h2

/-- A core-delivered result enters flight; then the process's PC is set by g. -/
theorem State.varResult_begun (s : State) (w : BitVec 2) (u : Use) (l : Nat) (ws : List (Nat × Word)) (g : Proc → Proc) :
    ((s.begun w u).varResult l ws).modMe g
      = s.withCore { (s.core s.ctx.core).setProc s.ctx.pn (g (s.pendedProc w u ws)) with
      flight := (s.core s.ctx.core).flight ++ [{
        pn := s.ctx.pn, writes := ws.filter (fun e => e.1 != 0), due := s.ticks + l
        seq := (s.core s.ctx.core).seq, var := true }]
      seq := (s.core s.ctx.core).seq + 1 } := by
  have h : (ws.foldl (fun t e => t.pendDest e.1) (s.begun w u))
      = s.modMe (fun _ => s.pendedProc w u ws) := by
    unfold State.begun
    rw [State.foldl_pendDest]
    simp [State.modMe, State.modProc, State.pendedProc, State.me]
  unfold State.varResult
  rw [h]
  simp [State.modMe, State.modProc, State.setProc, State.withCore, State.proc, Core.setProc, Core.proc, State.modCore]

theorem State.delivers_of {s : State} {i : Instr} {w : BitVec 2} {u : Use} {l : Nat} {ws : List (Nat × Word)} {npc : Word}
    {g : Proc → Proc} (h : exec i s = .next (((s.begun w u).varResult l ws).modMe g))
    (hp : (g (s.pendedProc w u ws)).pc = npc) (he : (g (s.pendedProc w u ws)).earliest = (s.pendedProc w u ws).earliest)
    (hd : (g (s.pendedProc w u ws)).pend = (s.pendedProc w u ws).pend)
    (hm : (s.pendedProc w u ws).moved (g (s.pendedProc w u ws))) : s.delivers i w l ws npc := by
  rw [State.varResult_begun] at h
  have hq := State.pendedProc_eq s w u ws
  refine ⟨_, h, ?_, ?_, ?_, ?_, ?_, ?_, ?_⟩
  · simp [State.withCore]
  · intro n hn
    rw [← State.pendedProc_pending s w u ws n hn]
    refine Proc.isPending_congr ?_ n
    simpa [Core.setProc, Core.proc] using hd
  · simpa [Core.setProc, Core.proc] using hp
  · have : (g (s.pendedProc w u ws)).earliest = s.ticks + stallGap w := by rw [he, hq]
    simpa [Core.setProc, Core.proc] using this
  · have b := Proc.begun_moved s.me u.reads (s.ticks + stallGap w)
    have m : s.me.movedPending (g (s.pendedProc w u ws)) := by
      exact Proc.movedPending_of b hq hm
    simpa [Core.setProc, Core.proc] using m
  · refine ⟨fun n hn => ?_, ?_⟩
    · simp [State.withCore, Core.setProc, Core.proc, hn]
    · simp [State.withCore, Core.setProc]
  · exact State.onlyCore_setCore _ _ _

/-- An instruction that ends with the step of the PC after a core-delivered result. -/
theorem State.delivers_advance {s : State} {i : Instr} {w : BitVec 2} {u : Use} {l : Nat} {ws : List (Nat × Word)}
    (h : exec i s = .next ((s.begun w u).varResult l ws).advance) : s.delivers i w l ws s.nextPc := by
  refine State.delivers_of (u := u) (g := fun p => p.stepPc s.ctx.pc s.ctx.rep.isSome) ?_ ?_ ?_ ?_ ?_
  · rw [h]
    have : ((s.begun w u).varResult l ws).ctx = s.ctx := by
      have := congrArg State.ctx (State.varResult_begun s w u l ws id)
      simpa [State.withCore] using this
    simp [State.advance, this]
  · exact Proc.stepPc_pc s _ (by rw [State.pendedProc_eq]; simp)
  · simp
  · simp
  · exact Proc.stepPc_moved _ _ _ _ (Proc.moved_refl _)

/-! ### The divider -/

theorem State.divides_of {s : State} {i : Instr} {w : BitVec 2} {u : Use} {d : BitVec 5} {v : Word} {fl : BitVec 5}
    {bound : Nat} (h : exec i s = .next ((s.begun w u).divide (s.rd d) v fl bound)) : s.divides i w d v fl bound := by
  have e : (s.begun w u).divide (s.rd d) v fl bound = s.withCore { (s.core s.ctx.core).setProc s.ctx.pn
      ((s.pendedProc w u [(s.rd d, v)]).stepPc s.ctx.pc s.ctx.rep.isSome) with
      divider := (s.core s.ctx.core).divider ++ [{
        pn := s.ctx.pn, dest := s.rd d, value := v, flags := fl, cycles := bound, startBy := s.ticks }] } := by
    simp [State.divide, State.begun, State.advance, State.pendDest, State.modMe, State.modProc, State.setProc,
      State.withCore, State.proc, Core.setProc, Core.proc, State.modCore, State.pendedProc, State.me]
  rw [e] at h
  have hq := State.pendedProc_eq s w u [(s.rd d, v)]
  refine ⟨_, h, ?_, ?_, ?_, ?_, ?_, ?_, ?_, ?_⟩
  · simp [State.withCore]
  · intro n hn
    have := State.pendedProc_pending s w u [(s.rd d, v)] n hn
    have hc : (n == s.rd d) = (s.rd d == n) := Bool.beq_comm
    simp only [List.any_cons, List.any_nil, Bool.or_false] at this
    rw [hc, ← this]
    refine Proc.isPending_congr ?_ n
    simp [Core.setProc, Core.proc]
  · have := Proc.stepPc_pc s (s.pendedProc w u [(s.rd d, v)]) (by rw [hq]; simp)
    simpa [Core.setProc, Core.proc] using this
  · have : (s.pendedProc w u [(s.rd d, v)]).earliest = s.ticks + stallGap w := by rw [hq]
    simpa [Core.setProc, Core.proc] using this
  · have m := Proc.movedPending_of (Proc.begun_moved s.me u.reads (s.ticks + stallGap w)) hq
      (Proc.stepPc_moved _ _ s.ctx.pc s.ctx.rep.isSome (Proc.moved_refl _))
    simpa [Core.setProc, Core.proc] using m
  · intro n hn; simp [State.withCore, Core.setProc, Core.proc, hn]
  · simp [State.withCore, Core.setProc]
  · exact State.onlyCore_setCore _ _ _

/-! ### Instructions that act on their process alone -/

theorem State.acts_of {s : State} {i : Instr} {w : BitVec 2} {u : Use} {npc : Word} {g f : Proc → Proc}
    (h : exec i s = .next ((s.begun w u).modMe f))
    (hp : (f { s.me.observeRegs u.reads with earliest := s.ticks + stallGap w, tagSince := none }).pc = npc)
    (he : (f { s.me.observeRegs u.reads with earliest := s.ticks + stallGap w, tagSince := none }).earliest
      = s.ticks + stallGap w)
    (hm : (g s.me).moved (f { s.me.observeRegs u.reads with earliest := s.ticks + stallGap w, tagSince := none })) :
    s.actsOnProcess i w npc g := by
  have e : (s.begun w u).modMe f = s.withCore ((s.core s.ctx.core).setProc s.ctx.pn
      (f { s.me.observeRegs u.reads with earliest := s.ticks + stallGap w, tagSince := none })) := by
    simp [State.begun, State.modMe, State.modProc, State.setProc, State.withCore, State.proc, Core.setProc,
      Core.proc, State.modCore, State.me]
  rw [e] at h
  refine ⟨_, h, ?_, ?_, ?_, ?_, ?_⟩
  · simpa using hp
  · simpa using he
  · simpa using hm
  · simpa [State.withCore] using Core.onlyProc_setProc _ _ _
  · exact State.onlyCore_setCore _ _ _

end Sys2Proof.Machine
end

