-- ==== Sys2Proof/Laws/Memory.lean ====
section
/-! SUPPORT. Memory keeps its canonical form under every operation, and a read after a write. -/

namespace Sys2Proof.Machine

theorem Memory.wf_iff (m : Memory) :
    m.wf = true ↔ cellsFrom 0 m.cells = true ∧ keysFrom 0 m.full = true ∧ keysFrom 0 m.poison = true := by
  simp [Memory.wf, and_assoc]

/-! ### A read after a write -/

theorem Memory.byte_setByte_self {m : Memory} (h : m.wf = true) (k : Nat) (v : Byte) : (m.setByte k v).byte k = v :=
  cellGet_cellPut_self m.cells k v 0 ((m.wf_iff.1 h).1)

theorem Memory.byte_setByte_ne (m : Memory) {k j : Nat} (v : Byte) (h : j ≠ k) : (m.setByte k v).byte j = m.byte j :=
  cellGet_cellPut_ne m.cells v h

theorem Memory.byte_write_outside (m : Memory) (k n v j : Nat) (h : j < k ∨ k + n ≤ j) :
    (m.write k n v).byte j = m.byte j := by
  induction n generalizing m k v with
  | zero => rfl
  | succ n ih =>
    simp only [Memory.write]
    rw [ih _ _ _ (by omega), Memory.byte_setByte_ne _ _ (by omega)]

theorem Memory.byte_setBytes_outside (m : Memory) (k : Nat) (bs : List Byte) (j : Nat) (h : j < k ∨ k + bs.length ≤ j) :
    (m.setBytes k bs).byte j = m.byte j := by
  induction bs generalizing m k with
  | nil => rfl
  | cons b bs ih =>
    simp only [Memory.setBytes, List.length_cons] at *
    rw [ih _ _ (by omega), Memory.byte_setByte_ne _ _ (by omega)]

@[simp] theorem Memory.byte_setFull (m : Memory) (w : Nat) (b : Bool) (k : Nat) : (m.setFull w b).byte k = m.byte k := rfl
@[simp] theorem Memory.byte_setPoison (m : Memory) (l : Nat) (b : Bool) (k : Nat) : (m.setPoison l b).byte k = m.byte k := rfl
@[simp] theorem Memory.byte_setTag (m : Memory) (l j k : Nat) : (m.setTag l j).byte k = m.byte k := rfl
@[simp] theorem Memory.byte_log (m : Memory) (w : Nat) (p : Path) (i k : Nat) : (m.log w p i).byte k = m.byte k := rfl

theorem Memory.byte_writeOn_outside (m : Memory) (p : Path) (pid job k n v j : Nat) (h : j < k ∨ k + n ≤ j) :
    (m.writeOn p pid job k n v).byte j = m.byte j := by
  simp only [Memory.writeOn]
  split_ifs <;> simp [Memory.byte_write_outside _ _ _ _ _ h]

theorem Memory.isFull_setFull (m : Memory) (w j : Nat) (b : Bool) :
    (m.setFull w b).isFull j = if j = w then b else m.isFull j := by
  rw [Bool.eq_iff_iff]
  simp only [Memory.isFull, Memory.setFull, List.contains_iff_mem]
  cases b <;> split_ifs <;> simp_all [mem_insertKey]

/-! ### The canonical form -/

theorem Memory.wf_setByte {m : Memory} (h : m.wf = true) (k : Nat) (v : Byte) : (m.setByte k v).wf = true := by
  rw [Memory.wf_iff] at *
  exact ⟨cellsFrom_cellPut k v h.1 (Nat.zero_le k), h.2⟩

theorem Memory.wf_write {m : Memory} (h : m.wf = true) (k n v : Nat) : (m.write k n v).wf = true := by
  induction n generalizing m k v with
  | zero => exact h
  | succ n ih => exact ih (Memory.wf_setByte h _ _) _ _

theorem Memory.wf_setBytes {m : Memory} (h : m.wf = true) (k : Nat) (bs : List Byte) : (m.setBytes k bs).wf = true := by
  induction bs generalizing m k with
  | nil => exact h
  | cons b bs ih => exact ih (Memory.wf_setByte h _ _) _

theorem Memory.wf_setFull {m : Memory} (h : m.wf = true) (w : Nat) (b : Bool) : (m.setFull w b).wf = true := by
  rw [Memory.wf_iff] at *
  refine ⟨h.1, ?_, h.2.2⟩
  cases b
  · exact keysFrom_filter _ h.2.1
  · exact keysFrom_insertKey w h.2.1 (Nat.zero_le w)

theorem Memory.wf_setPoison {m : Memory} (h : m.wf = true) (l : Nat) (b : Bool) : (m.setPoison l b).wf = true := by
  rw [Memory.wf_iff] at *
  refine ⟨h.1, h.2.1, ?_⟩
  cases b
  · exact keysFrom_filter _ h.2.2
  · exact keysFrom_insertKey l h.2.2 (Nat.zero_le l)

theorem Memory.wf_setTag {m : Memory} (h : m.wf = true) (l j : Nat) : (m.setTag l j).wf = true := h

theorem Memory.wf_log {m : Memory} (h : m.wf = true) (w : Nat) (p : Path) (i : Nat) : (m.log w p i).wf = true := h

theorem Memory.wf_writeOn {m : Memory} (h : m.wf = true) (p : Path) (pid job k n v : Nat) :
    (m.writeOn p pid job k n v).wf = true := by
  have hw : ∀ {c : Memory}, c.wf = true → (c.write k n v).wf = true := fun hc => Memory.wf_write hc _ _ _
  simp only [Memory.writeOn]
  split_ifs <;> exact hw h

theorem Memory.wf_clearRange {m : Memory} (h : m.wf = true) (k n : Nat) : (m.clearRange k n).wf = true := by
  rw [Memory.wf_iff] at *
  exact ⟨cellsFrom_filter _ h.1, keysFrom_filter _ h.2.1, h.2.2⟩

theorem Memory.wf_clearCore {m : Memory} (h : m.wf = true) (core : Nat) : (m.clearCore core).wf = true :=
  Memory.wf_clearRange (Memory.wf_clearRange h _ _) _ _

theorem Memory.wf_without {m : Memory} (h : m.wf = true) (p : Nat → Bool) : (m.without p).wf = true := by
  rw [Memory.wf_iff] at *
  exact ⟨cellsFrom_filter _ h.1, keysFrom_filter _ h.2.1, h.2.2⟩

theorem Memory.wf_wiped {m : Memory} (h : m.wf = true) (p : Nat → Bool) : (m.wiped p).wf = true := by
  rw [Memory.wf_iff] at *
  exact ⟨cellsFrom_filter _ h.1, keysFrom_filter _ h.2.1, keysFrom_filter _ h.2.2⟩

theorem Memory.wf_join {m : Memory} (h : m.wf = true) (x : Memory) : (m.join x).wf = true := by
  rw [Memory.wf_iff] at *
  refine ⟨?_, ?_, h.2.2⟩
  · have : ∀ (l : List Host.Cell) (c : List Host.Cell), cellsFrom 0 c = true →
        cellsFrom 0 (l.foldl (fun l c => cellPut l c.1 c.2) c) = true := by
      intro l
      induction l with
      | nil => exact fun c hc => hc
      | cons e l ih => exact fun c hc => ih _ (cellsFrom_cellPut _ _ hc (Nat.zero_le _))
    exact this _ _ h.1
  · have : ∀ (l : List Nat) (c : List Nat), keysFrom 0 c = true →
        keysFrom 0 (l.foldl (fun l w => insertKey l w) c) = true := by
      intro l
      induction l with
      | nil => exact fun c hc => hc
      | cons e l ih => exact fun c hc => ih _ (keysFrom_insertKey _ hc (Nat.zero_le _))
    exact this _ _ h.2.1

theorem Memory.wf_tagLines {m : Memory} (h : m.wf = true) (l n job : Nat) : (m.tagLines l n job).wf = true := h

theorem Memory.wf_prepareLine {m : Memory} (h : m.wf = true) (core job : Nat) (image : List Byte) (i : Nat) :
    (m.prepareLine core job image i).wf = true := by
  have full : ∀ (k : Nat) (l : List Nat) (c : Memory), c.wf = true →
      (l.foldl (fun m j => m.setFull (k / 8 + j) true) c).wf = true := by
    intro k l
    induction l with
    | nil => exact fun c hc => hc
    | cons e l ih => exact fun c hc => ih _ (Memory.wf_setFull hc _ _)
  simp only [Memory.prepareLine]
  split
  · exact h
  · exact Memory.wf_setTag (full _ _ _ (Memory.wf_setBytes (Memory.wf_clearRange h _ _) _ _)) _ _

theorem Memory.wf_preparePool {m : Memory} (h : m.wf = true) (core : Nat) (r : LRec) (image : List Byte) (job : Nat) :
    (m.preparePool core r image job).wf = true := by
  have step : ∀ (l : List Nat) (c : Memory), c.wf = true →
      (l.foldl (fun m i => m.prepareLine core job image i) c).wf = true := by
    intro l
    induction l with
    | nil => exact fun c hc => hc
    | cons e l ih => exact fun c hc => ih _ (Memory.wf_prepareLine hc _ _ _ _)
  exact step _ _ (Memory.wf_tagLines (Memory.wf_clearRange h _ _) _ _ _)

/-- A memory server's service keeps the canonical form. -/
theorem Memory.wf_serve {m : Memory} (h : m.wf = true) (r : Req) (pid k : Nat) (seen : Word) {x : Memory × Req}
    (hx : m.serve r pid k seen = some x) : x.1.wf = true := by
  simp only [Memory.serve] at hx
  have hw := fun v => Memory.wf_writeOn h r.path pid r.job k r.size v
  cases hk : r.kind <;> simp only [hk] at hx <;> (try split at hx) <;> simp only [reduceCtorEq, Option.some.injEq] at hx <;>
    subst hx <;> (try dsimp only) <;> (try split_ifs) <;>
    first
      | exact h | exact Memory.wf_setFull (hw _) _ _ | exact hw _ | exact Memory.wf_setFull h _ _
      | exact Memory.wf_setTag (Memory.wf_setFull h _ _) _ _

/-- Reset memory is canonical and lists nothing. -/
theorem wf_reset : State.reset.mem.wf = true := by decide

end Sys2Proof.Machine
end

