-- ==== Sys2Proof/Laws/PerInstr.lean ====
section
/-! SUPPORT. Statements about every instruction as syntax, one lemma for each constructor. Encoded: a constructor has a
word exactly when it is no event; the table gives an event, and an illegal word, no encoding. -/

namespace Sys2Proof.Laws.Encoded

/-- Whether a constructor stands for a row without an encoding. -/
def wordless : Instr → Bool
  | .illegalWord _ => true
  | i => i.isEvent

/-- A constructor has a word exactly when its row of the table has an encoding. -/
def Statement (i : Instr) : Prop := (encode i).isSome = !wordless i

theorem add (w : BitVec 2) (d : BitVec 5) (a : BitVec 5) (b : BitVec 5) : Statement (.add w d a b) := rfl
theorem sub (w : BitVec 2) (d : BitVec 5) (a : BitVec 5) (b : BitVec 5) : Statement (.sub w d a b) := rfl
theorem and (w : BitVec 2) (d : BitVec 5) (a : BitVec 5) (b : BitVec 5) : Statement (.and w d a b) := rfl
theorem or (w : BitVec 2) (d : BitVec 5) (a : BitVec 5) (b : BitVec 5) : Statement (.or w d a b) := rfl
theorem xor (w : BitVec 2) (d : BitVec 5) (a : BitVec 5) (b : BitVec 5) : Statement (.xor w d a b) := rfl
theorem andn (w : BitVec 2) (d : BitVec 5) (a : BitVec 5) (b : BitVec 5) : Statement (.andn w d a b) := rfl
theorem orn (w : BitVec 2) (d : BitVec 5) (a : BitVec 5) (b : BitVec 5) : Statement (.orn w d a b) := rfl
theorem sll (w : BitVec 2) (d : BitVec 5) (a : BitVec 5) (b : BitVec 5) : Statement (.sll w d a b) := rfl
theorem srl (w : BitVec 2) (d : BitVec 5) (a : BitVec 5) (b : BitVec 5) : Statement (.srl w d a b) := rfl
theorem sra (w : BitVec 2) (d : BitVec 5) (a : BitVec 5) (b : BitVec 5) : Statement (.sra w d a b) := rfl
theorem ror (w : BitVec 2) (d : BitVec 5) (a : BitVec 5) (b : BitVec 5) : Statement (.ror w d a b) := rfl
theorem mul (w : BitVec 2) (d : BitVec 5) (a : BitVec 5) (b : BitVec 5) : Statement (.mul w d a b) := rfl
theorem mulh (w : BitVec 2) (d : BitVec 5) (a : BitVec 5) (b : BitVec 5) : Statement (.mulh w d a b) := rfl
theorem mulhu (w : BitVec 2) (d : BitVec 5) (a : BitVec 5) (b : BitVec 5) : Statement (.mulhu w d a b) := rfl
theorem div (w : BitVec 2) (d : BitVec 5) (a : BitVec 5) (b : BitVec 5) : Statement (.div w d a b) := rfl
theorem divu (w : BitVec 2) (d : BitVec 5) (a : BitVec 5) (b : BitVec 5) : Statement (.divu w d a b) := rfl
theorem rem (w : BitVec 2) (d : BitVec 5) (a : BitVec 5) (b : BitVec 5) : Statement (.rem w d a b) := rfl
theorem remu (w : BitVec 2) (d : BitVec 5) (a : BitVec 5) (b : BitVec 5) : Statement (.remu w d a b) := rfl
theorem min (w : BitVec 2) (d : BitVec 5) (a : BitVec 5) (b : BitVec 5) : Statement (.min w d a b) := rfl
theorem max (w : BitVec 2) (d : BitVec 5) (a : BitVec 5) (b : BitVec 5) : Statement (.max w d a b) := rfl
theorem minu (w : BitVec 2) (d : BitVec 5) (a : BitVec 5) (b : BitVec 5) : Statement (.minu w d a b) := rfl
theorem maxu (w : BitVec 2) (d : BitVec 5) (a : BitVec 5) (b : BitVec 5) : Statement (.maxu w d a b) := rfl
theorem slt (w : BitVec 2) (d : BitVec 5) (a : BitVec 5) (b : BitVec 5) : Statement (.slt w d a b) := rfl
theorem sltu (w : BitVec 2) (d : BitVec 5) (a : BitVec 5) (b : BitVec 5) : Statement (.sltu w d a b) := rfl
theorem clz (w : BitVec 2) (d : BitVec 5) (a : BitVec 5) : Statement (.clz w d a) := rfl
theorem ctz (w : BitVec 2) (d : BitVec 5) (a : BitVec 5) : Statement (.ctz w d a) := rfl
theorem popc (w : BitVec 2) (d : BitVec 5) (a : BitVec 5) : Statement (.popc w d a) := rfl
theorem brev (w : BitVec 2) (d : BitVec 5) (a : BitVec 5) : Statement (.brev w d a) := rfl
theorem bswap (w : BitVec 2) (d : BitVec 5) (a : BitVec 5) : Statement (.bswap w d a) := rfl
theorem sextb (w : BitVec 2) (d : BitVec 5) (a : BitVec 5) : Statement (.sextb w d a) := rfl
theorem sexth (w : BitVec 2) (d : BitVec 5) (a : BitVec 5) : Statement (.sexth w d a) := rfl
theorem sextw (w : BitVec 2) (d : BitVec 5) (a : BitVec 5) : Statement (.sextw w d a) := rfl
theorem zextw (w : BitVec 2) (d : BitVec 5) (a : BitVec 5) : Statement (.zextw w d a) := rfl
theorem addi (w : BitVec 2) (d : BitVec 5) (a : BitVec 5) (i : BitVec 14) : Statement (.addi w d a i) := rfl
theorem andi (w : BitVec 2) (d : BitVec 5) (a : BitVec 5) (i : BitVec 14) : Statement (.andi w d a i) := rfl
theorem ori (w : BitVec 2) (d : BitVec 5) (a : BitVec 5) (i : BitVec 14) : Statement (.ori w d a i) := rfl
theorem xori (w : BitVec 2) (d : BitVec 5) (a : BitVec 5) (i : BitVec 14) : Statement (.xori w d a i) := rfl
theorem slti (w : BitVec 2) (d : BitVec 5) (a : BitVec 5) (i : BitVec 14) : Statement (.slti w d a i) := rfl
theorem sltiu (w : BitVec 2) (d : BitVec 5) (a : BitVec 5) (i : BitVec 14) : Statement (.sltiu w d a i) := rfl
theorem slli (w : BitVec 2) (d : BitVec 5) (a : BitVec 5) (s : BitVec 6) : Statement (.slli w d a s) := rfl
theorem srli (w : BitVec 2) (d : BitVec 5) (a : BitVec 5) (s : BitVec 6) : Statement (.srli w d a s) := rfl
theorem srai (w : BitVec 2) (d : BitVec 5) (a : BitVec 5) (s : BitVec 6) : Statement (.srai w d a s) := rfl
theorem rori (w : BitVec 2) (d : BitVec 5) (a : BitVec 5) (s : BitVec 6) : Statement (.rori w d a s) := rfl
theorem liu (w : BitVec 2) (d : BitVec 5) (i : BitVec 19) : Statement (.liu w d i) := rfl
theorem addpc (w : BitVec 2) (d : BitVec 5) (i : BitVec 19) : Statement (.addpc w d i) := rfl
theorem bfxi (w : BitVec 2) (d : BitVec 5) (a : BitVec 5) (p : BitVec 6) (l : BitVec 6) : Statement (.bfxi w d a p l) := rfl
theorem bfxui (w : BitVec 2) (d : BitVec 5) (a : BitVec 5) (p : BitVec 6) (l : BitVec 6) : Statement (.bfxui w d a p l) := rfl
theorem bfii (w : BitVec 2) (d : BitVec 5) (a : BitVec 5) (p : BitVec 6) (l : BitVec 6) : Statement (.bfii w d a p l) := rfl
theorem bfx (w : BitVec 2) (d : BitVec 5) (a : BitVec 5) (b : BitVec 5) : Statement (.bfx w d a b) := rfl
theorem bfxu (w : BitVec 2) (d : BitVec 5) (a : BitVec 5) (b : BitVec 5) : Statement (.bfxu w d a b) := rfl
theorem bfi (w : BitVec 2) (d : BitVec 5) (a : BitVec 5) (b : BitVec 5) : Statement (.bfi w d a b) := rfl
theorem hpack (w : BitVec 2) (d : BitVec 5) (a : BitVec 5) (b : BitVec 5) : Statement (.hpack w d a b) := rfl
theorem hunpk (w : BitVec 2) (d : BitVec 5) (a : BitVec 5) (b : BitVec 5) : Statement (.hunpk w d a b) := rfl
theorem hlwr (w : BitVec 2) (a : BitVec 5) (b : BitVec 5) : Statement (.hlwr w a b) := rfl
theorem hlrd (w : BitVec 2) (d : BitVec 5) (a : BitVec 5) : Statement (.hlrd w d a) := rfl
theorem getx (w : BitVec 2) (d : BitVec 5) (k : BitVec 12) : Statement (.getx w d k) := rfl
theorem putx (w : BitVec 2) (a : BitVec 5) (k : BitVec 12) : Statement (.putx w a k) := rfl
theorem addx (w : BitVec 2) (k : BitVec 12) : Statement (.addx w k) := rfl
theorem cbEq (w : BitVec 2) (n : BitVec 2) (a : BitVec 5) (b : BitVec 5) (o : BitVec 9) : Statement (.cbEq w n a b o) := rfl
theorem cbNe (w : BitVec 2) (n : BitVec 2) (a : BitVec 5) (b : BitVec 5) (o : BitVec 9) : Statement (.cbNe w n a b o) := rfl
theorem cbLt (w : BitVec 2) (n : BitVec 2) (a : BitVec 5) (b : BitVec 5) (o : BitVec 9) : Statement (.cbLt w n a b o) := rfl
theorem cbGe (w : BitVec 2) (n : BitVec 2) (a : BitVec 5) (b : BitVec 5) (o : BitVec 9) : Statement (.cbGe w n a b o) := rfl
theorem cbLtu (w : BitVec 2) (n : BitVec 2) (a : BitVec 5) (b : BitVec 5) (o : BitVec 9) : Statement (.cbLtu w n a b o) := rfl
theorem cbGeu (w : BitVec 2) (n : BitVec 2) (a : BitVec 5) (b : BitVec 5) (o : BitVec 9) : Statement (.cbGeu w n a b o) := rfl
theorem cbBset (w : BitVec 2) (n : BitVec 2) (a : BitVec 5) (b : BitVec 5) (o : BitVec 9) : Statement (.cbBset w n a b o) := rfl
theorem cbBclr (w : BitVec 2) (n : BitVec 2) (a : BitVec 5) (b : BitVec 5) (o : BitVec 9) : Statement (.cbBclr w n a b o) := rfl
theorem cbiEq (w : BitVec 2) (n : BitVec 2) (a : BitVec 5) (i : BitVec 14) : Statement (.cbiEq w n a i) := rfl
theorem cbiNe (w : BitVec 2) (n : BitVec 2) (a : BitVec 5) (i : BitVec 14) : Statement (.cbiNe w n a i) := rfl
theorem cbiLt (w : BitVec 2) (n : BitVec 2) (a : BitVec 5) (i : BitVec 14) : Statement (.cbiLt w n a i) := rfl
theorem cbiGe (w : BitVec 2) (n : BitVec 2) (a : BitVec 5) (i : BitVec 14) : Statement (.cbiGe w n a i) := rfl
theorem cbiLtu (w : BitVec 2) (n : BitVec 2) (a : BitVec 5) (i : BitVec 14) : Statement (.cbiLtu w n a i) := rfl
theorem cbiGeu (w : BitVec 2) (n : BitVec 2) (a : BitVec 5) (i : BitVec 14) : Statement (.cbiGeu w n a i) := rfl
theorem cbiBset (w : BitVec 2) (n : BitVec 2) (a : BitVec 5) (i : BitVec 14) : Statement (.cbiBset w n a i) := rfl
theorem cbiBclr (w : BitVec 2) (n : BitVec 2) (a : BitVec 5) (i : BitVec 14) : Statement (.cbiBclr w n a i) := rfl
theorem j (w : BitVec 2) (o : BitVec 24) : Statement (.j w o) := rfl
theorem jl (w : BitVec 2) (o : BitVec 24) : Statement (.jl w o) := rfl
theorem jlr (w : BitVec 2) (d : BitVec 5) (a : BitVec 5) (i : BitVec 14) : Statement (.jlr w d a i) := rfl
theorem rep (w : BitVec 2) (c : BitVec 6) (m : BitVec 3) (t : BitVec 2) : Statement (.rep w c m t) := rfl
theorem nop (w : BitVec 2) : Statement (.nop w) := rfl
theorem align (w : BitVec 2) (k : BitVec 8) : Statement (.align w k) := rfl
theorem yield (w : BitVec 2) : Statement (.yield w) := rfl
theorem schk (w : BitVec 2) (v : BitVec 1) : Statement (.schk w v) := rfl
theorem ifsync (w : BitVec 2) : Statement (.ifsync w) := rfl
theorem lb (w : BitVec 2) (d : BitVec 5) (a : BitVec 5) (o : BitVec 11) : Statement (.lb w d a o) := rfl
theorem lh (w : BitVec 2) (d : BitVec 5) (a : BitVec 5) (o : BitVec 11) : Statement (.lh w d a o) := rfl
theorem lw (w : BitVec 2) (d : BitVec 5) (a : BitVec 5) (o : BitVec 11) : Statement (.lw w d a o) := rfl
theorem ld (w : BitVec 2) (d : BitVec 5) (a : BitVec 5) (o : BitVec 11) : Statement (.ld w d a o) := rfl
theorem lbu (w : BitVec 2) (d : BitVec 5) (a : BitVec 5) (o : BitVec 11) : Statement (.lbu w d a o) := rfl
theorem lhu (w : BitVec 2) (d : BitVec 5) (a : BitVec 5) (o : BitVec 11) : Statement (.lhu w d a o) := rfl
theorem lwu (w : BitVec 2) (d : BitVec 5) (a : BitVec 5) (o : BitVec 11) : Statement (.lwu w d a o) := rfl
theorem sb (w : BitVec 2) (s : BitVec 5) (a : BitVec 5) (o : BitVec 11) : Statement (.sb w s a o) := rfl
theorem sh (w : BitVec 2) (s : BitVec 5) (a : BitVec 5) (o : BitVec 11) : Statement (.sh w s a o) := rfl
theorem sw (w : BitVec 2) (s : BitVec 5) (a : BitVec 5) (o : BitVec 11) : Statement (.sw w s a o) := rfl
theorem sd (w : BitVec 2) (s : BitVec 5) (a : BitVec 5) (o : BitVec 11) : Statement (.sd w s a o) := rfl
theorem readf (w : BitVec 2) (d : BitVec 5) (a : BitVec 5) (o : BitVec 11) : Statement (.readf w d a o) := rfl
theorem take (w : BitVec 2) (d : BitVec 5) (a : BitVec 5) (o : BitVec 11) : Statement (.take w d a o) := rfl
theorem peek (w : BitVec 2) (d : BitVec 5) (a : BitVec 5) (o : BitVec 11) : Statement (.peek w d a o) := rfl
theorem put (w : BitVec 2) (s : BitVec 5) (a : BitVec 5) (o : BitVec 11) : Statement (.put w s a o) := rfl
theorem fill (w : BitVec 2) (s : BitVec 5) (a : BitVec 5) (o : BitVec 11) : Statement (.fill w s a o) := rfl
theorem clear (w : BitVec 2) (s : BitVec 5) (a : BitVec 5) (o : BitVec 11) : Statement (.clear w s a o) := rfl
theorem ovwr (w : BitVec 2) (s : BitVec 5) (a : BitVec 5) (o : BitVec 11) : Statement (.ovwr w s a o) := rfl
theorem aadd (w : BitVec 2) (d : BitVec 5) (a : BitVec 5) (b : BitVec 5) (z : BitVec 1) : Statement (.aadd w d a b z) := rfl
theorem aand (w : BitVec 2) (d : BitVec 5) (a : BitVec 5) (b : BitVec 5) (z : BitVec 1) : Statement (.aand w d a b z) := rfl
theorem aor (w : BitVec 2) (d : BitVec 5) (a : BitVec 5) (b : BitVec 5) (z : BitVec 1) : Statement (.aor w d a b z) := rfl
theorem axor (w : BitVec 2) (d : BitVec 5) (a : BitVec 5) (b : BitVec 5) (z : BitVec 1) : Statement (.axor w d a b z) := rfl
theorem amin (w : BitVec 2) (d : BitVec 5) (a : BitVec 5) (b : BitVec 5) (z : BitVec 1) : Statement (.amin w d a b z) := rfl
theorem amax (w : BitVec 2) (d : BitVec 5) (a : BitVec 5) (b : BitVec 5) (z : BitVec 1) : Statement (.amax w d a b z) := rfl
theorem aminu (w : BitVec 2) (d : BitVec 5) (a : BitVec 5) (b : BitVec 5) (z : BitVec 1) : Statement (.aminu w d a b z) := rfl
theorem amaxu (w : BitVec 2) (d : BitVec 5) (a : BitVec 5) (b : BitVec 5) (z : BitVec 1) : Statement (.amaxu w d a b z) := rfl
theorem aswap (w : BitVec 2) (d : BitVec 5) (a : BitVec 5) (b : BitVec 5) (z : BitVec 1) : Statement (.aswap w d a b z) := rfl
theorem afadd (w : BitVec 2) (d : BitVec 5) (a : BitVec 5) (b : BitVec 5) (z : BitVec 1) : Statement (.afadd w d a b z) := rfl
theorem afamax (w : BitVec 2) (d : BitVec 5) (a : BitVec 5) (b : BitVec 5) (z : BitVec 1) : Statement (.afamax w d a b z) := rfl
theorem cas (w : BitVec 2) (d : BitVec 5) (a : BitVec 5) (b : BitVec 5) (z : BitVec 1) : Statement (.cas w d a b z) := rfl
theorem fenceC (w : BitVec 2) : Statement (.fenceC w) := rfl
theorem fenceD (w : BitVec 2) : Statement (.fenceD w) := rfl
theorem fenceG (w : BitVec 2) : Statement (.fenceG w) := rfl
theorem xfence (w : BitVec 2) (p : BitVec 3) (q : BitVec 3) : Statement (.xfence w p q) := rfl
theorem faddS (w : BitVec 2) (d : BitVec 5) (a : BitVec 5) (b : BitVec 5) : Statement (.faddS w d a b) := rfl
theorem fsubS (w : BitVec 2) (d : BitVec 5) (a : BitVec 5) (b : BitVec 5) : Statement (.fsubS w d a b) := rfl
theorem fmulS (w : BitVec 2) (d : BitVec 5) (a : BitVec 5) (b : BitVec 5) : Statement (.fmulS w d a b) := rfl
theorem fdivS (w : BitVec 2) (d : BitVec 5) (a : BitVec 5) (b : BitVec 5) : Statement (.fdivS w d a b) := rfl
theorem fsqrtS (w : BitVec 2) (d : BitVec 5) (a : BitVec 5) : Statement (.fsqrtS w d a) := rfl
theorem fminS (w : BitVec 2) (d : BitVec 5) (a : BitVec 5) (b : BitVec 5) : Statement (.fminS w d a b) := rfl
theorem fmaxS (w : BitVec 2) (d : BitVec 5) (a : BitVec 5) (b : BitVec 5) : Statement (.fmaxS w d a b) := rfl
theorem faddD (w : BitVec 2) (d : BitVec 5) (a : BitVec 5) (b : BitVec 5) : Statement (.faddD w d a b) := rfl
theorem fsubD (w : BitVec 2) (d : BitVec 5) (a : BitVec 5) (b : BitVec 5) : Statement (.fsubD w d a b) := rfl
theorem fmulD (w : BitVec 2) (d : BitVec 5) (a : BitVec 5) (b : BitVec 5) : Statement (.fmulD w d a b) := rfl
theorem fdivD (w : BitVec 2) (d : BitVec 5) (a : BitVec 5) (b : BitVec 5) : Statement (.fdivD w d a b) := rfl
theorem fsqrtD (w : BitVec 2) (d : BitVec 5) (a : BitVec 5) : Statement (.fsqrtD w d a) := rfl
theorem fminD (w : BitVec 2) (d : BitVec 5) (a : BitVec 5) (b : BitVec 5) : Statement (.fminD w d a b) := rfl
theorem fmaxD (w : BitVec 2) (d : BitVec 5) (a : BitVec 5) (b : BitVec 5) : Statement (.fmaxD w d a b) := rfl
theorem feqS (w : BitVec 2) (d : BitVec 5) (a : BitVec 5) (b : BitVec 5) : Statement (.feqS w d a b) := rfl
theorem fltS (w : BitVec 2) (d : BitVec 5) (a : BitVec 5) (b : BitVec 5) : Statement (.fltS w d a b) := rfl
theorem fleS (w : BitVec 2) (d : BitVec 5) (a : BitVec 5) (b : BitVec 5) : Statement (.fleS w d a b) := rfl
theorem feqD (w : BitVec 2) (d : BitVec 5) (a : BitVec 5) (b : BitVec 5) : Statement (.feqD w d a b) := rfl
theorem fltD (w : BitVec 2) (d : BitVec 5) (a : BitVec 5) (b : BitVec 5) : Statement (.fltD w d a b) := rfl
theorem fleD (w : BitVec 2) (d : BitVec 5) (a : BitVec 5) (b : BitVec 5) : Statement (.fleD w d a b) := rfl
theorem fclass (w : BitVec 2) (d : BitVec 5) (a : BitVec 5) : Statement (.fclass w d a) := rfl
theorem fmaddS (w : BitVec 2) (d : BitVec 5) (a : BitVec 5) (b : BitVec 5) : Statement (.fmaddS w d a b) := rfl
theorem fmsubS (w : BitVec 2) (d : BitVec 5) (a : BitVec 5) (b : BitVec 5) : Statement (.fmsubS w d a b) := rfl
theorem fnmaddS (w : BitVec 2) (d : BitVec 5) (a : BitVec 5) (b : BitVec 5) : Statement (.fnmaddS w d a b) := rfl
theorem fmaddD (w : BitVec 2) (d : BitVec 5) (a : BitVec 5) (b : BitVec 5) : Statement (.fmaddD w d a b) := rfl
theorem fmsubD (w : BitVec 2) (d : BitVec 5) (a : BitVec 5) (b : BitVec 5) : Statement (.fmsubD w d a b) := rfl
theorem fnmaddD (w : BitVec 2) (d : BitVec 5) (a : BitVec 5) (b : BitVec 5) : Statement (.fnmaddD w d a b) := rfl
theorem fcvtSD (w : BitVec 2) (d : BitVec 5) (a : BitVec 5) : Statement (.fcvtSD w d a) := rfl
theorem fcvtDS (w : BitVec 2) (d : BitVec 5) (a : BitVec 5) : Statement (.fcvtDS w d a) := rfl
theorem fcvtSL (w : BitVec 2) (d : BitVec 5) (a : BitVec 5) : Statement (.fcvtSL w d a) := rfl
theorem fcvtLS (w : BitVec 2) (d : BitVec 5) (a : BitVec 5) : Statement (.fcvtLS w d a) := rfl
theorem fcvtDL (w : BitVec 2) (d : BitVec 5) (a : BitVec 5) : Statement (.fcvtDL w d a) := rfl
theorem fcvtLD (w : BitVec 2) (d : BitVec 5) (a : BitVec 5) : Statement (.fcvtLD w d a) := rfl
theorem fcvtBS (w : BitVec 2) (d : BitVec 5) (a : BitVec 5) : Statement (.fcvtBS w d a) := rfl
theorem fcvtSB (w : BitVec 2) (d : BitVec 5) (a : BitVec 5) : Statement (.fcvtSB w d a) := rfl
theorem start (w : BitVec 2) (d : BitVec 5) (a : BitVec 5) (b : BitVec 5) : Statement (.start w d a b) := rfl
theorem stop (w : BitVec 2) : Statement (.stop w) := rfl
theorem pri (w : BitVec 2) (a : BitVec 5) : Statement (.pri w a) := rfl
theorem sleepc (w : BitVec 2) (a : BitVec 5) : Statement (.sleepc w a) := rfl
theorem done (w : BitVec 2) : Statement (.done w) := rfl
theorem who (w : BitVec 2) (d : BitVec 5) : Statement (.who w d) := rfl
theorem bwait (w : BitVec 2) (a : BitVec 5) : Statement (.bwait w a) := rfl
theorem send (w : BitVec 2) (a : BitVec 5) (b : BitVec 5) : Statement (.send w a b) := rfl
theorem recv (w : BitVec 2) (d : BitVec 5) (a : BitVec 5) : Statement (.recv w d a) := rfl
theorem sendb (w : BitVec 2) (a : BitVec 5) (b : BitVec 5) : Statement (.sendb w a b) := rfl
theorem sendh (w : BitVec 2) (a : BitVec 5) (b : BitVec 5) : Statement (.sendh w a b) := rfl
theorem tsend (w : BitVec 2) (a : BitVec 5) (b : BitVec 5) : Statement (.tsend w a b) := rfl
theorem trecv (w : BitVec 2) (a : BitVec 5) (b : BitVec 5) : Statement (.trecv w a b) := rfl
theorem altb (w : BitVec 2) : Statement (.altb w) := rfl
theorem altg (w : BitVec 2) (a : BitVec 5) (b : BitVec 5) : Statement (.altg w a b) := rfl
theorem altt (w : BitVec 2) (a : BitVec 5) (b : BitVec 5) : Statement (.altt w a b) := rfl
theorem altw (w : BitVec 2) (d : BitVec 5) : Statement (.altw w d) := rfl
theorem specb (w : BitVec 2) : Statement (.specb w) := rfl
theorem commit (w : BitVec 2) : Statement (.commit w) := rfl
theorem abort (w : BitVec 2) : Statement (.abort w) := rfl
theorem lpatch (w : BitVec 2) (a : BitVec 5) (b : BitVec 5) : Statement (.lpatch w a b) := rfl
theorem larm (w : BitVec 2) (d : BitVec 5) (a : BitVec 5) : Statement (.larm w d a) := rfl
theorem larmReturn (w : BitVec 2) : Statement (.larmReturn w) := rfl
theorem fwait (w : BitVec 2) (d : BitVec 5) (a : BitVec 5) : Statement (.fwait w d a) := rfl
theorem ftest (w : BitVec 2) (d : BitVec 5) (a : BitVec 5) : Statement (.ftest w d a) := rfl
theorem fcancel (w : BitVec 2) (a : BitVec 5) : Statement (.fcancel w a) := rfl
theorem fpass (w : BitVec 2) (d : BitVec 5) (a : BitVec 5) : Statement (.fpass w d a) := rfl
theorem fprom (w : BitVec 2) (d : BitVec 5) (a : BitVec 5) : Statement (.fprom w d a) := rfl
theorem nestset (w : BitVec 2) (a : BitVec 5) : Statement (.nestset w a) := rfl
theorem iter (w : BitVec 2) (d : BitVec 5) : Statement (.iter w d) := rfl
theorem shpub (w : BitVec 2) (d : BitVec 5) (a : BitVec 5) (b : BitVec 5) : Statement (.shpub w d a b) := rfl
theorem shst (w : BitVec 2) (d : BitVec 5) (a : BitVec 5) (b : BitVec 5) : Statement (.shst w d a b) := rfl
theorem shcas (w : BitVec 2) (d : BitVec 5) (a : BitVec 5) (b : BitVec 5) : Statement (.shcas w d a b) := rfl
theorem shacq (w : BitVec 2) (a : BitVec 5) : Statement (.shacq w a) := rfl
theorem ewr (w : BitVec 2) (a : BitVec 5) (e : BitVec 4) (n : BitVec 8) : Statement (.ewr w a e n) := rfl
theorem ewra (w : BitVec 2) (a : BitVec 5) (e : BitVec 4) (n : BitVec 8) : Statement (.ewra w a e n) := rfl
theorem erd (w : BitVec 2) (d : BitVec 5) (e : BitVec 4) (n : BitVec 8) : Statement (.erd w d e n) := rfl
theorem vadd (w : BitVec 2) (d : BitVec 5) (a : BitVec 5) (b : BitVec 5) : Statement (.vadd w d a b) := rfl
theorem vsub (w : BitVec 2) (d : BitVec 5) (a : BitVec 5) (b : BitVec 5) : Statement (.vsub w d a b) := rfl
theorem vmul (w : BitVec 2) (d : BitVec 5) (a : BitVec 5) (b : BitVec 5) : Statement (.vmul w d a b) := rfl
theorem vfma (w : BitVec 2) (d : BitVec 5) (a : BitVec 5) (b : BitVec 5) : Statement (.vfma w d a b) := rfl
theorem vmax (w : BitVec 2) (d : BitVec 5) (a : BitVec 5) (b : BitVec 5) : Statement (.vmax w d a b) := rfl
theorem vmin (w : BitVec 2) (d : BitVec 5) (a : BitVec 5) (b : BitVec 5) : Statement (.vmin w d a b) := rfl
theorem vabs (w : BitVec 2) (d : BitVec 5) (a : BitVec 5) (b : BitVec 5) : Statement (.vabs w d a b) := rfl
theorem vneg (w : BitVec 2) (d : BitVec 5) (a : BitVec 5) (b : BitVec 5) : Statement (.vneg w d a b) := rfl
theorem vexp (w : BitVec 2) (d : BitVec 5) (a : BitVec 5) (b : BitVec 5) : Statement (.vexp w d a b) := rfl
theorem vlog (w : BitVec 2) (d : BitVec 5) (a : BitVec 5) (b : BitVec 5) : Statement (.vlog w d a b) := rfl
theorem vrcp (w : BitVec 2) (d : BitVec 5) (a : BitVec 5) (b : BitVec 5) : Statement (.vrcp w d a b) := rfl
theorem vrsq (w : BitVec 2) (d : BitVec 5) (a : BitVec 5) (b : BitVec 5) : Statement (.vrsq w d a b) := rfl
theorem vcvt (w : BitVec 2) (d : BitVec 5) (a : BitVec 5) (b : BitVec 5) : Statement (.vcvt w d a b) := rfl
theorem vrsum (w : BitVec 2) (d : BitVec 5) (a : BitVec 5) (b : BitVec 5) : Statement (.vrsum w d a b) := rfl
theorem vrmax (w : BitVec 2) (d : BitVec 5) (a : BitVec 5) (b : BitVec 5) : Statement (.vrmax w d a b) := rfl
theorem vamax (w : BitVec 2) (d : BitVec 5) (a : BitVec 5) (b : BitVec 5) : Statement (.vamax w d a b) := rfl
theorem vscale (w : BitVec 2) (d : BitVec 5) (a : BitVec 5) (b : BitVec 5) : Statement (.vscale w d a b) := rfl
theorem vsel (w : BitVec 2) (d : BitVec 5) (a : BitVec 5) (b : BitVec 5) : Statement (.vsel w d a b) := rfl
theorem vcmp (w : BitVec 2) (d : BitVec 5) (a : BitVec 5) (b : BitVec 5) : Statement (.vcmp w d a b) := rfl
theorem vtrans (w : BitVec 2) (d : BitVec 5) (a : BitVec 5) (b : BitVec 5) : Statement (.vtrans w d a b) := rfl
theorem vgath (w : BitVec 2) (d : BitVec 5) (a : BitVec 5) (b : BitVec 5) : Statement (.vgath w d a b) := rfl
theorem vscat (w : BitVec 2) (d : BitVec 5) (a : BitVec 5) (b : BitVec 5) : Statement (.vscat w d a b) := rfl
theorem vbcast (w : BitVec 2) (d : BitVec 5) (a : BitVec 5) (b : BitVec 5) : Statement (.vbcast w d a b) := rfl
theorem cpy (w : BitVec 2) (d : BitVec 5) (a : BitVec 5) (b : BitVec 5) : Statement (.cpy w d a b) := rfl
theorem cpym (w : BitVec 2) (d : BitVec 5) (a : BitVec 5) (b : BitVec 5) : Statement (.cpym w d a b) := rfl
theorem mclaim (w : BitVec 2) (d : BitVec 5) (a : BitVec 5) : Statement (.mclaim w d a) := rfl
theorem mrel (w : BitVec 2) (a : BitVec 5) : Statement (.mrel w a) := rfl
theorem mtask (w : BitVec 2) (d : BitVec 5) (a : BitVec 5) : Statement (.mtask w d a) := rfl
theorem mmerge (w : BitVec 2) (d : BitVec 5) (a : BitVec 5) (b : BitVec 5) : Statement (.mmerge w d a b) := rfl
theorem wset (w : BitVec 2) (a : BitVec 5) (n : BitVec 5) : Statement (.wset w a n) := rfl
theorem rdcr (w : BitVec 2) (d : BitVec 5) (c : BitVec 8) : Statement (.rdcr w d c) := rfl
theorem wrcr (w : BitVec 2) (a : BitVec 5) (c : BitVec 8) : Statement (.wrcr w a c) := rfl
theorem trap (w : BitVec 2) (k : BitVec 14) : Statement (.trap w k) := rfl
theorem gset (w : BitVec 2) (a : BitVec 5) (b : BitVec 5) : Statement (.gset w a b) := rfl
theorem gresume (w : BitVec 2) (a : BitVec 5) : Statement (.gresume w a) := rfl
theorem gkill (w : BitVec 2) (a : BitVec 5) : Statement (.gkill w a) := rfl
theorem fixedLatencyResult (core : Nat) (idx : Nat) : Statement (.fixedLatencyResult core idx) := rfl
theorem dividerResult (core : Nat) : Statement (.dividerResult core) := rfl
theorem schedulerPlacement (core : Nat) : Statement (.schedulerPlacement core) := rfl
theorem slotDeparture (core : Nat) (slot : Nat) : Statement (.slotDeparture core slot) := rfl
theorem switchEnd (core : Nat) (slot : Nat) : Statement (.switchEnd core slot) := rfl
theorem pendingWaitExpiry (core : Nat) (slot : Nat) : Statement (.pendingWaitExpiry core slot) := rfl
theorem rotation (core : Nat) : Statement (.rotation core) := rfl
theorem slot15Handover (core : Nat) : Statement (.slot15Handover core) := rfl
theorem sleepDeadline (core : Nat) (pn : Nat) : Statement (.sleepDeadline core pn) := rfl
theorem alignTimeout (core : Nat) (pn : Nat) : Statement (.alignTimeout core pn) := rfl
theorem lineDelivery (die : Nat) (cluster : Nat) : Statement (.lineDelivery die cluster) := rfl
theorem icacheFill (die : Nat) (cluster : Nat) (idx : Nat) : Statement (.icacheFill die cluster idx) := rfl
theorem ifsyncRelease (core : Nat) (pn : Nat) : Statement (.ifsyncRelease core pn) := rfl
theorem storeBufferDrain (core : Nat) (tag : Nat) : Statement (.storeBufferDrain core tag) := rfl
theorem bufferEntryFreed (core : Nat) (tag : Nat) : Statement (.bufferEntryFreed core tag) := rfl
theorem tlbWalkCompletion (die : Nat) (idx : Nat) : Statement (.tlbWalkCompletion die idx) := rfl
theorem memoryRequestArrival (core : Nat) (tag : Nat) : Statement (.memoryRequestArrival core tag) := rfl
theorem memoryResponse (core : Nat) (tag : Nat) : Statement (.memoryResponse core tag) := rfl
theorem meshAccessAnswer (core : Nat) (tag : Nat) : Statement (.meshAccessAnswer core tag) := rfl
theorem syncRequestArrival (core : Nat) (tag : Nat) : Statement (.syncRequestArrival core tag) := rfl
theorem requestRetry (core : Nat) (tag : Nat) : Statement (.requestRetry core tag) := rfl
theorem syncCompletion (core : Nat) (tag : Nat) : Statement (.syncCompletion core tag) := rfl
theorem syncWithdrawal (core : Nat) (tag : Nat) : Statement (.syncWithdrawal core tag) := rfl
theorem fenceRelease (core : Nat) (pn : Nat) : Statement (.fenceRelease core pn) := rfl
theorem xfenceRelease (core : Nat) (pn : Nat) : Statement (.xfenceRelease core pn) := rfl
theorem poisonDelivery (core : Nat) (pn : Nat) : Statement (.poisonDelivery core pn) := rfl
theorem startCompletion (core : Nat) (pn : Nat) : Statement (.startCompletion core pn) := rfl
theorem wsetCompletion (core : Nat) : Statement (.wsetCompletion core) := rfl
theorem iterClaimResponse (core : Nat) (pn : Nat) : Statement (.iterClaimResponse core pn) := rfl
theorem barrierAck (core : Nat) (pn : Nat) : Statement (.barrierAck core pn) := rfl
theorem bwaitRelease (core : Nat) (pn : Nat) : Statement (.bwaitRelease core pn) := rfl
theorem probeSend (core : Nat) (pn : Nat) : Statement (.probeSend core pn) := rfl
theorem probeArrival (pkt : Nat) : Statement (.probeArrival pkt) := rfl
theorem offerArrival (pkt : Nat) : Statement (.offerArrival pkt) := rfl
theorem transferEnd (core : Nat) (index : Nat) : Statement (.transferEnd core index) := rfl
theorem releaseAnswer (pkt : Nat) : Statement (.releaseAnswer pkt) := rfl
theorem channelWithdrawal (pkt : Nat) : Statement (.channelWithdrawal pkt) := rfl
theorem creditReturn (pkt : Nat) : Statement (.creditReturn pkt) := rfl
theorem messageDeparture (core : Nat) (pn : Nat) : Statement (.messageDeparture core pn) := rfl
theorem messageArrival (pkt : Nat) : Statement (.messageArrival pkt) := rfl
theorem handlerStart (core : Nat) : Statement (.handlerStart core) := rfl
theorem handlerEnd (core : Nat) : Statement (.handlerEnd core) := rfl
theorem altTimeout (core : Nat) (pn : Nat) : Statement (.altTimeout core pn) := rfl
theorem holdBufferFreed (core : Nat) : Statement (.holdBufferFreed core) := rfl
theorem commitCompletion (core : Nat) : Statement (.commitCompletion core) := rfl
theorem vectorOperationStart (core : Nat) : Statement (.vectorOperationStart core) := rfl
theorem vectorOperationCompletion (core : Nat) : Statement (.vectorOperationCompletion core) := rfl
theorem copyStart (core : Nat) : Statement (.copyStart core) := rfl
theorem copyPageFault (core : Nat) : Statement (.copyPageFault core) := rfl
theorem copyCompletion (core : Nat) : Statement (.copyCompletion core) := rfl
theorem cpymArrival (core : Nat) (target : Nat) : Statement (.cpymArrival core target) := rfl
theorem lateMark (core : Nat) (entry : Nat) : Statement (.lateMark core entry) := rfl
theorem futureTableRequest (pkt : Nat) : Statement (.futureTableRequest pkt) := rfl
theorem taskChoice (core : Nat) : Statement (.taskChoice core) := rfl
theorem governorGrant (core : Nat) : Statement (.governorGrant core) := rfl
theorem governorWindow (die : Nat) : Statement (.governorWindow die) := rfl
theorem panelEnd (core : Nat) : Statement (.panelEnd core) := rfl
theorem macCountingEnd (core : Nat) : Statement (.macCountingEnd core) := rfl
theorem tileZeroing (core : Nat) : Statement (.tileZeroing core) := rfl
theorem drain (core : Nat) : Statement (.drain core) := rfl
theorem drainEnd (core : Nat) : Statement (.drainEnd core) := rfl
theorem outputWriteEnd (core : Nat) : Statement (.outputWriteEnd core) := rfl
theorem mmergePerform (core : Nat) : Statement (.mmergePerform core) := rfl
theorem tokenArrival (pkg : Nat) (order : List Nat) : Statement (.tokenArrival pkg order) := rfl
theorem frameReceipt (pkg : Nat) (idx : Nat) (intact : Bool) : Statement (.frameReceipt pkg idx intact) := rfl
theorem frameRepair (pkg : Nat) (source : Nat) (ssn : Nat) : Statement (.frameRepair pkg source ssn) := rfl
theorem frameApply (die : Nat) : Statement (.frameApply die) := rfl
theorem landing (pkg : Nat) : Statement (.landing pkg) := rfl
theorem sheafLeave (pkg : Nat) : Statement (.sheafLeave pkg) := rfl
theorem lightLoss (pkg : Nat) : Statement (.lightLoss pkg) := rfl
theorem silenceTimeout (pkg : Nat) : Statement (.silenceTimeout pkg) := rfl
theorem sheafForm (pkg : Nat) : Statement (.sheafForm pkg) := rfl
theorem sheafLeaveRequest (pkg : Nat) : Statement (.sheafLeaveRequest pkg) := rfl
theorem joinFrameSend (pkg : Nat) : Statement (.joinFrameSend pkg) := rfl
theorem joinFrameReceipt (pkg : Nat) (source : Nat) : Statement (.joinFrameReceipt pkg source) := rfl
theorem firstTokenSend (pkg : Nat) : Statement (.firstTokenSend pkg) := rfl
theorem firstTokenReceipt (pkg : Nat) (source : Nat) : Statement (.firstTokenReceipt pkg source) := rfl
theorem formationTimeout (pkg : Nat) : Statement (.formationTimeout pkg) := rfl
theorem launchUnitRequest (die : Nat) : Statement (.launchUnitRequest die) := rfl
theorem launchStart (die : Nat) (pos : Nat) : Statement (.launchStart die pos) := rfl
theorem launchCompletion (die : Nat) (pos : Nat) : Statement (.launchCompletion die pos) := rfl
theorem timeShareQuantum (die : Nat) : Statement (.timeShareQuantum die) := rfl
theorem tenantSwitch (pkg : Nat) (job : Nat) (target : Nat) : Statement (.tenantSwitch pkg job target) := rfl
theorem gsetRead (core : Nat) : Statement (.gsetRead core) := rfl
theorem gsetEndpt (core : Nat) : Statement (.gsetEndpt core) := rfl
theorem gsetEpctlClose (core : Nat) : Statement (.gsetEpctlClose core) := rfl
theorem gsetEpctlMoveBegin (core : Nat) : Statement (.gsetEpctlMoveBegin core) := rfl
theorem gsetEpctlMoveEnd (core : Nat) : Statement (.gsetEpctlMoveEnd core) := rfl
theorem gsetHusk (core : Nat) : Statement (.gsetHusk core) := rfl
theorem gsetReg (core : Nat) : Statement (.gsetReg core) := rfl
theorem gsetHtab (core : Nat) : Statement (.gsetHtab core) := rfl
theorem gsetLrec (core : Nat) : Statement (.gsetLrec core) := rfl
theorem gsetFtab (core : Nat) : Statement (.gsetFtab core) := rfl
theorem gsetJob (core : Nat) : Statement (.gsetJob core) := rfl
theorem gsetGate (core : Nat) : Statement (.gsetGate core) := rfl
theorem gsetDie (core : Nat) : Statement (.gsetDie core) := rfl
theorem gsetPkg (core : Nat) : Statement (.gsetPkg core) := rfl
theorem gsetShoot (core : Nat) : Statement (.gsetShoot core) := rfl
theorem gsetFreply (core : Nat) : Statement (.gsetFreply core) := rfl
theorem shootdownInvalidate (kcore : Nat) (core : Nat) : Statement (.shootdownInvalidate kcore core) := rfl
theorem shootdownAck (kcore : Nat) (core : Nat) : Statement (.shootdownAck kcore core) := rfl
theorem homeWalkCompletion (die : Nat) (idx : Nat) : Statement (.homeWalkCompletion die idx) := rfl
theorem faultMessageWrite (core : Nat) : Statement (.faultMessageWrite core) := rfl
theorem faulttake (pkg : Nat) (dev : Nat) : Statement (.faulttake pkg dev) := rfl
theorem faultreply (pkg : Nat) (dev : Nat) (action : Nat) (target : Nat) (image : BitVec 512) : Statement (.faultreply pkg dev action target image) := rfl
theorem migrate (pkg : Nat) (dev : Nat) (job : Nat) (va : Nat) (stage : Nat) : Statement (.migrate pkg dev job va stage) := rfl
theorem lrecwrite (pkg : Nat) (dev : Nat) (die : Nat) (index : Nat) (image : BitVec 1024) : Statement (.lrecwrite pkg dev die index image) := rfl
theorem routeload (pkg : Nat) (dev : Nat) (offset : Nat) (value : BitVec 64) : Statement (.routeload pkg dev offset value) := rfl
theorem scrubset (pkg : Nat) (dev : Nat) (die : Nat) (period : BitVec 8) (action : BitVec 2) : Statement (.scrubset pkg dev die period action) := rfl
theorem dutyset (pkg : Nat) (dev : Nat) (value : BitVec 64) : Statement (.dutyset pkg dev value) := rfl
theorem fwsupply (pkg : Nat) (dev : Nat) (fin : Bool) (offset : Nat) (data : List (BitVec 8)) : Statement (.fwsupply pkg dev fin offset data) := rfl
theorem hostqreg (pkg : Nat) (dev : Nat) (queue : Nat) (remove : Bool) (base : Nat) (log : Nat) (entry : Nat) (toHost : Bool) : Statement (.hostqreg pkg dev queue remove base log entry toHost) := rfl
theorem mailboxUnsupported (pkg : Nat) (dev : Nat) (opcode : Nat) : Statement (.mailboxUnsupported pkg dev opcode) := rfl
theorem hostDoorbell (pkg : Nat) (dev : Nat) (queue : Nat) : Statement (.hostDoorbell pkg dev queue) := rfl
theorem hostHeadPass (pkg : Nat) (dev : Nat) (queue : Nat) : Statement (.hostHeadPass pkg dev queue) := rfl
theorem hostMemAccess (pkg : Nat) (dev : Nat) (va : Nat) (write : Bool) (value : BitVec 64) : Statement (.hostMemAccess pkg dev va write value) := rfl
theorem backInvalidation (pkg : Nat) (line : Nat) (data : List (BitVec 8)) : Statement (.backInvalidation pkg line data) := rfl
theorem hostWarmRestart (pkg : Nat) (devs : List Nat) : Statement (.hostWarmRestart pkg devs) := rfl
theorem ldReset (pkg : Nat) (dev : Nat) : Statement (.ldReset pkg dev) := rfl
theorem packetForward (pkt : Nat) : Statement (.packetForward pkt) := rfl
theorem routeSwitch (pkg : Nat) : Statement (.routeSwitch pkg) := rfl
theorem drainMarker (pkg : Nat) (port : Nat) (level : Nat) : Statement (.drainMarker pkg port level) := rfl
theorem linkDown (pkg : Nat) (port : Nat) : Statement (.linkDown pkg port) := rfl
theorem patrolVisit (die : Nat) (line : Nat) (error : Nat) : Statement (.patrolVisit die line error) := rfl
theorem poisonFix (die : Nat) (addr : Nat) : Statement (.poisonFix die addr) := rfl
theorem inventoryRecordWrite (die : Nat) : Statement (.inventoryRecordWrite die) := rfl
theorem teardown (die : Nat) (job : Nat) (reason : Nat) : Statement (.teardown die job reason) := rfl
theorem quarantine (pkt : Nat) : Statement (.quarantine pkt) := rfl
theorem teardownMarker (die : Nat) : Statement (.teardownMarker die) := rfl
theorem powerGate (core : Nat) : Statement (.powerGate core) := rfl
theorem coreWake (core : Nat) : Statement (.coreWake core) := rfl
theorem coreWakeEnd (core : Nat) : Statement (.coreWakeEnd core) := rfl
theorem thermalTrip (die : Nat) (tj : Nat) : Statement (.thermalTrip die tj) := rfl
theorem thermalRecovery (die : Nat) (tj : Nat) : Statement (.thermalRecovery die tj) := rfl
theorem dieReset (die : Nat) : Statement (.dieReset die) := rfl
theorem packageWarmReset (pkg : Nat) : Statement (.packageWarmReset pkg) := rfl
theorem packageColdReset (pkg : Nat) : Statement (.packageColdReset pkg) := rfl
theorem getVersion (pkg : Nat) (dev : Nat) (version : Nat) : Statement (.getVersion pkg dev version) := rfl
theorem getCapabilities (pkg : Nat) (dev : Nat) : Statement (.getCapabilities pkg dev) := rfl
theorem negotiateAlgorithms (pkg : Nat) (dev : Nat) : Statement (.negotiateAlgorithms pkg dev) := rfl
theorem getDigests (pkg : Nat) (dev : Nat) : Statement (.getDigests pkg dev) := rfl
theorem getCertificate (pkg : Nat) (dev : Nat) (slot : Nat) : Statement (.getCertificate pkg dev slot) := rfl
theorem challenge (pkg : Nat) (dev : Nat) (nonce : List (BitVec 8)) : Statement (.challenge pkg dev nonce) := rfl
theorem getMeasurements (pkg : Nat) (dev : Nat) (index : Nat) (nonce : List (BitVec 8)) : Statement (.getMeasurements pkg dev index nonce) := rfl
theorem vendorDefinedRequest (pkg : Nat) (dev : Nat) (vendor : Nat) : Statement (.vendorDefinedRequest pkg dev vendor) := rfl
theorem spdmUnsupported (pkg : Nat) (dev : Nat) (code : Nat) : Statement (.spdmUnsupported pkg dev code) := rfl
theorem registerWrite (die : Nat) (target : Nat) (offset : Nat) (value : BitVec 64) : Statement (.registerWrite die target offset value) := rfl
theorem illegalWord (word : BitVec 32) : Statement (.illegalWord word) := rfl
theorem hostLinkReturn (pkg : Nat) (refused : List Nat) : Statement (.hostLinkReturn pkg refused) := rfl
theorem softError (core : Nat) (part : Nat) (pn : Nat) : Statement (.softError core part pn) := rfl
theorem thermalWarn (die : Nat) (tj : Nat) : Statement (.thermalWarn die tj) := rfl

end Sys2Proof.Laws.Encoded
end

