-- ==== Sys2Proof/Tests/Slice0.lean ====
section
/-! SUPPORT. Words written out from the encodings of R32 to R37 (those marked "printed" stand in files 02, 11 and 12 of
the manual with their instruction), words that R38 makes illegal, and ill-formed terms for each check of WellFormed. -/

namespace Sys2Proof.Tests

set_option maxRecDepth 20000

/-! Words of each family. -/

/-- Printed in file 02: MUL t0, a0, a1 with W 2; ADD t1, t0, a2. -/
theorem test_decode_alu : decode 0x81694C0B = some (.mul 2 13 5 6) ∧ decode 0x01734E00 = some (.add 0 14 13 7) := by decide

/-- DIV a0, a1, a2: F 14. -/
theorem test_decode_div : decode 0x01298E0E = some (.div 0 5 6 7) := by decide

/-- Printed in file 02: ADDI t0, t0, -1. -/
theorem test_decode_addi : decode 0x026B7FFF = some (.addi 0 13 13 0x3FFF) := by decide

theorem test_decode_shift : decode 0x08694003 = some (.slli 0 13 5 3) ∧ decode 0x0869603F = some (.srai 0 13 5 63) := by decide

theorem test_decode_liu : decode 0x09280001 = some (.liu 0 5 1) := by decide

/-- BFXI t0, a0, position 8, width 12. -/
theorem test_decode_bfxi : decode 0x0B69482C = some (.bfxi 0 13 5 8 11) := by decide

theorem test_decode_hpack : decode 0x0D696000 = some (.hpack 0 13 5 16) := by decide

/-- The first is GETX t0, 3; the second is printed in file 11: PUTX t6, -2. -/
theorem test_decode_relative :
    decode 0x0E680003 = some (.getx 0 13 3) ∧ decode 0x0E04DFFE = some (.putx 0 19 0xFFE)
    ∧ decode 0x0E002001 = some (.addx 0 1) := by decide

/-- Printed in file 02: CB.LT a0, a1, skip 2; CB.NE t0, g0 at -4 words. -/
theorem test_decode_branch : decode 0x10514C00 = some (.cbLt 0 2 5 6 0) ∧ decode 0x102341FC = some (.cbNe 0 0 13 0 0x1FC) := by
  decide

/-- The second is printed in file 11: CBI.GE t2, 0, skip 2. -/
theorem test_decode_branch_immediate :
    decode 0x110FC015 = some (.cbiEq 0 1 31 21) ∧ decode 0x1173C000 = some (.cbiGe 0 2 15 0) := by decide

/-- J +64 bytes; the second is printed in file 02: RET. -/
theorem test_decode_jump : decode 0x12000010 = some (.j 0 16) ∧ decode 0x14004000 = some (.jlr 0 0 1 0) := by decide

/-- Printed in file 02: REP 8, DA, 1. -/
theorem test_decode_rep : decode 0x151F0000 = some (.rep 0 7 6 0) := by decide

/-- NOP, and ALIGN with the operand 3. -/
theorem test_decode_misc : decode 0x16000000 = some (.nop 0) ∧ decode 0x16000403 = some (.align 0 3) := by decide

/-- The first is printed in file 02: LD t2, 16(sp). -/
theorem test_decode_memory :
    decode 0x18789802 = some (.ld 0 15 2 2) ∧ decode 0x19695801 = some (.sd 0 13 5 1)
    ∧ decode 0x1A6D4800 = some (.take 0 13 21 0) ∧ decode 0x1B6D4001 = some (.put 0 13 21 1) := by decide

theorem test_decode_amo : decode 0x1C694C10 = some (.aadd 0 13 5 6 1) ∧ decode 0x1D694C00 = some (.cas 0 13 5 6 0) := by decide

theorem test_decode_fence : decode 0x1E00C003 = some (.xfence 0 3 0) ∧ decode 0xDE000000 = some (.fenceC 3) := by decide

theorem test_decode_float :
    decode 0x1F298E0A = some (.fdivD 0 5 6 7) ∧ decode 0xE0298E03 = some (.fmaddD 3 5 6 7)
    ∧ decode 0x21694001 = some (.fcvtDS 0 13 5) := by decide

theorem test_decode_process : decode 0x24694C00 = some (.start 0 13 5 6) ∧ decode 0x24000001 = some (.stop 0) := by decide

theorem test_decode_channel :
    decode 0x25014C00 = some (.send 0 5 6) ∧ decode 0x26014C01 = some (.altg 0 5 6) ∧ decode 0x27000000 = some (.specb 0) := by
  decide

theorem test_decode_launch :
    decode 0x28014C00 = some (.lpatch 0 5 6) ∧ decode 0x29694000 = some (.fwait 0 13 5)
    ∧ decode 0x2A014000 = some (.nestset 0 5) ∧ decode 0x2B694C01 = some (.shst 0 13 5 6) := by decide

/-- EWR 1, 2, a0; WSET a0, 3. -/
theorem test_decode_engine : decode 0x2C014102 = some (.ewr 0 5 1 2) ∧ decode 0x34014600 = some (.wset 0 5 3) := by decide

theorem test_decode_vector :
    decode 0x30694C00 = some (.vadd 0 13 5 6) ∧ decode 0x32694C21 = some (.cpym 0 13 5 6)
    ∧ decode 0x33694042 = some (.mtask 0 13 5) := by decide

theorem test_decode_system :
    decode 0x38F80006 = some (.rdcr 0 31 6) ∧ decode 0x3807E004 = some (.wrcr 0 31 4) ∧ decode 0x39000007 = some (.trap 0 7)
    ∧ decode 0x3A014C00 = some (.gset 0 5 6) := by decide

/-! Words that are no instructions (R38). -/

theorem test_illegal_major : decode 0 = none ∧ decode 0xFFFFFFFF = none ∧ decode 0x0F000000 = none := by decide

theorem test_illegal_member : decode 0x01000021 = none ∧ decode 0x16001400 = none ∧ decode 0x0B000003 = none := by decide

theorem test_illegal_zero_field : decode 0x08000040 = none ∧ decode 0x24080001 = none := by
  decide

theorem test_illegal_skip_form : decode 0x10200001 ≠ none ∧ decode 0x10280001 = none ∧ decode 0x11200001 = none := by decide

theorem test_illegal_engine : decode 0x30000020 = none ∧ decode 0x2C000300 = none ∧ decode 0x1E01C000 = none := by decide

/-! Ill-formed terms, one for each check (R33, R35 to R37, R145). -/

theorem test_illformed_words_0 : ([
    .cbEq 0 1 0 0 1, .cbNe 0 1 0 0 1, .cbLt 0 1 0 0 1, .cbGe 0 1 0 0 1, .cbLtu 0 1 0 0 1, .cbGeu 0 1 0 0 1,
    .cbBset 0 1 0 0 1, .cbBclr 0 1 0 0 1, .cbiEq 0 0 0 0, .cbiNe 0 0 0 0, .cbiLt 0 0 0 0, .cbiGe 0 0 0 0,
    .cbiLtu 0 0 0 0, .cbiGeu 0 0 0 0, .cbiBset 0 0 0 0, .cbiBclr 0 0 0 0, .xfence 0 7 0, .xfence 0 0 7, .larm 0 0 0,
    .ewr 0 5 0 5] : List Instr).all
    (fun i => !i.wellFormed) = true := by decide

theorem test_illformed_words_1 : ([
    .ewr 0 5 3 0, .ewr 0 5 2 0x80, .ewra 0 5 1 6, .ewra 0 5 5 0x80, .erd 0 5 4 0, .erd 0 5 2 7, .wset 0 5 8,
    .rdcr 0 5 0x12, .wrcr 0 5 0x12] : List Instr).all
    (fun i => !i.wellFormed) = true := by decide

theorem test_illformed_events_2 : ([
    .fixedLatencyResult 260 0, .dividerResult 260, .schedulerPlacement 260, .slotDeparture 260 0, .slotDeparture 0 16,
    .switchEnd 260 0, .switchEnd 0 16, .pendingWaitExpiry 260 0, .pendingWaitExpiry 0 16, .rotation 260,
    .slot15Handover 260, .sleepDeadline 260 0, .sleepDeadline 0 257, .alignTimeout 260 0, .alignTimeout 0 257,
    .lineDelivery 16384 0, .lineDelivery 0 20, .icacheFill 16384 0 0, .icacheFill 0 20 0, .ifsyncRelease 260 0,
    .ifsyncRelease 0 257, .storeBufferDrain 260 0, .bufferEntryFreed 260 0, .tlbWalkCompletion 16384 0,
    .memoryRequestArrival 260 0, .memoryResponse 260 0, .meshAccessAnswer 260 0, .syncRequestArrival 260 0,
    .requestRetry 260 0, .syncCompletion 260 0, .syncWithdrawal 260 0, .fenceRelease 260 0, .fenceRelease 0 257,
    .xfenceRelease 260 0, .xfenceRelease 0 257, .poisonDelivery 260 0, .poisonDelivery 0 257, .startCompletion 260 0,
    .startCompletion 0 257, .wsetCompletion 260] : List Instr).all
    (fun i => !i.wellFormed) = true := by decide

theorem test_illformed_events_3 : ([
    .iterClaimResponse 260 0, .iterClaimResponse 0 257, .barrierAck 260 0, .barrierAck 0 257, .bwaitRelease 260 0,
    .bwaitRelease 0 257, .probeSend 260 0, .probeSend 0 257, .transferEnd 260 0, .messageDeparture 260 0,
    .messageDeparture 0 257, .handlerStart 260, .handlerEnd 260, .altTimeout 260 0, .altTimeout 0 257,
    .holdBufferFreed 260, .commitCompletion 260, .vectorOperationStart 260, .vectorOperationCompletion 260,
    .copyStart 260, .copyPageFault 260, .copyCompletion 260, .cpymArrival 260 0, .lateMark 260 0, .lateMark 0 64,
    .taskChoice 260, .governorGrant 260, .governorWindow 16384, .panelEnd 260, .macCountingEnd 260, .tileZeroing 260,
    .drain 260, .drainEnd 260, .outputWriteEnd 260, .mmergePerform 260, .tokenArrival 4096 [],
    .frameReceipt 4096 0 false, .frameRepair 4096 0 0, .frameApply 16384, .landing 4096] : List Instr).all
    (fun i => !i.wellFormed) = true := by decide

theorem test_illformed_events_4 : ([
    .sheafLeave 4096, .lightLoss 4096, .silenceTimeout 4096, .sheafForm 4096, .sheafLeaveRequest 4096,
    .joinFrameSend 4096, .joinFrameReceipt 4096 0, .firstTokenSend 4096, .firstTokenReceipt 4096 0,
    .formationTimeout 4096, .launchUnitRequest 16384, .launchStart 16384 0, .launchCompletion 16384 0,
    .timeShareQuantum 16384, .tenantSwitch 4096 0 0, .gsetRead 260, .gsetEndpt 260, .gsetEpctlClose 260,
    .gsetEpctlMoveBegin 260, .gsetEpctlMoveEnd 260, .gsetHusk 260, .gsetReg 260, .gsetHtab 260, .gsetLrec 260,
    .gsetFtab 260, .gsetJob 260, .gsetGate 260, .gsetDie 260, .gsetPkg 260, .gsetShoot 260, .gsetFreply 260,
    .shootdownInvalidate 260 0, .shootdownInvalidate 0 260, .shootdownAck 260 0, .shootdownAck 0 260,
    .homeWalkCompletion 16384 0, .faultMessageWrite 260, .faulttake 4096 0, .faultreply 4096 0 0 0 0,
    .migrate 4096 0 0 0 0] : List Instr).all
    (fun i => !i.wellFormed) = true := by decide

theorem test_illformed_events_5 : ([
    .lrecwrite 4096 0 0 0 0, .lrecwrite 0 0 16384 0 0, .routeload 4096 0 0 0, .scrubset 4096 0 0 0 0,
    .scrubset 0 0 16384 0 0, .dutyset 4096 0 0, .fwsupply 4096 0 false 0 [], .hostqreg 4096 0 0 false 0 0 0 false,
    .mailboxUnsupported 4096 0 0, .hostDoorbell 4096 0 0, .hostHeadPass 4096 0 0, .hostMemAccess 4096 0 0 false 0,
    .backInvalidation 4096 0 [], .hostWarmRestart 4096 [], .ldReset 4096 0, .routeSwitch 4096, .drainMarker 4096 0 0,
    .drainMarker 0 20 0, .drainMarker 0 0 7, .linkDown 4096 0, .linkDown 0 20, .patrolVisit 16384 0 0,
    .poisonFix 16384 0, .inventoryRecordWrite 16384, .teardown 16384 0 0, .teardownMarker 16384, .powerGate 260,
    .coreWake 260, .coreWakeEnd 260, .thermalTrip 16384 0, .thermalRecovery 16384 0, .dieReset 16384,
    .packageWarmReset 4096, .packageColdReset 4096, .getVersion 4096 0 0, .getCapabilities 4096 0,
    .negotiateAlgorithms 4096 0, .getDigests 4096 0, .getCertificate 4096 0 0, .challenge 4096 0 []] : List Instr).all
    (fun i => !i.wellFormed) = true := by decide

theorem test_illformed_events_6 : ([
    .getMeasurements 4096 0 0 [], .vendorDefinedRequest 4096 0 0, .spdmUnsupported 4096 0 0, .registerWrite 16384 0 0 0,
    .hostLinkReturn 4096 [], .softError 260 0 0, .softError 0 0 257, .thermalWarn 16384 0] : List Instr).all
    (fun i => !i.wellFormed) = true := by decide

end Sys2Proof.Tests
end

