-- ==== Sys2Proof/Tests/Witness.lean ====
section
/-! SUPPORT. For every statement with hypotheses, concrete states and operands that meet the hypotheses of each clause,
and single steps of placed words. Each witness names the statement it belongs to. -/

namespace Sys2Proof.Tests

open Sys2Proof.Machine

set_option maxRecDepth 20000
set_option exponentiation.threshold 2048
set_option synthInstance.maxHeartbeats 200000

/-- Process 0, of W = 128, RUNNING in slot 0 of a core, at the placed word; p changes the process and f its core. -/
def on (core : Nat) (p : Proc → Proc := id) (f : Core → Core := id) : State :=
  let q := p { (({} : Proc).freshWindow 128) with state := .running, pc := word fetchPc }
  { cores := [(core, f ((({ gateV := true } : Core).setProc 0 q).setSlot 0 { proc := some 0 }))],
    ctx := { core := core, slot := 0, pn := 0, pc := word fetchPc } }

/-- The same process of compute core 0, in no repeat. -/
def base : State := on 0

/-- Its registers as listed. -/
def regs (xs : List (Nat × Word)) (p : Proc) : Proc := xs.foldl (fun q x => q.setReg x.1 x.2) p

/-- A state in the REP of the word x, at its repeat number i. -/
def inRep (x : BitVec 32) (i : Nat) (s : State) : State := { s with ctx := { s.ctx with rep := some (repOffsets x i) } }

/-- Words in the line buffer of slot 0 from its PC on. -/
def withWords (ws : List (BitVec 32)) (s : State) : State :=
  s.modSlot s.ctx.core 0 (fun x => { x with cur := some {
    addr := fetchPc / 16, bytes := (ws.map bytesOfWord).flatten ++ List.replicate (16 - 4 * ws.length) 0 } })

/-- O1 to O4, O12, O15 to O17: operands at the ends of the register names; the word encodings of the last clause. -/
theorem witness_AluFamilyResults :
    (∃ (s : State) (d a b : BitVec 5), s.clear { reads := [s.ra a, s.rb b], writes := [s.rd d] } = true
      ∧ s.clear { reads := [s.ra a, s.rb b], writes := [s.rd d], var := true } = true)
    ∧ (∃ x : BitVec 32, x.extractLsb' 24 6 = 0x01#6 ∧ 33 ≤ (x.extractLsb' 0 9).toNat) :=
  ⟨⟨base, 31, 31, 0, by decide⟩, ⟨0x01000021, by decide⟩⟩

theorem witness_ImmediateFormsResults :
    (∃ (s : State) (d a : BitVec 5), s.clear { reads := [s.ra a], writes := [s.rd d] } = true)
    ∧ (∃ (s : State) (d : BitVec 5), s.clear { writes := [s.rd d] } = true) :=
  ⟨⟨base, 31, 31, by decide⟩, ⟨base, 0, by decide⟩⟩

theorem witness_BitFieldResults :
    ∃ (s : State) (d a b : BitVec 5), s.clear { reads := [s.ra a, s.rd d], writes := [s.rd d] } = true
      ∧ s.clear { reads := [s.ra a, s.rb b, s.rd d], writes := [s.rd d] } = true := ⟨base, 31, 1, 31, by decide⟩

/-- Every case of a compare: equal and unequal operands; the branch target is the word itself. -/
theorem witness_BranchesAndSkips :
    (∃ (s : State) (a b : BitVec 5), s.clear { reads := [s.ra a, s.rb b] } = true ∧ (s.g (s.ra a) == s.g (s.rb b)) = true
      ∧ s.mayJump (s.ctx.pc + ((((0 : BitVec 9).signExtend 64) : Word) <<< 2)) = true)
    ∧ (∃ (s : State) (a b : BitVec 5), s.clear { reads := [s.ra a, s.rb b] } = true ∧ (s.g (s.ra a) == s.g (s.rb b)) = false)
    ∧ (∃ (s : State) (core i n : Nat) (pc : Word), 0 < n ∧
      ∀ k v, k < n → s.wordAt core i ((pc + 4).toNat + 4 * k) = some v → v.extractLsb' 24 6 ≠ 0x15#6)
    ∧ (∃ (s : State) (core i addr : Nat) (v : BitVec 32), s.wordAt core i addr = some v ∧ v.extractLsb' 24 6 = 0x15#6)
    ∧ (∃ (s : State) (core i addr : Nat) (v : BitVec 32), s.wordAt core i addr = some v ∧ v.extractLsb' 24 6 ≠ 0x15#6) := by
  refine ⟨⟨base, 31, 0, by decide⟩, ⟨on 0 (regs [(31, 1)]), 31, 0, by decide⟩, ⟨base, 0, 0, 1, 0, by decide, ?_⟩,
    ⟨withWords [0x151F0000] base, 0, 0, fetchPc, 0x151F0000, by decide⟩,
    ⟨withWords [0x01734E00] base, 0, 0, fetchPc, 0x01734E00, by decide⟩⟩
  intro k v hk h
  obtain rfl : k = 0 := by omega
  have : base.wordAt 0 0 ((0 + 4 : Word).toNat + 4 * 0) = none := by decide
  rw [this] at h
  cases h

theorem witness_JumpsAndLinks :
    (∃ (s : State) (o : BitVec 24), s.clear {} = true ∧ s.clear { writes := [1], var := true } = true
      ∧ s.mayJump (s.ctx.pc + ((o.signExtend 64 : Word) <<< 2)) = true)
    ∧ (∃ (s : State) (d a : BitVec 5) (i : BitVec 14), s.clear { reads := [s.ra a], writes := [s.rd d], var := true } = true
      ∧ (s.g (s.ra a) + ((i.signExtend 64 : Word) <<< 2)).toNat % 4 = 0
      ∧ s.mayJump (s.g (s.ra a) + ((i.signExtend 64 : Word) <<< 2)) = true)
    ∧ (∃ (s : State) (d a : BitVec 5) (i : BitVec 14), s.clear { reads := [s.ra a], writes := [s.rd d], var := true } = true
      ∧ (s.g (s.ra a) + ((i.signExtend 64 : Word) <<< 2)).toNat % 4 ≠ 0) :=
  ⟨⟨base, 0x800000, by decide⟩, ⟨base, 31, 31, 0x2000, by decide⟩, ⟨on 0 (regs [(31, 3)]), 31, 31, 0, by decide⟩⟩

/-- An ADD after the REP may be repeated, and a J may not; a second repeat, and a last one. -/
theorem witness_RepeatProgress :
    (∃ (s : State) (m : BitVec 3) (v : BitVec 32), s.fetched s.ctx.core s.ctx.slot (s.ctx.pc + 4).toNat = .word v
      ∧ repeatLegal (isKernel s.ctx.core) m v = true ∧ s.clear {} = true)
    ∧ (∃ (s : State) (m : BitVec 3) (v : BitVec 32), s.fetched s.ctx.core s.ctx.slot (s.ctx.pc + 4).toNat = .word v
      ∧ repeatLegal (isKernel s.ctx.core) m v = false ∧ s.me.state = .running)
    ∧ (∃ s : State, s.clear {} = true ∧ s.ctx.rep.isSome = true ∧ 1 < min s.me.repRemain.toNat 64)
    ∧ (∃ s : State, s.clear {} = true ∧ s.ctx.rep.isSome = true ∧ min s.me.repRemain.toNat 64 ≤ 1)
    ∧ (∃ (x : BitVec 32) (i : Nat) (s : State), s.ctx.rep = some (repOffsets x i)) :=
  ⟨⟨withWords [0x151F0000, 0x01734E00] base, 6, 0x01734E00, by decide⟩,
   ⟨withWords [0x151F0000, 0x12000010] base, 6, 0x12000010, by decide⟩,
   ⟨inRep 0x151F0000 0 (on 0 (fun p => { p with repRemain := 2 })), by decide⟩,
   ⟨inRep 0x151F0000 0 (on 0 (fun p => { p with repRemain := 1 })), by decide⟩, ⟨0x151F0000, 63, inRep 0x151F0000 63 base, by decide⟩⟩

theorem witness_MiscGroupResults :
    (∃ s : State, s.clear {} = true ∧ s.inHandler = false ∧ (s.core s.ctx.core).readyAt s.me.prio.toNat = [])
    ∧ (∃ (s : State) (h : Nat) (l : List Nat), s.clear {} = true ∧ s.ctx.pn < 255
      ∧ (s.core s.ctx.core).readyAt s.me.prio.toNat = h :: l ∧ s.ctx.slot < (s.core s.ctx.core).slots.length
      ∧ (s.core s.ctx.core).slot15Work = false)
    ∧ (∃ (s : State) (h : Nat) (l : List Nat), s.clear {} = true ∧ s.ctx.pn < 255
      ∧ (s.core s.ctx.core).readyAt s.me.prio.toNat = h :: l ∧ s.ctx.slot < (s.core s.ctx.core).slots.length
      ∧ s.ctx.slot = 15 ∧ (s.core s.ctx.core).slot15Work = true)
    ∧ (∃ s : State, s.clear {} = true ∧ s.inHandler = false ∧ isKernel s.ctx.core = true)
    ∧ (∃ s : State, s.clear {} = true ∧ s.inHandler = false ∧ s.ctx.pn ≠ 255 ∧ isKernel s.ctx.core = false
      ∧ (s.cluster (dieOf s.ctx.core) (clusterOf s.ctx.core)).aligns = []
      ∧ 2 < s.alignParty (dieOf s.ctx.core) (clusterOf s.ctx.core) (s.core s.ctx.core).launchId) :=
  ⟨⟨base, by decide⟩, ⟨on 0 id (fun c => { c with ready := [(0, [7, 8])] }), 7, [8], by decide⟩,
   ⟨{ on 0 id (fun c => { c.setProc 255 { state := .ready } with ready := [(0, [7, 8])] }) with
      ctx := { base.ctx with slot := 15 } }, 7, [8], by decide⟩, ⟨on 256, by decide⟩,
   ⟨on 0 id (fun c => ((c.setProc 1 { state := .ready }).setProc 254 { state := .blockedChan }).setProc 255 { state := .running }),
    by decide⟩⟩

/-- A core with one field in layout 0: field 7, bits [127:64] signed. -/
def withField (c : Core) : Core := { c with layout := [(7, 0x7FC0)] }

theorem witness_HeaderFieldResults :
    (∃ (s : State) (d a b : BitVec 5), let fs := (s.core s.ctx.core).fields ((s.g (s.rb b)).toNat % 16)
      fs ≠ [] ∧ s.clear { reads := s.rb b :: fs.map (fun f => s.ra a + f.1), writes := [s.rd d, s.rd d + 1] } = true
      ∧ s.clear { reads := [s.rb b, s.ra a, s.ra a + 1], writes := fs.map (fun f => s.rd d + f.1) } = true)
    ∧ (∃ (s : State) (d a b : BitVec 5), s.clear { reads := [s.ra a, s.rb b] } = true
      ∧ s.clear { reads := [s.ra a], writes := [s.rd d], var := true } = true) :=
  ⟨⟨on 0 id withField, 31, 31, 0, by decide⟩, ⟨base, 31, 31, 31, by decide⟩⟩

theorem witness_RelativeAccessResults :
    (∃ (s : State) (d : BitVec 5) (k : BitVec 14) (n : Nat), (s.me.xi.toInt + k.toInt : Int) = (n : Nat) ∧ n < s.me.wsz
      ∧ s.clear { reads := [n], writes := [s.rd d] } = true)
    ∧ (∃ (s : State) (a : BitVec 5) (k : BitVec 12) (n : Nat), (s.me.xi.toInt + k.toInt : Int) = (n : Nat) ∧ n < s.me.wsz
      ∧ s.clear { reads := [s.ra a], writes := [n], var := true } = true)
    ∧ (∃ (s : State) (d : BitVec 5) (k : BitVec 14) (n : Int), s.me.xi.toInt + k.toInt = n ∧ n < 0
      ∧ s.clear { writes := [s.rd d] } = true)
    ∧ (∃ (s : State) (a : BitVec 5) (k : BitVec 12) (n : Int), s.me.xi.toInt + k.toInt = n ∧ (s.me.wsz : Int) ≤ n
      ∧ s.clear { reads := [s.ra a], var := true } = true) := by
  refine ⟨⟨base, 31, 127, 127, ?_⟩, ⟨base, 31, 0, 0, ?_⟩, ⟨base, 31, 0x3FFF, -1, ?_⟩, ⟨base, 31, 128, 128, ?_⟩⟩ <;> decide

/-- The first and the last control register. -/
theorem witness_ControlRegisterAccess :
    (∃ (s : State) (d : BitVec 5) (c : BitVec 8), c.toNat < 0x12 ∧ s.controlReady c.toNat = true
      ∧ s.clear { writes := [s.rd d] } = true)
    ∧ (∃ (s : State) (a : BitVec 5) (c : BitVec 8), c.toNat < 0x12 ∧ s.controlReady c.toNat = true
      ∧ s.clear { reads := [s.ra a] } = true ∧ (s.inHandler && c.toNat == 0x04) = false
      ∧ (s.ctx.rep.isSome && c.toNat == 0x09) = false)
    ∧ (∃ x : BitVec 32, x.extractLsb' 24 6 = 0x38#6 ∧ 0x12 ≤ (x.extractLsb' 0 8).toNat) :=
  ⟨⟨base, 31, 0, by decide⟩, ⟨base, 31, 0x11, by decide⟩, ⟨0x38000012, by decide⟩⟩

theorem witness_ScalarFloatResults :
    ∃ (s : State) (d a b : BitVec 5), s.clear { reads := [s.ra a, s.rb b], writes := [s.rd d] } = true
      ∧ s.clear { reads := [s.ra a, s.rb b, s.rd d], writes := [s.rd d] } = true
      ∧ s.clear { reads := [s.ra a], writes := [s.rd d], var := true } = true
      ∧ s.clear { reads := [s.ra a, s.rb b], writes := [s.rd d], var := true } = true := ⟨base, 31, 31, 31, by decide⟩

theorem witness_FloatSpecialOperands :
    ∃ a b c d e : Val, a.isNan = true ∧ b.isNan = false ∧ (b.isInf && c.isZero) = true ∧ (b.isInf && b.isInf) = true
      ∧ (c.isZero && c.isZero) = true ∧ d = .fin true 1 0 ∧ e.isNan = true :=
  ⟨.nan true, .inf true, .fin true 0 0, .fin true 1 0, .nan false, by decide⟩

/-- The greatest code of FP64 and 0 of E2M1. -/
theorem witness_RepresentableValuesConvertExactly :
    (fp64 ∈ [fp64, fp32, bf16, e5m2, e4m3, e2m1] ∧ 0xFFEFFFFFFFFFFFFF < 2 ^ fp64.width
      ∧ (fp64.decode 0xFFEFFFFFFFFFFFFF).isNan = false ∧ (fp64.decode 0xFFEFFFFFFFFFFFFF).isInf = false)
    ∧ (e2m1 ∈ [fp64, fp32, bf16, e5m2, e4m3, e2m1] ∧ 0 < 2 ^ e2m1.width
      ∧ (e2m1.decode 0).isNan = false ∧ (e2m1.decode 0).isInf = false) := by decide

theorem witness_DivisionResults :
    (∃ (s : State) (d a b : BitVec 5), s.clear { reads := [s.ra a, s.rb b], writes := [s.rd d], var := true } = true)
    ∧ (∃ a b : Word, b ≠ 0 ∧ ¬ (a = 0x8000000000000000 ∧ b = -1)) :=
  ⟨⟨base, 31, 31, 31, by decide⟩, ⟨0x8000000000000000, 1, by decide⟩⟩

theorem witness_FloatCompares :
    (∃ (s : State) (d a b : BitVec 5), s.clear { reads := [s.ra a, s.rb b], writes := [s.rd d] } = true)
    ∧ (∃ a b : Val, (a.isNan || b.isNan) = true) := ⟨⟨base, 31, 31, 31, by decide⟩, ⟨.inf true, .nan true, by decide⟩⟩

theorem witness_ClassesOfFclass :
    ∃ (s : State) (d a : BitVec 5), s.clear { reads := [s.ra a], writes := [s.rd d] } = true := ⟨base, 31, 31, by decide⟩

theorem witness_RecoverableTrapEntry :
    (∃ (s : State) (i : Nat), s.clear {} = true ∧ s.ctx.pn < 256 ∧ s.me.tvec ≠ 0
      ∧ (s.core s.ctx.core).slotOf s.ctx.pn = some i)
    ∧ (∃ (s : State) (i : Nat), s.clear {} = true ∧ s.ctx.pn < 256 ∧ s.me.tvec = 0 ∧ isKernel s.ctx.core = false
      ∧ (s.core s.ctx.core).slotOf s.ctx.pn = some i ∧ ((s.core s.ctx.core).slot i).leaving = none) :=
  ⟨⟨on 0 (fun p => { p with tvec := 0x1000 }), 0, by decide⟩, ⟨base, 0, by decide⟩⟩

theorem witness_IllegalWordsTrap :
    (∃ (s : State) (x : BitVec 32) (i : Nat), decode x = none ∧ s.me.state = .running ∧ s.ctx.pn < 256
      ∧ isKernel s.ctx.core = false ∧ (s.core s.ctx.core).slotOf s.ctx.pn = some i
      ∧ ((s.core s.ctx.core).slot i).leaving = none)
    ∧ (∃ (s : State) (x : BitVec 32) (i : Nat), decode x = none ∧ s.me.state = .running ∧ s.ctx.pn < 256
      ∧ isKernel s.ctx.core = true ∧ s.me.tvec ≠ 0 ∧ (s.core s.ctx.core).slotOf s.ctx.pn = some i)
    ∧ (∃ x : BitVec 32, (x.extractLsb' 24 6).toNat ∈ [0x00, 0x3B, 0x3C, 0x3D, 0x3E, 0x3F])
    ∧ (∃ x : BitVec 32, x.extractLsb' 24 6 = 0x14#6)
    ∧ (∃ x : BitVec 32, x.extractLsb' 24 6 = 0x39#6 ∧ x.extractLsb' 14 10 ≠ 0#10) :=
  ⟨⟨base, 0, 0, by decide⟩, ⟨on 256 (fun p => { p with tvec := 4 }), 0xFFFFFFFF, 0, by decide⟩, ⟨0x3F000000, by decide⟩,
   ⟨0x14000000, by decide⟩, ⟨0x39800000, by decide⟩⟩

/-- A result in flight to g31 of process 0. -/
def inFlight (c : Core) : Core := { c with flight := [{ pn := 0, writes := [(31, 1)], due := 1, seq := 0 }] }

theorem witness_IssueChecksInOrder :
    (∃ (s : State) (d a b : BitVec 5) (n : Nat), s.me.state = .running ∧ n ∈ [s.ra a, s.rb b, s.rd d]
      ∧ s.me.isPending n = true)
    ∧ (∃ (s : State) (d a b : BitVec 5) (n : Nat), s.me.state = .running
      ∧ ([s.ra a, s.rb b, s.rd d].any s.me.isPending) = false
      ∧ [s.ra a, s.rb b, s.rd d].find? (fun k => s.me.wsz ≤ k) = some n)
    ∧ (∃ (s : State) (d a b : BitVec 5) (n : Nat), s.me.state = .running
      ∧ ([s.ra a, s.rb b, s.rd d].any s.me.isPending) = false ∧ (∀ k ∈ [s.ra a, s.rb b, s.rd d], k < s.me.wsz)
      ∧ s.me.schk = true ∧ 0 < n
      ∧ [s.ra a, s.rb b].find? (fun k => k != 0 && (s.core s.ctx.core).flight.any (fun f =>
        f.pn == s.ctx.pn && f.writes.any (fun e => e.1 == k))) = some n)
    ∧ (∃ (s : State) (a b : BitVec 5), s.me.state = .running ∧ ([s.ra a, s.rb b].any s.me.isPending) = false
      ∧ isKernel s.ctx.core = false)
    ∧ (∃ (s : State) (a : BitVec 5), s.me.state = .running ∧ s.me.isPending (s.ra a) = false
      ∧ isKernel s.ctx.core = true) :=
  ⟨⟨on 0 (fun p => p.setPending 31 true), 31, 1, 2, 31, by decide⟩, ⟨on 0 (fun p => { p with wsz := 16 }), 16, 15, 0, 16, by decide⟩,
   ⟨on 0 (fun p => { p with schk := true }) inFlight, 31, 31, 31, 31, by decide⟩, ⟨base, 31, 31, by decide⟩,
   ⟨on 259, 31, by decide⟩⟩

/-- An address of the core's own pool, 0, and one of the global space that the TLB does not hold; address 1 is no multiple
of 8. -/
theorem witness_LoadsAndAtomicsIssue :
    (∃ (s : State) (d a b : BitVec 5) (q : Req), s.inRegion = false
      ∧ s.clear { reads := [s.ra a], writes := [s.rd d], var := true } = true
      ∧ s.clear { reads := [s.ra a], writes := [s.rd d, s.rd d + 1], var := true } = true
      ∧ s.clear { reads := [s.ra a, s.rb b, s.rd d], writes := [s.rd d], var := true } = true
      ∧ s.placeOf (s.requestOf { kind := .load false, ea := 0, size := 8, dest := 31 }) = some q
      ∧ (s.core s.ctx.core).entryFree q = true)
    ∧ (∃ s : State, s.locate s.ctx.core (s.requestOf { kind := .load false, ea := 1, size := 8, dest := 31 }) = .trap .align)
    ∧ (∃ s : State, s.locate s.ctx.core (s.requestOf { kind := .load false, ea := 2 ^ 48, size := 8, dest := 31 }) = .miss) :=
  ⟨⟨base, 31, 31, 31, _, by decide, by decide, by decide, by decide, rfl, by decide⟩, ⟨base, rfl⟩, ⟨base, rfl⟩⟩

/-- A region of process 0 is open; its pool and a global page stand for the two kinds of address. -/
def region (c : Core) : Core := { c with hold := { owner := some 0 } }

/-- A leaf for address 2^48 of job 0: HBM of die 0, valid, readable and writable. -/
def page (leaf : Word) (c : Core) : Core := { c with tlb := [{ job := 0, large := false, vpn := 2 ^ 32, leaf := leaf }] }

theorem witness_StoresIssue :
    (∃ (s : State) (r a : BitVec 5), s.clear { reads := [s.ra a, s.rd r] } = true ∧ s.inRegion = false
      ∧ ∃ q, s.placeOf (s.requestOf { kind := .store, ea := 8, size := 8, data := 1 }) = some q
        ∧ (s.core s.ctx.core).entryFree q = true)
    ∧ (∃ (s : State) (r a : BitVec 5) (o : BitVec 11) (q : Req), s.clear { reads := [s.ra a, s.rd r] } = true ∧ s.inRegion = true
      ∧ s.placeOf (s.requestOf { kind := .store, ea := s.g (s.ra a) + (o.signExtend 64 : Word) * 8, size := 8, data := s.g (s.rd r) })
        = some q ∧ q.ownPool = false ∧ (s.core s.ctx.core).hold.room 8 = true) := by
  refine ⟨⟨base, 31, 31, by decide, by decide, _, rfl, by decide⟩,
    ⟨on 0 (regs [(31, 2 ^ 48)]) (fun c => region (page 0x7 c)), 31, 31, 0, _, ?_, ?_, rfl, ?_, ?_⟩⟩ <;> decide

/-- A handler at work in slot 15. -/
def inlineHandler : State :=
  { on 0 id (fun c => (c.setProc 256 { (({} : Proc).freshWindow 32) with state := .running, pc := word fetchPc }).setSlot 15
      { proc := some 256 }) with ctx := { base.ctx with slot := 15, pn := 256 } }

theorem witness_BlockingAccessesIssue :
    (∃ (s : State) (d a : BitVec 5), s.clear { reads := [s.ra a], writes := [s.rd d], var := true } = true ∧ s.inRegion = false
      ∧ s.inHandler = false)
    ∧ (∃ (s : State) (d a r : BitVec 5), s.clear { reads := [s.ra a], writes := [s.rd d], var := true } = true
      ∧ s.clear { reads := [s.ra a, s.rd r] } = true ∧ s.clear {} = true ∧ s.inHandler = true)
    ∧ (∃ (s : State) (d a : BitVec 5) (o : BitVec 11), s.clear { reads := [s.ra a], writes := [s.rd d], var := true } = true
      ∧ s.inRegion = true
      ∧ (spaceOf (isKernel s.ctx.core) (s.g (s.ra a) + (o.signExtend 64 : Word) * 8)).leaves = true) :=
  ⟨⟨base, 31, 31, by decide⟩, ⟨inlineHandler, 31, 31, 31, by decide⟩, ⟨on 0 (regs [(31, 2 ^ 48)]) region, 31, 31, 0, by decide⟩⟩

/-- Fences with and without an earlier access of the process, an XFENCE from V to V, from V to C, and from path code 7. -/
theorem witness_FencesHoldAndRelease :
    (∃ (s : State) (p q : BitVec 3), s.clear {} = true ∧ s.inHandler = false ∧ s.pathA p < 7 ∧ s.pathA p = s.pathB q)
    ∧ (∃ (s : State) (p q : BitVec 3), s.clear {} = true ∧ s.inHandler = false ∧ s.pathA p < 7 ∧ s.pathB q < 7
      ∧ s.pathA p ≠ s.pathB q)
    ∧ (∃ (s : State) (p q : BitVec 3), s.clear {} = true ∧ s.inHandler = true ∧ s.pathA p < 7 ∧ s.pathB q < 7)
    ∧ (∃ (s : State) (p q : BitVec 3), (7 ≤ s.pathA p ∨ 7 ≤ s.pathB q) ∧ s.me.state = .running)
    ∧ (∃ (s : State) (core pn : Nat) (sc : Scope) (n : Nat), (s.proc core pn).wait = .fence sc n
      ∧ (s.core core).fenceDone sc pn n = true ∧ (s.proc core pn).state = .blockedSync)
    ∧ (∃ (s : State) (core pn : Nat) (sc : Scope) (n : Nat), (s.proc core pn).wait = .fence sc n
      ∧ (s.core core).fenceDone sc pn n = false)
    ∧ (∃ (s : State) (core pn : Nat) (p q : Path), (s.proc core pn).wait = .xfence p q
      ∧ (s.proc core pn).state = .blockedSync) :=
  ⟨⟨base, 6, 6, by decide⟩, ⟨base, 1, 0, by decide⟩, ⟨inlineHandler, 1, 0, by decide⟩, ⟨base, 7, 0, by decide⟩,
   ⟨on 0 (fun p => { p with state := .blockedSync, wait := .fence .die 1 }), 0, 0, .die, 1, by decide⟩,
   ⟨on 0 (fun p => { p with state := .blockedSync, wait := .fence .all 1 }) (fun c => { c with reqs := [{ pn := 0 }] }), 0, 0, .all, 1,
    by decide⟩,
   ⟨on 0 (fun p => { p with state := .blockedSync, wait := .xfence .v .c }), 0, 0, .v, .c, by decide⟩⟩

/-- Empty memory and a FULL word, for each kind of access. -/
theorem witness_ServiceOfAccesses :
    (∃ (m : Memory) (r : Req) (k : Nat), m.wf = true ∧ m.isPoisoned k = false ∧ r.host = false ∧ r.size ∈ [1, 2, 4, 8]
      ∧ k % r.size = 0 ∧ r.kind = .put ∧ m.isFull (k / 8) = false)
    ∧ (∃ (m : Memory) (r : Req) (k : Nat), m.wf = true ∧ m.isPoisoned k = false ∧ r.host = false ∧ r.size ∈ [1, 2, 4, 8]
      ∧ k % r.size = 0 ∧ r.kind = .take ∧ m.isFull (k / 8) = true)
    ∧ (∃ (m : Memory) (r : Req) (k : Nat), m.wf = true ∧ m.isPoisoned k = false ∧ r.host = false ∧ r.size ∈ [1, 2, 4, 8]
      ∧ k % r.size = 0 ∧ r.kind = .load true ∧ r.fe = true ∧ m.isFull (k / 8) = false)
    ∧ (∃ (m : Memory) (r : Req) (k : Nat), m.wf = true ∧ m.isPoisoned k = false ∧ r.host = false ∧ r.size ∈ [1, 2, 4, 8]
      ∧ k % r.size = 0 ∧ r.kind = .cas ∧ m.read k r.size = r.cmp.toNat % 256 ^ r.size)
    ∧ (∃ (m : Memory) (r : Req) (k : Nat), m.wf = true ∧ m.isPoisoned k = false ∧ r.host = false ∧ r.size ∈ [1, 2, 4, 8]
      ∧ k % r.size = 0 ∧ r.kind = .cas ∧ m.read k r.size ≠ r.cmp.toNat % 256 ^ r.size)
    ∧ (∃ (m : Memory) (r : Req) (k : Nat), m.wf = true ∧ m.isPoisoned k = false ∧ r.host = false ∧ r.size ∈ [1, 2, 4, 8]
      ∧ k % r.size = 0 ∧ r.kind = .iterClaim ∧ r.size = 8) := by
  refine ⟨⟨{}, { kind := .put }, 8, ?_⟩, ⟨{ full := [1] }, { kind := .take }, 8, ?_⟩,
    ⟨{}, { kind := .load true, fe := true, size := 1 }, 7, ?_⟩, ⟨{}, { kind := .cas, size := 4 }, 4, ?_⟩,
    ⟨{}, { kind := .cas, size := 4, cmp := 1 }, 4, ?_⟩, ⟨{}, { kind := .iterClaim }, 8, ?_⟩⟩ <;> decide

/-- The greatest numbers of each width, a NaN and a number, and the last chunk. -/
theorem witness_AtomicFunctions :
    (∃ n old b : Nat, (n = 4 ∨ n = 8) ∧ old < 256 ^ n ∧ b < 256 ^ n
      ∧ ((fp32.decode old).isNan || (fp32.decode b).isNan) = true)
    ∧ (∃ n old b : Nat, (n = 4 ∨ n = 8) ∧ old < 256 ^ n ∧ b < 256 ^ n
      ∧ ((fp64.decode old).isNan || (fp64.decode b).isNan) = false)
    ∧ (∃ n p c : Nat, 0 < p ∧ c ≤ n) :=
  ⟨⟨4, 0xFFFFFFFF, 0, by decide⟩, ⟨8, 0, 0x7FF0000000000000, by decide⟩, ⟨5, 1, 5, by decide⟩⟩

/-- Core 0 is the one core of launch 1; its cores not done are listed. -/
def launched (undone : List Nat) (s : State) : State :=
  (s.modCore 0 (fun c => { c with launch := some { id := 1 } })).modDie 0 (fun d => { d with
    running := [{ id := 1, record := 0, core := 0, entry := 0, undone := undone }] })

theorem witness_ProcessInstructions :
    (∃ (s : State) (d a b : BitVec 5) (i : Nat), s.clear { reads := [s.ra a, s.rb b], writes := [s.rd d], var := true } = true
      ∧ s.inHandler = false ∧ (s.g (s.ra a)).toNat % 4 = 0 ∧ s.clear {} = true ∧ s.inRegion = false
      ∧ (s.core s.ctx.core).slotOf s.ctx.pn = some i ∧ ((s.core s.ctx.core).slot i).leaving = none
      ∧ s.launchOf s.ctx.core = none ∧ (s.g (s.ra a)).toNat ≤ (s.cyc (dieOf s.ctx.core)).toNat)
    ∧ (∃ (s : State) (d a b : BitVec 5), s.clear { reads := [s.ra a, s.rb b], writes := [s.rd d], var := true } = true
      ∧ s.inHandler = false ∧ (s.g (s.ra a)).toNat % 4 ≠ 0)
    ∧ (∃ (s : State) (a : BitVec 5), s.clear { reads := [s.ra a] } = true ∧ s.inHandler = false
      ∧ (s.cyc (dieOf s.ctx.core)).toNat < (s.g (s.ra a)).toNat)
    ∧ (∃ core pn : Nat, pn < 256 ∧ core < 2048 * 4096 ∧ core % 512 < 256)
    ∧ (∃ core pn : Nat, pn < 256 ∧ core < 2048 * 4096 ∧ 256 ≤ core % 512 ∧ core % 512 < 260)
    ∧ (∃ (s : State) (a : BitVec 5) (l : LaunchRef) (r : Running) (x y m n : Nat), s.clear { reads := [s.ra a] } = true
      ∧ s.inHandler = false ∧ s.launchOf s.ctx.core = some (l, r) ∧ subRect l (s.g (s.ra a)) = some (x, y, m, n)
      ∧ 0 < barrierCount l r x y m n)
    ∧ (∃ (s : State) (a : BitVec 5) (l : LaunchRef) (r : Running) (x y m n : Nat), s.clear { reads := [s.ra a] } = true
      ∧ s.inHandler = false ∧ s.launchOf s.ctx.core = some (l, r) ∧ subRect l (s.g (s.ra a)) = some (x, y, m, n)
      ∧ barrierCount l r x y m n = 0)
    ∧ (∃ (s : State) (a : BitVec 5) (l : LaunchRef) (r : Running), s.clear { reads := [s.ra a] } = true
      ∧ s.inHandler = false ∧ s.launchOf s.ctx.core = some (l, r) ∧ subRect l (s.g (s.ra a)) = none) := by
  refine ⟨⟨base, 31, 31, 31, 0, ?_⟩, ⟨on 0 (regs [(31, 2)]), 31, 31, 31, ?_⟩, ⟨on 0 (regs [(31, 1)]), 31, ?_⟩,
    ⟨255 + 512 * 3, 255, ?_⟩, ⟨259, 0, ?_⟩, ⟨launched [0] base, 0, _, _, _, _, _, _, ?_, ?_, rfl, rfl, ?_⟩,
    ⟨launched [] base, 0, _, _, _, _, _, _, ?_, ?_, rfl, rfl, ?_⟩,
    ⟨launched [0] (on 0 (regs [(31, 1)])), 31, _, _, ?_, ?_, rfl, ?_⟩⟩ <;> decide

/-- A START of process 0 that waits for its completion, with register g31 as its destination. -/
def starting (w : Nat) (c : Core) : Core := { c with starts := [{
  pn := 0, dest := 31, entry := word fetchPc, arg := 1, gp := 2, prio := 3, wsz := w, depmax := 0, last := 8 }] }

/-- Sixteen processes hold every register window beyond that of process 0. -/
def noWindow (c : Core) : Core :=
  (List.range 16).foldl (fun c i => c.setProc (1 + i) { state := .ready, wsz := 128, wbase := BitVec.ofNat 12 (128 + 8 * i) }) c

/-- Every process number that a START may take is in use. -/
def noNumber (c : Core) : Core := { c with procs := (List.range 255).map (fun n => (n, { state := .running, regs := List.replicate 32 0 })) }

theorem witness_ResultsArrive :
    (∃ (s : State) (core idx : Nat) (f : Flight) (rest : List Flight),
      takeAt (s.core core).flight idx = some (f, rest) ∧ s.ticks < f.due)
    ∧ (∃ (s : State) (core idx : Nat) (f : Flight) (rest : List Flight) (n : Nat) (v : Word),
      takeAt (s.core core).flight idx = some (f, rest) ∧ f.due ≤ s.ticks ∧ f.writes = [(n, v)] ∧ 0 < n
      ∧ n < (s.proc core f.pn).regs.length ∧ (s.proc core f.pn).state = .running)
    ∧ (∃ (s : State) (core : Nat) (o : DivOp) (rest : List DivOp), (s.core core).divider = o :: rest ∧ 0 < o.dest
      ∧ o.dest < (s.proc core o.pn).regs.length ∧ (s.proc core o.pn).pend.length = (s.proc core o.pn).regs.length
      ∧ (s.proc core o.pn).state = .running)
    ∧ (∃ (s : State) (core : Nat) (x : Start) (rest : List Start) (n b : Nat), (s.core core).starts = x :: rest
      ∧ (s.core core).freeNumber = some n ∧ (s.core core).allocWindow x.wsz = some b ∧ x.wsz ∈ [16, 32, 64, 128]
      ∧ x.pn ≠ n ∧ (s.proc core x.pn).state = .running ∧ 0 < x.dest ∧ x.dest < (s.proc core x.pn).regs.length)
    ∧ (∃ (s : State) (core : Nat) (x : Start) (rest : List Start), (s.core core).starts = x :: rest
      ∧ (s.core core).freeNumber = none ∧ (s.proc core x.pn).state = .running ∧ 0 < x.dest
      ∧ x.dest < (s.proc core x.pn).regs.length)
    ∧ (∃ (s : State) (core : Nat) (x : Start) (rest : List Start) (n : Nat), (s.core core).starts = x :: rest
      ∧ (s.core core).freeNumber = some n ∧ (s.core core).allocWindow x.wsz = none
      ∧ (s.proc core x.pn).state = .running ∧ 0 < x.dest ∧ x.dest < (s.proc core x.pn).regs.length)
    ∧ (∃ (s : State) (core pn n : Nat) (d : BitVec 256) (u : Nat) (rest : List (Nat × Nat × BitVec 256 × Nat)),
      (s.core core).wsetOps = (pn, n, d, u) :: rest ∧ (s.proc core pn).wait = .wset u) := by
  refine ⟨⟨on 0 id inFlight, 0, 0, _, _, rfl, ?_⟩, ⟨{ on 0 id inFlight with ticks := 1 }, 0, 0, _, _, 31, 1, rfl, ?_⟩,
    ⟨on 0 id (fun c => { c with divider := [{ pn := 0, dest := 31, value := 1, flags := 0, cycles := 34, startBy := 0 }] }), 0,
      _, _, rfl, ?_⟩,
    ⟨on 0 id (starting 16), 0, _, _, 1, 128, rfl, ?_⟩, ⟨on 0 id (fun c => starting 16 (noNumber c)), 0, _, _, rfl, ?_⟩,
    ⟨on 0 id (fun c => starting 128 (noWindow c)), 0, _, _, 17, rfl, ?_⟩,
    ⟨on 0 (fun p => { p with held := true, wait := .wset 8 }) (fun c => { c with wsetOps := [(0, 7, 1, 8)] }), 0, 0, 7, 1, 8, [], ?_⟩⟩ <;> decide

/-- The endpoint of handle 1 of process 0, whose other end is process 0 of core 1. -/
def withEp (e : Endpoint) (c : Core) : Core := { c with endpoints := [(1, { e with valid := true, pcore := 1 })] }

/-- g31 holds handle 1 and g30 an operand; the endpoint of handle 1 is e; a pending request of process 0 where busy. -/
def chan (e : Endpoint) (x : Word := 0) (f : Core → Core := id) : State :=
  on 0 (regs [(31, 1), (30, x)]) (fun c => f (withEp e c))

def anAccess (c : Core) : Core := { c with reqs := [{ pn := 0 }], nextTag := 1 }

theorem witness_ChannelInstructions :
    (∃ (s : State) (a b : BitVec 5) (e : Endpoint), s.clear { reads := [s.ra a, s.rb b] } = true
      ∧ s.chanOk (handleOf (s.g (s.ra a))) { dirIn := false, typs := [0], mode := some false } e ∧ e.isHost = false
      ∧ e.state ≠ 7 ∧ e.peerCore ≠ s.ctx.core ∧ s.released)
    ∧ (∃ (s : State) (a b : BitVec 5) (e : Endpoint), s.clear { reads := [s.ra a, s.rb b] } = true
      ∧ s.chanOk (handleOf (s.g (s.ra a))) { dirIn := false, typs := [0], mode := some false } e ∧ ¬ s.released)
    ∧ (∃ (s : State) (a b : BitVec 5) (e : Endpoint), s.clear { reads := [s.ra a, s.rb b] } = true
      ∧ handleOf (s.g (s.ra a)) ≠ loopbackHandle
      ∧ s.chanOk (handleOf (s.g (s.ra a))) { dirIn := false, typs := [1], mode := none } e ∧ e.buffered = false
      ∧ e.isHost = false ∧ e.state ≠ 7 ∧ e.peerCore ≠ s.ctx.core ∧ s.released
      ∧ (s.core s.ctx.core).inScratchpad (s.g (s.rb b)) e.len = true ∧ (s.g (s.rb b)).toNat % 32 = 0)
    ∧ (∃ (s : State) (a b : BitVec 5) (e : Endpoint), s.clear { reads := [s.ra a, s.rb b] } = true
      ∧ handleOf (s.g (s.ra a)) ≠ loopbackHandle
      ∧ s.chanOk (handleOf (s.g (s.ra a))) { dirIn := false, typs := [1], mode := none } e ∧ e.buffered = true ∧ e.credit ≠ 0
      ∧ e.state ≠ 7 ∧ s.inRegion = false ∧ (s.core s.ctx.core).inScratchpad (s.g (s.rb b)) e.len = true
      ∧ (s.g (s.rb b)).toNat % 32 = 0)
    ∧ (∃ (s : State) (a b : BitVec 5) (e : Endpoint), s.clear { reads := [s.ra a, s.rb b] } = true
      ∧ s.chanOk (handleOf (s.g (s.ra a))) { dirIn := false, typs := [0], mode := some true } e ∧ s.inRegion = false
      ∧ e.state ≠ 7 ∧ e.credit ≠ 0)
    ∧ (∃ (s : State) (a b : BitVec 5) (e : Endpoint), s.clear { reads := [s.ra a, s.rb b] } = true
      ∧ s.chanOk (handleOf (s.g (s.ra a))) { dirIn := false, typs := [0], mode := some true } e ∧ s.inRegion = false
      ∧ e.state ≠ 7 ∧ e.credit = 0)
    ∧ (∃ (s : State) (a b : BitVec 5) (e : Endpoint), s.clear { reads := [s.ra a, s.rb b] } = true
      ∧ s.chanOk (handleOf (s.g (s.ra a))) { dirIn := false, typs := [0], mode := some true } e ∧ s.inRegion = false
      ∧ e.state = 7)
    ∧ (∃ (s : State) (a b : BitVec 5) (e : Endpoint), s.clear { reads := [s.ra a, s.rb b] } = true
      ∧ s.chanOk (handleOf (s.g (s.ra a))) { dirIn := false, typs := [0], mode := some true } e ∧ s.inRegion = true
      ∧ e.state ≠ 7 ∧ e.credit ≠ 0 ∧ (s.core s.ctx.core).hold.room 64 = true)
    ∧ (∃ (s : State) (a b : BitVec 5) (e : Endpoint), s.clear { reads := [s.ra a, s.rb b] } = true
      ∧ s.chanOk (handleOf (s.g (s.ra a))) { dirIn := false, typs := [2], mode := some true, inbox := true } e
      ∧ s.inRegion = false ∧ e.state ≠ 7 ∧ e.credit ≠ 0 ∧ (s.core s.ctx.core).inScratchpad (s.g (s.rb b)) 128 = true
      ∧ (s.g (s.rb b)).toNat % 64 = 0 ∧ s.activeControl s.ctx.core s.ctx.pn (s.g (s.rb b)) &&& ~~~(0x3F1F : Word) = 0)
    ∧ (∃ (s : State) (d a : BitVec 5) (e : Endpoint), s.clear { reads := [s.ra a], writes := [s.rd d], var := true } = true
      ∧ s.ctx.pn ≠ 255 ∧ s.chanOk (handleOf (s.g (s.ra a))) { dirIn := true, typs := [0], mode := none } e
      ∧ e.buffered = false ∧ e.state = 0 ∧ s.released)
    ∧ (∃ (s : State) (d a : BitVec 5) (e : Endpoint), s.clear { reads := [s.ra a], writes := [s.rd d], var := true } = true
      ∧ s.ctx.pn ≠ 255 ∧ s.chanOk (handleOf (s.g (s.ra a))) { dirIn := true, typs := [0], mode := none } e
      ∧ e.buffered = false ∧ e.state = 1 ∧ s.released)
    ∧ (∃ (s : State) (d a : BitVec 5) (e : Endpoint), s.clear { reads := [s.ra a], writes := [s.rd d], var := true } = true
      ∧ s.ctx.pn ≠ 255 ∧ s.chanOk (handleOf (s.g (s.ra a))) { dirIn := true, typs := [0], mode := none } e
      ∧ e.buffered = true ∧ e.state ≠ 7 ∧ (s.core s.ctx.core).messageFor (handleOf (s.g (s.ra a))) = none)
    ∧ (∃ (s : State) (a b : BitVec 5) (e : Endpoint), s.clear { reads := [s.ra a, s.rb b] } = true
      ∧ s.chanOk (handleOf (s.g (s.ra a))) { dirIn := true, typs := [1], mode := none } e ∧ e.buffered = false
      ∧ e.state = 0 ∧ s.released ∧ ((s.core s.ctx.core).inScratchpad (s.g (s.rb b)) e.len
        || (s.core s.ctx.core).inClaimedSlot (s.g (s.rb b)) e.len) = true ∧ (s.g (s.rb b)).toNat % 32 = 0)
    ∧ (∃ (s : State) (a b : BitVec 5), s.clear { reads := [s.ra a, s.rb b] } = true
      ∧ (s.core s.ctx.core).epCheck (handleOf (s.g (s.ra a))) s.ctx.pn { dirIn := false, typs := [0], mode := some false } false
        = none)
    ∧ (∃ (s : State) (a b : BitVec 5) (e : Endpoint), s.clear { reads := [s.ra a, s.rb b] } = true
      ∧ handleOf (s.g (s.ra a)) ≠ loopbackHandle
      ∧ s.chanOk (handleOf (s.g (s.ra a))) { dirIn := false, typs := [1], mode := none } e
      ∧ (s.core s.ctx.core).inScratchpad (s.g (s.rb b)) e.len = false) := by
  refine ⟨⟨chan {}, 31, 30, _, ?_, ⟨?_, rfl, ?_⟩, ?_, ?_, ?_, rfl⟩, ⟨chan {} 0 anAccess, 31, 30, _, ?_, ⟨?_, rfl, ?_⟩, ?_⟩,
    ⟨chan { typ := 1 } 64, 31, 30, _, ?_, ?_, ⟨?_, rfl, ?_⟩, ?_, ?_, ?_, ?_, rfl, ?_, ?_⟩,
    ⟨chan { typ := 1, buffered := true, credit := 1 } 64, 31, 30, _, ?_, ?_, ⟨?_, rfl, ?_⟩, ?_, ?_, ?_, ?_, ?_, ?_⟩,
    ⟨chan { buffered := true, credit := 1 }, 31, 30, _, ?_, ⟨?_, rfl, ?_⟩, ?_, ?_, ?_⟩,
    ⟨chan { buffered := true }, 31, 30, _, ?_, ⟨?_, rfl, ?_⟩, ?_, ?_, ?_⟩,
    ⟨chan { buffered := true, state := 7 }, 31, 30, _, ?_, ⟨?_, rfl, ?_⟩, ?_, ?_⟩,
    ⟨chan { buffered := true, credit := 1 } 0 region, 31, 30, _, ?_, ⟨?_, rfl, ?_⟩, ?_, ?_, ?_, ?_⟩,
    ⟨chan { typ := 2, buffered := true, pkind := 1, credit := 1 } 64, 31, 30, _, ?_, ⟨?_, rfl, ?_⟩, ?_, ?_, ?_, ?_, ?_, ?_⟩,
    ⟨chan { dirIn := true }, 31, 31, _, ?_, ?_, ⟨?_, rfl, ?_⟩, ?_, ?_, rfl⟩,
    ⟨chan { dirIn := true, state := 1 }, 31, 31, _, ?_, ?_, ⟨?_, rfl, ?_⟩, ?_, ?_, rfl⟩,
    ⟨chan { dirIn := true, buffered := true }, 31, 31, _, ?_, ?_, ⟨?_, rfl, ?_⟩, ?_, ?_, ?_⟩,
    ⟨chan { dirIn := true, typ := 1 } 32, 31, 30, _, ?_, ⟨?_, rfl, ?_⟩, ?_, ?_, rfl, ?_, ?_⟩, ⟨base, 31, 30, ?_, ?_⟩,
    ⟨chan { typ := 1 } 0xFFFFE0, 31, 30, _, ?_, ?_, ⟨?_, rfl, ?_⟩, ?_⟩⟩ <;> first | decide | (unfold State.released; decide)

/-- Guards: enabled with nothing there, and an expired timeout; a region of process 1, and of process 0. -/
theorem witness_AlternativesAndRegions :
    (∃ s : State, s.clear {} = true ∧ s.inHandler = false ∧ s.ctx.pn < 255 ∧ (s.core s.ctx.core).hold.owner = none)
    ∧ (∃ (s : State) (a b : BitVec 5) (e : Endpoint), s.clear { reads := [s.ra a, s.rb b] } = true ∧ s.inHandler = false
      ∧ s.gateShut s.ctx.core = false
      ∧ (s.core s.ctx.core).epCheck (handleOf (s.g (s.ra a))) s.ctx.pn { dirIn := true, typs := [0, 1], mode := none } true
        = some e ∧ s.me.altSet.guards.length < 16)
    ∧ (∃ (s : State) (d : BitVec 5) (i : Nat), s.clear { writes := [s.rd d], var := true } = true ∧ s.inHandler = false
      ∧ s.inRegion = false ∧ (s.core s.ctx.core).slotOf s.ctx.pn = some i
      ∧ s.me.altSet.guards.all (fun g => !g.enabled) = true ∧ s.me.altSet.timeout.any (fun x => x.2.2) = false
      ∧ 0 < s.rd d ∧ s.rd d < s.me.regs.length)
    ∧ (∃ (s : State) (d : BitVec 5) (i : Nat) (r : Word), s.clear { writes := [s.rd d], var := true } = true ∧ s.inHandler = false
      ∧ s.inRegion = false ∧ (s.core s.ctx.core).slotOf s.ctx.pn = some i
      ∧ (s.core s.ctx.core).altResult s.me.altSet (s.cyc (dieOf s.ctx.core)) = some r
      ∧ 0 < s.rd d ∧ s.rd d < s.me.regs.length)
    ∧ (∃ (s : State) (d : BitVec 5), s.clear { writes := [s.rd d], var := true } = true ∧ s.inHandler = false
      ∧ s.inRegion = false ∧ s.me.altSet.guards.any (fun g => g.enabled) = true
      ∧ (s.core s.ctx.core).altResult s.me.altSet (s.cyc (dieOf s.ctx.core)) = none)
    ∧ (∃ (s : State) (q : Nat), s.clear {} = true ∧ s.ctx.pn < 255 ∧ (s.core s.ctx.core).hold.owner = some q ∧ q ≠ s.ctx.pn)
    ∧ (∃ s : State, s.clear {} = true ∧ s.inHandler = false ∧ (s.core s.ctx.core).hold.owner = some s.ctx.pn) := by
  refine ⟨⟨base, ?_⟩, ⟨chan { dirIn := true }, 31, 30, _, ?_, ?_, ?_, rfl, ?_⟩, ⟨base, 31, 0, ?_⟩,
    ⟨on 0 (fun p => { p with altSet := { timeout := some (0, 15, true) } }), 31, 0, 0x10F, ?_⟩,
    ⟨on 0 (fun p => { p with altSet := { guards := [{ handle := 1, tag := 1, enabled := true }] } }) (withEp { dirIn := true }), 31, ?_⟩,
    ⟨on 0 id (fun c => { c with hold := { owner := some 1 } }), 1, ?_⟩, ⟨on 0 id region, ?_⟩⟩ <;> decide

/-- A packet from core 1 to core 0. -/
def packet (b : Body) : Packet := { src := 1, dst := 0, at_ := 0, body := b }

/-- The packet has arrived at core 0, where the endpoint of handle 1 is e. -/
def arrival (b : Body) (e : Endpoint) (p : Proc → Proc := id) (f : Core → Core := id) : State :=
  { on 0 p (fun c => f (withEp e c)) with net := [packet b] }

/-- Messages of one unit: as many as the inbox holds. -/
def fullInbox (c : Core) : Core :=
  { c with normal := [{ msg := {}, first := 0, units := normalUnits c.part }], staging := [{ msg := {}, first := 0, units := 64 }] }

theorem witness_ChannelEvents :
    (∃ (s : State) (k : Nat) (p : Packet) (h back : Nat) (data : Word) (e : Endpoint), s.arrived k = some p
      ∧ p.body = .offer h back data ∧ s.foreign p = false ∧ ((s.unpacket k).core p.dst).epFind h = some e ∧ e.state = 0)
    ∧ (∃ (s : State) (k : Nat) (p : Packet) (h back : Nat) (data : Word) (e : Endpoint), s.arrived k = some p
      ∧ p.body = .offer h back data ∧ s.foreign p = false ∧ ((s.unpacket k).core p.dst).epFind h = some e ∧ e.state = 2 ∧ e.isTile = false)
    ∧ (∃ (s : State) (core i : Nat) (e : Endpoint) (d : Nat), s.ep core i = e ∧ i < 2 ^ 20 ∧ e.state = 5 ∧ e.xferDone ≤ s.ticks
      ∧ e.isTile = false ∧ e.isHost = false ∧ e.engine = false ∧ e.closing = 0 ∧ e.moving = false ∧ e.xferSrc ≠ core
      ∧ (s.proc core e.owner.toNat).wait = .receiving (e.handleAt i) d ∧ (s.proc core e.owner.toNat).state = .blockedChan
      ∧ s.quarantines (dieOf core) (s.jobOf core) = false ∧ 0 < d ∧ d < (s.proc core e.owner.toNat).regs.length)
    ∧ (∃ (s : State) (k : Nat) (p : Packet) (h : Nat), s.arrived k = some p ∧ p.body = .release h false 0 none
      ∧ (s.ep p.dst h).state = 1 ∧ (s.ep p.dst h).engine = false ∧ (s.ep p.dst h).closing = 0 ∧ (s.ep p.dst h).moving = false
      ∧ (s.proc p.dst (s.ep p.dst h).owner.toNat).wait = .sending h
      ∧ (s.proc p.dst (s.ep p.dst h).owner.toNat).state = .blockedChan)
    ∧ (∃ (s : State) (k : Nat) (p : Packet) (h back : Nat) (e : Endpoint), s.arrived k = some p
      ∧ p.body = .offerWithdrawal h back (.kill 0x40) ∧ p.src ≠ p.dst ∧ ((s.unpacket k).core p.dst).epFind h = some e
      ∧ e.state = 1 ∧ e.xferBack = back ∧ e.xferSrc = p.src ∧ (s.ep p.src back).state = 1 ∧ (s.ep p.src back).closing = 0
      ∧ (s.ep p.src back).moving = false)
    ∧ (∃ (s : State) (k : Nat) (p : Packet) (h : Nat), s.arrived k = some p ∧ p.body = .credit h ∧ (s.ep p.dst h).valid = true
      ∧ (s.ep p.dst h).newPlace = none ∧ (s.ep p.dst h).state ≠ 1)
    ∧ (∃ (s : State) (core pn h : Nat) (src : Word) (upto : Nat), (s.proc core pn).wait = .departing h src upto
      ∧ (s.core core).releaseHolds pn upto = true ∧ (s.ep core h).isHost = false ∧ (s.proc core pn).state = .blockedSync)
    ∧ (∃ (s : State) (k : Nat) (p : Packet) (m : Msg) (u : Nat), s.arrived k = some p ∧ p.body = .message m
      ∧ s.foreign p = false ∧ s.coreDone p.dst = false ∧ 2 ≤ m.kind.toNat ∧ (s.core p.dst).divert = false
      ∧ (s.core p.dst).normalRun m.units = some u)
    ∧ (∃ (s : State) (k : Nat) (p : Packet) (m : Msg), s.arrived k = some p ∧ p.body = .message m
      ∧ s.foreign p = false ∧ s.coreDone p.dst = false ∧ 2 ≤ m.kind.toNat ∧ (s.core p.dst).normalRun m.units = none
      ∧ (s.core p.dst).stagingRun m.units = none) := by
  refine ⟨⟨arrival (.offer 1 2 7) { dirIn := true }, 0, packet (.offer 1 2 7), 1, 2, 7, _, rfl, rfl, ?_, rfl, ?_⟩,
    ⟨arrival (.offer 1 2 7) { dirIn := true, state := 2 }, 0, packet (.offer 1 2 7), 1, 2, 7, _, rfl, rfl, ?_, rfl, ?_⟩,
    ⟨on 0 (fun p => { p with state := .blockedChan, wait := .receiving 1 31 }) (withEp { dirIn := true, state := 5, xferSrc := 1 }),
      0, 1, _, 31, rfl, ?_⟩,
    ⟨arrival (.release 1 false 0 none) { state := 1 } (fun p => { p with state := .blockedChan, wait := .sending 1 }), 0, _, 1, rfl, ?_⟩,
    ⟨(arrival (.offerWithdrawal 1 2 (.kill 0x40)) { dirIn := true, state := 1, xferBack := 2, xferSrc := 1 }).setCore 1
        { endpoints := [(2, { valid := true, state := 1 })] }, 0,
      packet (.offerWithdrawal 1 2 (.kill 0x40)), 1, 2, _, rfl, rfl, ?_, rfl, ?_⟩,
    ⟨arrival (.credit 1) { buffered := true, dm1 := 63, credit := 63 }, 0, _, 1, rfl, ?_⟩,
    ⟨on 0 (fun p => { p with state := .blockedSync, wait := .departing 1 7 0 }) (withEp { buffered := true }), 0, 0, 1, 7, 0, ?_⟩,
    ⟨arrival (.message { kind := 2 }) {}, 0, _, { kind := 2 }, 0, rfl, ?_⟩,
    ⟨arrival (.message { kind := 3 }) {} id fullInbox, 0, _, { kind := 3 }, rfl, ?_⟩⟩ <;> decide

/-- A launch record, valid, of job 0, in record 1023 of die 0. -/
def launchRecord (job : Nat) (s : State) : State :=
  s.modDie 0 (fun d => { d with lrecs := [(1023, BitVec.ofNat 1024 (2 ^ 63 + job * 2 ^ 160))] })

/-- The die's launch queue holds 64 launches. -/
def launchesQueued (s : State) : State :=
  s.modDie 0 (fun d => { d with launchQ := List.replicate 64 { id := 1, record := 0, core := 0, entry := 0, pn := 0 } })

/-- A process below an inline call, its frame at three words of its own pool; and the mark it finds there. -/
def returning (s : State) (o0 o1 o2 : Nat) : Prop :=
  s.clear { reads := [2], writes := [1, 2], var := true } = true ∧ s.inHandler = false ∧ s.me.depth ≠ 0
  ∧ 2 < s.me.regs.length ∧ (∀ r ∈ (s.core s.ctx.core).reqs, r.phase = .performed)
  ∧ ∀ o k, (o, k) ∈ [(o0, 0), (o1, 8), (o2, 16)] →
    s.locate s.ctx.core { pn := s.ctx.pn, ea := s.g 2 + k, size := 8, job := s.jobOf s.ctx.core } = .own o
    ∧ s.mem.isPoisoned (poolKey s.ctx.core o) = false
def frameMark (s : State) (o : Nat) : Word :=
  ((s.begun 0 { reads := [2], writes := [1, 2], var := true }).block .blockedSync (.inlineReturn (s.g 2) none)).wordSeen s.ctx.core s.ctx.pn
    .c (poolKey s.ctx.core o / 8)

theorem witness_LaunchInstructions :
    (∃ (s : State) (a b : BitVec 5), s.clear { reads := [s.ra a, s.rb b] } = true ∧ s.inHandler = false)
    ∧ (∃ (s : State) (d a : BitVec 5), s.clear { reads := [s.ra a], writes := [s.rd d], var := true } = true ∧ s.inHandler = false
      ∧ s.gateShut s.ctx.core = false
      ∧ a ≠ 0 ∧ (s.die (dieOf s.ctx.core)).launchQ.length < 64 ∧ (s.core s.ctx.core).freeOrder ≠ []
      ∧ (s.g (s.ra a)).toNat < 1024 ∧ lrValid (s.lrec (dieOf s.ctx.core) (s.g (s.ra a)).toNat) = true
      ∧ lrJob (s.lrec (dieOf s.ctx.core) (s.g (s.ra a)).toNat) = s.jobOf s.ctx.core)
    ∧ (∃ (s : State) (d a : BitVec 5), s.clear { reads := [s.ra a], writes := [s.rd d], var := true } = true ∧ s.inHandler = false
      ∧ a ≠ 0 ∧ (s.die (dieOf s.ctx.core)).launchQ.length < 64 ∧ (s.core s.ctx.core).freeOrder ≠ []
      ∧ s.gateShut s.ctx.core = true)
    ∧ (∃ (s : State) (d a : BitVec 5), s.clear { reads := [s.ra a], writes := [s.rd d], var := true } = true ∧ s.inHandler = false
      ∧ a ≠ 0 ∧ (s.die (dieOf s.ctx.core)).launchQ.length < 64 ∧ (s.core s.ctx.core).freeOrder ≠ []
      ∧ lrJob (s.lrec (dieOf s.ctx.core) (s.g (s.ra a)).toNat) ≠ s.jobOf s.ctx.core)
    ∧ (∃ (s : State) (d a : BitVec 5) (i : Nat),
      s.clear { reads := [s.ra a, 2, 1], writes := [s.rd d, 1, 2, 5, 6, 7, 8, 9, 10, 11, 12], var := true } = true
      ∧ s.inHandler = false ∧ s.gateShut s.ctx.core = false ∧ a ≠ 0 ∧ 64 ≤ (s.die (dieOf s.ctx.core)).launchQ.length ∧ (s.g (s.ra a)).toNat < 1024
      ∧ lrValid (s.lrec (dieOf s.ctx.core) (s.g (s.ra a)).toNat) = true
      ∧ lrJob (s.lrec (dieOf s.ctx.core) (s.g (s.ra a)).toNat) = s.jobOf s.ctx.core ∧ s.me.depth.toNat < s.me.depmax.toNat
      ∧ s.inRegion = false ∧ (s.core s.ctx.core).slotOf s.ctx.pn = some i ∧ 12 < s.me.regs.length
      ∧ s.rd d < s.me.regs.length
      ∧ (∀ k, k < 4 → ∃ off, s.locate s.ctx.core { kind := .store, ea := s.g 2 - 32 + word (8 * k), size := 8 } = .own off))
    ∧ (∃ (s : State) (d a : BitVec 5),
      s.clear { reads := [s.ra a, 2, 1], writes := [s.rd d, 1, 2, 5, 6, 7, 8, 9, 10, 11, 12], var := true } = true
      ∧ s.inHandler = false ∧ s.gateShut s.ctx.core = false ∧ a ≠ 0 ∧ 64 ≤ (s.die (dieOf s.ctx.core)).launchQ.length ∧ (s.g (s.ra a)).toNat < 1024
      ∧ lrValid (s.lrec (dieOf s.ctx.core) (s.g (s.ra a)).toNat) = true
      ∧ lrJob (s.lrec (dieOf s.ctx.core) (s.g (s.ra a)).toNat) = s.jobOf s.ctx.core ∧ s.me.depmax.toNat ≤ s.me.depth.toNat)
    ∧ (∃ (s : State) (i : Nat), s.clear { var := true } = true ∧ s.inHandler = false ∧ s.me.depth = 0 ∧ s.inRegion = false
      ∧ (s.core s.ctx.core).slotOf s.ctx.pn = some i ∧ ((s.core s.ctx.core).slot i).leaving = none)
    ∧ (∃ (s : State) (o0 o1 o2 : Nat), returning s o0 o1 o2 ∧ frameMark s o2 = s.g 2)
    ∧ (∃ (s : State) (o0 o1 o2 : Nat), returning s o0 o1 o2 ∧ frameMark s o2 ≠ s.g 2) := by
  refine ⟨⟨base, 31, 31, by decide⟩, ⟨launchRecord 0 (on 0 (regs [(31, 1023)])), 31, 31, by decide⟩,
    ⟨on 0 id (fun c => { c with gateV := false }), 31, 31, by decide⟩, ⟨launchRecord 1 (on 0 (regs [(31, 1023)])), 31, 31, by decide⟩,
    ⟨launchesQueued (launchRecord 0 (on 0 (fun p => regs [(31, 1023), (2, 0x1000)] { p with depmax := 1 }))), 31, 31, 0,
      by decide, by decide, by decide, by decide, by decide, by decide, by decide, by decide, by decide, by decide, by decide,
      by decide, by decide, ?_⟩,
    ⟨launchesQueued (launchRecord 0 (on 0 (regs [(31, 1023)]))), 31, 31, by decide⟩, ⟨base, 0, by decide⟩,
    ⟨on 0 (fun p => { p with depth := 1 }), 0, 8, 16, ⟨by decide, by decide, by decide, by decide, by decide, ?_⟩, by decide⟩,
    ⟨on 0 (fun p => regs [(2, 64)] { p with depth := 1 }), 64, 72, 80, ⟨by decide, by decide, by decide, by decide, by decide, ?_⟩,
      by decide⟩⟩
  rotate_left
  iterate 2
    intro o k h
    simp only [List.mem_cons, Prod.mk.injEq, List.not_mem_nil, or_false] at h
    rcases h with ⟨rfl, rfl⟩ | ⟨rfl, rfl⟩ | ⟨rfl, rfl⟩ <;> exact ⟨rfl, by decide⟩
  intro k hk
  match k, hk with
  | 0, _ | 1, _ | 2, _ | 3, _ => exact ⟨_, rfl⟩

/-- Futures of core 0: entry 1 pending with target g30, entry 2 with its outcome kept; g31 names entry 1, g29 entry 2, and
g28 an earlier generation of entry 1. -/
def withFutures (p : Proc → Proc := id) (f : Core → Core := id) : State :=
  on 0 (fun q => p (regs [(31, 129), (29, 130), (28, 65)] q)) (fun c => f { c with futures := [
    (1, { used := true, gen := 2, target := 30 }), (2, { gen := 2, status := 1 })] })

theorem goesAway (x : Located) (h : (match x with | .away r => decide (r.target < 2) | _ => false) = true) :
    ∃ r, x = .away r ∧ r.target < 2 := by
  cases x with
  | away r => exact ⟨r, rfl, by simpa using h⟩
  | _ => cases h

theorem witness_FutureAndIterationInstructions :
    (∃ (s : State) (d a : BitVec 5) (i : Nat), s.clear (s.futureUse [s.rd d] a) = true ∧ s.inHandler = false
      ∧ s.futureOk s.ctx.core (handleOf (s.g (s.ra a))) = true ∧ handleCore (handleOf (s.g (s.ra a))) = s.ctx.core
      ∧ s.ctx.pn < 256 ∧ (s.core s.ctx.core).slotOf s.ctx.pn = some i ∧ 0 < s.rd d ∧ s.rd d < s.me.regs.length
      ∧ ((s.core s.ctx.core).future (handleEntry (handleOf (s.g (s.ra a))))).gen.toNat = handleGen (handleOf (s.g (s.ra a)))
      ∧ ((s.core s.ctx.core).future (handleEntry (handleOf (s.g (s.ra a))))).used = false)
    ∧ (∃ (s : State) (d a : BitVec 5) (i : Nat), s.clear (s.futureUse [s.rd d] a) = true ∧ s.inHandler = false
      ∧ s.futureOk s.ctx.core (handleOf (s.g (s.ra a))) = true ∧ handleCore (handleOf (s.g (s.ra a))) = s.ctx.core
      ∧ s.ctx.pn < 256 ∧ (s.core s.ctx.core).slotOf s.ctx.pn = some i ∧ 0 < s.rd d ∧ s.rd d < s.me.regs.length
      ∧ ((s.core s.ctx.core).future (handleEntry (handleOf (s.g (s.ra a))))).gen.toNat ≠ handleGen (handleOf (s.g (s.ra a))))
    ∧ (∃ (s : State) (d a : BitVec 5) (f : Future), s.clear (s.futureUse [s.rd d] a) = true ∧ s.inHandler = false
      ∧ s.futureOk s.ctx.core (handleOf (s.g (s.ra a))) = true ∧ handleCore (handleOf (s.g (s.ra a))) = s.ctx.core
      ∧ s.ctx.pn < 256 ∧ (s.core s.ctx.core).future (handleEntry (handleOf (s.g (s.ra a)))) = f
      ∧ f.gen.toNat = handleGen (handleOf (s.g (s.ra a))) ∧ f.used = true ∧ f.late = false
      ∧ (s.core s.ctx.core).waiters.length < 128)
    ∧ (∃ (s : State) (a : BitVec 5), s.clear (s.futureUse [] a) = true ∧ s.inHandler = false
      ∧ s.futureOk s.ctx.core (handleOf (s.g (s.ra a))) = true ∧ handleCore (handleOf (s.g (s.ra a))) = s.ctx.core
      ∧ ((s.core s.ctx.core).future (handleEntry (handleOf (s.g (s.ra a))))).used = false)
    ∧ (∃ (s : State) (a : BitVec 5) (f : Future), s.clear (s.futureUse [] a) = true ∧ s.inHandler = false
      ∧ s.futureOk s.ctx.core (handleOf (s.g (s.ra a))) = true ∧ handleCore (handleOf (s.g (s.ra a))) = s.ctx.core
      ∧ (s.core s.ctx.core).future (handleEntry (handleOf (s.g (s.ra a)))) = f ∧ f.used = true
      ∧ f.gen.toNat = handleGen (handleOf (s.g (s.ra a))) ∧ f.engine = 0
      ∧ s.isLate s.ctx.core (handleEntry (handleOf (s.g (s.ra a)))) = false
      ∧ (s.core s.ctx.core).vecQ.any (fun v => v.entry == handleEntry (handleOf (s.g (s.ra a))) && !v.started) = true)
    ∧ (∃ (s : State) (d a : BitVec 5), s.clear (s.futureUse [s.rd d] a) = true ∧ s.inHandler = false
      ∧ (s.core s.ctx.core).futureOf s.ctx.pn (s.ra a) = none)
    ∧ (∃ (s : State) (d a : BitVec 5) (e : Nat), s.clear (s.futureUse [s.rd d] a) = true ∧ s.inHandler = false
      ∧ (s.core s.ctx.core).futureOf s.ctx.pn (s.ra a) = some e ∧ 0 < s.rd d ∧ s.rd d ≠ s.ra a ∧ s.rd d < s.me.regs.length
      ∧ s.me.pend.length = s.me.regs.length)
    ∧ (∃ (s : State) (a : BitVec 5), s.clear { reads := [s.ra a] } = true
      ∧ (s.core s.ctx.core).inScratchpad (s.g (s.ra a)) 64 = true ∧ (s.g (s.ra a)).toNat % 64 = 0
      ∧ s.mem.poisonIn (poolKey s.ctx.core (s.g (s.ra a)).toNat) 64 = none
      ∧ (let e := nestEntry (BitVec.ofNat 512 (packWords ((s.begun 0 { reads := [s.ra a] }).recordWords s.ctx.core s.ctx.pn
           (s.g (s.ra a)) 8)))
         e.ok = true ∧ e.caddr.toNat % 8 = 0 ∧ spaceOf (isKernel s.ctx.core) e.caddr = .global
         ∧ ∃ r, s.locate s.ctx.core { e.claim 0 with job := s.jobOf s.ctx.core } = .away r ∧ r.target < 2))
    ∧ (∃ (s : State) (a : BitVec 5) (l : Nat), s.clear { reads := [s.ra a] } = true
      ∧ (s.core s.ctx.core).inScratchpad (s.g (s.ra a)) 64 = true ∧ (s.g (s.ra a)).toNat % 64 = 0
      ∧ s.mem.poisonIn (poolKey s.ctx.core (s.g (s.ra a)).toNat) 64 = some l ∧ s.me.asyncTrap = none)
    ∧ (∃ (s : State) (d : BitVec 5), let n := s.rd d
      s.clear { writes := [n, n + 1, n + 2, n + 3], var := true } = true
      ∧ (s.core s.ctx.core).claims s.ctx.pn = [] ∧ s.me.iter.next < s.me.iter.stop)
    ∧ (∃ (s : State) (d : BitVec 5), let n := s.rd d
      s.clear { writes := [n, n + 1, n + 2, n + 3], var := true } = true
      ∧ (s.core s.ctx.core).claims s.ctx.pn = [] ∧ s.me.iter.exhausted = true ∧ s.me.iter.next = s.me.iter.stop)
    ∧ (∃ (s : State) (d : BitVec 5), let n := s.rd d
      s.clear { writes := [n, n + 1, n + 2, n + 3], var := true } = true
      ∧ s.me.iter.exhausted = false ∧ s.me.iter.stop ≤ s.me.iter.next)
    ∧ (∃ (s : State) (d : BitVec 5), let n := s.rd d
      s.clear { writes := [n, n + 1, n + 2, n + 3], var := true } = true ∧ (s.core s.ctx.core).claims s.ctx.pn ≠ []) := by
  refine ⟨⟨withFutures, 31, 29, 0, ?_⟩, ⟨withFutures, 31, 28, 0, ?_⟩, ⟨withFutures, 31, 31, _, ?_, ?_, ?_, ?_, ?_, rfl, ?_⟩,
    ⟨withFutures, 29, ?_⟩,
    ⟨withFutures id (fun c => { c with vecQ := [{ fn := 0, a := 0, b := 0, pn := 0, entry := 1 }] }), 31, _, ?_, ?_, ?_, ?_, rfl, ?_⟩,
    ⟨withFutures, 31, 31, ?_⟩, ⟨withFutures, 31, 30, 1, ?_⟩,
    ⟨{ on 0 (regs [(31, 64)]) (page 0x127) with mem := (((({} : Memory).write (poolKey 0 64) 8 (2 ^ 48)).write (poolKey 0 72) 8 1).write
      (poolKey 0 88) 8 (1 + 2 ^ 16 + 2 ^ 32)) }, 31, ?_, ?_, ?_, ?_, ?_, ?_, ?_, goesAway _ ?_⟩,
    ⟨{ on 0 (regs [(31, 64)]) with mem := { ({} : Memory) with poison := [poolKey 0 64 / 64] } }, 31, poolKey 0 64 / 64, ?_⟩,
    ⟨on 0 (fun p => { p with iter := { stop := 1 } }), 31, ?_⟩, ⟨base, 0, ?_⟩,
    ⟨on 0 (fun p => { p with iter := { exhausted := false } }), 31, ?_⟩,
    ⟨on 0 id (fun c => { c with reqs := [{ kind := .iterClaim, ea := 0, size := 8 }] }), 31, ?_⟩⟩ <;> decide

/-- Package 0 has a formed sheaf of job 0. -/
def formed (s : State) : State := s.modPkg 0 (fun k => { k with formed := true })

theorem witness_SheafInstructions :
    (∃ (s : State) (d a b : BitVec 5), s.clear { reads := [s.ra a, s.rb b], writes := [s.rd d], var := true } = true
      ∧ s.clear { reads := [s.ra a, s.rb b, s.rd d], writes := [s.rd d], var := true } = true
      ∧ s.clear { reads := [s.ra a, s.rb b], writes := [s.rd d], var := true, ready := (s.core s.ctx.core).futureFree } = true
      ∧ s.sheafMember s.ctx.core = false ∧ s.inHandler = false)
    ∧ (∃ (s : State) (d a b : BitVec 5), s.clear { reads := [s.ra a, s.rb b, s.rd d], writes := [s.rd d], var := true } = true
      ∧ s.sheafMember s.ctx.core = true ∧ (s.g (s.ra a)).toNat = 65536)
    ∧ (∃ (s : State) (d a b : BitVec 5), s.clear { reads := [s.ra a, s.rb b, s.rd d], writes := [s.rd d], var := true } = true
      ∧ s.sheafMember s.ctx.core = true ∧ (s.g (s.ra a)).toNat < 65536 ∧ (s.g (s.ra a)).toNat % 8 ≠ 0)
    ∧ (∃ (s : State) (d a b : BitVec 5), s.clear { reads := [s.ra a, s.rb b, s.rd d], writes := [s.rd d], var := true } = true
      ∧ s.sheafMember s.ctx.core = true ∧ (s.g (s.ra a)).toNat = 65528 ∧ s.sheafOpen
      ∧ ((s.core s.ctx.core).slotOf s.ctx.pn).isSome = true)
    ∧ (∃ (s : State) (d a b : BitVec 5), s.clear { reads := [s.ra a, s.rb b, s.rd d], writes := [s.rd d], var := true } = true
      ∧ s.sheafMember s.ctx.core = true ∧ (s.g (s.ra a)).toNat % 8 = 0 ∧ (s.g (s.ra a)).toNat < 65536 ∧ ¬ s.sheafOpen)
    ∧ (∃ (s : State) (d a b : BitVec 5),
      s.clear { reads := [s.ra a, s.rb b], writes := [s.rd d], var := true, ready := (s.core s.ctx.core).futureFree } = true
      ∧ s.sheafMember s.ctx.core = true ∧ (s.g (s.rb b)).toNat / 2 ^ 32 < 64 ∧ (s.g (s.rb b)).toNat % 2 ^ 32 % 64 = 0
      ∧ (s.g (s.ra a)).toNat % 64 = 0
      ∧ (s.core s.ctx.core).inScratchpad (s.g (s.ra a)) (((s.g (s.rb b)).toNat / 2 ^ 32 + 1) * 64) = true
      ∧ s.sheafOpen ∧ ((s.core s.ctx.core).slotOf s.ctx.pn).isSome = true)
    ∧ (∃ (s : State) (a : BitVec 5), s.clear { reads := [s.ra a] } = true ∧ s.inHandler = false
      ∧ s.sheafMember s.ctx.core = true ∧ (s.g (s.ra a)).toNat % 2 ^ 48 ≤ (s.die (dieOf s.ctx.core)).applied)
    ∧ (∃ (s : State) (a : BitVec 5), s.clear { reads := [s.ra a] } = true ∧ s.inHandler = false
      ∧ s.sheafMember s.ctx.core = true ∧ (s.g (s.ra a)).getLsbD 63 = false
      ∧ (s.die (dieOf s.ctx.core)).applied < (s.g (s.ra a)).toNat % 2 ^ 48) := by
  refine ⟨⟨base, 31, 31, 31, ?_⟩, ⟨formed (on 0 (regs [(31, 65536)])), 31, 31, 31, ?_⟩,
    ⟨formed (on 0 (regs [(31, 65535)])), 31, 31, 31, ?_⟩, ⟨formed (on 0 (regs [(31, 65528)])), 31, 31, 31, ?_, ?_, ?_, ⟨?_, ?_, ?_⟩, ?_⟩,
    ⟨formed (on 0 id anAccess), 31, 31, 31, ?_, ?_, ?_, ?_, ?_⟩,
    ⟨formed (on 0 (regs [(30, 63 * 2 ^ 32)])), 31, 31, 30, ?_, ?_, ?_, ?_, ?_, ?_, ⟨?_, ?_, ?_⟩, ?_⟩,
    ⟨formed base, 31, ?_⟩, ⟨formed (on 0 (regs [(31, 1)])), 31, ?_⟩⟩ <;> first | decide | (unfold State.sheafOpen; decide)

/-- Units at work and units idle. -/
theorem witness_EngineRegisterInstructions :
    (∃ (s : State) (a : BitVec 5), s.clear { reads := [s.ra a] } = true ∧ (s.core s.ctx.core).vecQ.any (fun v => v.started) = true
      ∧ (s.core s.ctx.core).copyQ.any (fun v => v.started) = true)
    ∧ (∃ (s : State) (a : BitVec 5), s.clear { reads := [s.ra a] } = true ∧ (s.core s.ctx.core).vecQ.any (fun v => v.started) = false
      ∧ (s.core s.ctx.core).copyQ.any (fun v => v.started) = false ∧ (s.core s.ctx.core).vecDirty = []
      ∧ (s.core s.ctx.core).copyDirty = [] ∧ (s.core s.ctx.core).vecQ = [] ∧ (s.core s.ctx.core).copyQ = [])
    ∧ (∃ (s : State) (d : BitVec 5), s.clear { writes := [s.rd d], var := true } = true)
    ∧ (∃ (s : State) (a n : BitVec 5), s.clear { reads := [s.ra a], legal := s.rb n < 8 } = true ∧ (s.g (s.ra a)).toNat % 32 ≠ 0)
    ∧ (∃ (s : State) (a n : BitVec 5), s.clear { reads := [s.ra a], legal := s.rb n < 8 } = true ∧ (s.g (s.ra a)).toNat % 32 = 0
      ∧ (s.core s.ctx.core).inScratchpad (s.g (s.ra a)) 32 = false)
    ∧ (∃ (s : State) (a n : BitVec 5), s.clear { reads := [s.ra a], legal := s.rb n < 8 } = true ∧ (s.g (s.ra a)).toNat % 32 = 0
      ∧ (s.core s.ctx.core).inScratchpad (s.g (s.ra a)) 32 = true)
    ∧ (∃ (s : State) (core : Nat) (a : Word) (n : Nat), s.mem.hist = [] ∧ (s.core core).reqs = []
      ∧ s.mem.poisonIn (poolKey core a.toNat) (8 * n) = none ∧ a.toNat % 8 = 0) := by
  refine ⟨⟨on 0 id (fun c => { c with
      vecQ := [{ fn := 0, a := 0, b := 0, pn := 0, entry := 0, started := true }]
      copyQ := [{ multi := false, src := 0, dst := 0, pn := 0, entry := 0, promise := 0, started := true }] }), 31, ?_⟩,
    ⟨base, 31, ?_⟩, ⟨base, 31, ?_⟩, ⟨on 0 (regs [(31, 31)]), 31, 7, ?_⟩, ⟨on 0 (regs [(31, 0x1000000)]), 31, 7, ?_⟩,
    ⟨base, 31, 7, ?_⟩, ⟨base, 0, 8, 4, ?_⟩⟩ <;> decide

theorem witness_VectorInstructions :
    (∃ (s : State) (d a b : BitVec 5), let c := s.core s.ctx.core
      s.clear { reads := [s.ra a, s.rb b], writes := [s.rd d], var := true, ready := c.vecQ.length < 8 && c.futureFree } = true
      ∧ s.clear { reads := [s.ra a], writes := [s.rd d], var := true, ready := c.vecQ.length < 8 && c.futureFree } = true
      ∧ c.inScratchpad (s.g (s.ra a)) 32 = false)
    ∧ (∃ (s : State) (d a b : BitVec 5), let c := s.core s.ctx.core
      s.clear { reads := [s.ra a, s.rb b], writes := [s.rd d], var := true, ready := c.vecQ.length < 8 && c.futureFree } = true
      ∧ c.inScratchpad (s.g (s.ra a)) 32 = true ∧ (s.g (s.ra a)).toNat % 32 ≠ 0)
    ∧ (∃ (s : State) (d a b : BitVec 5), let c := s.core s.ctx.core
      s.clear { reads := [s.ra a, s.rb b], writes := [s.rd d], var := true, ready := c.vecQ.length < 8 && c.futureFree } = true
      ∧ c.inScratchpad (s.g (s.ra a)) 32 = true ∧ (s.g (s.ra a)).toNat % 32 = 0
      ∧ c.inScratchpad (s.g (s.rb b)) 32 = true ∧ (s.g (s.rb b)).toNat % 32 = 0
      ∧ (s.g (s.rb b)).toNat < 0x1000000 ∧ inScratch c.part (s.g (s.rb b)).toNat 4 = true ∧ (s.g (s.rb b)).toNat % 4 = 0) := by
  refine ⟨⟨on 0 (regs [(31, 0x1000000)]), 31, 31, 31, ?_⟩, ⟨on 0 (regs [(31, 8)]), 31, 31, 31, ?_⟩,
    ⟨on 0 (regs [(31, 32)]), 31, 31, 0, ?_⟩⟩ <;> decide

/-- Pool to pool with nothing to move; a source in the mesh range; CPYM from the pool to an undefined rectangle's place. -/
theorem witness_CopyInstructions :
    (∃ (s : State) (d a b : BitVec 5), let c := s.core s.ctx.core
      s.clear { reads := [s.ra a, s.rb b], writes := [s.rd d], var := true, ready := c.copyQ.length < 16 && c.futureFree } = true
      ∧ s.copyFault s.ctx.core false (s.g (s.ra a)) (s.g (s.rb b)) c.copyNext = none
      ∧ s.copyFault s.ctx.core true (s.g (s.ra a)) (s.g (s.rb b)) c.copyNext = none)
    ∧ (∃ (s : State) (d a b : BitVec 5) (e : Cause) (f : Word), let c := s.core s.ctx.core
      s.clear { reads := [s.ra a, s.rb b], writes := [s.rd d], var := true, ready := c.copyQ.length < 16 && c.futureFree } = true
      ∧ s.copyFault s.ctx.core false (s.g (s.ra a)) (s.g (s.rb b)) c.copyNext = some (e, f)
      ∧ s.copyFault s.ctx.core true (s.g (s.ra a)) (s.g (s.rb b)) c.copyNext = some (e, f)
      ∧ copyKind (s.g (s.ra a)) = .mesh)
    ∧ (∃ (a b : Word) (g : Geometry), copyKind a = .pool ∧ copyKind b = .pool ∧ g.len = 0 ∧ g.spitch % 8 = 0 ∧ g.dpitch % 8 = 0
      ∧ a.toNat % 8 = 0 ∧ b.toNat % 8 = 0) := by
  refine ⟨⟨base, 31, 31, 31, ?_⟩, ⟨on 0 (regs [(31, 0x1000000000)]), 31, 31, 31, .prot, 0x1000000000, ?_⟩,
    ⟨0, 8, ({} : Core).copyNext, ?_⟩⟩ <;> decide

theorem witness_ArrayInstructions :
    (∃ (s : State) (d a b : BitVec 5),
      s.clear { reads := [s.ra a, s.rb b], writes := [s.rd d], var := true, legal := !isKernel s.ctx.core } = true
      ∧ s.clear { reads := [s.ra a], writes := [s.rd d], var := true, legal := !isKernel s.ctx.core } = true
      ∧ ∀ n, n < 32 → ((s.core s.ctx.core).opslot n).owner = none)
    ∧ (∃ (s : State) (d a : BitVec 5),
      s.clear { reads := [s.ra a], writes := [s.rd d], var := true, legal := !isKernel s.ctx.core } = true
      ∧ ((s.g (s.ra a)).toNat % 2 ^ 32).testBit 31 = true ∧ ((s.core s.ctx.core).opslot 31).owner = some 1)
    ∧ (∃ (s : State) (a : BitVec 5), s.clear { reads := [s.ra a], legal := !isKernel s.ctx.core } = true
      ∧ (s.core s.ctx.core).tasks = [] ∧ (∀ e ∈ (s.core s.ctx.core).opslots, e.2.releaseAt = none)
      ∧ ((s.g (s.ra a)).toNat % 2 ^ 32).testBit 31 = true ∧ ((s.core s.ctx.core).opslot 31).owner = some s.ctx.pn)
    ∧ (∃ (s : State) (d a : BitVec 5), s.clear {
        reads := [s.ra a], writes := [s.rd d], var := true, legal := !isKernel s.ctx.core
        ready := (s.core s.ctx.core).tasks.length < 8 && (s.core s.ctx.core).futureFree } = true
      ∧ (s.core s.ctx.core).inScratchpad (s.g (s.ra a)) 64 = false)
    ∧ (∃ (s : State) (d a : BitVec 5), s.clear {
        reads := [s.ra a], writes := [s.rd d], var := true, legal := !isKernel s.ctx.core
        ready := (s.core s.ctx.core).tasks.length < 8 && (s.core s.ctx.core).futureFree } = true
      ∧ (s.core s.ctx.core).inScratchpad (s.g (s.ra a)) 64 = true ∧ (s.g (s.ra a)).toNat % 64 ≠ 0)
    ∧ (∃ (s : State) (d a : BitVec 5), s.clear {
        reads := [s.ra a], writes := [s.rd d], var := true, legal := !isKernel s.ctx.core
        ready := (s.core s.ctx.core).tasks.length < 8 && (s.core s.ctx.core).futureFree } = true
      ∧ (s.core s.ctx.core).inScratchpad (s.g (s.ra a)) 64 = true ∧ (s.g (s.ra a)).toNat % 64 = 0)
    ∧ (∃ (s : State) (d a b : BitVec 5), isKernel s.ctx.core = true ∧ s.me.state = .running
      ∧ s.waitsTag { reads := [s.ra a, s.rb b], writes := [s.rd d], var := true, legal := !isKernel s.ctx.core } = false
      ∧ s.waitsFlight { reads := [s.ra a, s.rb b], writes := [s.rd d], var := true, legal := !isKernel s.ctx.core } = false
      ∧ s.waitsTag { reads := [s.ra a] } = false) := by
  refine ⟨⟨base, 31, 31, 31, ?_⟩,
    ⟨on 0 (regs [(31, 0x80000000)]) (fun c => { c with opslots := [(31, { owner := some 1 })] }), 31, 31, ?_⟩,
    ⟨on 0 (regs [(31, 0x80000000)]) (fun c => { c with opslots := [(31, { owner := some 0, filled := true })] }), 31, ?_⟩,
    ⟨on 0 (regs [(31, 0x1000000)]), 31, 31, ?_⟩, ⟨on 0 (regs [(31, 32)]), 31, 31, ?_⟩, ⟨base, 31, 31, ?_⟩,
    ⟨on 256, 31, 31, 31, ?_⟩⟩ <;> decide

/-- A kernel core's process, with g31 and g30 as operands; process 7 of compute core 0 is q. -/
def kernel (x y : Word) (q : Proc := {}) : State :=
  { on 259 (regs [(31, x), (30, y)]) with cores := put (on 259 (regs [(31, x), (30, y)])).cores 0 (({} : Core).setProc 7 q) }

/-- The selectors: class 13, which is none; class 0, an endpoint of core 0; process identifiers 7 of core 0 and of die 1. -/
theorem witness_GateInstructions :
    (∃ (s : State) (a b : BitVec 5), s.clear { reads := [s.ra a, s.rb b], legal := isKernel s.ctx.core } = true
      ∧ s.selectorOk s.ctx.core (s.g (s.ra a)) = false)
    ∧ (∃ (s : State) (a b : BitVec 5), s.clear { reads := [s.ra a, s.rb b], legal := isKernel s.ctx.core } = true
      ∧ s.selectorOk s.ctx.core (s.g (s.ra a)) = true
      ∧ (s.core s.ctx.core).inScratchpad (s.g (s.rb b)) (imageBytes (selClass (s.g (s.ra a)))) = false)
    ∧ (∃ (s : State) (a b : BitVec 5), s.clear { reads := [s.ra a, s.rb b], legal := isKernel s.ctx.core } = true
      ∧ s.selectorOk s.ctx.core (s.g (s.ra a)) = true
      ∧ (s.core s.ctx.core).inScratchpad (s.g (s.rb b)) (imageBytes (selClass (s.g (s.ra a)))) = true
      ∧ (s.g (s.rb b)).toNat % min (imageBytes (selClass (s.g (s.ra a)))) 64 ≠ 0)
    ∧ (∃ (s : State) (a b : BitVec 5), s.clear { reads := [s.ra a, s.rb b], legal := isKernel s.ctx.core } = true
      ∧ s.selectorOk s.ctx.core (s.g (s.ra a)) = true
      ∧ (s.core s.ctx.core).inScratchpad (s.g (s.rb b)) (imageBytes (selClass (s.g (s.ra a)))) = true
      ∧ (s.g (s.rb b)).toNat % min (imageBytes (selClass (s.g (s.ra a)))) 64 = 0)
    ∧ (∃ (s : State) (a : BitVec 5), s.clear { reads := [s.ra a], legal := isKernel s.ctx.core } = true
      ∧ (s.core s.ctx.core).kernelHead = none
      ∧ pidOnDie s.ctx.core (s.g (s.ra a)) = none)
    ∧ (∃ (s : State) (a : BitVec 5) (k n : Nat), s.clear { reads := [s.ra a], legal := isKernel s.ctx.core } = true
      ∧ (s.core s.ctx.core).kernelHead = none
      ∧ pidOnDie s.ctx.core (s.g (s.ra a)) = some (k, n) ∧ (s.proc k n).state ≠ .faulted ∧ n ≠ 255
      ∧ (k ≠ s.ctx.core ∨ n ≠ s.ctx.pn) ∧ (s.proc k n).state = .ready ∧ (s.proc k n).wait = .none
      ∧ (s.core k).slotOf n = none)
    ∧ (∃ (s : State) (a : BitVec 5) (k n : Nat), s.clear { reads := [s.ra a], legal := isKernel s.ctx.core } = true
      ∧ (s.core s.ctx.core).kernelHead = none
      ∧ pidOnDie s.ctx.core (s.g (s.ra a)) = some (k, n) ∧ (s.proc k n).state = .faulted)
    ∧ (∃ (s : State) (a : BitVec 5) (k : Nat), s.clear { reads := [s.ra a], legal := isKernel s.ctx.core } = true
      ∧ (s.core s.ctx.core).kernelHead = none
      ∧ pidOnDie s.ctx.core (s.g (s.ra a)) = some (k, 255))
    ∧ (∃ (s : State) (a b : BitVec 5), isKernel s.ctx.core = false ∧ s.me.state = .running
      ∧ s.waitsTag { reads := [s.ra a, s.rb b] } = false ∧ s.waitsTag { reads := [s.ra a] } = false)
    ∧ (∃ (s : State) (a : BitVec 5), s.clear { reads := [s.ra a], legal := isKernel s.ctx.core } = true
      ∧ (s.core s.ctx.core).kernelHead.isSome = true) := by
  refine ⟨⟨kernel 13 0, 31, 30, ?_⟩, ⟨kernel 0 0x1000000, 31, 30, ?_⟩, ⟨kernel 0 16, 31, 30, ?_⟩, ⟨kernel 0 32, 31, 30, ?_⟩,
    ⟨kernel (512 * 256 + 7) 0, 31, ?_⟩, ⟨kernel 7 0 { state := .ready }, 31, 0, 7, ?_⟩,
    ⟨kernel 7 0 { state := .faulted }, 31, 0, 7, ?_⟩, ⟨kernel 255 0, 31, 0, ?_⟩, ⟨base, 31, 31, ?_⟩,
    ⟨on 259 (regs [(31, 7)]) (fun c => c.setProc 1 { state := .blockedSync, wait := .gset 0 0 }), 31, ?_⟩⟩ <;> decide

/-- Sixteen RUNNING residents, changed by p; process 20 READY at a priority. -/
def crowded (now prio : Nat) (p : Proc → Proc) (f : Core → Core := id) : State :=
  { cores := [(0, f { slots := (List.range 16).map (fun i => { proc := some i })
                      procs := (List.range 16).map (fun i => (i, p { state := .running })) ++ [(20, { state := .ready })]
                      ready := [(prio, [20])] })], ticks := now }

theorem witness_SchedulerEvents :
    (∃ (s : State) (core p h i : Nat), (s.core core).slots.length = 16 ∧ (s.core core).headReady = some (p, h)
      ∧ (s.core core).schedAt ≠ some s.ticks ∧ i < 15 ∧ ((s.core core).slot i).isEmpty = true
      ∧ (∀ j, j < i → ((s.core core).slot j).isEmpty = false))
    ∧ (∃ (s : State) (core p h i pn : Nat) (why : Leave), (s.core core).slots.length = 16
      ∧ (s.core core).headReady = some (p, h) ∧ (s.core core).schedAt ≠ some s.ticks
      ∧ (s.core core).chooseSlot s.ticks p = some (i, some why) ∧ i < 16 ∧ ((s.core core).slot i).proc = some pn
      ∧ (s.proc core pn).state = .running)
    ∧ (∃ (s : State) (core : Nat), (s.core core).headReady = none ∧ ((s.core core).slot 0).leaving = none)
    ∧ (∃ (s : State) (core slot pn inc : Nat), (s.core core).slots.length = 16 ∧ slot < 16
      ∧ ((s.core core).slot slot).leaving = some (.preempt, inc) ∧ ((s.core core).slot slot).proc = some pn
      ∧ (s.proc core pn).state = .running ∧ (s.proc core pn).held = false ∧ (s.proc core pn).wait = .none
      ∧ (s.core core).inFlight pn = false ∧ inc < 1024 ∧ inc ≠ pn ∧ (s.proc core inc).state = .ready
      ∧ (s.core core).slot15Work = false ∧ pn ≠ 255)
    ∧ (∃ (s : State) (core pn inc : Nat), (s.core core).slots.length = 16
      ∧ ((s.core core).slot 15).leaving = some (.preempt, inc) ∧ ((s.core core).slot 15).proc = some pn
      ∧ (s.proc core pn).state = .running ∧ (s.proc core pn).held = false ∧ (s.proc core pn).wait = .none
      ∧ (s.core core).inFlight pn = false ∧ inc < 1024 ∧ inc ≠ pn ∧ (s.proc core inc).state = .ready
      ∧ (s.core core).slot15Work = true)
    ∧ (∃ (s : State) (core slot pn e : Nat), (s.core core).slots.length = 16 ∧ slot < 16
      ∧ ((s.core core).slot slot).switchEnd = some e ∧ ((s.core core).slot slot).proc = some pn ∧ e = s.ticks
      ∧ (s.proc core pn).lateTrap = none)
    ∧ (∃ (s : State) (core p h i pn e : Nat), (s.core core).slots.length = 16 ∧ (s.core core).headReady = some (p, h)
      ∧ (s.core core).schedAt ≠ some s.ticks ∧ (s.core core).chooseSlot s.ticks p = some (i, some .displace) ∧ i < 16
      ∧ ((s.core core).slot i).settled = some pn ∧ (s.proc core pn).state = .running
      ∧ (s.proc core pn).tagSince = some e ∧ e + 64 = s.ticks)
    ∧ (∃ (s : State) (core i h : Nat), (s.core core).slots.length = 16 ∧ s.rotating core = some (i, h))
    ∧ (∃ (s : State) (core pn : Nat), (s.core core).slots.length = 16 ∧ ((s.core core).slot 15).resident = some pn ∧ pn < 255
      ∧ (s.proc core pn).state = .running ∧ (s.core core).overflowWork = true)
    ∧ (∃ (s : State) (core : Nat), (s.core core).slots.length = 16 ∧ ((s.core core).slot 15).isEmpty = true
      ∧ (s.core core).overflowWork = true ∧ (s.core core).handlerWork = false)
    ∧ (∃ (s : State) (core pn : Nat) (e : Word), (s.proc core pn).wait = .sleep e ∧ (s.proc core pn).state = .sleeping
      ∧ e.toNat = (s.cyc (dieOf core)).toNat ∧ (s.core core).slotOf pn ≠ none)
    ∧ (∃ (s : State) (core pn : Nat), (s.proc core pn).wait = .align ∧ (s.proc core pn).held = true
      ∧ (s.proc core pn).waitSince + 256 = s.ticks) := by
  refine ⟨⟨on 0 id (fun c => ({ c with ready := [(0, [7])] }).setProc 7 { state := .ready }), 0, 0, 7, 1, ?_⟩,
    ⟨crowded 0 1 id, 0, 1, 20, 0, 0, .preempt, ?_⟩, ⟨base, 0, ?_⟩,
    ⟨on 0 id (fun c => (c.setProc 20 { state := .ready }).setSlot 15 { proc := some 0, leaving := some (.preempt, 20) }), 0, 15, 0, 20, ?_⟩,
    ⟨on 0 id (fun c => ((c.setProc 20 { state := .ready }).setProc 255 { state := .ready }).setSlot 15 {
      proc := some 0, leaving := some (.preempt, 20) }), 0, 0, 20, ?_⟩,
    ⟨{ on 0 id (fun c => c.setSlot 15 { proc := some 0, switchEnd := some 4 }) with ticks := 4 }, 0, 15, 0, 4, ?_⟩,
    ⟨crowded 64 0 (fun p => { p with pend := [false, true], tagSince := some 0, tagRegs := [1] }), 0, 0, 20, 0, 0, 0, ?_⟩, ⟨crowded 16384 0 id, 0, 0, 20, ?_⟩,
    ⟨crowded 0 0 id (fun c => c.setProc 255 { state := .ready }), 0, 15, ?_⟩,
    ⟨on 0 id (fun c => c.setProc 255 { state := .ready }), 0, ?_⟩,
    ⟨{ on 0 (fun p => { p with state := .sleeping, wait := .sleep 9 }) with ticks := 9 }, 0, 0, 9, ?_⟩,
    ⟨{ on 0 (fun p => { p with held := true, wait := .align }) with ticks := 256 }, 0, 0, ?_⟩⟩ <;> decide

/-- Line 2^44 of job 0 in the buffer of cluster 0, which slot 0 of core 0 has asked for. -/
def cached (c : Cluster) (now : Nat) : State :=
  { on 0 id (fun c => c.setSlot 0 { proc := some 0, want := [2 ^ 44] }) with dies := [(0, { clusters := [(0, c)] })], ticks := now }

/-- A request of process 0, tag 0. -/
def withReq (r : Req) (p : Proc → Proc := id) (f : Core → Core := id) : State := on 0 p (fun c => f { c with reqs := [r], nextTag := 1 })

theorem witness_FetchAndBufferEvents :
    (∃ (s : State) (die cl : Nat), s.portLines die cl = [])
    ∧ (∃ (s : State) (die cl core i pn l since : Nat) (b : List Byte), dieOf core = die ∧ clusterOf core = cl ∧ i < 16
      ∧ (s.core core).slots.length = 16 ∧ (s.cluster die cl).invalidating = [] ∧ (s.cluster die cl).asks = [(l, core, i, since)]
      ∧ (s.cluster die cl).portAt ≠ some s.ticks
      ∧ since + 4 ≤ s.ticks ∧ (s.cluster die cl).find (s.jobOf core) (l / 4) = some b ∧ ((s.core core).slot i).proc = some pn
      ∧ (s.proc core pn).pc.toNat / 16 = l ∧ l ∈ ((s.core core).slot i).want)
    ∧ (∃ (s : State) (die cl job line core : Nat) (u : State) (b : List Byte), (s.cluster die cl).invalidating = []
      ∧ (s.cluster die cl).asks = [] ∧ (s.cluster die cl).fills = [(job, line, core)]
      ∧ s.fillFrom core job line = (u, some (.inl b)))
    ∧ (∃ (s : State) (die cl job line core : Nat) (u : State), (s.cluster die cl).invalidating = []
      ∧ (s.cluster die cl).asks = [] ∧ (s.cluster die cl).fills = [(job, line, core)]
      ∧ s.fillFrom core job line = (u, none))
    ∧ (∃ line : Nat, line * 64 < 2 ^ 48)
    ∧ (∃ (s : State) (die cl : Nat), (s.cluster die cl).invalidating ≠ [] ∧ (s.cluster die cl).asks = [])
    ∧ (∃ (s : State) (core pn x : Nat), (s.proc core pn).wait = .ifsync 0 x
      ∧ (s.core core).storesDone pn (s.core core).nextTag = false)
    ∧ (∃ (s : State) (core pn x : Nat), (s.proc core pn).wait = .ifsync 0 x
      ∧ (s.core core).storesDone pn (s.core core).nextTag = true)
    ∧ (∃ (s : State) (core pn i x : Nat), (s.proc core pn).wait = .ifsync 1 x ∧ (s.core core).slotOf pn = some i
      ∧ (s.proc core pn).state = .blockedSync)
    ∧ (∃ (s : State) (core tag : Nat) (r : Req), (s.core core).req tag = some r ∧ r.tag = tag ∧ r.phase = .buffered
      ∧ r.order ≠ .strong ∧ r.homePkg = pkgOf core)
    ∧ (∃ (s : State) (core tag : Nat) (r : Req), (s.core core).req tag = some r ∧ r.tag = tag ∧ r.phase = .buffered
      ∧ r.order ≠ .strong ∧ r.homePkg ≠ pkgOf core)
    ∧ (∃ (s : State) (core tag : Nat) (r : Req) (i : Nat), (s.core core).req tag = some r ∧ r.tag = tag ∧ r.phase = .full
      ∧ r.blocks = false ∧ (s.proc core r.pn).wait = .bufferFull tag ∧ (s.proc core r.pn).state = .blockedSync
      ∧ (s.core core).slotOf r.pn = some i ∧ r.homePkg = pkgOf core ∧ (s.core core).entryFree r = true)
    ∧ (∃ (s : State) (core tag : Nat) (r : Req), (s.core core).req tag = some r ∧ r.tag = tag ∧ r.phase = .refused
      ∧ r.homePkg = pkgOf core ∧ r.due = s.ticks) := by
  refine ⟨⟨base, 0, 0, ?_⟩,
    ⟨cached { asks := [(2 ^ 44, 0, 0, 0)], lines := [(0, 2 ^ 42, List.replicate 64 0)] } 4, 0, 0, 0, 0, 0, 2 ^ 44, 0, _, ?_, ?_, ?_, ?_,
      ?_, ?_, ?_, ?_, rfl, ?_⟩,
    ⟨{ on 0 id (page 0xC9) with dies := [(0, { clusters := [(0, { fills := [(0, 2 ^ 42, 0)] })] })] }, 0, 0, 0, 2 ^ 42, 0, _, _, ?_, ?_,
      ?_, rfl⟩,
    ⟨{ on 0 id (page (0x09 + 2 ^ 52)) with dies := [(0, { clusters := [(0, { fills := [(0, 2 ^ 42, 0)] })] })] }, 0, 0, 0, 2 ^ 42, 0, _, ?_,
      ?_, ?_, rfl⟩,
    ⟨2 ^ 42 - 1, ?_⟩, ⟨cached { invalidating := [(0, 0)] } 0, 0, 0, ?_⟩,
    ⟨withReq { kind := .store } (fun p => { p with state := .blockedSync, wait := .ifsync 0 0 }), 0, 0, 0, ?_⟩,
    ⟨on 0 (fun p => { p with state := .blockedSync, wait := .ifsync 0 0 }), 0, 0, 0, ?_⟩,
    ⟨on 0 (fun p => { p with state := .blockedSync, wait := .ifsync 1 600 }), 0, 0, 0, 600, ?_⟩,
    ⟨withReq { kind := .store, phase := .buffered, homeIsDie := true }, 0, 0, _, rfl, ?_⟩,
    ⟨withReq { kind := .store, phase := .buffered, homeIsDie := true, home := 4 }, 0, 0, _, rfl, ?_⟩,
    ⟨withReq { kind := .store, phase := .full } (fun p => { p with state := .blockedSync, wait := .bufferFull 0 }), 0, 0, _, 0, rfl, ?_⟩,
    ⟨withReq { phase := .refused }, 0, 0, _, rfl, ?_⟩⟩ <;> decide

/-- A request of process 0 to a word of its own pool: a load, a TAKE of a FULL word and one of an EMPTY word. -/
def poolReq (k : AccessKind) (full : List Nat) : State :=
  { withReq { kind := k, place := .bytes (poolKey 0 64), blocks := true } with mem := { full := full } }

theorem servedBy (x : Option (Memory × Req)) (h : x.isSome = true) : ∃ m r, x = some (m, r) := by
  cases x with
  | none => cases h
  | some y => exact ⟨y.1, y.2, rfl⟩

theorem witness_ArrivalsAtThePool :
    (∃ (s : State) (core tag : Nat) (r : Req) (k : Nat), (s.core core).req tag = some r ∧ r.tag = tag ∧ r.phase = .sent
      ∧ r.homeWait = false ∧ r.due ≤ s.ticks ∧ s.mayPerform core r = true ∧ r.place = .bytes k ∧ r.ownPool = true
      ∧ r.home = core ∧ r.homeIsDie = false ∧ (s.die (dieOfKey k)).waits = [] ∧ s.findPacket (.memory core tag) = none ∧ r.plain = true
      ∧ ∃ m r', s.mem.serve r (pidOf core r.pn) k (s.wordSeen core r.pn r.path (k / 8)) = some (m, r'))
    ∧ (∃ (s : State) (core tag : Nat) (r : Req) (k : Nat), (s.core core).req tag = some r ∧ r.tag = tag ∧ r.phase = .sent
      ∧ r.homeWait = false ∧ r.due ≤ s.ticks ∧ s.mayPerform core r = true ∧ r.place = .bytes k ∧ r.ownPool = true
      ∧ r.home = core ∧ r.homeIsDie = false ∧ (s.die (dieOfKey k)).waits = [] ∧ s.findPacket (.memory core tag) = none ∧ r.syncs = true ∧ r.kind.buffered = false
      ∧ ∃ m r', s.mem.serve r (pidOf core r.pn) k (s.wordSeen core r.pn r.path (k / 8)) = some (m, r'))
    ∧ (∃ (s : State) (core tag : Nat) (r : Req) (k : Nat), (s.core core).req tag = some r ∧ r.tag = tag ∧ r.phase = .sent
      ∧ r.homeWait = false ∧ r.due ≤ s.ticks ∧ s.mayPerform core r = true ∧ r.place = .bytes k ∧ r.ownPool = true
      ∧ r.home = core ∧ r.homeIsDie = false ∧ (s.die (dieOfKey k)).waits = [] ∧ s.findPacket (.memory core tag) = none ∧ r.syncs = true
      ∧ s.mem.serve r (pidOf core r.pn) k (s.wordSeen core r.pn r.path (k / 8)) = none)
    ∧ (∃ (s : State) (core tag : Nat), ∀ r, (s.core core).req tag = some r → r.phase ≠ .sent) := by
  refine ⟨⟨poolReq (.load false) [], 0, 0, _, poolKey 0 64, rfl, ?_, ?_, ?_, ?_, ?_, ?_, ?_, ?_, ?_, ?_, ?_, ?_, servedBy _ ?_⟩,
    ⟨poolReq .take [poolKey 0 64 / 8], 0, 0, _, poolKey 0 64, rfl, ?_, ?_, ?_, ?_, ?_, ?_, ?_, ?_, ?_, ?_, ?_, ?_, ?_, servedBy _ ?_⟩,
    ⟨poolReq .take [], 0, 0, _, poolKey 0 64, rfl, ?_, ?_, ?_, ?_, ?_, ?_, ?_, ?_, ?_, ?_, ?_, ?_, ?_⟩,
    ⟨base, 0, 0, fun r h => nomatch h⟩⟩ <;> decide

/-- A performed request of process 0 with destination g31. -/
def answered (r : Req) (p : Proc → Proc := id) : State := withReq { r with dest := 31, phase := .performed } p

/-- Page tables of job 0 in memory: a large leaf, or a small one, for address 2^48; a walk of it waits. -/
def walking (leaf : Nat) (large : Bool) (asker : WalkFor) (s : State) : State :=
  { s with
    mem := ((({} : Memory).write (8 * 64) 8 (1 + 2 ^ 16)).write 65536 8 (if large then leaf + 2 ^ 10 else 1 + 2 ^ 17)).write 131072 8 leaf
    dies := [(0, { jobs := [(0, { valid := true })], walks := [{ job := 0, va := 2 ^ 48, asker := asker }] })] }

def awaitsTag0 (p : Proc) : Proc := { p with state := .blockedSync, wait := .access 0 }
def awaitsWalk (p : Proc) : Proc := { p with state := .blockedSync, wait := .walk { ea := 2 ^ 48 } }

theorem witness_AnswersReachTheirProcesses :
    (∃ (s : State) (core tag : Nat) (r : Req), (s.core core).req tag = some r ∧ r.tag = tag ∧ r.phase = .performed
      ∧ r.fault = none ∧ r.mesh = false ∧ s.findPacket (.answer core tag) = none ∧ r.ended = false ∧ r.withdrawn = false
      ∧ (∃ g, r.kind = .load g) ∧ (s.proc core r.pn).wait = .none ∧ (s.proc core r.pn).state = .running ∧ 0 < r.dest
      ∧ r.dest < (s.proc core r.pn).regs.length ∧ r.dest < (s.proc core r.pn).pend.length ∧ r.poisoned = false)
    ∧ (∃ (s : State) (core tag : Nat) (r : Req), (s.core core).req tag = some r ∧ r.tag = tag ∧ r.phase = .performed
      ∧ r.fault = none ∧ r.mesh = false ∧ s.findPacket (.answer core tag) = none ∧ r.ended = false ∧ r.withdrawn = false
      ∧ r.kind = .cas ∧ (s.proc core r.pn).wait = .none ∧ (s.proc core r.pn).state = .running ∧ 0 < r.dest
      ∧ r.dest < (s.proc core r.pn).regs.length ∧ r.dest < (s.proc core r.pn).pend.length ∧ r.poisoned = true)
    ∧ (∃ (s : State) (core tag : Nat) (r : Req) (i : Nat), (s.core core).req tag = some r ∧ r.tag = tag ∧ r.phase = .performed
      ∧ r.fault = none ∧ r.mesh = false ∧ s.findPacket (.answer core tag) = none ∧ r.ended = false ∧ r.withdrawn = false ∧ r.kind = .take
      ∧ r.poisoned = false ∧ (s.proc core r.pn).state = .blockedSync ∧ (s.proc core r.pn).wait = .access tag
      ∧ (s.core core).slotOf r.pn = some i ∧ 0 < r.dest ∧ r.dest < (s.proc core r.pn).regs.length
      ∧ r.dest < (s.proc core r.pn).pend.length)
    ∧ (∃ (s : State) (core pn : Nat) (c : Cause) (a : Word), (s.proc core pn).asyncTrap = some (c, a)
      ∧ (s.proc core pn).held = false ∧ (s.proc core pn).state = .running)
    ∧ (∃ (s : State) (core pn : Nat), (s.proc core pn).asyncTrap = none)
    ∧ (∃ (s : State) (core tag : Nat) (r : Req) (c : Cause) (a : Word), (s.core core).req tag = some r ∧ r.mesh = true
      ∧ r.answered = false ∧ r.phase = .performed ∧ r.fault = some (c, a) ∧ r.ended = false ∧ r.release = false)
    ∧ (∃ (s : State) (core tag : Nat) (r : Req) (i : Nat), (s.core core).req tag = some r ∧ r.tag = tag ∧ r.mesh = true
      ∧ r.answered = false ∧ r.phase = .performed ∧ r.fault = none ∧ r.ended = false ∧ r.kind = .store
      ∧ (s.proc core r.pn).state = .blockedSync ∧ (s.proc core r.pn).wait = .access tag ∧ (s.core core).slotOf r.pn = some i)
    ∧ (∃ (s : State) (core tag : Nat) (r : Req), (s.core core).req tag = some r ∧ r.withdrawn = false)
    ∧ (∃ (s : State) (core tag : Nat) (r : Req), (s.core core).req tag = some r ∧ r.withdrawn = true ∧ r.phase = .sent ∧ r.homeWait = false)
    ∧ (∃ (s : State) (core tag : Nat) (r : Req), (s.core core).req tag = some r ∧ r.withdrawn = true
      ∧ (r.phase ≠ .sent ∨ r.homeWait = true))
    ∧ (∃ (s : State) (die : Nat) (w : Walk) (rest : List Walk) (core pn : Nat) (r : Req) (p : Word) (large : Bool),
      (s.die die).walks = w :: rest ∧ w.stale = false ∧ w.asker = .access core pn ∧ (s.proc core pn).wait = .walk r
      ∧ r.ea.toNat = w.va ∧ (s.modDie die (fun d => { d with walks := rest })).walk die w.job w.va = .leaf p large
      ∧ p.getLsbD 0 = true)
    ∧ (∃ (s : State) (die : Nat) (w : Walk) (rest : List Walk) (core pn : Nat) (r : Req) (p : Word) (large : Bool),
      (s.die die).walks = w :: rest ∧ w.stale = false ∧ w.asker = .access core pn ∧ (s.proc core pn).wait = .walk r
      ∧ r.ea.toNat = w.va ∧ (s.modDie die (fun d => { d with walks := rest })).walk die w.job w.va = .leaf p large
      ∧ p.getLsbD 0 = false)
    ∧ (∃ (s : State) (die : Nat) (w : Walk) (rest : List Walk) (server core tag : Nat) (r : Req) (k : Nat) (v : State),
      (s.die die).walks = w :: rest ∧ w.asker = .home server core tag ∧ (s.core core).req tag = some r
      ∧ serverOf r.target = server ∧ r.host = false ∧ r.homePkg = pkgOf core
      ∧ (s.modDie die (fun d => { d with walks := rest })).homeKey r.home r.target r.job r.ea.toNat = (v, some k)
      ∧ r.tag = tag ∧ (v.die (dieOfKey k)).waits = []
      ∧ ∃ m q, v.mem.serve { r with homeWait := false } (pidOf core r.pn) k (v.wordSeen core r.pn r.path (k / 8)) = some (m, q))
    ∧ (∃ (s : State) (core pn : Nat) (r : Req), (s.core core).reqs = [r] ∧ r.pn = pn ∧ r.kind = .iterClaim ∧ r.phase = .performed
      ∧ r.fault = none ∧ s.findPacket (.answer core r.tag) = none ∧ r.ended = false ∧ r.poisoned = false
      ∧ (s.proc core pn).wait = .none ∧ (s.proc core pn).state = .running ∧ 0 < r.dest
      ∧ r.dest + 3 < (s.proc core pn).regs.length ∧ (s.proc core pn).iter.exhausted = false ∧ (s.proc core pn).iter.gen = r.nest
      ∧ (s.proc core pn).iter.next = (s.proc core pn).iter.stop) := by
  refine ⟨⟨answered {}, 0, 0, _, rfl, ?_, ?_, ?_, ?_, ?_, ?_, ?_, ⟨false, ?_⟩, ?_⟩, ⟨answered { kind := .cas, poisoned := true }, 0, 0, _, rfl, ?_⟩,
    ⟨answered { kind := .take, blocks := true } awaitsTag0, 0, 0, _, 0, rfl, ?_⟩,
    ⟨on 0 (fun p => { p with asyncTrap := some (.poison, 64) }), 0, 0, .poison, 64, ?_⟩, ⟨base, 0, 0, ?_⟩,
    ⟨answered { mesh := true, fault := some (.localbound, 8) } awaitsTag0, 0, 0, _, .localbound, 8, rfl, ?_⟩,
    ⟨answered { kind := .store, mesh := true } awaitsTag0, 0, 0, _, 0, rfl, ?_⟩, ⟨withReq {}, 0, 0, _, rfl, ?_⟩,
    ⟨withReq { withdrawn := true }, 0, 0, _, rfl, ?_⟩, ⟨withReq { withdrawn := true, homeWait := true }, 0, 0, _, rfl, ?_⟩,
    ⟨walking 7 true (.access 0 0) (on 0 awaitsWalk), 0, _, _, 0, 0, _, 0x407, true, rfl, ?_, rfl, rfl, ?_, ?_, ?_⟩,
    ⟨walking 0 false (.access 0 0) (on 0 awaitsWalk), 0, _, _, 0, 0, _, 0, false, rfl, ?_, rfl, rfl, ?_, ?_, ?_⟩,
    ⟨walking 7 true (.home 0 0 0) (withReq { ea := 2 ^ 48, global := true, homeIsDie := true, homeWait := true }), 0, _, _, 0, 0, 0,
      _, _, _, rfl, rfl, rfl, ?_, ?_, ?_, rfl, ?_, ?_, servedBy _ ?_⟩,
    ⟨answered { kind := .iterClaim } (fun p => { p with iter := { exhausted := false } }), 0, 0, _, rfl, ?_⟩⟩ <;> decide

/-- A message at the head of the inbox, and the handler it starts, which runs its inline code. -/
def handling (pc : Nat) (m : Msg) : State :=
  on 0 id (fun c => { (c.setProc 256 { state := .running, pc := word pc }) with
    normal := [{ msg := m, first := 0, units := 2 }], handler := some { msg := m, first := 0, units := 2 } })

def awaitsBuffer (p : Proc) : Proc := { p with state := .blockedSync, wait := .specb }
def commits (items : List HoldItem) (c : Core) : Core := { c with hold := { owner := some 0, items := items, committing := true } }

/-- Two processes, of core 0 and of core 1, each receiving from the other; a probe of core 1's arrives at core 0. -/
def ring : State :=
  let s := on 0 (fun p => { p with state := .blockedChan, wait := .receiving 1 31 }) (withEp { dirIn := true, state := 2 })
  { s with
    net := [packet (.probe 0x100 1 1 0 0 0 [] false)]
    cores := s.cores ++ [(1, { procs := [(0, { waitSince := 1, state := .blockedChan, wait := .receiving 2 31 })],
                               endpoints := [(2, { valid := true, dirIn := true, state := 2 })] })] }

theorem witness_HandlersRegionsAndProbes :
    (∃ (s : State) (core : Nat) (m : Stored) (rest : List Stored), (s.core core).slots.length = 16 ∧ (s.core core).handler = none
      ∧ ((s.core core).slot 15).isEmpty = true ∧ (s.core core).normal = m :: rest ∧ m.msg.kind = 2)
    ∧ (∃ (s : State) (core : Nat) (m : Stored) (rest : List Stored), (s.core core).slots.length = 16 ∧ (s.core core).handler = none
      ∧ ((s.core core).slot 15).isEmpty = true ∧ (s.core core).normal = m :: rest ∧ m.msg.kind = 3
      ∧ (look (0 : BitVec 512) (s.core core).handlers m.msg.hidx.toNat).getLsbD 63 = true)
    ∧ (∃ (s : State) (core : Nat), (s.core core).handler ≠ none)
    ∧ (∃ (s : State) (core : Nat), ∀ m ∈ (s.core core).normal, m.msg.kind.toNat < 2)
    ∧ (∃ (s : State) (core b n : Nat) (m : Stored), (s.core core).handler = some m ∧ (s.core core).inlineCode = some (b, n)
      ∧ (s.proc core 256).state = .running
      ∧ (let a := (if (s.proc core 256).inRep = true then (s.proc core 256).pc.toNat + 4 else (s.proc core 256).pc.toNat)
         b ≤ a ∧ a < b + 4 * n))
    ∧ (∃ (s : State) (core b n : Nat) (m : Stored), (s.core core).handler = some m ∧ (s.core core).inlineCode = some (b, n)
      ∧ (s.proc core 256).state = .running
      ∧ (let a := (if (s.proc core 256).inRep = true then (s.proc core 256).pc.toNat + 4 else (s.proc core 256).pc.toNat)
         a < b ∨ b + 4 * n ≤ a))
    ∧ (∃ (s : State) (core b n : Nat) (m : Stored), (s.core core).handler = some m ∧ (s.core core).inlineCode = some (b, n)
      ∧ (s.proc core 256).state = .running ∧ (s.proc core 256).inRep = true ∧ b + 4 * n ≤ (s.proc core 256).pc.toNat + 4)
    ∧ (∃ (s : State) (core pn dest : Nat) (e : Word) (tag : BitVec 4) (i : Nat), (s.proc core pn).wait = .alt dest
      ∧ (s.proc core pn).state = .alt ∧ (s.core core).slotOf pn = some i
      ∧ (s.proc core pn).altSet = { guards := [], timeout := some (e, tag, true) } ∧ 0 < dest
      ∧ dest < (s.proc core pn).regs.length ∧ (s.cyc (dieOf core)).toNat = e.toNat)
    ∧ (∃ (s : State) (core pn i : Nat), (s.core core).hold.owner = none ∧ (s.core core).specWaiter = some pn
      ∧ (s.core core).slotOf pn = some i ∧ (s.proc core pn).state = .blockedSync ∧ (s.core core).hold.committing = false)
    ∧ (∃ (s : State) (core : Nat), (s.core core).hold.owner ≠ none)
    ∧ (∃ (s : State) (core pn i : Nat), (s.core core).hold.owner = some pn ∧ (s.core core).hold.committing = true
      ∧ (s.core core).slotOf pn = some i ∧ (s.proc core pn).state = .blockedSync ∧ (s.core core).hold.items = []
      ∧ (s.core core).committed pn = true)
    ∧ (∃ (s : State) (core pn i : Nat) (r : Req) (rest : List HoldItem), (s.core core).hold.owner = some pn
      ∧ (s.core core).hold.committing = true ∧ (s.core core).slotOf pn = some i ∧ (s.proc core pn).state = .blockedSync
      ∧ (s.core core).hold.items = .store r :: rest ∧ (s.core core).entryFree r = true)
    ∧ (∃ (s : State) (core pn h : Nat), (s.proc core pn).wait ≠ .none ∧ (s.proc core pn).probeAt = s.ticks
      ∧ s.waitEdges core pn = [h])
    ∧ (∃ (s : State) (pkt : Nat) (p : Packet) (origin seq h hseq pid hops : Nat) (record : List (Nat × Nat)) (trunc : Bool),
      s.arrived pkt = some p ∧ p.body = .probe origin seq h hseq pid hops record trunc
      ∧ h ∉ (s.unpacket pkt).waitEdges (pid / 256) (pid % 256))
    ∧ (∃ (s : State) (pkt : Nat) (p : Packet) (origin seq h hseq pid hops : Nat) (record : List (Nat × Nat)) (trunc : Bool),
      s.arrived pkt = some p ∧ p.body = .probe origin seq h hseq pid hops record trunc
      ∧ h ∈ (s.unpacket pkt).waitEdges (pid / 256) (pid % 256)
      ∧ (let e := (s.unpacket pkt).ep (pid / 256) h
         let q := (s.unpacket pkt).proc (e.peerPid / 256) (e.peerPid % 256)
         e.wseq.toNat = hseq ∧ e.peerPid = origin ∧ q.waitSince = seq ∧ q.reported ≠ seq
         ∧ ∃ k d, q.wait = .receiving k d ∧ ((s.unpacket pkt).ep (e.peerPid / 256) k).state = 2))
    ∧ (∃ (s : State) (pkt : Nat) (p : Packet) (origin seq h hseq pid hops : Nat) (record : List (Nat × Nat)) (trunc : Bool),
      s.arrived pkt = some p ∧ p.body = .probe origin seq h hseq pid hops record trunc
      ∧ (let e := (s.unpacket pkt).ep (pid / 256) h
         e.peerPid = origin ∧ ((s.unpacket pkt).proc (e.peerPid / 256) (e.peerPid % 256)).reported = seq))
    ∧ (∃ (s : State) (core pn upto : Nat) (x : Bool) (l : LaunchRef) (r : Running) (i : Nat),
      (s.proc core pn).wait = .doneBarrier upto x ∧ s.launchOf core = some (l, r) ∧ (s.core core).slotOf pn = some i
      ∧ (s.proc core pn).state = .blockedSync ∧ (s.core core).accessesDone pn upto = true)
    ∧ (∃ (s : State) (core pn : Nat) (d : BitVec 32) (l : LaunchRef) (r : Running) (x y m n i : Nat),
      (s.proc core pn).wait = .barrier d ∧ s.launchOf core = some (l, r) ∧ subRect l (d.setWidth 64) = some (x, y, m, n)
      ∧ (s.core core).slotOf pn = some i ∧ (s.proc core pn).state = .blockedSync ∧ barrierCount l r x y m n = 0) := by
  refine ⟨⟨on 0 id (fun c => { c with normal := [{ msg := { kind := 2 }, first := 0, units := 2 }] }), 0, _, _, ?_, ?_, ?_, rfl, ?_⟩,
    ⟨on 0 id (fun c => { c with normal := [{ msg := { kind := 3, hidx := 63 }, first := 0, units := 1 }], handlers := [(63, BitVec.ofNat 512 (2 ^ 63))] }),
      0, _, _, ?_, ?_, ?_, rfl, ?_⟩,
    ⟨handling 0 { kind := 2 }, 0, ?_⟩, ⟨base, 0, ?_⟩,
    ⟨handling (inboxBase ({} : Core).part + 124) { kind := 2, nm1 := 15 }, 0, _, _, _, rfl, rfl, ?_⟩,
    ⟨handling (inboxBase ({} : Core).part + 128) { kind := 2, nm1 := 15 }, 0, _, _, _, rfl, rfl, ?_⟩,
    ⟨(handling (inboxBase ({} : Core).part + 124) { kind := 2, nm1 := 15 }).modProc 0 256 (fun p => { p with inRep := true }), 0, _, _, _, rfl, rfl,
      ?_⟩,
    ⟨on 0 (fun p => { p with state := .alt, wait := .alt 31, altSet := { timeout := some (0, 15, true) } }), 0, 0, 31, 0, 15, 0, ?_⟩,
    ⟨on 0 awaitsBuffer, 0, 0, 0, ?_⟩, ⟨on 0 id region, 0, ?_⟩,
    ⟨on 0 (fun p => { p with state := .blockedSync, wait := .commit }) (commits []), 0, 0, 0, ?_⟩,
    ⟨on 0 (fun p => { p with state := .blockedSync, wait := .commit }) (commits [.store { kind := .store }]), 0, 0, 0, _, _, ?_, ?_, ?_, ?_,
      rfl, ?_⟩,
    ⟨on 0 (fun p => { p with state := .blockedChan, wait := .sending 1 }) (withEp { state := 1 }), 0, 0, 1, ?_⟩,
    ⟨{ base with net := [packet (.probe 0 0 1 0 0 0 [] false)] }, 0, _, _, _, _, _, _, _, _, _, rfl, rfl, ?_⟩,
    ⟨ring, 0, _, _, _, _, _, _, _, _, _, rfl, rfl, ?_, ?_, ?_, ?_, ?_, 2, 31, ?_⟩,
    ⟨ring.modProc 1 0 (fun p => { p with reported := 1 }), 0, _, _, _, _, _, _, _, _, _, rfl, rfl, ?_⟩,
    ⟨launched [0] (on 0 (fun p => { p with state := .blockedSync, wait := .doneBarrier 0 false })), 0, 0, 0, false, _, _, 0, ?_, rfl, ?_⟩,
    ⟨launched [] (on 0 (fun p => { p with state := .blockedSync, wait := .barrier 0 })), 0, 0, 0, _, _, _, _, _, _, 0, ?_, rfl, rfl, ?_⟩⟩ <;> decide

/-- A vector operation or a copy at the head of its queue, its future in entry 1. -/
def withFuture (f : Core → Core) (p : Proc → Proc := id) : State := on 0 p (fun c => f { c with futures := [(1, { used := true, gen := 2, owner := 0 })] })
def vecOp (v : VecOp) : State := withFuture (fun c => { c with vecQ := [v] })
def copyOp (o : CopyOp) (f : Core → Core := id) : State := withFuture (fun c => f { c with copyQ := [o] })

/-- A record of one FP64 element at an address of the pool, or of none. -/
def shape (base ext : Nat) : BitVec 256 := BitVec.ofNat 256 (base + 2 ^ 72 + ext * 2 ^ 96)

/-- A copy of one word, started. -/
def oneWord (src dst : Word) (multi : Bool := false) : CopyOp :=
  { multi := multi, src := src, dst := dst, pn := 0, entry := 1, promise := 0, started := true, len := 8, rows := 1 }

theorem witness_EngineEvents :
    (∃ (s : State) (core e : Nat), s.isLate core e = false)
    ∧ (∃ (s : State) (core e : Nat) (p : Word), ((s.core core).future e).used = true ∧ ((s.core core).future e).late = false
      ∧ ((s.core core).future e).promise = some p ∧ (s.core core).waiters.all (fun w => w.1 != e) = true
      ∧ p.toNat < (s.cyc (dieOf core)).toNat)
    ∧ (∃ (s : State) (pkt : Nat), s.arrived pkt = none)
    ∧ (∃ (s : State) (pkt : Nat) (p : Packet) (h pid d : Nat) (x : Bool) (i : Nat), s.arrived pkt = some p ∧ p.body = .futureWait h pid
      ∧ ((s.core (handleCore h)).future (handleEntry h)).used = false
      ∧ ((s.core (handleCore h)).future (handleEntry h)).gen.toNat = handleGen h
      ∧ (s.proc (pid / 256) (pid % 256)).wait = .future h d x ∧ s.jobOf (pid / 256) = p.job
      ∧ (s.proc (pid / 256) (pid % 256)).state = .blockedFut
      ∧ (s.core (pid / 256)).slotOf (pid % 256) = some i ∧ 0 < d ∧ d < (s.proc (pid / 256) (pid % 256)).regs.length)
    ∧ (∃ (s : State) (core : Nat) (v : VecOp) (rest : List VecOp) (c : Cause), (s.core core).vecQ = v :: rest ∧ v.started = false
      ∧ s.startFault core v = some c ∧ ((s.core core).future v.entry).used = true)
    ∧ (∃ (s : State) (core : Nat) (v : VecOp) (rest : List VecOp), (s.core core).vecQ = v :: rest ∧ v.started = false ∧ v.fn ≠ 16
      ∧ s.startFault core v = none
      ∧ ((s.loads core v).empty = true ∨ (s.loads core v).operandFault (s.core core) (s.gateShut core) = false))
    ∧ (∃ (s : State) (core : Nat) (v : VecOp) (rest : List VecOp), (s.core core).vecQ = v :: rest ∧ v.started = false
      ∧ s.startFault core v = none ∧ (s.loads core v).empty = false
      ∧ (s.loads core v).operandFault (s.core core) (s.gateShut core) = true ∧ ((s.core core).future v.entry).used = true)
    ∧ (∃ (s : State) (core : Nat) (v : VecOp) (rest : List VecOp), (s.core core).vecQ = v :: rest ∧ v.started = true ∧ v.reason = 0
      ∧ v.waiting = none ∧ v.sent = false ∧ v.tiles = [] ∧ v.empty = true ∧ ((s.core core).future v.entry).used = true)
    ∧ (∃ (s : State) (core : Nat) (v : VecOp) (rest : List VecOp) (lo hi : Int), (s.core core).vecQ = v :: rest ∧ v.started = true
      ∧ v.reason = 0 ∧ v.waiting = none ∧ v.sent = false ∧ v.tiles = [] ∧ v.empty = false
      ∧ (∀ r, r < 4 → (v.shape r).isChan = false) ∧ ((s.core core).future v.entry).used = true
      ∧ v.operandFault (s.core core) (s.gateShut core) = false ∧ s.noWaiters ∧ (v.shape 2).bounds = some (lo, hi) ∧ 0 ≤ lo ∧ hi < 2 ^ 21)
    ∧ (∃ (s : State) (core : Nat) (o : CopyOp) (rest : List CopyOp) (c : Cause) (a : Word), (s.core core).copyQ = o :: rest
      ∧ o.started = false ∧ s.copyFault core o.multi o.src o.dst (s.core core).copyA.geometry = some (c, a)
      ∧ ((s.core core).future o.entry).used = true)
    ∧ (∃ (s : State) (core : Nat) (o : CopyOp) (rest : List CopyOp), (s.core core).copyQ = o :: rest ∧ o.started = false
      ∧ s.copyFault core o.multi o.src o.dst (s.core core).copyA.geometry = none ∧ (s.captures core o).total = 0
      ∧ ((s.core core).future o.entry).used = true)
    ∧ (∃ (s : State) (core : Nat) (o : CopyOp) (rest : List CopyOp), (s.core core).copyQ = o :: rest ∧ o.started = false
      ∧ s.copyFault core o.multi o.src o.dst (s.core core).copyA.geometry = none ∧ (s.captures core o).total ≠ 0
      ∧ o.multi = false ∧ copyKind o.dst ≠ .slot)
    ∧ (∃ (s : State) (core : Nat) (o : CopyOp) (rest : List CopyOp), (s.core core).copyQ = o :: rest ∧ o.started = false
      ∧ s.copyFault core o.multi o.src o.dst (s.core core).copyA.geometry = none ∧ (s.captures core o).total ≠ 0
      ∧ o.multi = true)
    ∧ (∃ (s u : State) (core : Nat) (o : CopyOp) (rest : List CopyOp) (k : Nat) (c : Cause) (a : Word), (s.core core).copyQ = o :: rest
      ∧ o.started = true ∧ o.multi = false ∧ o.fault = none
      ∧ s.copyMove core o (o.total - o.moved) o.moved = (u, k, .page c a))
    ∧ (∃ (s u : State) (core : Nat) (o : CopyOp) (rest : List CopyOp) (k : Nat), (s.core core).copyQ = o :: rest ∧ o.started = true
      ∧ o.multi = false ∧ o.fault = none ∧ s.copyMove core o (o.total - o.moved) o.moved = (u, k, .done)
      ∧ ((u.core core).future o.entry).used = true)
    ∧ (∃ (s : State) (core : Nat) (o : CopyOp) (k : Nat), s.noWaiters ∧ (o.srcAt k).toNat < 0x1000000
      ∧ (o.dstAt o.dst k).toNat < 0x1000000 ∧ s.mem.isPoisoned (poolKey core (o.srcAt k).toNat) = false
      ∧ s.mem.isPoisoned (poolKey core (o.dstAt o.dst k).toNat) = false ∧ s.mem.wf = true)
    ∧ (∃ (s : State) (core target : Nat) (o : CopyOp) (rest : List CopyOp) (cs : List Nat) (c : Cause), (s.core core).copyQ = o :: rest
      ∧ o.started = true ∧ o.multi = true ∧ rectCores (pkgOf core) o.rect = some cs ∧ target ∈ cs
      ∧ o.cores.any (fun x => x.1 == target) = false ∧ (s.die (dieOf target)).isSaved (s.jobOf core) = false
      ∧ (s.core target).gated = false ∧ s.copyRefusal core target o = some c)
    ∧ (∃ (s : State) (core target : Nat) (o : CopyOp) (rest : List CopyOp) (cs : List Nat), (s.core core).copyQ = o :: rest
      ∧ o.started = true ∧ o.multi = true ∧ rectCores (pkgOf core) o.rect = some cs ∧ target ∈ cs
      ∧ o.cores.any (fun x => x.1 == target) = false ∧ (s.die (dieOf target)).isSaved (s.jobOf core) = false
      ∧ (s.core target).gated = false ∧ s.copyRefusal core target o = none) := by
  refine ⟨⟨base, 0, 63, ?_⟩,
    ⟨{ on 0 id (fun c => { c with futures := [(1, { used := true, promise := some 0 })] }) with ticks := 1 }, 0, 1, 0, ?_⟩, ⟨base, 0, ?_⟩,
    ⟨{ withFutures (fun p => { p with state := .blockedFut, wait := .future 130 31 true }) with net := [packet (.futureWait 130 0)] },
      0, packet (.futureWait 130 0), 130, 0, 31, true, 0, ?_⟩,
    ⟨vecOp { fn := 6, a := 0, b := 0, pn := 0, entry := 1 }, 0, _, _, .prot, rfl, ?_⟩,
    ⟨{ vecOp { fn := 6, a := 0, b := 0, pn := 0, entry := 1 } with
      mem := (({} : Memory).write (poolKey 0 0) 8 256).write (poolKey 0 8) 8 (2 ^ 8 + 2 ^ 32) }, 0, _, _, rfl, ?_⟩,
    ⟨{ vecOp { fn := 6, a := 32, b := 32, pn := 0, entry := 1 } with
      mem := (((({} : Memory).write (poolKey 0 0) 8 256).write (poolKey 0 8) 8 (2 ^ 8 + 2 ^ 32)).write (poolKey 0 32) 8 1024).write
        (poolKey 0 40) 8 (2 ^ 8 + 2 ^ 33) }, 0, _, _, rfl, ?_⟩,
    ⟨vecOp { fn := 6, a := 0, b := 0, pn := 0, entry := 1, started := true, recs := [(0, shape 256 0), (2, shape 256 0)] }, 0, _, _, rfl, ?_⟩,
    ⟨vecOp { fn := 6, a := 0, b := 0, pn := 0, entry := 1, started := true, recs := [(0, shape 256 1), (2, shape 256 1)] }, 0, _, _, 256, 263,
      rfl, ?_, ?_, ?_, ?_, ?_, ?_, ?_, ?_, ?_, fun _ => rfl, ?_⟩,
    ⟨copyOp { multi := false, src := 4, dst := 0, pn := 0, entry := 1, promise := 0 }, 0, _, _, .align, 4, rfl, ?_⟩,
    ⟨copyOp { multi := false, src := 8, dst := 0, pn := 0, entry := 1, promise := 0 }, 0, _, _, rfl, ?_⟩,
    ⟨copyOp { multi := false, src := 8, dst := 0, pn := 0, entry := 1, promise := 0 } (fun c => { c with copyA := { len := 8 } }), 0, _, _,
      rfl, ?_⟩,
    ⟨copyOp { multi := true, src := 8, dst := 0, pn := 0, entry := 1, promise := 0 } (fun c => { c with copyA := { len := 8 } }), 0, _, _,
      rfl, ?_⟩,
    ⟨copyOp (oneWord (2 ^ 48) 0), _, 0, _, _, 0, _, _, rfl, ?_, ?_, ?_, rfl⟩,
    ⟨copyOp (oneWord 8 0), _, 0, _, _, 1, rfl, ?_, ?_, ?_, rfl, ?_⟩,
    ⟨base, 0, oneWord 8 0, 0, fun _ => rfl, ?_⟩,
    ⟨copyOp (oneWord 8 0 true) (fun c => { c with gateV := false }), 0, 0, _, _, _, .prot, rfl, ?_, ?_, rfl, ?_⟩,
    ⟨copyOp (oneWord 8 0 true), 0, 0, _, _, _, rfl, ?_, ?_, rfl, ?_⟩⟩ <;> decide

/-- A core of one task, chosen or started, with operand slot 0 filled and owned and one granule of accumulator. -/
def task (x : Task) (f : Core → Core := id) : State := withFuture (fun c => f { c with
  tasks := [x], part := 0x010102, opslots := [(0, { owner := some 0, filled := true })] })
/-- A task record: its bits below 64 and its tile at the accumulator's start. -/
def taskOf (low : Nat) : Task := { record := BitVec.ofNat 512 (low + 0x170000 * 2 ^ 64), pn := 0, entry := 1, seq := 0 }
def running (low : Nat) : Task := { taskOf low with started := true, chosen := true }
def draining (r : DrainReq) (low : Nat) (mark : Bool := false) : State :=
  task (running low) (fun c => { c with drainQ := [r], drainEnd := some 0, drainMark := mark })
def merging (p : Proc → Proc) (f : Core → Core) : State :=
  on 0 (fun q => p { q with state := .blockedSync, wait := .merge 31 false false 0 }) f

theorem witness_ArrayEvents :
    (∃ (s : State) (core : Nat), (s.core core).tasks.all (fun x => x.started || !s.eligible core x) = true
      ∧ (s.core core).tasks.all (fun x => x.started || !x.chosen) = true)
    ∧ (∃ (s : State) (core : Nat) (x : Task) (r : BitVec 8), (s.core core).tasks = [x] ∧ x.started = false ∧ x.chosen = false
      ∧ s.eligible core x = true ∧ s.taskFault core x = some r ∧ ((s.core core).future x.entry).used = true ∧ x.xdata = 0)
    ∧ (∃ (s : State) (core : Nat) (x : Task), (s.core core).tasks = [x] ∧ x.started = false ∧ x.chosen = false
      ∧ s.eligible core x = true ∧ s.taskFault core x = none ∧ x.isDrain4 = false)
    ∧ (∃ (s : State) (core : Nat) (x : Task), (s.core core).tasks = [x] ∧ x.started = false ∧ x.chosen = true
      ∧ s.committedBusy (dieOf core) + min x.busy ((s.die (dieOf core)).windowStart + 1024 - s.ticks) ≤ (s.die (dieOf core)).gallow
      ∧ x.isMac = true ∧ x.zero = false)
    ∧ (∃ (s : State) (core : Nat) (x : Task), (s.core core).tasks = [x] ∧ x.started = false ∧ x.chosen = true
      ∧ s.committedBusy (dieOf core) + min x.busy ((s.die (dieOf core)).windowStart + 1024 - s.ticks) ≤ (s.die (dieOf core)).gallow
      ∧ x.isCount4 = true ∧ x.zero = false)
    ∧ (∃ (s : State) (core : Nat) (x : Task), (s.core core).tasks = [x] ∧ x.started = false ∧ x.chosen = true
      ∧ ¬ s.committedBusy (dieOf core) + min x.busy ((s.die (dieOf core)).windowStart + 1024 - s.ticks) ≤ (s.die (dieOf core)).gallow
      ∧ x.heldAt ≠ some s.ticks)
    ∧ (∃ (s : State) (die : Nat), s.ticks < (s.die die).windowStart + 1024)
    ∧ (∃ (s : State) (die : Nat), (s.die die).windowStart + 1024 = s.ticks ∧ (∀ e ∈ s.cores, e.2.counting = none))
    ∧ (∃ (s : State) (core q : Nat) (b : Bool) (f e : Nat) (x : Task), (s.core core).counting = some (q, b, f, e)
      ∧ (s.core core).task q = some x ∧ s.ticks < e)
    ∧ (∃ (s : State) (core q : Nat) (b : Bool) (f e : Nat) (x : Task), (s.core core).counting = some (q, b, f, e)
      ∧ (s.core core).task q = some x ∧ e ≤ s.ticks ∧ x.isCount4 = true ∧ x.hold = true ∧ x.out = false
      ∧ x.panels ≤ x.panel + 1 ∧ s.mem.slotPoisoned core x.slotA (some (x.p0 + x.panel)) = false
      ∧ s.mem.slotPoisoned core x.slotB (some (x.p0 + x.panel)) = false)
    ∧ (∃ (s : State) (core q : Nat) (b : Bool) (f e : Nat) (x : Task), (s.core core).counting = some (q, b, f, e)
      ∧ (s.core core).task q = some x ∧ e ≤ s.ticks ∧ x.isCount4 = true ∧ x.hold = false ∧ x.out = false
      ∧ x.panels ≤ x.panel + 1 ∧ s.mem.slotPoisoned core x.slotA (some (x.p0 + x.panel)) = false
      ∧ s.mem.slotPoisoned core x.slotB (some (x.p0 + x.panel)) = false)
    ∧ (∃ (s : State) (core q : Nat) (b : Bool) (f e : Nat) (x : Task), (s.core core).counting = some (q, b, f, e)
      ∧ (s.core core).task q = some x ∧ e ≤ s.ticks ∧ x.isMac = true ∧ x.out = false
      ∧ s.mem.slotPoisoned core x.slotA none = false ∧ s.mem.slotPoisoned core x.slotB none = false ∧ x.xofs + 4096 ≤ 2 ^ 21
      ∧ x.xofs % 4096 = 0 ∧ s.mem.wf = true ∧ s.noWaiters
      ∧ (∀ k, k < 4096 → s.mem.isPoisoned (poolKey core (x.xofs + k)) = false))
    ∧ (∃ (s : State) (core q xofs size pn e : Nat) (rest : List DrainReq), (s.core core).drainQ = .zero q xofs size pn :: rest
      ∧ (s.core core).drainEnd = some e ∧ e ≤ s.ticks ∧ xofs + size ≤ 2 ^ 21
      ∧ xofs % 8 = 0 ∧ size % 8 = 0 ∧ s.mem.wf = true ∧ s.noWaiters
      ∧ (∀ k, k < size → s.mem.isPoisoned (poolKey core (xofs + k)) = false))
    ∧ (∃ (s : State) (core q : Nat) (b : Bool) (e : Nat) (rest : List DrainReq), (s.core core).drainQ = .drain q b :: rest
      ∧ (s.core core).drainEnd = some e ∧ (s.core core).task q = none ∧ e ≤ s.ticks ∧ (s.core core).drainMark = true
      ∧ (s.core core).tasks.all (fun y => !y.paused) = true)
    ∧ (∃ (s : State) (core q : Nat) (b : Bool) (e : Nat) (x : Task) (rest : List DrainReq), (s.core core).drainQ = .drain q b :: rest
      ∧ (s.core core).drainEnd = some e ∧ (s.core core).task q = some x ∧ (s.core core).drainMark = false)
    ∧ (∃ (s : State) (core q : Nat) (b : Bool) (e : Nat) (x : Task) (rest : List DrainReq), (s.core core).drainQ = .drain q b :: rest
      ∧ (s.core core).drainEnd = some e ∧ (s.core core).task q = some x ∧ e ≤ s.ticks ∧ (s.core core).drainMark = true
      ∧ x.poisoned = false ∧ (s.core core).tasks.all (fun y => !y.paused) = true)
    ∧ (∃ (s : State) (core : Nat) (x : Task) (b : Bank) (cell : Nat) (v : Int), s.mem.wf = true ∧ drainTerm b cell = some v
      ∧ (x.xofs + 8 * cell) % 8 = 0 ∧ x.xofs + 8 * cell + 8 ≤ 2 ^ 21
      ∧ s.mem.isPoisoned (poolKey core (x.xofs + 8 * cell)) = false)
    ∧ (∃ (s : State) (core q e : Nat) (x : Task) (rest : List DrainReq), (s.core core).drainQ = .output q :: rest
      ∧ (s.core core).drainEnd = some e ∧ (s.core core).task q = some x ∧ e ≤ s.ticks
      ∧ x.outaddr.toNat + 31 * x.opitch + x.rowSize ≤ 2 ^ 21 ∧ s.noWaiters
      ∧ (∀ cell, cell < 1024 → s.mem.isPoisoned (poolKey core (x.xofs + x.tileSize / 1024 * cell)) = false))
    ∧ (∃ (s : State) (core : Nat) (m : Merge) (d : Nat) (dst tsel : Bool) (q : Nat), (s.core core).merges = [m] ∧ m.result = none
      ∧ (s.core core).tasks = [] ∧ (s.core core).drainQ = [] ∧ (s.core core).drainEnd = none
      ∧ (s.proc core m.pn).wait = .merge d dst tsel q ∧ (s.core core).bank0.depth + (s.core core).bank1.depth = 2047)
    ∧ (∃ (s : State) (core : Nat) (m : Merge) (d : Nat) (dst tsel : Bool) (q : Nat), (s.core core).merges = [m] ∧ m.result = none
      ∧ (s.core core).tasks = [] ∧ (s.core core).drainQ = [] ∧ (s.core core).drainEnd = none
      ∧ (s.proc core m.pn).wait = .merge d dst tsel q ∧ (s.core core).bank0.depth + (s.core core).bank1.depth = 2048)
    ∧ (∃ (s : State) (core : Nat) (m : Merge) (d : Nat) (dst tsel : Bool) (q n i : Nat), (s.core core).merges = [m]
      ∧ m.result = some (n, s.ticks) ∧ (s.proc core m.pn).wait = .merge d dst tsel q
      ∧ (s.proc core m.pn).state = .blockedSync ∧ (s.core core).slotOf m.pn = some i ∧ 0 < d
      ∧ d < (s.proc core m.pn).regs.length) := by
  refine ⟨⟨base, 0, ?_⟩, ⟨task (taskOf 5), 0, _, _, rfl, ?_, ?_, ?_, rfl, ?_⟩, ⟨task (taskOf 1), 0, _, rfl, ?_⟩,
    ⟨task { taskOf 1 with chosen := true }, 0, _, rfl, ?_⟩, ⟨task { taskOf 0 with chosen := true }, 0, _, rfl, ?_⟩,
    ⟨(task { taskOf 1 with chosen := true }).setDie 0 { gallow := 63 }, 0, _, rfl, ?_⟩, ⟨base, 0, ?_⟩,
    ⟨{ base with ticks := 1024 }, 0, ?_⟩,
    ⟨task (running 0) (fun c => { c with counting := some (0, false, 0, 32) }), 0, _, _, _, _, _, rfl, rfl, ?_⟩,
    ⟨task (running (2 ^ 11)) (fun c => { c with counting := some (0, true, 0, 0) }), 0, _, _, _, _, _, rfl, rfl, ?_⟩,
    ⟨task (running 0) (fun c => { c with counting := some (0, true, 0, 0) }), 0, _, _, _, _, _, rfl, rfl, ?_⟩,
    ⟨task (running 1) (fun c => { c with counting := some (0, false, 0, 0) }), 0, _, _, _, _, _, rfl, rfl, ?_, ?_, ?_, ?_, ?_, ?_, ?_, ?_,
      fun _ => rfl, fun _ _ => rfl⟩,
    ⟨draining (.zero 0 0 8192 0) 0, 0, _, _, _, _, _, _, rfl, rfl, ?_, ?_, ?_, ?_, ?_, fun _ => rfl, fun _ _ => rfl⟩,
    ⟨draining (.drain 7 true) 4 true, 0, _, _, _, _, rfl, rfl, rfl, ?_⟩,
    ⟨draining (.drain 0 true) 4, 0, _, _, _, _, _, rfl, rfl, rfl, ?_⟩,
    ⟨draining (.drain 0 true) 4 true, 0, _, _, _, _, _, rfl, rfl, rfl, ?_⟩,
    ⟨base, 0, taskOf 4, {}, 1023, 0, ?_⟩,
    ⟨draining (.output 0) (2 ^ 9), 0, _, _, _, _, rfl, rfl, rfl, ?_, ?_, fun _ => rfl, fun _ _ => rfl⟩,
    ⟨merging id (fun c => { c with merges := [{ pn := 0, seq := 0 }], bank0 := { depth := 2047 } }), 0, _, _, _, _, _, rfl, ?_, ?_, ?_, ?_, rfl,
      ?_⟩,
    ⟨merging id (fun c => { c with merges := [{ pn := 0, seq := 0 }], bank0 := { depth := 1024 }, bank1 := { depth := 1024 } }), 0, _, _, _,
      _, _, rfl, ?_, ?_, ?_, ?_, rfl, ?_⟩,
    ⟨merging id (fun c => { c with merges := [{ pn := 0, seq := 0, result := some (2047, 0) }] }), 0, _, _, _, _, _, 2047, 0, rfl, rfl, rfl,
      ?_⟩⟩ <;> decide

/-- Packages 0 and 1 with their frames on the plane. -/
def sheaf (p q : Pkg) (fs : List Frame := []) (ds : AMap Die := []) (now : Nat := 0) : State :=
  { pkgs := [(0, p), (1, q)], frames := fs, dies := ds, ticks := now }
def member : Pkg := { formed := true, live := 3 }
def member1 : Pkg := { member with pos := 1, seat := 1 }
def tokenOf (k : Token) (pkg : Nat := 1) : Frame := { ssn := 0, pkg := pkg, pos := pkg, heard := [pkg], token := some k }
def frameOf (ops : List SheafOp) (ssn : Nat := 1) : Frame := { ssn := ssn, pkg := 1, pos := 1, ops := ops }

theorem noAcquirers_reset (s : State) (h : s.cores = []) (die : Nat) : s.noAcquirers die := by
  intro core pn target _
  simp [State.proc, State.core, h, look, Core.proc]

theorem witness_SheafEvents :
    (∃ (s : State) (pkg : Nat), (s.pkg pkg).formed = false ∧ s.frames = [] ∧ (s.pkg pkg).formAt = none ∧ (s.pkg pkg).starter = none
      ∧ s.silenceDue pkg = none ∧ s.startsSheaf pkg = false)
    ∧ (∃ (s : State) (pkg : Nat), (s.pkg pkg).formed = true ∧ (s.pkg pkg).token = true ∧ (∀ d ∈ dies4 pkg, (s.die d).sheafQ = []))
    ∧ (∃ (s : State) (pkg : Nat), (s.pkg pkg).formed = true ∧ (s.pkg pkg).token = true ∧ (s.pkg pkg).nextSsn = ssnLimit
      ∧ (s.die (4 * pkg)).sheafQ ≠ [] ∧ (s.die (4 * pkg)).sheafQ.length ≤ 64
      ∧ (s.die (4 * pkg)).sheafQ.all (fun o => !o.isPub) = true ∧ (∀ i, 0 < i → i < 4 → (s.die (4 * pkg + i)).sheafQ = []))
    ∧ (∃ (s : State) (pkg idx : Nat) (f : Frame) (k : Token), (s.pkg pkg).formed = true ∧ (s.pkg pkg).token = false
      ∧ s.tokenFor pkg = some (idx, f, k) ∧ k.live.getLsbD (s.pkg pkg).seat.toNat = true ∧ (∀ d ∈ dies4 pkg, (s.die d).sheafQ = []))
    ∧ (∃ (s : State) (pkg idx : Nat) (f : Frame) (k : Token), (s.pkg pkg).formed = true ∧ (s.pkg pkg).token = false
      ∧ s.tokenFor pkg = some (idx, f, k) ∧ k.live.getLsbD (s.pkg pkg).seat.toNat = false)
    ∧ (∃ (s : State) (pkg idx : Nat), (s.pkg pkg).formed = true ∧ s.canHear pkg idx = none ∧ s.tokenFor pkg = none)
    ∧ (∃ (s : State) (pkg idx : Nat) (f : Frame), (s.pkg pkg).formed = true ∧ s.canHear pkg idx = some f ∧ f.token = none
      ∧ f.pkg ≠ pkg ∧ (s.pkg pkg).frame f.ssn = none ∧ s.appliedByAll pkg < f.ssn)
    ∧ (∃ (s : State) (pkg idx : Nat) (f g : Frame), (s.pkg pkg).formed = true ∧ s.canHear pkg idx = some f ∧ f.token = none
      ∧ (s.pkg pkg).frame f.ssn = some g ∧ (g.ops ≠ f.ops ∨ g.bytes ≠ f.bytes ∨ g.pkg ≠ f.pkg))
    ∧ (∃ (s : State) (pkg idx : Nat) (f : Frame) (k : Token), (s.pkg pkg).formed = true ∧ s.canHear pkg idx = some f
      ∧ f.token = some k ∧ k.first = false ∧ k.next ≠ (s.pkg pkg).seat.toNat ∧ k.live.getLsbD (s.pkg pkg).seat.toNat = true)
    ∧ (∃ (s : State) (pkg source ssn : Nat) (f : Frame), (s.pkg pkg).formed = true ∧ (s.pkg source).formed = true ∧ pkg ≠ source
      ∧ s.sameStars pkg source = true ∧ ssn < (s.pkg pkg).nextSsn ∧ (s.pkg pkg).frame ssn = none ∧ (s.pkg source).frame ssn = some f ∧ s.appliedByAll pkg < ssn)
    ∧ (∃ (s : State) (die : Nat), (s.pkg (pkgOfDie die)).formed = true
      ∧ (s.pkg (pkgOfDie die)).frame ((s.die die).applied + 1) = none)
    ∧ (∃ (s : State) (die : Nat) (f : Frame), (s.pkg (pkgOfDie die)).formed = true
      ∧ (s.pkg (pkgOfDie die)).frame ((s.die die).applied + 1) = some f ∧ f.ops.any SheafOp.isPub = true
      ∧ (s.pkg (pkgOfDie die)).landed < (s.die die).applied + 1)
    ∧ (∃ (s : State) (die : Nat) (f : Frame) (c pn d off : Nat) (v : Word), (s.pkg (pkgOfDie die)).formed = true
      ∧ (s.pkg (pkgOfDie die)).frame ((s.die die).applied + 1) = some f ∧ f.ops = [.st c pn d off v]
      ∧ (s.die die).applied + 1 < ssnLimit ∧ s.noAcquirers die)
    ∧ (∃ (s : State) (die : Nat) (f : Frame) (c pn d off : Nat) (v cmp : Word), (s.pkg (pkgOfDie die)).formed = true
      ∧ (s.pkg (pkgOfDie die)).frame ((s.die die).applied + 1) = some f ∧ f.ops = [.cas c pn d off v cmp]
      ∧ (s.die die).applied + 1 < ssnLimit ∧ s.noAcquirers die)
    ∧ (∃ (s : State) (pkg : Nat) (f : Frame) (c pn e : Nat) (src desc : Word) (rest : List SheafOp) (cause : Cause), (s.pkg pkg).formed = true
      ∧ (s.pkg pkg).landed < s.appliedByAll pkg + 1 ∧ (s.pkg pkg).frame (s.appliedByAll pkg + 1) = some f
      ∧ f.ops = .pub c pn e src desc :: rest ∧ 0 < f.bytes.length / 8
      ∧ s.landingKey pkg (s.dieWithJob pkg (s.pkg pkg).sheafJob.toNat) (s.pkg pkg).sheafJob.toNat
          ((s.pkg pkg).land.toNat + desc.toNat % 2 ^ 32 + 8 * 0) = .inr cause)
    ∧ (∃ (s : State) (pkg : Nat) (f : Frame) (c pn e : Nat) (src desc : Word) (rest : List SheafOp) (ks : List Nat), (s.pkg pkg).formed = true
      ∧ (s.pkg pkg).landed < s.appliedByAll pkg + 1 ∧ (s.pkg pkg).frame (s.appliedByAll pkg + 1) = some f
      ∧ f.ops = .pub c pn e src desc :: rest ∧ ks = [] ∧ s.mem.wf = true ∧ s.noWaiters ∧ f.bytes = [])
    ∧ (∃ (s : State) (pkg x : Nat), s.silenceDue pkg = some x ∧ s.ticks < x)
    ∧ (∃ (s : State) (pkg x : Nat), s.silenceDue pkg = some x ∧ x = s.ticks)
    ∧ (∃ (s : State) (pkg x : Nat), (s.pkg pkg).formAt = some x ∧ x + 4200000 = s.ticks ∧ (s.pkg pkg).joinAt ≤ s.ticks)
    ∧ (∃ (s : State) (pkg q x : Nat), (s.pkg pkg).formAt = some x ∧ s.ticks < x + 4200000 ∧ s.ticks < (s.pkg pkg).joinAt ∧ pkg ≠ q
      ∧ s.sameStars pkg q = true ∧ (s.pkg pkg).starter = none ∧ (s.pkg q).formAt ≠ none)
    ∧ (∃ (s : State) (pkg : Nat), s.startsSheaf pkg = true)
    ∧ (∃ (s : State) (pkg source : Nat) (k : Token) (rest : List Frame),
      s.frames = { ssn := 0, pkg := source, pos := (s.pkg source).pos.toNat, token := some k, heard := [source] } :: rest
      ∧ pkg ≠ source ∧ s.sameStars pkg source = true ∧ k.first = true ∧ (s.pkg pkg).formAt ≠ none ∧ (s.pkg pkg).starter = none
      ∧ k.live.getLsbD (s.pkg pkg).pos.toNat = true)
    ∧ (∃ (s : State) (pkg source : Nat) (k : Token) (rest : List Frame),
      s.frames = { ssn := 0, pkg := source, pos := (s.pkg source).pos.toNat, token := some k, heard := [source] } :: rest
      ∧ pkg ≠ source ∧ s.sameStars pkg source = true ∧ k.first = true ∧ (s.pkg pkg).formAt ≠ none ∧ (s.pkg pkg).starter = none
      ∧ k.live.getLsbD (s.pkg pkg).pos.toNat = false ∧ (s.pkg pkg).formed = false)
    ∧ (∃ (s : State) (pkg idx : Nat), (∀ f, s.frames[idx]? = some f → s.sameStars pkg f.pkg = false) ∧ (s.pkg pkg).token = false
      ∧ ∀ f ∈ s.frames, s.sameStars pkg f.pkg = false)
    ∧ (∃ (s : State) (pkg q : Nat), s.sameStars pkg q = false) := by
  refine ⟨⟨{}, 0, ?_⟩, ⟨sheaf { member with token := true } {}, 0, ?_⟩,
    ⟨sheaf { member with token := true, nextSsn := ssnLimit } {} [] [(0, { sheafQ := List.replicate 64 (.st 0 0 1 8191 1) })], 0, ?_, ?_, ?_,
      ?_, ?_, ?_, fun i h k => match i, h, k with | 1, _, _ | 2, _, _ | 3, _, _ => rfl⟩,
    ⟨sheaf member member1 [tokenOf { live := 3, next := 0 }], 0, 0, _, _, ?_, ?_, rfl, ?_⟩,
    ⟨sheaf member member1 [tokenOf { live := 2, next := 0 }], 0, 0, _, _, ?_, ?_, rfl, ?_⟩,
    ⟨sheaf member member1, 0, 0, ?_⟩,
    ⟨sheaf member member1 [frameOf [.st 2048 0 1 0 1]], 0, 0, _, ?_, rfl, ?_⟩,
    ⟨sheaf { member with got := [frameOf [.st 2048 0 1 0 2]] } member1 [frameOf [.st 2048 0 1 0 1]], 0, 0, _, _, ?_, rfl, ?_, rfl, ?_⟩,
    ⟨sheaf member member1 [tokenOf { live := 7, next := 2 }], 0, 0, _, _, ?_, rfl, rfl, ?_⟩,
    ⟨sheaf { member with nextSsn := 2 } { member1 with got := [frameOf []] }, 0, 1, 1, _, ?_, ?_, ?_, ?_, ?_, ?_, rfl, ?_⟩,
    ⟨sheaf member member1, 0, ?_⟩, ⟨sheaf { member with got := [frameOf [.pub 2048 0 1 0 0]] } member1, 0, _, ?_, rfl, ?_⟩,
    ⟨sheaf { member with got := [frameOf [.st 2048 0 1 8191 1]] } member1, 3, _, _, _, _, _, _, ?_, rfl, rfl, ?_, noAcquirers_reset _ rfl _⟩,
    ⟨sheaf { member with got := [frameOf [.cas 2048 0 1 0 1 0]] } member1, 0, _, _, _, _, _, _, _, ?_, rfl, rfl, ?_, noAcquirers_reset _ rfl _⟩,
    ⟨sheaf { member with got := [{ frameOf [.pub 2048 0 1 0 0] with bytes := List.replicate 64 0 }] } member1, 0, _, _, _, _, _, _, _, .prot, ?_, ?_,
      rfl, rfl, ?_, ?_⟩,
    ⟨sheaf { member with got := [frameOf [.pub 2048 0 1 0 0]] } member1, 0, _, _, _, _, _, _, _, [], ?_, ?_, rfl, rfl, rfl, ?_, fun _ => rfl, ?_⟩,
    ⟨sheaf { member with holder := 1 } member1, 0, 67200, ?_⟩, ⟨sheaf { member with holder := 1 } member1 [] [] 67200, 0, 67200, ?_⟩,
    ⟨sheaf { formAt := some 0 } {} [] [] 4200000, 0, 0, ?_⟩, ⟨sheaf { formAt := some 0, joinAt := 65536 } { formAt := some 0 }, 0, 1, 0, ?_⟩,
    ⟨sheaf { formAt := some 0, joins := [(0, 0), (1, 1)] } {} [] [] 1050000, 0, ?_⟩,
    ⟨sheaf { formAt := some 0 } member1 [tokenOf { live := 3, next := 0, first := true }], 0, 1, _, _, rfl, ?_⟩,
    ⟨sheaf { formAt := some 0 } member1 [tokenOf { live := 2, next := 1, first := true }], 0, 1, _, _, rfl, ?_⟩,
    ⟨sheaf member { member1 with star := 1 } [tokenOf { live := 3, next := 0 }], 0, 0, fun f h => Option.some.inj h ▸ rfl, ?_⟩,
    ⟨sheaf member { member1 with star := 1 }, 0, 1, ?_⟩⟩ <;> decide

/-- A launch record of job 0, 1 by 1 at (0, 0), with its partition and patch range of one core; low is its bits [127:64]. -/
def record (low : Nat) (part : Nat := 0x010002) : LRec := BitVec.ofNat 1024 (2 ^ 63 + low * 2 ^ 64 + part * 2 ^ 128)
def queued (r : LRec) (f : Die → Die := id) : State :=
  (on 0 id (fun c => { c with procs := [], futures := [(1, { used := true, engine := 3 })] })).setDie 0 (f {
    launchQ := [{ id := 1, record := r, core := 0, entry := 1, pn := 0 }]
    jobs := [(0, { valid := true, oventry := 4, ovhlog := 16 })] })
def patching (sel : Word) (r : LRec) : State :=
  (on 0 (fun p => { p with state := .blockedSync, wait := .launchUnit })).setDie 0 { launchReqs := [.patch 0 0 sel 7], lrecs := [(1023, r)] }
/-- Jobs 1 and 2 share die 0; core 0 is empty but for its owner. -/
def sharing (d : Die) (f : Core → Core := id) (now : Nat := 0) : State :=
  { cores := [(0, f { gateV := true, gateJob := 1 })], dies := [(0, d)], ticks := now,
    pkgs := [(0, { ldbind := [(0, 0x1000010031), (1, 0x1000020031)] })] }

theorem oneDie (s : State) (x : Die) (h : s.dies = [(0, x)]) (k : Nat) : s.die k = x ∨ s.die k = {} := by
  cases k with
  | zero => exact .inl (by simp [State.die, h, look])
  | succ k => exact .inr (by simp [State.die, h, look])

theorem witness_LaunchAndTenantEvents :
    (∃ (s : State) (die : Nat), (s.die die).launchReqs = [] ∧ (s.die die).quantumEnd = none)
    ∧ (∃ (s : State) (die core pn : Nat) (sel v : Word) (rest : List LaunchReq) (r : LRec),
      (s.die die).launchReqs = .patch core pn sel v :: rest
      ∧ patched (s.lrec die (sel.toNat % 1024)) (s.jobOf core) sel v = .inl r ∧ (s.proc core pn).state = .blockedSync)
    ∧ (∃ (s : State) (die core pn : Nat) (sel v : Word) (rest : List LaunchReq) (f : Word),
      (s.die die).launchReqs = .patch core pn sel v :: rest
      ∧ patched (s.lrec die (sel.toNat % 1024)) (s.jobOf core) sel v = .inr f)
    ∧ (∃ (r : LRec) (job i k x y m n : Nat) (sel v : Word), lrValid r = true ∧ lrJob r = job ∧ i < 1024 ∧ k < 8
      ∧ sel = word (i + 9 * 2 ^ 16) ∧ x < 32 ∧ y < 32 ∧ m < 32 ∧ n < 32 ∧ v = word (x + y * 2 ^ 8 + m * 2 ^ 16 + n * 2 ^ 24)
      ∧ (inRange x m (lrPx0 r) (lrPwm1 r) && inRange y n (lrPy0 r) (lrPhm1 r)) = true)
    ∧ (∃ (r : LRec) (job : Nat) (sel : Word), lrValid r = true ∧ lrJob r = job ∧ 10 ≤ sel.toNat / 2 ^ 16 % 16)
    ∧ (∃ (r : LRec) (job : Nat) (sel : Word), lrValid r = true ∧ lrJob r ≠ job ∧ sel &&& ~~~(0xF03FF : Word) ≠ 0)
    ∧ (∃ (s : State) (die pos : Nat) (q : Queued) (rest : List Queued), takeAt (s.die die).launchQ pos = some (q, rest)
      ∧ (s.die die).switching = false ∧ ((s.die die).launchQ.take pos).any (fun o => lrOverlap o.record q.record) = true)
    ∧ (∃ (s : State) (die pos : Nat) (q : Queued) (rest : List Queued), takeAt (s.die die).launchQ pos = some (q, rest)
      ∧ (s.die die).switching = false ∧ ((s.die die).launchQ.take pos).any (fun o => lrOverlap o.record q.record) = false
      ∧ (lrCores (pkgOfDie die) q.record).all (fun e => (s.core e.1).isFree && s.holds (lrJob q.record) (dieOf e.1)
          && !(s.die (dieOf e.1)).isSaved (lrJob q.record) && !(s.die (dieOf e.1)).switching) = true
      ∧ lrRectOk q.record = false ∧ ((s.core q.core).future q.entry).used = true)
    ∧ (∃ (s : State) (die pos : Nat) (q : Queued) (rest : List Queued), takeAt (s.die die).launchQ pos = some (q, rest)
      ∧ (s.die die).switching = false ∧ ((s.die die).launchQ.take pos).any (fun o => lrOverlap o.record q.record) = false
      ∧ (lrCores (pkgOfDie die) q.record).all (fun e => (s.core e.1).isFree && s.holds (lrJob q.record) (dieOf e.1)
          && !(s.die (dieOf e.1)).isSaved (lrJob q.record) && !(s.die (dieOf e.1)).switching) = false)
    ∧ (∃ (s : State) (die pos : Nat) (q : Queued) (rest : List Queued) (c : Cause), takeAt (s.die die).launchQ pos = some (q, rest)
      ∧ (s.die die).switching = false ∧ ((s.die die).launchQ.take pos).any (fun o => lrOverlap o.record q.record) = false
      ∧ (lrCores (pkgOfDie die) q.record).all (fun e => (s.core e.1).isFree && s.holds (lrJob q.record) (dieOf e.1)
          && !(s.die (dieOf e.1)).isSaved (lrJob q.record) && !(s.die (dieOf e.1)).switching) = true
      ∧ s.launchCause (pkgOfDie die) q.record = some c ∧ ((s.core q.core).future q.entry).used = true)
    ∧ (∃ (s : State) (die pos : Nat) (q : Queued) (rest : List Queued) (image : List Byte), takeAt (s.die die).launchQ pos = some (q, rest)
      ∧ (s.die die).switching = false ∧ ((s.die die).launchQ.take pos).any (fun o => lrOverlap o.record q.record) = false
      ∧ (lrCores (pkgOfDie die) q.record).all (fun e => (s.core e.1).isFree && s.holds (lrJob q.record) (dieOf e.1)
          && !(s.die (dieOf e.1)).isSaved (lrJob q.record) && !(s.die (dieOf e.1)).switching) = true
      ∧ s.noWaiters ∧ s.launchCause (pkgOfDie die) q.record = none ∧ s.shapesImage die q.record = .inl image
      ∧ (lrCores (pkgOfDie die) q.record).all (fun e => !(s.core e.1).gated) = true)
    ∧ (∃ (s : State) (die pos : Nat) (q : Running) (rest : List Running), takeAt (s.die die).running pos = some (q, rest)
      ∧ ((lrCores (pkgOfDie die) q.record).map (fun e => e.1)).all (fun c => s.freeOf c die q.id) = false)
    ∧ (∃ (s : State) (die pos : Nat) (q : Running) (rest : List Running), takeAt (s.die die).running pos = some (q, rest)
      ∧ ((lrCores (pkgOfDie die) q.record).map (fun e => e.1)).all (fun c => s.freeOf c die q.id) = true
      ∧ (s.die (dieOf q.core)).saved = [] ∧ ((s.core q.core).future q.entry).gen ≠ q.gen)
    ∧ (∃ (s : State) (die pos : Nat) (q : Running) (rest : List Running), takeAt (s.die die).running pos = some (q, rest)
      ∧ ((lrCores (pkgOfDie die) q.record).map (fun e => e.1)).all (fun c => s.freeOf c die q.id) = true
      ∧ (s.die (dieOf q.core)).saved = [] ∧ ((s.core q.core).future q.entry).gen = q.gen
      ∧ ((s.core q.core).future q.entry).used = true)
    ∧ (∃ (s : State) (die e n : Nat) (b : Word), (s.die die).quantumEnd = some e ∧ e = s.ticks
      ∧ ((s.turns die).find? (fun x => (s.die die).turn < x.1)) = some (n, b))
    ∧ (∃ (s : State) (die e n : Nat) (b : Word) (rest : List (Nat × Word)), (s.die die).quantumEnd = some e ∧ e = s.ticks
      ∧ (s.turns die).all (fun x => x.1 ≤ (s.die die).turn) = true ∧ s.turns die = (n, b) :: rest)
    ∧ (∃ (s : State) (pkg job target : Nat), job ≠ target ∧ job ≠ 0 ∧ s.tenantDies job ≠ []
      ∧ ∀ d ∈ s.tenantDies job, pkgOfDie d = pkg → s.timeShares target d = true → s.turnOf d target = false)
    ∧ (∃ (s : State) (pkg job target d : Nat), job ≠ target ∧ job ≠ 0 ∧ s.tenantDies job = [d] ∧ pkgOfDie d = pkg
      ∧ s.timeShares target d = true ∧ s.turnOf d target = true
      ∧ ((s.die d).switching && (s.tenantCores d).all (fun c => (s.core c).quiet)) = false)
    ∧ (∃ (s : State) (pkg job target d : Nat), job ≠ target ∧ job ≠ 0 ∧ s.tenantDies job = [d] ∧ pkgOfDie d = pkg
      ∧ s.timeShares target d = true ∧ s.turnOf d target = true
      ∧ ((s.die d).switching && (s.tenantCores d).all (fun c => (s.core c).quiet)) = true
      ∧ (∀ k, (s.die k).isSaved target = false) ∧ (s.die d).saved = []) := by
  refine ⟨⟨base, 0, ?_⟩, ⟨patching 1023 (record 0), 0, 0, 0, _, _, _, _, rfl, rfl, ?_⟩, ⟨patching 1023 0, 0, 0, 0, _, _, _, _, rfl, rfl⟩,
    ⟨record 0, 0, 1023, 7, 0, 0, 0, 0, _, _, ?_, ?_, ?_, ?_, rfl, ?_, ?_, ?_, ?_, rfl, ?_⟩, ⟨record 0, 0, 0xA0000, ?_⟩,
    ⟨record 0, 1, 0x400, ?_⟩,
    ⟨queued (record 0) (fun d => { d with launchQ := d.launchQ ++ d.launchQ }), 0, 1, _, _, rfl, ?_⟩,
    ⟨queued (record (1 * 2 ^ 26)), 0, 0, _, _, rfl, ?_⟩,
    ⟨(queued (record 0)).setCore 0 { procs := [(0, { state := .running })] }, 0, 0, _, _, rfl, ?_⟩,
    ⟨queued (record 0 0), 0, 0, _, _, .prot, rfl, ?_⟩,
    ⟨queued (record 0), 0, 0, _, _, [], rfl, ?_, ?_, ?_, fun d => (oneDie (queued (record 0)) _ rfl d).elim (fun h => h ▸ rfl) (fun h => h ▸ rfl), ?_,
      rfl, ?_⟩,
    ⟨launched [] base, 0, 0, _, _, rfl, ?_⟩,
    ⟨launched [] (withFuture (fun c => { c with procs := [] })) |>.modCore 0 (fun c => { c with futures := [(0, { used := true, engine := 3, gen := 1 })] }), 0, 0, _, _, rfl, ?_⟩,
    ⟨launched [] (withFuture (fun c => { c with procs := [] })) |>.modCore 0 (fun c => { c with futures := [(0, { used := true, engine := 3 })] }), 0, 0, _, _, rfl, ?_⟩,
    ⟨sharing { quantumEnd := some 9 } id 9, 0, 9, 1, 0x1000020031, ?_⟩,
    ⟨sharing { turn := 1, quantumEnd := some 9 } id 9, 0, 9, 0, 0x1000010031, _, rfl, rfl, ?_, rfl⟩, ⟨sharing {}, 0, 1, 2, ?_⟩,
    ⟨sharing { turn := 1 }, 0, 1, 2, 0, ?_⟩, ⟨sharing { turn := 1, switching := true }, 0, 1, 2, 0, ?_, ?_, ?_, ?_, ?_, ?_, ?_,
      fun k => (oneDie (sharing { turn := 1, switching := true }) _ rfl k).elim (fun h => congrArg (Die.isSaved · 2) h)
        (fun h => congrArg (Die.isSaved · 2) h), ?_⟩⟩ <;> decide

/-- A GSET selector. -/
def sel (cls : Nat) (index : Nat := 0) (core : Nat := 0) (bits : Nat := 0) : Word := word (cls + bits + index * 2 ^ 16 + core * 2 ^ 36)

/-- The GSET of process 0 of kernel core 256 at work, its image, 8-byte words from pool address 0 on, in memory; then core 0
as f makes it. -/
def gset (x : Word) (ws : List Nat := []) (f : Core := {}) : State :=
  { (on 256 (fun p => { p with state := .blockedSync, wait := .gset x 0 })).setCore 0 f with
    mem := ws.zipIdx.foldl (fun m e => m.write (poolKey 256 (8 * e.2)) 8 e.1) {} }

/-- Core 0 with one endpoint, at index 1, or with process 7. -/
def ep1 (e : Endpoint) : Core := { endpoints := [(1, { e with valid := true })] }
def p7 (p : Proc) : Core := { procs := [(7, p.freshWindow 32)] }

/-- A die on which job 5 is saved, with core 0 as given. -/
def away (c : Core) : Die := { saved := [{ job := 5, cores := [(0, c)], launchQ := [], running := [], sheafQ := [], pool := {} }] }

theorem witness_GsetWrites :
    (∃ (s : State) (core : Nat), (s.core core).gsetHead = none)
    ∧ (∃ (s : State) (core pn : Nat) (x y : Word) (cls : Nat), s.gsetTurn core pn x y true cls ∧ s.mem.wf = true ∧ s.noWaiters
      ∧ y.toNat + imageBytes cls ≤ 2 ^ 21 ∧ s.mem.clean (poolKey core y.toNat) (imageBytes cls))
    ∧ (∃ (s : State) (core pn : Nat) (x y : Word), s.gsetTurn core pn x y false 0 ∧ selRaw x = true
      ∧ (look ({} : Endpoint) (s.core (dieOf core * 512 + selCore x)).endpoints (selIndex x)).valid = true)
    ∧ (∃ (s : State) (core pn : Nat) (x y : Word), s.gsetTurn core pn x y false 0 ∧ selRaw x = false
      ∧ (s.core (dieOf core * 512 + selCore x)).endpoints = [] ∧ (s.image core y 32).testBit 12 = true)
    ∧ (∃ (s : State) (core pn : Nat) (x y : Word), s.gsetTurn core pn x y false 1 ∧ s.image core y 16 % 2 ^ 64 = 0)
    ∧ (∃ (s : State) (core pn : Nat) (x y : Word), s.gsetTurn core pn x y false 1 ∧ s.image core y 16 % 2 ^ 64 = 1
      ∧ (let e := look ({} : Endpoint) (s.core (dieOf core * 512 + selCore x)).endpoints (selIndex x)
         e.valid = true ∧ e.state = 0 ∧ e.closing = 0 ∧ e.engine = false))
    ∧ (∃ (s : State) (core pn : Nat) (x y : Word), s.gsetTurn core pn x y false 1 ∧ s.image core y 16 % 2 ^ 64 = 2
      ∧ (let e := look ({} : Endpoint) (s.core (dieOf core * 512 + selCore x)).endpoints (selIndex x)
         e.valid = true ∧ e.state ≠ 5 ∧ e.state ≠ 6 ∧ e.state ≠ 7))
    ∧ (∃ (s : State) (core pn : Nat) (x y : Word), s.gsetTurn core pn x y false 1 ∧ s.image core y 16 % 2 ^ 64 = 2
      ∧ (let e := look ({} : Endpoint) (s.core (dieOf core * 512 + selCore x)).endpoints (selIndex x)
         e.valid = true ∧ e.state = 5))
    ∧ (∃ (s : State) (core pn : Nat) (x y : Word), s.gsetTurn core pn x y false 1 ∧ s.image core y 16 % 2 ^ 64 = 3
      ∧ (let e := look ({} : Endpoint) (s.core (dieOf core * 512 + selCore x)).endpoints (selIndex x)
         e.valid = true ∧ e.state = 7) ∧ s.image core y 16 / 2 ^ 64 = selCore x * 2 ^ 16)
    ∧ (∃ (s : State) (core pn : Nat) (x y : Word), s.gsetTurn core pn x y false 1 ∧ s.image core y 16 % 2 ^ 64 = 3
      ∧ (let e := look ({} : Endpoint) (s.core (dieOf core * 512 + selCore x)).endpoints (selIndex x)
         e.valid = true ∧ e.state = 7) ∧ s.image core y 16 / 2 ^ 64 ≠ selCore x * 2 ^ 16)
    ∧ (∃ (s : State) (core pn : Nat) (x y : Word), s.gsetTurn core pn x y false 4)
    ∧ (∃ (s : State) (core pn : Nat) (x y : Word), s.gsetTurn core pn x y false 5)
    ∧ (∃ (s : State) (core pn : Nat) (x y : Word), s.gsetTurn core pn x y false 6
      ∧ (look ({} : FrameEntry) (s.die (dieOf core)).frames (selIndex x)).pin = true)
    ∧ (∃ (s : State) (core pn : Nat) (x y : Word), s.gsetTurn core pn x y false 6
      ∧ (look ({} : FrameEntry) (s.die (dieOf core)).frames (selIndex x)).pin = false)
    ∧ (∃ (s : State) (core pn : Nat) (x y : Word), s.gsetTurn core pn x y false 7)
    ∧ (∃ (s : State) (core pn : Nat) (x y : Word), s.gsetTurn core pn x y false 8)
    ∧ (∃ (s : State) (core pn : Nat) (x y : Word), s.gsetTurn core pn x y false 9 ∧ selIndex x = 5)
    ∧ (∃ (s : State) (core pn : Nat) (x y : Word), s.gsetTurn core pn x y false 10 ∧ selIndex x = 31)
    ∧ (∃ (s : State) (core pn : Nat) (x y : Word) (o : CopyOp) (q : List CopyOp) (f : Cause × Word), s.gsetTurn core pn x y false 12
      ∧ (s.core (dieOf core * 512 + selCore x)).copyQ = o :: q
      ∧ (s.core (dieOf core * 512 + selCore x)).handleFor (dieOf core * 512 + selCore x) o.entry = s.image core y 8 % 2 ^ 32
      ∧ o.fault = some f ∧ (s.image core y 8).testBit 32 = true)
    ∧ (∃ (s : State) (core pn : Nat) (x y : Word) (o : CopyOp) (q : List CopyOp) (f : Cause × Word), s.gsetTurn core pn x y false 12
      ∧ (s.core (dieOf core * 512 + selCore x)).copyQ = o :: q
      ∧ (s.core (dieOf core * 512 + selCore x)).handleFor (dieOf core * 512 + selCore x) o.entry = s.image core y 8 % 2 ^ 32
      ∧ o.fault = some f ∧ (s.image core y 8).testBit 32 = false
      ∧ ((s.core (dieOf core * 512 + selCore x)).future o.entry).used = true)
    ∧ (∃ (s : State) (core pn : Nat) (x y : Word), s.gsetTurn core pn x y false 12
      ∧ (s.core (dieOf core * 512 + selCore x)).copyQ = [])
    ∧ (∃ (s : State) (core pn : Nat) (x y : Word) (l : Nat), (s.core core).gsetHead = some (pn, x, y) ∧ selRd x = false
      ∧ selClass x = 8 ∧ (s.core core).storesDone pn (s.core core).nextTag = true
      ∧ (s.core (dieOf core * 512 + selCore x)).gated = false
      ∧ s.mem.poisonIn (poolKey core y.toNat) (imageBytes 8) = some l) := by
  let turn {s : State} {core pn : Nat} {x y : Word} {rd : Bool} {cls : Nat} (a : (s.core core).gsetHead = some (pn, x, y)) (b : selRd x = rd)
      (c : selClass x = cls) (d : (s.core core).storesDone pn (s.core core).nextTag = true) (e : (s.proc core pn).state = .blockedSync)
      (f : s.mem.poisonIn (poolKey core y.toNat) (imageBytes cls) = none ∧ (s.core (dieOf core * 512 + selCore x)).gated = false) :
      s.gsetTurn core pn x y rd cls := ⟨a, b, c, d, e, fun _ => f.1, fun _ => f.2⟩
  refine ⟨⟨base, 0, ?_⟩, ⟨gset (sel 0 0 0 16), 256, 0, _, 0, 0, turn rfl ?_ ?_ ?_ ?_ ?_, ?_, fun _ => rfl, ?_, fun _ _ => rfl⟩,
    ⟨gset (sel 0 1 0 32) [] (ep1 {}), 256, 0, _, 0, turn rfl ?_ ?_ ?_ ?_ ?_, ?_⟩,
    ⟨gset (sel 0 0xFFFFF 0) [4096], 256, 0, _, 0, turn rfl ?_ ?_ ?_ ?_ ?_, ?_⟩,
    ⟨gset (sel 1 1), 256, 0, _, 0, turn rfl ?_ ?_ ?_ ?_ ?_, ?_⟩,
    ⟨gset (sel 1 1) [1] (ep1 {}), 256, 0, _, 0, turn rfl ?_ ?_ ?_ ?_ ?_, ?_⟩,
    ⟨gset (sel 1 1) [2] (ep1 {}), 256, 0, _, 0, turn rfl ?_ ?_ ?_ ?_ ?_, ?_⟩,
    ⟨gset (sel 1 1) [2] (ep1 { state := 5 }), 256, 0, _, 0, turn rfl ?_ ?_ ?_ ?_ ?_, ?_⟩,
    ⟨gset (sel 1 1) [3] (ep1 { state := 7 }), 256, 0, _, 0, turn rfl ?_ ?_ ?_ ?_ ?_, ?_⟩,
    ⟨gset (sel 1 1) [3, 2 ^ 16] (ep1 { state := 7 }), 256, 0, _, 0, turn rfl ?_ ?_ ?_ ?_ ?_, ?_⟩,
    ⟨gset (sel 4 63 255), 256, 0, _, 0, turn rfl ?_ ?_ ?_ ?_ ?_⟩, ⟨gset (sel 5 1023), 256, 0, _, 0, turn rfl ?_ ?_ ?_ ?_ ?_⟩,
    ⟨(gset (sel 6 4095)).setDie 0 { frames := [(4095, { pin := true })] }, 256, 0, _, 0, turn rfl ?_ ?_ ?_ ?_ ?_, ?_⟩,
    ⟨gset (sel 6 4095), 256, 0, _, 0, turn rfl ?_ ?_ ?_ ?_ ?_, ?_⟩, ⟨gset (sel 7 31), 256, 0, _, 0, turn rfl ?_ ?_ ?_ ?_ ?_⟩,
    ⟨gset (sel 8 0 255), 256, 0, _, 0, turn rfl ?_ ?_ ?_ ?_ ?_⟩, ⟨gset (sel 9 5), 256, 0, _, 0, turn rfl ?_ ?_ ?_ ?_ ?_, ?_⟩,
    ⟨gset (sel 10 31), 256, 0, _, 0, turn rfl ?_ ?_ ?_ ?_ ?_, ?_⟩,
    ⟨gset (sel 12) [129 + 2 ^ 32] ((copyOp { oneWord 8 0 with fault := some (.page, 8) }).core 0), 256, 0, _, 0, _, _, _,
      turn rfl ?_ ?_ ?_ ?_ ?_, rfl, ?_, rfl, ?_⟩,
    ⟨gset (sel 12) [129] ((copyOp { oneWord 8 0 with fault := some (.page, 8) }).core 0), 256, 0, _, 0, _, _, _,
      turn rfl ?_ ?_ ?_ ?_ ?_, rfl, ?_, rfl, ?_⟩,
    ⟨gset (sel 12 0 259), 256, 0, _, 0, turn rfl ?_ ?_ ?_ ?_ ?_, ?_⟩,
    ⟨{ gset (sel 8) with mem := { ({} : Memory) with poison := [poolKey 256 0 / 64] } }, 256, 0, _, 0, poolKey 256 0 / 64, rfl,
      ?_⟩⟩ <;> decide

/-- A SHOOT at work on kernel core 256, with the page tables of job 0 as given. -/
def shooting (e0 e1 leaf : Nat) (f : Die → Die := id) : State :=
  let s := gset (sel 11) [0, 2 ^ 48, 7]
  { s with mem := ((s.mem.write (8 * 64) 8 e0).write 65536 8 e1).write 131072 8 leaf, dies := [(0, f { jobs := [(0, { valid := true })] })] }

/-- A shoot-down in progress, with the cores still to be invalidated and those not yet drained. -/
def shot (pending unacked : List Nat) (f : Core → Core := id) : State :=
  (on 256 (fun p => { p with state := .blockedSync }) f).setDie 0 { shoots := [{
    kcore := 256, pn := 0, job := 0, va := 2 ^ 48, pte := 7, image := 0, pendingCores := pending, unacked := unacked }] }

/-- A fault message in the gate of core 256. -/
def faultWaits (f : Core → Core := id) : State := on 256 id (fun c => f { c with faultOut := [{ kind := 5, cause := 0x21, pid := 0, job := 0 }] })

theorem witness_ShootDownsAndFaultMessages :
    (∃ (s : State) (core pn : Nat) (x y : Word) (c : Cause), s.gsetTurn core pn x y false 11
      ∧ (s.die (dieOf core)).shoots.any (fun h => h.kcore == core) = false
      ∧ s.leafKey (dieOf core) (s.image core y 32 % 2 ^ 16) (s.image core y 32 / 2 ^ 64 % 2 ^ 64)
          (word (s.image core y 32 / 2 ^ 128 % 2 ^ 64)) = .inr c)
    ∧ (∃ (s : State) (core pn : Nat) (x y : Word), s.gsetTurn core pn x y false 11
      ∧ (s.die (dieOf core)).shoots.any (fun h => h.kcore == core) = false
      ∧ s.leafKey (dieOf core) (s.image core y 32 % 2 ^ 16) (s.image core y 32 / 2 ^ 64 % 2 ^ 64)
          (word (s.image core y 32 / 2 ^ 128 % 2 ^ 64)) = .inl none)
    ∧ (∃ (s : State) (core pn : Nat) (x y : Word) (k : Nat), s.gsetTurn core pn x y false 11
      ∧ (s.die (dieOf core)).shoots.any (fun h => h.kcore == core) = false
      ∧ s.leafKey (dieOf core) (s.image core y 32 % 2 ^ 16) (s.image core y 32 / 2 ^ 64 % 2 ^ 64)
          (word (s.image core y 32 / 2 ^ 128 % 2 ^ 64)) = .inl (some k)
      ∧ s.pinOld (s.image core y 32 % 2 ^ 16) (s.image core y 32 / 2 ^ 64 % 2 ^ 64) (s.mem.word (k / 8)) = none)
    ∧ (∃ (s : State) (core pn : Nat) (x y : Word) (k : Nat) (u : State), s.gsetTurn core pn x y false 11
      ∧ (s.die (dieOf core)).shoots.any (fun h => h.kcore == core) = false
      ∧ s.leafKey (dieOf core) (s.image core y 32 % 2 ^ 16) (s.image core y 32 / 2 ^ 64 % 2 ^ 64)
          (word (s.image core y 32 / 2 ^ 128 % 2 ^ 64)) = .inl (some k)
      ∧ s.pinOld (s.image core y 32 % 2 ^ 16) (s.image core y 32 / 2 ^ 64 % 2 ^ 64) (s.mem.word (k / 8)) = some u
      ∧ s.shootCores (s.image core y 32 % 2 ^ 16) ≠ [] ∧ s.mem.isPoisoned k = false ∧ s.mem.wf = true ∧ s.noWaiters)
    ∧ (∃ (s : State) (kcore : Nat), s.shootOf kcore = none)
    ∧ (∃ (s : State) (kcore core : Nat) (h : Shoot), s.shootOf kcore = some h ∧ core ∈ h.pendingCores
      ∧ ∃ p ∈ h.pendingCores, treeAbove p core = true)
    ∧ (∃ (s : State) (kcore core : Nat) (h : Shoot), s.shootOf kcore = some h ∧ core ∈ h.pendingCores
      ∧ (∀ p ∈ h.pendingCores, treeAbove p core = false) ∧ (s.core core).gated = false)
    ∧ (∃ (s : State) (kcore core : Nat) (h : Shoot), s.shootOf kcore = some h ∧ core ∈ h.pendingCores
      ∧ (∀ p ∈ h.pendingCores, treeAbove p core = false) ∧ (s.core core).gated = true ∧ h.unacked ≠ [])
    ∧ (∃ (s : State) (kcore core : Nat) (h : Shoot), s.shootOf kcore = some h ∧ core ∉ h.unacked)
    ∧ (∃ (s : State) (kcore core : Nat) (h : Shoot), s.shootOf kcore = some h ∧ core ∈ h.unacked ∧ h.limits = [(core, 1)]
      ∧ (s.coreFor core h.job).drained h 1 = false)
    ∧ (∃ (s : State) (kcore core : Nat) (h : Shoot), s.shootOf kcore = some h ∧ core ∈ h.unacked ∧ (s.core core).drained h 0 = true
      ∧ (s.coreFor core h.job).drained h 0 = true ∧ h.limits = [] ∧ h.pendingCores ≠ [])
    ∧ (∃ (s : State) (kcore core : Nat) (h : Shoot), s.shootOf kcore = some h ∧ h.unacked = [core] ∧ (s.core core).drained h 0 = true
      ∧ (s.coreFor core h.job).drained h 0 = true ∧ h.limits = [] ∧ h.pendingCores = [] ∧ kcore ≠ mailShooter (dieOf kcore) ∧ (s.proc kcore h.pn).state = .blockedSync
      ∧ s.mem.wf = true ∧ s.noWaiters ∧ (h.image + 24).toNat + 8 ≤ 2 ^ 21
      ∧ s.mem.isPoisoned (poolKey kcore (h.image + 24).toNat) = false)
    ∧ (∃ (s : State) (core : Nat), (s.core core).faultOut = [])
    ∧ (∃ (s : State) (core : Nat) (m : FaultMsg) (rest : List FaultMsg), (s.core core).faultOut = m :: rest ∧ m.kind = 1
      ∧ (s.core core).inFlight (m.pid.toNat % 256) = true)
    ∧ (∃ (s : State) (core : Nat) (m : FaultMsg) (rest : List FaultMsg), (s.core core).faultOut = m :: rest
      ∧ (s.pkg (pkgOf core)).turning.getLsbD 1 = true)
    ∧ (∃ (s : State) (core : Nat) (m : FaultMsg) (rest : List FaultMsg), (s.core core).faultOut = m :: rest ∧ m.kind ≠ 1
      ∧ (s.pkg (pkgOf core)).turning.getLsbD 1 = false ∧ (s.pkg (pkgOf core)).servesFaults m.job.toNat (dieOf core) = true)
    ∧ (∃ (s : State) (core : Nat) (m : FaultMsg) (rest : List FaultMsg), (s.core core).faultOut = m :: rest ∧ m.kind ≠ 1
      ∧ (s.pkg (pkgOf core)).turning.getLsbD 1 = false ∧ (s.pkg (pkgOf core)).servesFaults m.job.toNat (dieOf core) = false
      ∧ s.mem.isFull ((s.core (kernelFor core)).ringKey (kernelFor core) 0 / 8) = true)
    ∧ (∃ (s : State) (core : Nat) (m : FaultMsg) (rest : List FaultMsg), (s.core core).faultOut = m :: rest ∧ m.kind ≠ 1
      ∧ (s.pkg (pkgOf core)).turning.getLsbD 1 = false ∧ (s.pkg (pkgOf core)).servesFaults m.job.toNat (dieOf core) = false ∧ m.more = []
      ∧ s.mem.isFull ((s.core (kernelFor core)).ringKey (kernelFor core) 0 / 8) = false
      ∧ (s.core (kernelFor core)).frbase.toNat % 64 = 0 ∧ (s.core (kernelFor core)).frbase.toNat + 16384 ≤ 2 ^ 21
      ∧ s.mem.wf = true ∧ s.noWaiters ∧ s.mem.clean ((s.core (kernelFor core)).ringKey (kernelFor core) 0) 64)
    ∧ (∃ m : FaultMsg, m.more.length = 3) := by
  let turn {s : State} {core pn : Nat} {x y : Word} {rd : Bool} {cls : Nat} (a : (s.core core).gsetHead = some (pn, x, y)) (b : selRd x = rd)
      (c : selClass x = cls) (d : (s.core core).storesDone pn (s.core core).nextTag = true) (e : (s.proc core pn).state = .blockedSync)
      (f : s.mem.poisonIn (poolKey core y.toNat) (imageBytes cls) = none ∧ (s.core (dieOf core * 512 + selCore x)).gated = false) :
      s.gsetTurn core pn x y rd cls := ⟨a, b, c, d, e, fun _ => f.1, fun _ => f.2⟩
  refine ⟨⟨shooting (1 + 0xFFFFFFFF * 2 ^ 16) 0 0, 256, 0, _, 0, .prot, turn rfl ?_ ?_ ?_ ?_ ?_, ?_, ?_⟩,
    ⟨shooting 0 0 0, 256, 0, _, 0, turn rfl ?_ ?_ ?_ ?_ ?_, ?_, ?_⟩,
    ⟨shooting (1 + 2 ^ 16) (1 + 2 ^ 17) 7 (fun d => { d with
      frames := (List.range 64).map (fun i => (i, { valid := true, pin := true, vpn := BitVec.ofNat 40 i })) }), 256, 0, _, 0, 131072,
      turn rfl ?_ ?_ ?_ ?_ ?_, ?_, ?_, ?_⟩,
    ⟨shooting (1 + 2 ^ 16) (1 + 2 ^ 17) 0, 256, 0, _, 0, 131072, _, turn rfl ?_ ?_ ?_ ?_ ?_, ?_, ?_, rfl, ?_, ?_, ?_,
      fun | 0 => rfl | _ + 1 => rfl⟩,
    ⟨base, 256, ?_⟩, ⟨shot [0, 1] [], 256, 1, _, rfl, ?_⟩, ⟨shot [0, 1] [], 256, 0, _, rfl, ?_⟩,
    ⟨shot [256] [257] (fun c => { c with gated := true }), 256, 256, _, rfl, ?_⟩, ⟨shot [0] [], 256, 0, _, rfl, ?_⟩,
    ⟨(shot [] [256] (fun c => { c with reqs := [{ global := true, ea := 2 ^ 48 }] })).modDie 0 (fun d => { d with
      shoots := d.shoots.map (fun h => { h with limits := [(256, 1)] }) }), 256, 256, _, rfl, ?_⟩,
    ⟨shot [0] [1], 256, 1, _, rfl, ?_⟩,
    ⟨shot [] [256], 256, 256, _, rfl, ?_, ?_, ?_, ?_, ?_, ?_, ?_, ?_, fun | 0 => rfl | _ + 1 => rfl, ?_⟩,
    ⟨base, 0, ?_⟩,
    ⟨on 256 id (fun c => inFlight { c with faultOut := [{ kind := 1, cause := 1, pid := 256 * 256, job := 0 }] }), 256, _, _, rfl, ?_⟩,
    ⟨{ faultWaits with pkgs := [(0, { turning := 2 })] }, 256, _, _, rfl, ?_⟩,
    ⟨{ faultWaits with pkgs := [(0, { duty := 4, ldbind := [(0, 0x31)] })] }, 256, _, _, rfl, ?_⟩,
    ⟨{ faultWaits with mem := { full := [poolKey 256 0 / 8] } }, 256, _, _, rfl, ?_⟩,
    ⟨faultWaits, 256, _, _, rfl, ?_, ?_, ?_, ?_, ?_, ?_, ?_, ?_, fun _ => rfl, fun _ _ => rfl⟩,
    ⟨{ kind := 4, cause := 0, pid := 0, job := 0, more := [0, 0, 0] }, ?_⟩⟩ <;> decide

/-- Package 0 out of recovery, all duties with the host, die 0 bound to device 0 and job 0. -/
def mail (f : Pkg → Pkg := id) (s : State := base) : State :=
  { s with pkgs := [(0, f { recovery := false, duty := 0x155, ldbind := [(0, 0x21)] })] }
/-- A process fault of process pn of core 0. -/
def procFault (pn : Nat) : Nat × FaultMsg := (0, { kind := 1, cause := 1, pid := BitVec.ofNat 31 pn, job := 0 })

theorem witness_MailboxCommands :
    (∃ (s : State) (pkg dev : Nat), (s.pkg pkg).serves dev = false)
    ∧ (∃ (s : State) (pkg dev : Nat), (s.pkg pkg).serves dev = true ∧ (s.pkg pkg).recovery = true)
    ∧ (∃ (s : State) (pkg dev op : Nat), s.mailOpen pkg dev ∧ (s.pkg pkg).turning = 0 ∧ (s.pkg pkg).dutyMode 0 = false ∧ (s.pkg pkg).dutyMode 1 = false
      ∧ (s.pkg pkg).dutyMode 2 = false ∧ (s.pkg pkg).dutyMode 3 = false ∧ (s.pkg pkg).dutyMode 4 = false ∧ (op < 0xC000 ∨ 0xC008 < op))
    ∧ (∃ (s : State) (pkg dev : Nat), s.mailOpen pkg dev ∧ (s.pkg pkg).turning.getLsbD 2 = true
      ∧ (s.pkg pkg).turning.getLsbD 3 = true ∧ (s.pkg pkg).turning.getLsbD 4 = true)
    ∧ (∃ (s : State) (pkg dev d : Nat), s.mailOpen pkg dev ∧ (s.pkg pkg).dutyMode 1 = true ∧ s.stoppedDie pkg dev = some d)
    ∧ (∃ (s : State) (pkg dev : Nat) (e : Nat × FaultMsg) (rest : List (Nat × FaultMsg)), s.mailOpen pkg dev
      ∧ (s.pkg pkg).dutyMode 1 = true ∧ s.stoppedDie pkg dev = none
      ∧ takeFirst ((s.pkg pkg).concerns dev) (s.pkg pkg).forwarded = some (e, rest))
    ∧ (∃ (s : State) (pkg dev : Nat), s.mailOpen pkg dev ∧ (s.pkg pkg).dutyMode 1 = true ∧ s.stoppedDie pkg dev = none
      ∧ takeFirst ((s.pkg pkg).concerns dev) (s.pkg pkg).forwarded = none)
    ∧ (∃ (s : State) (pkg dev a target : Nat), s.mailOpen pkg dev ∧ (s.pkg pkg).dutyMode 1 = true
      ∧ takeFirst ((s.pkg pkg).answers dev a target) (s.pkg pkg).taken = none)
    ∧ (∀ a : Nat, a = 0 ∨ a = 1 → ∃ (s : State) (pkg dev target : Nat) (image : BitVec 512) (e : Nat × FaultMsg) (rest : List (Nat × FaultMsg)),
      s.mailOpen pkg dev ∧ (s.pkg pkg).dutyMode 1 = true ∧ image.toNat / 2 ^ 120 % 16 ≠ 0
      ∧ takeFirst ((s.pkg pkg).answers dev a target) (s.pkg pkg).taken = some (e, rest)
      ∧ (s.proc e.1 (target % 256)).state = .faulted)
    ∧ (∃ (s : State) (pkg dev target : Nat) (e : Nat × FaultMsg) (rest : List (Nat × FaultMsg)),
      s.mailOpen pkg dev ∧ (s.pkg pkg).dutyMode 1 = true
      ∧ takeFirst ((s.pkg pkg).answers dev 2 target) (s.pkg pkg).taken = some (e, rest) ∧ target % 256 ≠ 255
      ∧ (s.proc e.1 (target % 256)).state = .ready ∧ (s.proc e.1 (target % 256)).wait = .none
      ∧ (s.core e.1).slotOf (target % 256) = none)
    ∧ (∃ (s : State) (pkg dev job g : Nat), s.mailOpen pkg dev ∧ (s.pkg pkg).dutyMode 0 = true
      ∧ ((s.pkg pkg).devDies pkg dev = [] ∨ ldJob ((s.pkg pkg).binding dev) ≠ job ∨ 5 < g))
    ∧ (∃ (s : State) (pkg dev job g : Nat), s.mailOpen pkg dev ∧ (s.pkg pkg).dutyMode 0 = true
      ∧ (s.pkg pkg).devDies pkg dev ≠ [] ∧ ldJob ((s.pkg pkg).binding dev) = job ∧ (g = 1 ∨ g = 3 ∨ g = 4))
    ∧ (∃ (s : State) (pkg dev job va g die k own : Nat) (ds : List Nat), s.mailOpen pkg dev ∧ (s.pkg pkg).dutyMode 0 = true
      ∧ (s.pkg pkg).devDies pkg dev = die :: ds ∧ ldJob ((s.pkg pkg).binding dev) = job ∧ migrateOwn g = some own
      ∧ (s.pkg pkg).migrations.any (fun m => m.die == die) = false
      ∧ ((s.pkg pkg).turning.getLsbD 0 = false ∨ (job, va) ∈ (s.pkg pkg).migrating) ∧ s.leafKey die job va 0 = .inl (some k)
      ∧ s.leafKey die job va (withOwn (s.mem.word (k / 8)) own) = .inl (some k) ∧ (s.mem.word (k / 8)).getLsbD 0 = false
      ∧ s.shootCores job ≠ [] ∧ s.mem.isPoisoned k = false ∧ s.mem.wf = true ∧ s.noWaiters)
    ∧ (∃ (s : State) (pkg dev die i : Nat), s.mailOpen pkg dev ∧ (s.pkg pkg).dutyMode 2 = true ∧ (s.pkg pkg).turning.getLsbD 2 = false
      ∧ (s.pkg pkg).devDie dev die = true ∧ i < 1024)
    ∧ (∃ (s : State) (pkg dev die i : Nat), s.mailOpen pkg dev ∧ (s.pkg pkg).dutyMode 2 = true ∧ (s.pkg pkg).turning.getLsbD 2 = false
      ∧ ¬ ((s.pkg pkg).devDie dev die = true ∧ i < 1024))
    ∧ (∃ (s : State) (pkg dev i : Nat), s.mailOpen pkg dev ∧ (s.pkg pkg).dutyMode 3 = true
      ∧ (s.pkg pkg).turning.getLsbD 3 = false ∧ i < 4096)
    ∧ (∃ (s : State) (pkg dev o : Nat), s.mailOpen pkg dev ∧ (s.pkg pkg).dutyMode 3 = true
      ∧ (s.pkg pkg).turning.getLsbD 3 = false ∧ (o < 0x8000000000 ∨ fabricOffsetOk o = false))
    ∧ (∃ (s : State) (pkg dev die : Nat), s.mailOpen pkg dev ∧ (s.pkg pkg).dutyMode 4 = true
      ∧ (s.pkg pkg).turning.getLsbD 4 = false ∧ (s.pkg pkg).devDie dev die = true)
    ∧ (∃ (s : State) (pkg dev die : Nat), s.mailOpen pkg dev ∧ (s.pkg pkg).dutyMode 4 = true
      ∧ (s.pkg pkg).turning.getLsbD 4 = false ∧ (s.pkg pkg).devDie dev die = false)
    ∧ (∃ (s : State) (pkg dev o : Nat) (b : List Byte), (s.pkg pkg).serves dev = true ∧ b.length ≤ 4096
      ∧ o + b.length ≤ 8192 + 16 * 2 ^ 20)
    ∧ (∃ b : List Byte, 4096 < b.length)
    ∧ (∃ (s : State) (pkg dev q base log entry : Nat), s.mailOpen pkg dev ∧ q < 256
      ∧ base % 4096 = 0 ∧ 4 ≤ log ∧ log ≤ 12 ∧ entry % 64 = 0 ∧ 128 ≤ entry)
    ∧ (∃ base log : Nat, base % 4096 ≠ 0 ∨ log < 4 ∨ 12 < log)
    ∧ (∃ (s : State) (pkg dev q : Nat), s.mailOpen pkg dev ∧ q < 256 ∧ (hostQueueAt (s.pkg pkg) dev q).used = false)
    ∧ (∃ (s : State) (pkg dev q : Nat), s.mailOpen pkg dev ∧ q < 256 ∧ (hostQueueAt (s.pkg pkg) dev q).used = true
      ∧ hostEnds s pkg (fun e => e.hostDev == dev && e.hostQueue == q && e.state != 6) = []) := by
  refine ⟨⟨base, 0, 16, ?_⟩, ⟨base, 0, 15, ?_⟩, ⟨mail (fun p => { p with duty := 0x2AA }), 0, 0, 0xC009, ?_⟩,
    ⟨mail (fun p => { p with turning := 28 }), 0, 0, ?_⟩,
    ⟨mail id { base with dies := [(0, { stopReport := true })] }, 0, 0, 0, ?_⟩,
    ⟨mail (fun p => { p with forwarded := [procFault 0] }), 0, 0, _, _, ?_, ?_, ?_, rfl⟩, ⟨mail, 0, 0, ?_⟩, ⟨mail, 0, 0, 0, 0, ?_⟩,
    fun a h => ⟨mail (fun p => { p with taken := [procFault 0] }) (on 0 (fun p => { p with state := .faulted })), 0, 0, 0, BitVec.ofNat 512 (2 ^ 120), _, _,
      ?_, ?_, ?_, by rcases h with rfl | rfl <;> rfl, ?_⟩,
    ⟨mail (fun p => { p with taken := [procFault 3] }) (on 0 id (fun c => c.setProc 3 { state := .ready })), 0, 0, 3, _, _,
      ?_, ?_, rfl, ?_, ?_, ?_, ?_⟩,
    ⟨mail, 0, 0, 0, 6, ?_⟩, ⟨mail, 0, 0, 0, 4, ?_⟩,
    ⟨mail id (shooting (1 + 2 ^ 16) (1 + 2 ^ 17) 0), 0, 0, 0, 2 ^ 48, 0, 0, 131072, 2, [], ?_, ?_, ?_, ?_, ?_, ?_, ?_, ?_, ?_, ?_, ?_, ?_, ?_,
      fun | 0 => rfl | _ + 1 => rfl⟩,
    ⟨mail, 0, 0, 0, 1023, ?_⟩, ⟨mail, 0, 0, 0, 1024, ?_⟩, ⟨mail, 0, 0, 4095, ?_⟩, ⟨mail, 0, 0, 0x8000008000, ?_⟩,
    ⟨mail, 0, 0, 0, ?_⟩, ⟨mail, 0, 0, 1, ?_⟩, ⟨base, 0, 15, 8192 + 16 * 2 ^ 20 - 1, [7], ?_⟩,
    ⟨List.replicate 4097 0, by rw [List.length_replicate]; decide⟩,
    ⟨mail, 0, 0, 255, 4096, 12, 128, ?_⟩, ⟨0, 13, ?_⟩, ⟨mail, 0, 0, 255, ?_⟩,
    ⟨mail (fun p => { p with hostq := [(255, { used := true })] }), 0, 0, 255, ?_⟩⟩ <;> first | decide | (unfold State.mailOpen; decide)

/-- Package 0 with the host queue 2 of its device 0. -/
def hostRing (q : HostQueue) (s : State := base) : State := mail (fun p => { p with hostq := [(2, { q with used := true })] }) s
/-- An endpoint of host queue 2 in core 0, at handle 1. -/
def hostEp (e : Endpoint) (p : Proc → Proc := id) : State :=
  on 0 p (fun c => { c with endpoints := [(1, { e with valid := true, pkind := 2, pcore := 2 })] })
/-- The page at 2^48 of job 0, with OWN = HOST. -/
def hostPage : State := mail id (shooting (1 + 2 ^ 16) (1 + 2 ^ 17) 0x47)

theorem witness_HostAccessesAndAttestation :
    (∃ (s : State) (pkg dev q : Nat), (s.pkg pkg).serves dev = false ∨ (hostQueueAt (s.pkg pkg) dev q).used = false
      ∨ (hostQueueAt (s.pkg pkg) dev q).toHost = true)
    ∧ (∃ (s : State) (pkg dev q : Nat), (s.pkg pkg).serves dev = true ∧ (hostQueueAt (s.pkg pkg) dev q).used = true
      ∧ (hostQueueAt (s.pkg pkg) dev q).toHost = false ∧ s.hostIn pkg dev q = none)
    ∧ (∃ (s : State) (pkg dev q core handle : Nat), let h := hostQueueAt (s.pkg pkg) dev q
      (s.pkg pkg).serves dev = true ∧ h.used = true ∧ h.toHost = false ∧ s.hostIn pkg dev q = some (core, handle)
      ∧ (s.core core).epFind handle = some (s.ep core handle) ∧ (s.ep core handle).buffered = false ∧ (s.ep core handle).state = 0
      ∧ (s.ep core handle).isTile = false ∧ (s.die (dieOf core)).switching = false ∧ h.head < s.mem.read (hostKey pkg (h.base + 8)) 8
      ∧ (s.ep core handle).hostDev = dev ∧ (s.ep core handle).hostQueue = q ∧ pkgOf core = pkg)
    ∧ (∃ (s : State) (pkg dev q core handle : Nat) (u : State), let h := hostQueueAt (s.pkg pkg) dev q
      (s.pkg pkg).serves dev = true ∧ h.used = true ∧ h.toHost = false ∧ s.hostIn pkg dev q = some (core, handle)
      ∧ (s.ep core handle).buffered = true ∧ (s.ep core handle).state ≠ 6 ∧ (s.die (dieOf core)).switching = false
      ∧ s.mem.read (hostKey pkg (h.base + 8)) 8 = h.head + 1
      ∧ (s.ep core handle).hostDev = dev ∧ (s.ep core handle).hostQueue = q ∧ pkgOf core = pkg ∧ s.coreDone core = false
      ∧ s.mem.wf = true
      ∧ (s.modHostQueue pkg dev q (fun x => { x with tail := h.head + 1 })).receiveMessage core
          (s.hostMessage pkg h (s.ep core handle) handle (s.jobOf core)) = some u)
    ∧ (∃ (s : State) (pkg dev q : Nat), let h := hostQueueAt (s.pkg pkg) dev q
      h.used = false ∨ h.toHost = false ∨ h.tail ≤ h.head)
    ∧ (∃ (s : State) (pkg dev q : Nat), let h := hostQueueAt (s.pkg pkg) dev q
      h.used = true ∧ h.toHost = true ∧ h.head < h.tail ∧ h.owners = [] ∧ s.mem.wf = true)
    ∧ (∃ (s : State) (pkg dev q core handle i : Nat) (rest : List (Nat × Nat)), let h := hostQueueAt (s.pkg pkg) dev q
      let e := s.ep core handle
      h.used = true ∧ h.toHost = true ∧ h.head < h.tail ∧ h.owners = (core, handle) :: rest ∧ (s.die (dieOf core)).saved = []
      ∧ e.buffered = false ∧ e.engine = false ∧ (s.proc core e.owner.toNat).wait = .sending handle
      ∧ (s.proc core e.owner.toNat).state = .blockedChan ∧ (s.core core).slotOf e.owner.toNat = some i)
    ∧ (∃ (s : State) (pkg dev q core handle : Nat) (rest : List (Nat × Nat)), let h := hostQueueAt (s.pkg pkg) dev q
      let e := s.ep core handle
      h.used = true ∧ h.toHost = true ∧ h.head < h.tail ∧ h.owners = (core, handle) :: rest ∧ (s.die (dieOf core)).saved = []
      ∧ e.buffered = true ∧ e.state = 0 ∧ e.credit.toNat ≤ e.dm1.toNat ∧ (s.core core).epFind handle = some e)
    ∧ (∃ (s : State) (pkg dev : Nat), (s.pkg pkg).serves dev = false)
    ∧ (∃ (s : State) (pkg dev va k : Nat), (s.pkg pkg).serves dev = true ∧ s.hdmKey pkg dev va = some k ∧ s.mem.isPoisoned k = false
      ∧ s.mem.wf = true ∧ s.noWaiters)
    ∧ (∃ (s : State) (pkg dev va k : Nat), (s.pkg pkg).serves dev = true ∧ s.hdmKey pkg dev va = some k ∧ s.mem.isPoisoned k = true)
    ∧ (∃ (s : State) (pkg dev va : Nat), (s.pkg pkg).serves dev = true ∧ s.hdmKey pkg dev va = none
      ∧ s.mute (((s.pkg pkg).devDies pkg dev).headD (4 * pkg)) = false ∧ (s.die (((s.pkg pkg).devDies pkg dev).headD (4 * pkg))).invBuf.length < 256)
    ∧ (∃ s : State, s.mem.wf = true)
    ∧ (∃ (s : State) (pkg dev : Nat), (s.pkg pkg).serves dev = true ∧ hostEnds s pkg (fun e => e.hostDev == dev) = []
      ∧ (∀ c, (s.core c).reqs = [] ∧ (s.core c).vecQ = [] ∧ (s.core c).copyQ = []) ∧ (s.pkg pkg).migrating = []
      ∧ (s.pkg pkg).migrations.filter (fun m => m.dev == dev) ≠ [])
    ∧ (∃ (s : State) (pkg dev va k : Nat), (s.pkg pkg).serves dev = true ∧ hostEnds s pkg (fun e => e.hostDev == dev) = []
      ∧ (∀ c, (s.core c).reqs = [] ∧ (s.core c).vecQ = [] ∧ (s.core c).copyQ = []) ∧ ldV ((s.pkg pkg).binding dev) = true
      ∧ (s.pkg pkg).migrating = [(ldJob ((s.pkg pkg).binding dev), va)]
      ∧ s.leafKey (s.dieWithJob pkg (ldJob ((s.pkg pkg).binding dev))) (ldJob ((s.pkg pkg).binding dev)) va 0 = .inl (some k)
      ∧ pteOwn (s.mem.word (k / 8)) = 2 ∧ s.mem.isPoisoned k = false ∧ s.mem.wf = true ∧ s.noWaiters)
    ∧ (∃ (s : State) (pkg dev core : Nat) (m : FaultMsg), (s.pkg pkg).serves dev = true
      ∧ hostEnds s pkg (fun e => e.hostDev == dev) = []
      ∧ (∀ c, (s.core c).reqs = [] ∧ (s.core c).vecQ = [] ∧ (s.core c).copyQ = []) ∧ (s.pkg pkg).taken = []
      ∧ (s.pkg pkg).forwarded = [(core, m)] ∧ (s.pkg pkg).migrating = [] ∧ (s.pkg pkg).concerns dev (core, m) = true)
    ∧ (∃ (s : State) (pkg dev : Nat), (s.pkg pkg).serves dev = false)
    ∧ (∃ (s : State) (pkg : Nat), (s.pkg pkg).hostDown = [])
    ∧ (∃ (s : State) (pkg : Nat), (s.pkg pkg).hostDown ≠ [])
    ∧ (∃ (s : State) (pkg l : Nat) (e : Nat × List Byte), (s.pkg pkg).hostDown ≠ [] ∧ (s.pkg pkg).hostLines = [e]
      ∧ hostKey pkg (l * 64) = e.1 * 64 ∧ e.2.length = 64 ∧ s.mem.bytes (e.1 * 64) 64 ≠ e.2 ∧ s.mem.wf = true)
    ∧ (∃ (s : State) (pkg dev n c : Nat), (s.pkg pkg).serves dev = true ∧ (s.pkg pkg).recovery = false ∧ n ≠ 0 ∧ c ≠ 0)
    ∧ (∃ (s : State) (pkg dev : Nat) (e : Nat × BitVec 384), (s.pkg pkg).serves dev = true ∧ (s.pkg pkg).recovery = false
      ∧ (s.pkg pkg).signed.find? (fun e => e.1 == dev) = some e)
    ∧ (∃ v, v ≠ Config.vendorId)
    ∧ (∃ (s : State) (pkg dev : Nat), (s.pkg pkg).serves dev = true ∧ (s.pkg pkg).recovery = true) := by
  refine ⟨⟨base, 0, 0, 0, ?_⟩, ⟨hostRing { toHost := false }, 0, 0, 2, ?_⟩,
    ⟨hostRing { toHost := false } { hostEp { dirIn := true } with mem := ({} : Memory).write (hostKey 0 8) 8 1 }, 0, 0, 2, 0, 1, ?_⟩,
    ⟨hostRing { toHost := false } { hostEp { dirIn := true, buffered := true } with mem := ({} : Memory).write (hostKey 0 8) 8 1 }, 0, 0, 2, 0, 1,
      _, ?_, ?_, ?_, ?_, ?_, ?_, ?_, ?_, ?_, ?_, ?_, ?_, ?_, rfl⟩,
    ⟨base, 0, 0, 0, ?_⟩, ⟨hostRing { tail := 1 }, 0, 0, 2, ?_⟩,
    ⟨hostRing { tail := 1, owners := [(0, 1)] } (hostEp { state := 1 } (fun p => { p with state := .blockedChan, wait := .sending 1 })),
      0, 0, 2, 0, 1, 0, [], ?_⟩,
    ⟨hostRing { tail := 1, owners := [(0, 1)] } (hostEp { buffered := true }), 0, 0, 2, 0, 1, [], ?_⟩,
    ⟨base, 0, 16, ?_⟩, ⟨hostPage, 0, 0, 2 ^ 48, 0, ?_, ?_, ?_, ?_, fun | 0 => rfl | _ + 1 => rfl⟩,
    ⟨{ hostPage with mem := { hostPage.mem with poison := [0] } }, 0, 0, 2 ^ 48, 0, ?_⟩, ⟨mail, 0, 0, 0, ?_⟩, ⟨base, ?_⟩,
    ⟨mail (fun p => { p with migrations := [{ dev := 0, die := 0 }] }) {}, 0, 0, ?_, ?_, fun _ => ⟨rfl, rfl, rfl⟩, ?_⟩,
    ⟨mail (fun p => { p with migrating := [(0, 2 ^ 48)] }) { shooting (1 + 2 ^ 16) (1 + 2 ^ 17) 0x87 with cores := [] }, 0, 0, 2 ^ 48, 131072,
      ?_, ?_, fun _ => ⟨rfl, rfl, rfl⟩, ?_, ?_, ?_, ?_, ?_, ?_, fun | 0 => rfl | _ + 1 => rfl⟩,
    ⟨mail (fun p => { p with forwarded := [procFault 0] }) {}, 0, 0, 0, (procFault 0).2, ?_, ?_, fun _ => ⟨rfl, rfl, rfl⟩, ?_⟩,
    ⟨base, 0, 16, ?_⟩, ⟨base, 0, ?_⟩,
    ⟨mail (fun p => { p with hostDown := [0] }), 0, ?_⟩,
    ⟨mail (fun p => { p with hostDown := [0], hostLines := [(3 * 2 ^ 34, List.replicate 64 7)] }), 0, 0, _, ?_, rfl, ?_, ?_, ?_, ?_⟩,
    ⟨mail, 0, 0, 1, 1, ?_⟩, ⟨mail (fun p => { p with signed := [(0, 0)] }), 0, 0, _, ?_, ?_, rfl⟩,
    ⟨Config.vendorId + 1, Nat.succ_ne_self _⟩, ⟨base, 0, 0, ?_⟩⟩ <;> decide

/-- A packet at package 0 from core 0 to core 0 of package 1. -/
def toPkg1 (hop : Nat := 0) (gen : Bool := false) : Packet := { src := 0, dst := 2048, at_ := 0, hop := hop, gen := gen, body := .credit 0 }
/-- Package 0 with a route to package 1. -/
def routed (e : Word) (p : Packet) (f : Pkg → Pkg := id) : State := { net := [p], pkgs := [(0, f { rte0 := [(1, e)] })] }
/-- The fill of a line of core 0, on its way from package 0. -/
def filling (dst : Nat) : Packet := { toPkg1 with dst := dst, body := .fill 0 5 }
/-- Valid, every pair of dies allowed, by port 0. -/
def route : Word := 0xFFFF000004
/-- A packet of the generation 0 that passes package 0. -/
def passing : Packet := { src := 2048, dst := 4096, at_ := 0, body := .credit 0 }

/-- Package 0, in an update, still holds an old packet; it and package n have sent a marker. -/
def marked (n : Nat) : State :=
  { net := [{ passing with gen := true }], pkgs := [(0, { busy := true, gen := true, markLevel := 1, markSent := 1 }), (n, { markSent := 1 })] }

theorem marked_sent : (marked (Config.neighbour 0 19)).markerSent 0 19 0 = true := by
  unfold State.markerSent
  generalize Config.neighbour 0 19 = n
  have h : ((marked n).pkg n).markSent = 1 := by
    by_cases hn : n = 0 <;> simp [marked, State.pkg, look, hn]
  rw [h]
  rfl

theorem witness_FabricAndControlRegisters :
    (∃ (s : State) (pkt : Nat), s.net[pkt]? = none)
    ∧ (∃ (s : State) (pkt : Nat) (p : Packet), s.net[pkt]? = some p ∧ p.at_ = pkgOf p.dst ∧ p.hop ≠ 0)
    ∧ (∃ (s : State) (pkt : Nat) (p : Packet), s.net[pkt]? = some p ∧ p.at_ = pkgOf p.dst ∧ s.islandOk p p.gen = true)
    ∧ (∃ (s : State) (p : Packet) (rest : List Packet), s.net = p :: rest ∧ p.at_ = pkgOf p.dst ∧ p.hop = 0
      ∧ s.islandOk p p.gen = false ∧ p.body.lostKey = none)
    ∧ (∃ p : Packet, dieOf (p.inj.getD p.src) = dieOf p.dst) ∧ (∃ p : Packet, dieOf (p.inj.getD p.src) ≠ dieOf p.dst)
    ∧ (∃ (s : State) (p : Packet) (rest : List Packet), s.net = p :: rest ∧ p.at_ ≠ pkgOf p.dst ∧ p.hop = 0
      ∧ (s.pkg p.at_).busy = false
      ∧ s.islandOk p (s.pkg p.at_).gen = false)
    ∧ (∃ (s : State) (p : Packet) (rest : List Packet), s.net = p :: rest ∧ p.at_ ≠ pkgOf p.dst ∧ p.hop = 0
      ∧ (s.pkg p.at_).busy = false
      ∧ s.islandOk p (s.pkg p.at_).gen = true
      ∧ rteUsable ((s.pkg p.at_).rte (s.pkg p.at_).gen (pkgOf p.dst)) = false)
    ∧ (∃ (s : State) (p : Packet) (rest : List Packet) (x : Nat × Nat), s.net = p :: rest ∧ p.at_ ≠ pkgOf p.dst ∧ p.hop = 0
      ∧ (s.pkg p.at_).busy = false ∧ s.islandOk p (s.pkg p.at_).gen = false ∧ p.body.lostKey = some x)
    ∧ (∃ (s : State) (p : Packet) (rest : List Packet) (x : Nat × Nat), s.net = p :: rest ∧ p.at_ ≠ pkgOf p.dst ∧ p.hop = 0
      ∧ (s.pkg p.at_).busy = false ∧ s.islandOk p (s.pkg p.at_).gen = true
      ∧ rteUsable ((s.pkg p.at_).rte (s.pkg p.at_).gen (pkgOf p.dst)) = false ∧ p.body.lostKey = some x)
    ∧ (∀ r : Bool, ∃ (s : State) (p : Packet) (rest : List Packet), s.net = p :: rest ∧ p.at_ ≠ pkgOf p.dst ∧ p.hop = 0
      ∧ (s.pkg p.at_).busy = false ∧ s.islandOk p (s.pkg p.at_).gen = true
      ∧ rteUsable ((s.pkg p.at_).rte (s.pkg p.at_).gen (pkgOf p.dst)) = true
      ∧ (s.pkg p.at_).linksDown.contains (p.port ((s.pkg p.at_).rte (s.pkg p.at_).gen (pkgOf p.dst))) = false
      ∧ p.reply = (if r then some true else none) ∧ p.body ≠ .ack)
    ∧ (∀ down : Bool, ∃ (s : State) (p : Packet) (rest : List Packet), s.net = p :: rest ∧ p.at_ ≠ pkgOf p.dst ∧ p.hop = 0
      ∧ (s.pkg p.at_).busy = false
      ∧ s.islandOk p (s.pkg p.at_).gen = true
      ∧ rteUsable ((s.pkg p.at_).rte (s.pkg p.at_).gen (pkgOf p.dst)) = true
      ∧ (s.pkg p.at_).linksDown.contains (p.port ((s.pkg p.at_).rte (s.pkg p.at_).gen (pkgOf p.dst))) = down)
    ∧ (∃ (s : State) (p : Packet) (rest : List Packet), s.net = p :: rest ∧ p.at_ ≠ pkgOf p.dst ∧ 0 < p.hop
      ∧ (s.pkg p.at_).busy = false ∧ 6 ≤ p.hop)
    ∧ (∃ (s : State) (p : Packet) (rest : List Packet), s.net = p :: rest ∧ p.at_ ≠ pkgOf p.dst ∧ 0 < p.hop
      ∧ (s.pkg p.at_).busy = false ∧ rteUsable ((s.pkg p.at_).rte p.gen (pkgOf p.dst)) = true ∧ p.hop < 6
      ∧ (s.pkg p.at_).linksDown.contains (p.port ((s.pkg p.at_).rte p.gen (pkgOf p.dst))) = false)
    ∧ (∃ e : Word, rteUsable e = true)
    ∧ (∃ (s : State) (pkg : Nat), (s.pkg pkg).busy = true)
    ∧ (∃ (s : State) (pkg : Nat), (s.pkg pkg).busy = false ∧ s.holdsOld pkg = true)
    ∧ (∃ (s : State) (pkg port level : Nat), 20 ≤ port ∨ (s.pkg pkg).busy = false ∨ look 0 (s.pkg pkg).markers port ≠ level
      ∨ s.markerSent pkg port level = false)
    ∧ (∃ (s : State) (pkg port level : Nat), port < 20 ∧ (s.pkg pkg).busy = true ∧ look 0 (s.pkg pkg).markers port = level
      ∧ s.markerSent pkg port level = true ∧ s.holdsOld pkg = true)
    ∧ (∃ port : Nat, 20 ≤ port) ∧ (∃ port : Nat, port < 20)
    ∧ (∃ target o : Nat, o < 0x8000000000 ∨ (target ≠ 0 ∧ target ≠ 1))
    ∧ (∃ i : Nat, i < 4096)
    ∧ (∃ (s : State) (die : Nat) (v : Word), v.getLsbD 1 = true ∧ (s.pkg (pkgOfDie die)).busy = false)
    ∧ (∃ (s : State) (die : Nat) (v : Word), v.getLsbD 1 = false ∨ (s.pkg (pkgOfDie die)).busy = true)
    ∧ (∃ v : Word, v.getLsbD 10 = false ∧ v.getLsbD 11 = false)
    ∧ (∃ (s : State) (die : Nat), (s.pkg (pkgOfDie die)).dutyMode 4 = false)
    ∧ (∃ (s : State) (die : Nat) (v : Word), v.getLsbD 16 = true ∧ (s.die die).tdWork = none)
    ∧ (∃ v : Word, v.getLsbD 9 = true)
    ∧ (∃ v : Word, v.getLsbD 0 = true ∧ v.getLsbD 1 = false) := by
  refine ⟨⟨base, 0, ?_⟩, ⟨{ net := [{ toPkg1 1 with at_ := 1 }] }, 0, _, rfl, ?_⟩,
    ⟨{ net := [{ toPkg1 with dst := 1 }] }, 0, _, rfl, ?_⟩, ⟨{ net := [{ toPkg1 with dst := 512 }] }, _, _, rfl, ?_⟩,
    ⟨{ toPkg1 with dst := 1 }, ?_⟩, ⟨toPkg1, ?_⟩, ⟨routed 4 toPkg1, _, _, rfl, ?_⟩,
    ⟨routed 0xFFFF000000 toPkg1, _, _, rfl, ?_⟩, ⟨routed 4 (filling 2048), _, _, _, rfl, ?_, ?_, ?_, ?_, rfl⟩,
    ⟨routed 0xFFFF000000 (filling 2048), _, _, _, rfl, ?_, ?_, ?_, ?_, ?_, rfl⟩, fun r => ⟨routed route { toPkg1 with reply := if r then some true else none }, _, _, rfl, by cases r <;> decide⟩,
    fun down => ⟨routed route toPkg1 (fun p => { p with linksDown := if down then [0] else [] }), _, _, rfl, by cases down <;> decide⟩,
    ⟨routed route (toPkg1 6), _, _, rfl, ?_⟩, ⟨routed route (toPkg1 5), _, _, rfl, ?_⟩, ⟨route, ?_⟩,
    ⟨routed 0 passing (fun p => { p with busy := true }), 0, ?_⟩, ⟨routed 0 passing, 0, ?_⟩, ⟨base, 0, 20, 0, ?_⟩,
    ⟨marked (Config.neighbour 0 19), 0, 19, 0, ?_, ?_, ?_, marked_sent, ?_⟩,
    ⟨20, ?_⟩, ⟨19, ?_⟩, ⟨2, 0x8000000000, ?_⟩, ⟨4095, ?_⟩, ⟨base, 0, 2, ?_⟩, ⟨base, 0, 0, ?_⟩, ⟨0, ?_⟩, ⟨base, 0, ?_⟩,
    ⟨base, 0, 0x10000, ?_⟩, ⟨0x200, ?_⟩, ⟨1, ?_⟩⟩ <;> decide

/-- Where the first link of package 0 leads to another package, an acknowledgement reaches it by that link. -/
theorem witness_FabricAndControlRegisters_acks (away : Config.neighbour 0 0 ≠ 0) :
    (∃ (s : State) (p : Packet) (rest : List Packet) (g : Bool), s.net = p :: rest ∧ p.at_ ≠ pkgOf p.dst ∧ p.hop = 0
      ∧ (s.pkg p.at_).busy = false ∧ s.islandOk p (s.pkg p.at_).gen = true
      ∧ rteUsable ((s.pkg p.at_).rte (s.pkg p.at_).gen (pkgOf p.dst)) = true
      ∧ (s.pkg p.at_).linksDown.contains (p.port ((s.pkg p.at_).rte (s.pkg p.at_).gen (pkgOf p.dst))) = false
      ∧ p.reply = some g ∧ p.body = .ack
      ∧ Config.neighbour p.at_ (p.port ((s.pkg p.at_).rte (s.pkg p.at_).gen (pkgOf p.dst))) = pkgOf p.dst)
    ∧ (∃ (s : State) (p : Packet) (rest : List Packet) (g : Bool), s.net = p :: rest ∧ p.at_ ≠ pkgOf p.dst ∧ 0 < p.hop
      ∧ (s.pkg p.at_).busy = false ∧ p.gen = (s.pkg p.at_).gen ∧ rteUsable ((s.pkg p.at_).rte p.gen (pkgOf p.dst)) = true ∧ p.hop < 6
      ∧ (s.pkg p.at_).linksDown.contains (p.port ((s.pkg p.at_).rte p.gen (pkgOf p.dst))) = false
      ∧ p.reply = some g ∧ p.body = .ack
      ∧ Config.neighbour p.at_ (p.port ((s.pkg p.at_).rte p.gen (pkgOf p.dst))) = pkgOf p.dst
      ∧ Config.neighbour p.at_ (p.port ((s.pkg p.at_).rte p.gen (pkgOf p.dst))) ≠ p.at_) := by
  generalize hn : Config.neighbour 0 0 = n at away
  let p (hop : Nat) : Packet := { src := 0, dst := n * 2048, at_ := 0, hop := hop, line := some 0, reply := some false, body := .ack }
  let s (hop : Nat) : State := { net := [p hop], pkgs := [(0, { rte0 := [(n, route)] })] }
  have hd : pkgOf (n * 2048) = n := Nat.mul_div_cancel n (by decide)
  have hr (hop : Nat) (g : Bool) (h : g = false) : ((s hop).pkg 0).rte g n = route := by subst h; simp [s, State.pkg, look, Pkg.rte, Pkg.table]
  have hp (hop : Nat) : (p hop).port route = 0 := by
    show rtePort route (fold8 7 (0 % 2 ^ 50) % rteCount route) = 0
    decide
  have he (hop : Nat) : ((s hop).pkg 0).rte false (pkgOf (n * 2048)) = route := by rw [hd]; exact hr hop false rfl
  have hi : (s 0).islandOk (p 0) false = true := by
    have h4 : dieOf (n * 2048) % 4 = 0 := by unfold dieOf; omega
    have h : rteAllows (((s 0).pkg 0).rte false (pkgOf (n * 2048))) 0 (dieOf (n * 2048) % 4) = true := by rw [he, h4]; decide
    unfold State.islandOk
    refine Bool.or_eq_true_iff.mpr (.inr ?_)
    have e : dieOf (p 0).origin = 0 := by unfold dieOf Packet.origin; exact Nat.zero_div 512
    have e' : pkgOf (p 0).origin = 0 := by unfold pkgOf Packet.origin; exact Nat.zero_div 2048
    have g : (if (0 : Nat) = pkgOf (p 0).dst then ((s 0).pkg 0).gen else false) = false := by split <;> rfl
    rw [e, e', g]
    exact h
  have hl (hop : Nat) : ((s hop).pkg 0).linksDown.contains ((p hop).port (((s hop).pkg 0).rte false (pkgOf (n * 2048)))) = false := rfl
  have hq (hop : Nat) : Config.neighbour 0 ((p hop).port (((s hop).pkg 0).rte false (pkgOf (n * 2048)))) = pkgOf (n * 2048) := by
    rw [he, hp, hn, hd]
  have hu (hop : Nat) : rteUsable (((s hop).pkg 0).rte false (pkgOf (n * 2048))) = true := by rw [he]; decide
  have ha : (0 : Nat) ≠ pkgOf (n * 2048) := fun h => away (h.trans hd).symm
  exact ⟨⟨s 0, p 0, [], false, rfl, ha, rfl, rfl, hi, hu 0, hl 0, rfl, rfl, hq 0⟩,
    ⟨s 1, p 1, [], false, rfl, ha, Nat.one_pos, rfl, rfl, hu 1, Nat.lt_of_sub_ne_zero (by exact Nat.succ_ne_zero 4), hl 1, rfl, rfl, hq 1,
      fun h => away (hd.symm.trans ((hq 1).symm.trans h))⟩⟩

/-- Die 0 tears job 0 down. -/
def tearing (levels : Nat) (s : State) : State := s.setDie 0 { tdWork := some (0, 0x41), tdLevels := levels }
/-- A record waits in die 0. -/
def recorded (s : State) : State := s.setDie 0 {
  invBuf := [{ item := 6, state := 2, reason := 0, job := 0, pid := 0, started := false, itemid := 0, value := 0, cycle := 0 }] }

theorem witness_RepairAndResetEvents :
    (∃ (s : State) (die line : Nat), s.patrols die line = false)
    ∧ (∃ (s : State) (die : Nat), (s.die die).period = 0)
    ∧ (∃ (s : State) (die line : Nat), s.patrols die line = true ∧ (s.die die).period ≠ 0)
    ∧ (∃ (s : State) (die line : Nat), s.patrols die line = true ∧ (s.die die).period = 0)
    ∧ (∃ (s : State) (die line : Nat), s.patrols die line = true ∧ (s.die die).period ≠ 0 ∧ s.mem.isPoisoned (line * 64) = false
      ∧ s.mute die = false ∧ (s.die die).invBuf.length < 256 ∧ (s.die die).action = 1 ∧ s.mem.tag line ≠ 0
      ∧ ∃ k ∈ dies4 (pkgOfDie die), s.holds (s.mem.tag line) k = true)
    ∧ (∃ (s : State) (die line : Nat), s.patrols die line = true ∧ s.mem.isPoisoned (line * 64) = false ∧ (s.die die).action ≠ 1)
    ∧ (∃ addr : Nat, addr < 0x1000000000) ∧ (∃ addr : Nat, 0x2000000000 ≤ addr) ∧ (∃ x y o : Nat, x < 32 ∧ y < 32 ∧ o < 2 ^ 21)
    ∧ (∃ (s : State) (die addr : Nat), s.mem.isPoisoned (addressByte die addr / 64 * 64) = false)
    ∧ (∃ (s : State) (die addr : Nat), addr < 0x1000000000 ∧ s.mem.isPoisoned (addressByte die addr / 64 * 64) = true ∧ s.noWaiters)
    ∧ (∃ (s : State) (die addr : Nat), 0x1000000000 ≤ addr ∧ s.mem.isPoisoned (addressByte die addr / 64 * 64) = true ∧ s.noWaiters)
    ∧ (∃ (s : State) (core pn : Nat), (s.proc core pn).state = .free)
    ∧ (∃ (s : State) (core pn : Nat), (s.proc core pn).state ≠ .free ∧ (s.proc core pn).state ≠ .ended
      ∧ (s.proc core pn).state ≠ .faulted ∧ (s.proc core pn).asyncTrap = none)
    ∧ (∃ (s : State) (core : Nat), s.jobOf core ≠ 0 ∧ ∃ k ∈ dies4 (pkgOf core), s.holds (s.jobOf core) k = true)
    ∧ (∃ (s : State) (core : Nat), (s.pkg (pkgOf core)).formed = true)
    ∧ (∃ n : Nat, 2 < n)
    ∧ (∃ (s : State) (die : Nat), (s.die die).invBuf = [])
    ∧ (∀ full : Bool, ∃ (s : State) (die : Nat) (r : InvRec) (rest : List InvRec), let d := s.die die
      let a := d.invbase.toNat / 4096 * 4096 + 32 * d.invNext
      let k := storeKey (a / 2 ^ 42) (a / 2 ^ 40 % 4) a
      d.invBuf = r :: rest ∧ s.mem.isFull (k / 8) = full ∧ isHostKey k = false ∧ d.tdWork = none ∧ k % 32 = 0 ∧ s.mem.wf = true
        ∧ s.noWaiters ∧ s.mem.clean k 32)
    ∧ (∃ (s : State) (die job : Nat), let d := s.die die
      (d.tdWork.any (fun w => w.1 == job) || d.tdQueue.any (fun w => w.1 == job)) = true)
    ∧ (∃ (s : State) (die job : Nat), let d := s.die die
      (d.tdWork.any (fun w => w.1 == job) || d.tdQueue.any (fun w => w.1 == job)) = false ∧ (d.tdWork ≠ none ∨ d.switching = true))
    ∧ (∃ (s : State) (die job : Nat), let d := s.die die
      d.tdWork = none ∧ d.tdQueue = [] ∧ d.switching = false ∧ s.jobCores die job = [] ∧ d.launchQ = [] ∧ d.sheafQ = [] ∧ d.saved = []
        ∧ ∀ k ∈ dies4 (pkgOfDie die), (s.die k).running = [])
    ∧ (∃ (s : State) (die job c n : Nat) (p : Proc), let d := s.die die
      d.tdWork = none ∧ d.tdQueue = [] ∧ d.switching = false ∧ s.jobCores die job = [c] ∧ (s.core c).procs = [(n, p)]
        ∧ p.state = .ready ∧ p.wait = .none ∧ (s.core c).handler = none ∧ (s.core c).vecQ = [] ∧ (s.core c).copyQ = []
        ∧ (s.core c).tasks = [] ∧ (s.core c).endpoints = [] ∧ d.launchQ = [] ∧ d.sheafQ = [] ∧ d.saved = [])
    ∧ (∃ (s : State) (pkt : Nat), s.quarantined pkt = none)
    ∧ (∃ (s : State) (p : Packet) (rest : List Packet) (i : Nat), s.net = p :: rest ∧ s.quarantined 0 = some p ∧ p.body = .credit i
      ∧ pkgOf (p.inj.getD p.src) = pkgOf p.dst ∧ s.mute (dieOf p.dst) = false)
    ∧ (∃ (s : State) (die : Nat), (s.die die).tdWork = none)
    ∧ (∃ (s : State) (die job : Nat) (why : BitVec 8), (s.die die).tdWork = some (job, why) ∧ s.drainedOf die job = false)
    ∧ (∀ n : Nat, n ≤ 6 → ∃ (s : State) (die job : Nat) (why : BitVec 8), (s.die die).tdWork = some (job, why)
      ∧ (s.die die).tdLevels = n ∧ s.drainedOf die job = true ∧ (s.die die).running = [] ∧ s.jobCores die job ≠ [])
    ∧ (∃ (s : State) (core : Nat), isKernel core = true ∨ (s.core core).gated = true ∨ (s.core core).isFree = false)
    ∧ (∃ (s : State) (core : Nat), isKernel core = false ∧ (s.core core).gated = false ∧ (s.core core).isFree = true)
    ∧ (∃ (s : State) (core : Nat), (s.core core).gated = false ∨ (s.core core).wakeEnd ≠ none)
    ∧ (∃ (s : State) (core : Nat), (s.core core).gated = true ∧ (s.core core).wakeEnd = none)
    ∧ (∃ (s : State) (core : Nat), (s.core core).wakeEnd ≠ none)
    ∧ (∃ (s : State) (die tj : Nat), tj < 115 ∨ (s.die die).inReset = true)
    ∧ (∃ (s : State) (die tj : Nat), 115 ≤ tj ∧ (s.die die).inReset = false)
    ∧ (∃ (s : State) (die tj : Nat), 95 ≤ tj ∨ (s.die die).inReset = false)
    ∧ (∃ (s : State) (die tj : Nat), tj < 95 ∧ (s.die die).inReset = true)
    ∧ (∃ (s : State) (die tj : Nat), tj < 115 ∧ (95 ≤ tj ∨ (s.die die).inReset = false))
    ∧ (∃ (s : State) (die tj : Nat), (s.die die).inReset = true ∧ 95 ≤ tj)
    ∧ (∃ (s : State) (die : Nat), (s.die die).resetWanted = true ∧ (s.die die).tdWork ≠ none)
    ∧ (∃ (s : State) (die : Nat), (s.die die).resetWanted = true ∧ (s.die die).tdQueue ≠ [])
    ∧ (∃ (s : State) (die : Nat), (s.die die).resetWanted = true ∧ (s.die die).switching = true)
    ∧ (∃ (s : State) (die : Nat), (s.die die).resetWanted = true ∧ (s.die die).tdWork = none ∧ (s.die die).tdQueue = []
      ∧ (s.die die).switching = false ∧ (s.pkg (pkgOfDie die)).formed = false)
    ∧ (∃ (s : State) (die : Nat), (s.die die).resetWanted = false ∧ s.dieJobs die = [] ∧ (s.die die).tdWork = none
      ∧ (dies4 (pkgOfDie die)).all (fun k => k == die || (s.die k).inReset) = false)
    ∧ (∃ (s : State) (die : Nat), (s.die die).resetWanted = false ∧ s.dieJobs die = [] ∧ (s.die die).tdWork = none
      ∧ (dies4 (pkgOfDie die)).all (fun k => k == die || (s.die k).inReset) = true ∧ (s.pkg (pkgOfDie die)).formed = true)
    ∧ (∃ (s : State) (die : Nat), (s.die die).resetWanted = false ∧ s.dieJobs die ≠ [])
    ∧ (∃ (s : State) (die : Nat), (s.die die).resetWanted = false ∧ (s.die die).tdWork ≠ none)
    ∧ (∃ (s : State) (pkg : Nat), imageOk (s.pkg pkg).minSvn (s.pkg pkg).fwSlot = false ∧ (s.pkg pkg).formed = false) := by
  refine ⟨⟨base, 1, 0, ?_⟩, ⟨base.setDie 0 { period := 0 }, 0, ?_⟩, ⟨base, 0, 1, ?_⟩, ⟨base.setDie 0 { period := 0 }, 0, 1, ?_⟩,
    ⟨{ mail (fun p => { p with ldbind := [(0, 0x10021)] }) { base with mem := { tags := [(1, 1)] } } with dies := [(0, { action := 1 })] },
      0, 1, ?_⟩,
    ⟨base, 0, 1, ?_⟩, ⟨64, ?_⟩, ⟨0x2000000000, ?_⟩, ⟨31, 31, 0, ?_⟩,
    ⟨base, 0, 64, ?_⟩, ⟨{ mem := { poison := [1] } }, 0, 64, ?_, ?_, fun _ => rfl⟩,
    ⟨{ mem := { poison := [poolKey 0 0 / 64] } }, 0, 0x1000000000, ?_, ?_, fun _ => rfl⟩, ⟨base, 0, 1, ?_⟩, ⟨base, 0, 0, ?_⟩,
    ⟨mail (fun p => { p with ldbind := [(0, 0x10021)] }) (on 0 id (fun c => { c with gateJob := 1 })), 0, ?_⟩,
    ⟨mail (fun p => { p with formed := true }), 0, ?_⟩, ⟨3, ?_⟩, ⟨base, 0, ?_⟩,
    fun full => ⟨recorded { mem := { full := if full then [0] else [] } }, 0, _, _, rfl, ?_, ?_, ?_, ?_, ?_, fun | 0 => rfl | _ + 1 => rfl,
      fun _ _ => rfl⟩,
    ⟨tearing 0 base, 0, 0, ?_⟩, ⟨tearing 0 base, 0, 1, ?_⟩, ⟨base, 0, 1, ?_⟩,
    ⟨{ cores := [(0, { gateV := true, procs := [(3, { state := .ready })] })] }, 0, 0, 0, 3, _, ?_, ?_, ?_, ?_, rfl, ?_, ?_, ?_, ?_, ?_, ?_,
      ?_, ?_, ?_, ?_⟩,
    ⟨base, 0, ?_⟩, ⟨tearing 0 { net := [{ src := 512, dst := 0, at_ := 0, body := .credit 0 }] }, _, _, 0, rfl, rfl, rfl, rfl, rfl⟩, ⟨base, 0, ?_⟩,
    ⟨tearing 6 { net := [{ src := 512, dst := 0, at_ := 0, body := .credit 0 }] }, 0, _, _, rfl, ?_⟩,
    fun n _ => ⟨tearing n base, 0, _, _, rfl, rfl, rfl, rfl, List.cons_ne_nil 0 []⟩,
    ⟨base, 0, ?_⟩, ⟨{}, 255, ?_⟩, ⟨base, 0, ?_⟩, ⟨on 0 id (fun c => { c with gated := true }), 0, ?_⟩,
    ⟨on 0 id (fun c => { c with wakeEnd := some 5 }), 0, ?_⟩, ⟨base, 0, 114, ?_⟩, ⟨base, 0, 115, ?_⟩, ⟨base, 0, 95, ?_⟩,
    ⟨{ dies := [(0, { inReset := true })] }, 0, 94, ?_⟩, ⟨base, 0, 114, ?_⟩, ⟨{ dies := [(0, { inReset := true })] }, 0, 120, ?_⟩,
    ⟨{ dies := [(0, { resetWanted := true, tdWork := some (1, 0x41) })] }, 0, ?_⟩,
    ⟨{ dies := [(0, { resetWanted := true, tdQueue := [(1, 0x41)] })] }, 0, ?_⟩, ⟨{ dies := [(0, { resetWanted := true, switching := true })] }, 0, ?_⟩,
    ⟨{ dies := [(0, { resetWanted := true })] }, 0, ?_⟩, ⟨{}, 0, ?_⟩,
    ⟨{ pkgs := [(0, { formed := true })], dies := [(1, { inReset := true }), (2, { inReset := true }), (3, { inReset := true })] }, 0, ?_⟩,
    ⟨base, 0, ?_⟩, ⟨tearing 0 {}, 0, ?_⟩, ⟨base, 0, rfl, ?_⟩⟩
  all_goals first | decide | (cases full <;> decide)

/-- The reset state with a word where the next step issues it. -/
def placed (w : Nat) : State := State.reset.withFetchWord 32 w
/-- The same, where g5 waits for an outstanding result and slot 0 is the last of the rotation. -/
def waiting (w : Nat) : State :=
  ((placed w).modProc 0 0 (fun p => p.setPending 5 true)).modCore 0 (fun c => { c with rotPtr := 1 })

theorem witness_StepRunsDecodedWord :
    (∃ (s : State) (core : Nat) (ph : List Phase) (pre : List Nat) (i : Nat) (others : List Nat) (pn : Nat) (w : BitVec 32)
      (rep : Option (Nat × Nat × Nat)) (x : Instr) (t : State), s.inputs = [] ∧ s.phase = .issue core :: ph
      ∧ let u : State := { s with phase := ph }
        u.idle core = false ∧ rotationFrom (u.core core).rotPtr = pre ++ i :: others ∧ (∀ j ∈ pre, u.mayIssue core j = none)
        ∧ u.mayIssue core i = some pn ∧ u.turnAt core i (u.proc core pn) = some (.word w rep) ∧ decode w = some x
        ∧ exec x (u.atTurn core i pn w rep) = .next t ∧ t.ctx.issued = true)
    ∧ (∃ (s : State) (core : Nat) (ph : List Phase) (pre : List Nat) (i pn : Nat) (w : BitVec 32)
      (rep : Option (Nat × Nat × Nat)) (x : Instr) (t : State), s.inputs = [] ∧ s.phase = .issue core :: ph
      ∧ let u : State := { s with phase := ph }
        u.idle core = false ∧ rotationFrom (u.core core).rotPtr = pre ++ i :: [] ∧ (∀ j ∈ pre, u.mayIssue core j = none)
        ∧ u.mayIssue core i = some pn ∧ u.turnAt core i (u.proc core pn) = some (.word w rep) ∧ decode w = some x
        ∧ exec x (u.atTurn core i pn w rep) = .next t ∧ t.ctx.issued = false)
    ∧ (∃ (s : State) (core : Nat) (ph : List Phase) (i : Nat) (others : List Nat) (pn : Nat) (w : BitVec 32)
      (rep : Option (Nat × Nat × Nat)) (t : State), s.inputs = [] ∧ s.phase = .issue core :: ph
      ∧ let u : State := { s with phase := ph }
        u.idle core = false ∧ rotationFrom (u.core core).rotPtr = i :: others ∧ u.mayIssue core i = some pn
        ∧ u.turnAt core i (u.proc core pn) = some (.word w rep) ∧ decode w = none
        ∧ exec (.illegalWord w) (u.atTurn core i pn w rep) = .next t ∧ t.ctx.issued = true)
    ∧ (∃ (s : State) (core i : Nat) (l : Line) (p : Proc), ((s.core core).slot i).cur = some l ∧ l.fault = none ∧ p.inRep = false
      ∧ (s.core core).inlineOf (((s.core core).slot i).proc.getD 0) = none ∧ l.addr = p.pc.toNat / 16 ∧ l.bytes.length = 16
      ∧ p.pc.toNat % 4 = 0)
    ∧ (∃ (s : State) (core i : Nat) (l : Line) (p : Proc) (w v : BitVec 32), ((s.core core).slot i).cur = some l ∧ l.fault = none
      ∧ p.inRep = true ∧ (s.core core).inlineOf (((s.core core).slot i).proc.getD 0) = none
      ∧ s.fetched core i p.pc.toNat = .word w ∧ s.fetched core i (p.pc + 4).toNat = .word v) := by
  refine ⟨⟨placed 0x01734E00, 0, [], [], 0, _, 0, 0x01734E00, none, _, _, rfl, rfl, ?_, rfl, ?_, ?_, rfl, rfl, rfl, ?_⟩,
    ⟨waiting 0x01298E00, 0, [], (List.range 15).map (fun k => k + 1), 0, 0, 0x01298E00, none, .add 0 5 6 7, _, rfl, rfl, ?_, rfl, ?_, ?_, rfl, ?_, rfl, ?_⟩,
    ⟨placed 0, 0, [], 0, _, 0, 0, none, _, rfl, rfl, ?_, rfl, ?_, rfl, ?_, rfl, ?_⟩,
    ⟨placed 0, 0, 0, _, { pc := word fetchPc }, rfl, ?_⟩,
    ⟨withWords [0x151F0000, 0x01734E00] base, 0, 0, _, { pc := word fetchPc, inRep := true }, _, _, rfl, rfl, rfl, ?_, rfl, rfl⟩⟩ <;> decide

theorem witness_StepTakesEvents :
    (∃ (s : State) (e : Instr) (rest : List (Option Instr)), s.inputs = some e :: rest ∧ e.isEvent = true)
    ∧ (∃ (s : State) (e : Instr) (rest : List (Option Instr)), s.inputs = some e :: rest ∧ e.isEvent = false)
    ∧ (∃ (s : State) (rest : List (Option Instr)), s.inputs = none :: rest)
    ∧ (∃ s : State, s.inputs = [] ∧ s.phase = [])
    ∧ (∃ (s : State) (e : Due) (ph : List Phase), s.inputs = [] ∧ s.phase = .due e :: ph) :=
  ⟨⟨{ inputs := [some (.linkDown 0 0)] }, _, _, rfl, rfl⟩, ⟨{ inputs := [some (.nop 0)] }, _, _, rfl, rfl⟩,
    ⟨{ inputs := [none] }, _, rfl⟩, ⟨State.reset, rfl, rfl⟩, ⟨{ phase := [.due (.rotation 0)] }, _, _, rfl, rfl⟩⟩

theorem witness_StepKeepsCanonicalMemory : ∃ s t : State, s.canonical ∧ step s = .next t :=
  ⟨State.reset, _, by unfold State.canonical; decide, rfl⟩

theorem witness_DecodeOfEncode :
    (∃ (i : Instr) (w : BitVec 32), i.wellFormed = true ∧ encode i = some w) ∧ (∃ (w : BitVec 32) (i : Instr), decode w = some i) :=
  ⟨⟨.add 0 14 13 7, _, rfl, rfl⟩, ⟨0x01734E00, _, rfl⟩⟩

/-! ### Single steps of placed words. The expected values stand in the rules named. -/

/-- The state after one step. -/
def after (s : State) : State := match step s with | .next t => t | .fault _ | .refused _ => s
/-- The results in flight after a word issues, its process with the registers listed. -/
def results (w : Nat) (xs : List (Nat × Word)) : List (List (Nat × Word)) :=
  ((after ((placed w).modProc 0 0 (regs xs))).core 0).flight.map (fun r => r.writes)
/-- The process after one step. -/
def procAfter (w : Nat) (f : Proc → Proc := id) : Proc := (after ((placed w).modProc 0 0 f)).proc 0 0

/-- R80: ADD a0, a1, a2 wraps; MULH (F 12) of -1 and 2; R83: ADDI t0, t0, -1. -/
theorem test_step_add_wraps : results 0x01298E00 [(6, ~~~0), (7, 2)] = [[(5, 1)]] := by decide
theorem test_step_mulh : results 0x01298E0C [(6, ~~~0), (7, 2)] = [[(5, ~~~0)]] := by decide
theorem test_step_addi : results 0x026B7FFF [(13, 0)] = [[(13, ~~~0)]] := by decide

/-- R84: SRAI t0, a0, 63 copies the sign; R85: LIU a0, 1 leaves 0x4000. -/
theorem test_step_srai : results 0x0869603F [(5, 0x8000000000000000)] = [[(13, ~~~0)]] := by decide
theorem test_step_liu : results 0x09280001 [] = [[(5, 0x4000)]] := by decide

/-- R12, R80: a write of g0 is discarded (ADD g0, a1, a2). -/
theorem test_step_g0 : (procAfter 0x01018E00 (regs [(6, 1), (7, 2)])).reg 0 = 0 := by decide

/-- R94: CB.NE t0, g0 at -4 words, taken and not taken. -/
theorem test_step_branch : (procAfter 0x102341FC (regs [(13, 1)])).pc = word (fetchPc - 16) ∧ (procAfter 0x102341FC).pc = word (fetchPc + 4) := by
  decide

/-- R94: CB.LT a0, a1, skip 2 annuls two words where a0 < a1 is false. -/
theorem test_step_skip :
    (procAfter 0x10514C00 (regs [(5, 1)])).pc = word (fetchPc + 12) ∧ (procAfter 0x10514C00 (regs [(5, ~~~0)])).pc = word (fetchPc + 4) := by
  decide

/-- R95: J forward by 64 bytes; R96: RET jumps to lk, and a target that is no multiple of 4 raises ALIGN with FADDR. -/
theorem test_step_jump : (procAfter 0x12000010).pc = word (fetchPc + 64) ∧ (procAfter 0x14004000 (regs [(1, 0x1000)])).pc = 0x1000 := by decide
theorem test_step_jlr_align :
    (procAfter 0x14004000 (regs [(1, 2)])).cause = 0x25 ∧ (procAfter 0x14004000 (regs [(1, 2)])).faddr = 2 := by decide

/-- R93: with W = 32 and XI = 1, GETX t0, -2 raises WINDOW with FADDR all ones. -/
theorem test_step_getx_window :
    (procAfter 0x0E680FFE (fun p => { p with wsz := 32, xi := 1 })).cause = 0x10
    ∧ (procAfter 0x0E680FFE (fun p => { p with wsz := 32, xi := 1 })).faddr = ~~~0 := by decide

/-- R111, R114: TRAP 7 with TVEC = 0 parks the process FAULTED. -/
theorem test_step_trap :
    (procAfter 0x39000007).state = .faulted ∧ (procAfter 0x39000007).cause = 0x15 ∧ (procAfter 0x39000007).faddr = 7
    ∧ (procAfter 0x39000007).fpc = word fetchPc ∧ (procAfter 0x39000007).finst = 0x39000007 := by decide

/-- R113: with TVEC set, a recoverable trap continues there. -/
theorem test_step_trap_vector :
    (procAfter 0x39000007 (fun p => { p with tvec := 0x2000 })).pc = 0x2000
    ∧ (procAfter 0x39000007 (fun p => { p with tvec := 0x2000 })).state = .running := by decide

/-- R38, R114: an illegal word is kernel-bound. -/
theorem test_step_illegal : (procAfter 0 (fun p => { p with tvec := 0x2000 })).state = .faulted ∧ (procAfter 0).cause = 0x01 := by decide


/-- O2: the operands its hypotheses ask for exist, at the ends of their ranges. -/
theorem witness_ArithmeticFunctions :
    (∃ a : Word, (clz a).toNat < 64) ∧ (∃ a : Word, (ctz a).toNat < 64) ∧ (∃ i : Nat, i < 64 ∧ i + 1 = 64)
    ∧ (∃ b : Word, b ≠ 0) ∧ (∃ a b : Word, b ≠ 0 ∧ ¬ (a = 0x8000000000000000 ∧ b = ~~~0))
    ∧ (∃ (a : Word) (i : Nat), 64 - (clz a).toNat ≤ i ∧ i < 64) ∧ (∃ (a : Word) (i : Nat), i < (ctz a).toNat) :=
  ⟨⟨1, by decide⟩, ⟨1, by decide⟩, ⟨63, by decide⟩, ⟨1, by decide⟩, ⟨0x8000000000000000, 1, by decide⟩,
    ⟨1, 1, by decide⟩, ⟨2, 0, by decide⟩⟩

/-! ### Cases of the statements beyond those above -/

/-- g31 holds fetchPc + 12, of which slot 0 holds the word, a REP, and the next line is a fetch fault. -/
def atLineEnd (s : State) (p : Proc → Proc := id) : State :=
  let pc := fetchPc + 12
  ({ s with ctx := { s.ctx with pc := word pc } }.modProc s.ctx.core 0 (fun q => p { q with pc := word pc })).modSlot s.ctx.core 0
    (fun x => { x with
      cur := some { addr := pc / 16, bytes := List.replicate 12 0 ++ bytesOfWord 0x151F0000 }
      nextLine := some { addr := pc / 16 + 1, bytes := [], fault := some .page } })

theorem witness_RepeatFaults :
    (∃ (s : State) (f : Cause), s.fetched s.ctx.core s.ctx.slot (s.ctx.pc + 4).toNat = .fault f ∧ s.me.state = .running)
    ∧ (∃ (s : State) (core i pn : Nat) (x : BitVec 32) (f : Cause), (s.proc core pn).inRep = true
      ∧ s.fetched core i (s.proc core pn).pc.toNat = .word x ∧ s.fetched core i ((s.proc core pn).pc + 4).toNat = .fault f) :=
  ⟨⟨atLineEnd base, .page, by decide⟩, ⟨atLineEnd base (fun p => { p with inRep := true }), 0, 0, 0, 0x151F0000, .page, by decide⟩⟩

/-- ALIGN groups of cluster 0 of die 0: the n first sets, or one set of two with a member of core 1. -/
def aligns (as : List (Nat × Nat × Nat × List (Nat × Nat))) (f : Core → Core := id) : State :=
  { on 0 id f with dies := [(0, { clusters := [(0, { aligns := as })] })] }

theorem witness_AlignTable :
    (∃ (s : State) (k : BitVec 8), s.clear {} = true ∧ s.inHandler = false ∧ s.ctx.pn ≠ 255 ∧ isKernel s.ctx.core = false
      ∧ (let as := (s.cluster (dieOf s.ctx.core) (clusterOf s.ctx.core)).aligns
         as.find? (fun e => e.1 == (s.core s.ctx.core).launchId && e.2.1 == k.toNat) = none ∧ 8 ≤ as.length))
    ∧ (∃ (s : State) (k : BitVec 8) (lid n p : Nat) (joined : List (Nat × Nat)), s.clear {} = true ∧ s.inHandler = false
      ∧ s.ctx.pn ≠ 255 ∧ isKernel s.ctx.core = false
      ∧ (let as := (s.cluster (dieOf s.ctx.core) (clusterOf s.ctx.core)).aligns
         as.find? (fun e => e.1 == (s.core s.ctx.core).launchId && e.2.1 == k.toNat) = some (lid, n, p, joined)
         ∧ joined ≠ [] ∧ (p + 1) / 2 = joined.length + 1))
    ∧ (∃ s : State, s.clear {} = true ∧ s.inHandler = true) :=
  ⟨⟨aligns ((List.range 8).map (fun i => (1, i, 2, [(1, i)]))), 0, by decide⟩,
   ⟨aligns [(0, 255, 3, [(0, 1)])] (fun c => c.setProc 1 { state := .running, held := true, wait := .align }), 255, 0, 255, 3, [(0, 1)],
    by decide⟩, ⟨inlineHandler, by decide⟩⟩

theorem witness_HandlerWritesTvec :
    ∃ (s : State) (a : BitVec 5), s.controlReady 0x04 = true ∧ s.clear { reads := [s.ra a] } = true ∧ s.inHandler = true :=
  ⟨inlineHandler, 31, by decide⟩

/-- As many requests as fill the request table; as many stores as fill the store buffer, all of process 1. -/
def fullTable (c : Core) : Core :=
  { c with reqs := (List.range 128).map (fun i => { pn := 1, tag := i, global := true }), nextTag := 128 }
def fullBuffer (c : Core) : Core := { c with
  reqs := (List.range 64).map (fun i => { kind := .store, pn := 1, tag := i, global := true, phase := .buffered }), nextTag := 64 }
/-- The hold buffer of a region is full. -/
def fullHold (c : Core) : Core := { c with hold := { owner := some 0, items := List.replicate 32 (.store {}) } }

/-- A load and a store of the word at 2^48, which the TLB of the core holds. -/
def globalLoad : Req := { kind := .load false, ea := 2 ^ 48, size := 8, dest := 31 }
def globalStore : Req := { kind := .store, ea := 2 ^ 48, size := 8, data := 1 }

theorem witness_AccessesWithoutRoom :
    (∃ (s : State) (q : Req), s.placeOf (s.requestOf globalLoad) = some q ∧ (s.core s.ctx.core).entryFree q = false)
    ∧ (∃ (s : State) (q : Req), s.inRegion = false ∧ s.placeOf (s.requestOf globalStore) = some q
      ∧ (s.core s.ctx.core).entryFree q = false)
    ∧ (∃ (s : State) (q : Req), s.inRegion = true ∧ s.placeOf (s.requestOf globalStore) = some q ∧ q.kind.buffered = true
      ∧ q.leaves = true ∧ (s.core s.ctx.core).hold.room 8 = true)
    ∧ (∃ (s : State) (q : Req), s.inRegion = true ∧ s.placeOf (s.requestOf globalStore) = some q ∧ q.kind.buffered = true
      ∧ q.leaves = true ∧ (s.core s.ctx.core).hold.room 8 = false)
    ∧ (∃ (s : State) (q : Req), s.inRegion = true ∧ s.placeOf (s.requestOf { kind := .store, ea := 8, size := 8 }) = some q
      ∧ q.leaves = false ∧ (s.core s.ctx.core).entryFree q = true)
    ∧ (∃ (s : State) (r : Req), r.kind.barred = true ∧ s.inRegion = true ∧ (spaceOf (isKernel s.ctx.core) r.ea).leaves = true)
    ∧ (∃ (s : State) (q : Req), s.placeOf (s.requestOf globalLoad) = some q ∧ s.shutOut q = true) := by
  refine ⟨⟨on 0 id (fun c => fullTable (page 0x7 c)), _, rfl, ?_⟩, ⟨on 0 id (fun c => fullBuffer (page 0x7 c)), _, ?_, rfl, ?_⟩,
    ⟨on 0 id (fun c => region (page 0x7 c)), _, ?_, rfl, ?_⟩, ⟨on 0 id (fun c => fullHold (page 0x7 c)), _, ?_, rfl, ?_⟩,
    ⟨on 0 id region, _, ?_, rfl, ?_⟩, ⟨on 0 id region, { kind := .cas, ea := 2 ^ 48 }, ?_⟩,
    ⟨on 0 id (page (0x7 + 2 ^ 50)), _, rfl, ?_⟩⟩ <;> decide

/-- The START of a process that has ended. -/
theorem witness_EndedStart :
    (∃ (s : State) (core : Nat) (x : Start) (rest : List Start) (n b : Nat), (s.core core).starts = x :: rest ∧ x.ended = true
      ∧ (s.core core).freeNumber = some n ∧ (s.core core).allocWindow x.wsz = some b)
    ∧ (∃ (s : State) (core : Nat) (x : Start) (rest : List Start) (n b : Nat), (s.core core).starts = x :: rest ∧ x.ended = false
      ∧ (s.core core).freeNumber = some n ∧ (s.core core).allocWindow x.wsz = some b ∧ x.pn ≠ n ∧ (s.proc core x.pn).state = .running
      ∧ 0 < x.dest ∧ x.dest < (s.proc core x.pn).regs.length) := by
  refine ⟨⟨on 0 id (fun c => { starting 16 c with starts := (starting 16 c).starts.map (fun x => { x with ended := true }) }), 0, _, _, 1, 128,
      rfl, ?_⟩,
    ⟨on 0 id (starting 16), 0, _, _, 1, 128, rfl, ?_⟩⟩ <;> decide

/-- An AMO of process 0 on its way, an acquire, and a store to its own pool behind it. -/
def behindAcquire (c : Core) : Core := { c with
  reqs := [{ kind := .amo 0, global := true, homeIsDie := true, order := .release, tag := 0 },
    { kind := .store, place := .bytes (poolKey 0 8), data := 1, order := .pool, tag := 1 }], nextTag := 2 }

/-- Whether a wait for the process's own writes begins here. -/
def waitsForOwn (s : State) (u : Use) : Prop :=
  let t := (s.begun 0 u).settleOwn s.ctx.core s.ctx.pn
  (t.core s.ctx.core).ownWritesDone s.ctx.pn (t.core s.ctx.core).nextTag = false

/-- Endpoints 1 and 2 of core 0, the ends of one channel. -/
def loop (e x : Endpoint) : State :=
  on 0 (regs [(31, 1), (30, 64)]) (fun c => { c with endpoints := [
    (1, { e with valid := true, pcore := 0, phandle := 2 }), (2, { x with valid := true, dirIn := true, pcore := 0, phandle := 1 })] })

theorem witness_ChannelForms :
    (∃ (s : State) (a b : BitVec 5) (e x : Endpoint), s.clear { reads := [s.ra a, s.rb b] } = true
      ∧ s.chanOk (handleOf (s.g (s.ra a))) { dirIn := false, typs := [0], mode := some false } e ∧ e.isHost = false
      ∧ e.state ≠ 7 ∧ e.peerCore = s.ctx.core ∧ s.released ∧ (s.core s.ctx.core).epFind e.phandle.toNat = some x ∧ x.state = 0
      ∧ e.phandle.toNat % 2 ^ 20 ≠ handleOf (s.g (s.ra a)) % 2 ^ 20)
    ∧ (∃ (s : State) (a b : BitVec 5) (e : Endpoint), s.clear { reads := [s.ra a, s.rb b] } = true
      ∧ s.chanOk (handleOf (s.g (s.ra a))) { dirIn := false, typs := [2], mode := some true, inbox := true } e
      ∧ (s.core s.ctx.core).inScratchpad (s.g (s.rb b)) 128 = true ∧ (s.g (s.rb b)).toNat % 64 = 0
      ∧ waitsForOwn s { reads := [s.ra a, s.rb b] })
    ∧ (∃ (s : State) (a b : BitVec 5) (e : Endpoint), s.clear { reads := [s.ra a, s.rb b] } = true
      ∧ s.chanOk (handleOf (s.g (s.ra a))) { dirIn := false, typs := [2], mode := some true, inbox := true } e
      ∧ (s.core s.ctx.core).inScratchpad (s.g (s.rb b)) 128 = true ∧ (s.g (s.rb b)).toNat % 64 = 0
      ∧ s.quiet ∧ s.activeControl s.ctx.core s.ctx.pn (s.g (s.rb b)) &&& ~~~(0x3F1F : Word) = 0)
    ∧ (∃ (s : State) (a b : BitVec 5) (e : Endpoint), s.clear { reads := [s.ra a, s.rb b] } = true
      ∧ s.chanOk (handleOf (s.g (s.ra a))) { dirIn := false, typs := [2], mode := some true, inbox := true } e
      ∧ (s.core s.ctx.core).inScratchpad (s.g (s.rb b)) 128 = true ∧ (s.g (s.rb b)).toNat % 64 = 0
      ∧ s.quiet ∧ s.activeControl s.ctx.core s.ctx.pn (s.g (s.rb b)) &&& ~~~(0x3F1F : Word) ≠ 0)
    ∧ (∃ (s : State) (a b : BitVec 5) (e : Endpoint), s.clear { reads := [s.ra a, s.rb b] } = true
      ∧ (handleOf (s.g (s.ra a)) ≠ loopbackHandle ∨ s.ctx.pn ≠ 255)
      ∧ s.chanOk (handleOf (s.g (s.ra a))) { dirIn := false, typs := [1], mode := none } e ∧ e.buffered = true ∧ s.inRegion = true
      ∧ (s.core s.ctx.core).inScratchpad (s.g (s.rb b)) e.len = true ∧ (s.g (s.rb b)).toNat % 32 = 0
      ∧ waitsForOwn s { reads := [s.ra a, s.rb b] })
    ∧ (∃ (s : State) (a b : BitVec 5) (e : Endpoint), s.clear { reads := [s.ra a, s.rb b] } = true
      ∧ (handleOf (s.g (s.ra a)) ≠ loopbackHandle ∨ s.ctx.pn ≠ 255)
      ∧ s.chanOk (handleOf (s.g (s.ra a))) { dirIn := false, typs := [1], mode := none } e ∧ e.buffered = true ∧ s.inRegion = true
      ∧ (s.core s.ctx.core).inScratchpad (s.g (s.rb b)) e.len = true ∧ (s.g (s.rb b)).toNat % 32 = 0
      ∧ s.quiet ∧ e.state ≠ 7 ∧ e.credit ≠ 0 ∧ (s.core s.ctx.core).hold.room (64 + e.len) = true)
    ∧ (∃ (s : State) (a b : BitVec 5) (e : Endpoint), s.clear { reads := [s.ra a, s.rb b] } = true
      ∧ s.chanOk (handleOf (s.g (s.ra a))) { dirIn := false, typs := [0], mode := some true } e ∧ s.inRegion = true
      ∧ (s.core s.ctx.core).hold.room 64 = false)
    ∧ (∃ (s : State) (d a b : BitVec 5), s.clear { reads := [s.ra a, s.rb b] } = true
      ∧ s.clear { reads := [s.ra a], writes := [s.rd d], var := true } = true ∧ handleOf (s.g (s.ra a)) ≠ loopbackHandle
      ∧ handleOf (s.g (s.ra a)) ≠ stagingHandle
      ∧ (s.core s.ctx.core).epCheck (handleOf (s.g (s.ra a))) s.ctx.pn { dirIn := false, typs := [0], mode := some false } false = none
      ∧ (s.core s.ctx.core).epCheck (handleOf (s.g (s.ra a))) s.ctx.pn { dirIn := false, typs := [1], mode := none } false = none
      ∧ (s.core s.ctx.core).epCheck (handleOf (s.g (s.ra a))) s.ctx.pn { dirIn := false, typs := [0], mode := some true } false = none
      ∧ (s.core s.ctx.core).epCheck (handleOf (s.g (s.ra a))) s.ctx.pn
          { dirIn := false, typs := [2], mode := some true, inbox := true } false = none
      ∧ (s.core s.ctx.core).epCheck (handleOf (s.g (s.ra a))) s.ctx.pn { dirIn := true, typs := [1], mode := none } false = none
      ∧ (s.core s.ctx.core).epCheck (handleOf (s.g (s.ra a))) s.ctx.pn { dirIn := true, typs := [0], mode := none } false = none)
    ∧ (∃ (s : State) (d a b : BitVec 5), s.clear { reads := [s.ra a, s.rb b] } = true
      ∧ s.clear { reads := [s.ra a], writes := [s.rd d], var := true } = true ∧ handleOf (s.g (s.ra a)) ≠ loopbackHandle
      ∧ handleOf (s.g (s.ra a)) ≠ stagingHandle ∧ s.gateShut s.ctx.core = true) := by
  refine ⟨⟨loop {} {}, 31, 30, _, _, ?_, ⟨?_, rfl, ?_⟩, ?_, ?_, ?_, ?_, rfl, ?_⟩,
    ⟨chan { typ := 2, buffered := true, pkind := 1, credit := 1 } 64 behindAcquire, 31, 30, _, ?_, ⟨?_, rfl, ?_⟩, ?_, ?_, ?_⟩,
    ⟨chan { typ := 2, buffered := true, pkind := 1, credit := 1 } 64, 31, 30, _, ?_, ⟨?_, rfl, ?_⟩, ?_, ?_, ?_, ?_⟩,
    ⟨{ chan { typ := 2, buffered := true, pkind := 1, credit := 1 } 64 with mem := ({} : Memory).write (poolKey 0 64) 8 32 },
      31, 30, _, ?_, ⟨?_, rfl, ?_⟩, ?_, ?_, ?_, ?_⟩,
    ⟨chan { typ := 1, buffered := true, credit := 1 } 64 (fun c => region (behindAcquire c)), 31, 30, _, ?_, ?_, ⟨?_, rfl, ?_⟩, ?_, ?_, ?_, ?_, ?_⟩,
    ⟨chan { typ := 1, buffered := true, credit := 1 } 64 region, 31, 30, _, ?_, ?_, ⟨?_, rfl, ?_⟩, ?_, ?_, ?_, ?_, ?_, ?_⟩,
    ⟨chan { buffered := true, credit := 1 } 0 fullHold, 31, 30, _, ?_, ⟨?_, rfl, ?_⟩, ?_, ?_⟩,
    ⟨on 0 (regs [(31, 2)]), 31, 31, 30, ?_⟩, ⟨chan {} 0 (fun c => { c with gateV := false }), 31, 31, 30, ?_⟩⟩
  all_goals first | decide | (unfold State.released; decide) | (unfold waitsForOwn; decide) | (unfold State.quiet State.calm; decide)

/-- The checks of R175 and R205 that a form of channel instruction fails: a region at a rendezvous end, and a tile or record
outside the scratchpad, or in it and misaligned. -/
def barredAt (f : ChanForm) : Prop := ∃ (s : State) (d a b : BitVec 5) (e : Endpoint), s.clear { reads := [s.ra a, s.rb b] } = true
  ∧ s.clear { reads := [s.ra a], writes := [s.rd d], var := true } = true ∧ handleOf (s.g (s.ra a)) ≠ loopbackHandle
  ∧ handleOf (s.g (s.ra a)) ≠ stagingHandle
  ∧ (s.core s.ctx.core).epCheck (handleOf (s.g (s.ra a))) s.ctx.pn f false = some e ∧ s.gateShut s.ctx.core = false
  ∧ e.buffered = false ∧ s.inRegion = true
def tileAt (f : ChanForm) (n : Endpoint → Nat) (outside : Bool) : Prop := ∃ (s : State) (a b : BitVec 5) (e : Endpoint),
  s.clear { reads := [s.ra a, s.rb b] } = true ∧ handleOf (s.g (s.ra a)) ≠ loopbackHandle ∧ s.chanOk (handleOf (s.g (s.ra a))) f e
  ∧ (if outside then ((s.core s.ctx.core).inScratchpad (s.g (s.rb b)) (n e) || (s.core s.ctx.core).inClaimedSlot (s.g (s.rb b)) (n e)) = false
     else (s.core s.ctx.core).inScratchpad (s.g (s.rb b)) (n e) = true ∧ (s.g (s.rb b)).toNat % 32 = 8)

theorem witness_ChannelChecks :
    barredAt { dirIn := false, typs := [0], mode := some false } ∧ barredAt { dirIn := false, typs := [1], mode := none }
    ∧ barredAt { dirIn := true, typs := [1], mode := none } ∧ barredAt { dirIn := true, typs := [0], mode := none }
    ∧ (∀ x : Bool, tileAt { dirIn := false, typs := [1], mode := none } (fun e => e.len) x
      ∧ tileAt { dirIn := false, typs := [2], mode := some true, inbox := true } (fun _ => 128) x
      ∧ tileAt { dirIn := true, typs := [1], mode := none } (fun e => e.len) x) := by
  refine ⟨⟨chan {} 0 region, 31, 31, 30, _, ?_, ?_, ?_, ?_, rfl, ?_⟩, ⟨chan { typ := 1 } 0 region, 31, 31, 30, _, ?_, ?_, ?_, ?_, rfl, ?_⟩,
    ⟨chan { dirIn := true, typ := 1 } 0 region, 31, 31, 30, _, ?_, ?_, ?_, ?_, rfl, ?_⟩,
    ⟨chan { dirIn := true } 0 region, 31, 31, 30, _, ?_, ?_, ?_, ?_, rfl, ?_⟩, fun x => ?_⟩
  rotate_right
  · cases x
    · refine ⟨⟨chan { typ := 1 } 72, 31, 30, _, ?_, ?_, ⟨?_, rfl, ?_⟩, ?_⟩,
        ⟨chan { typ := 2, buffered := true, pkind := 1, credit := 1 } 72, 31, 30, _, ?_, ?_, ⟨?_, rfl, ?_⟩, ?_⟩,
        ⟨chan { dirIn := true, typ := 1 } 72, 31, 30, _, ?_, ?_, ⟨?_, rfl, ?_⟩, ?_⟩⟩ <;> decide
    · refine ⟨⟨chan { typ := 1 } 0xFFFFE0, 31, 30, _, ?_, ?_, ⟨?_, rfl, ?_⟩, ?_⟩,
        ⟨chan { typ := 2, buffered := true, pkind := 1, credit := 1 } 0xFFFFE0, 31, 30, _, ?_, ?_, ⟨?_, rfl, ?_⟩, ?_⟩,
        ⟨chan { dirIn := true, typ := 1 } 0xFFFFE0, 31, 30, _, ?_, ?_, ⟨?_, rfl, ?_⟩, ?_⟩⟩ <;> decide
  all_goals decide

/-- A withdrawal, for a reason, of the offer that core 1's endpoint 2 made to endpoint 1 of core 0; process 0 of core 1 waits
for it in slot 0. -/
def withdrawing (why : Why) (e : Endpoint) : State :=
  (arrival (.offerWithdrawal 1 2 why) { dirIn := true, state := 1, xferBack := 2, xferSrc := 1 }).setCore 1
    ((({ gateV := true, endpoints := [(2, { e with valid := true, state := 1 })] } : Core).setProc 0
      { ({} : Proc).freshWindow 128 with state := .blockedChan, wait := .sending 2 }).setSlot 0 { proc := some 0 })

/-- A message of kind 0 with one unit of payload, for endpoint 1 of core 0. -/
def toEnd1 (kind : BitVec 4 := 0) : Body := .message { kind := kind, handle := 1 }
def divertedInbox (c : Core) : Core := { c with divert := true }

theorem witness_ChannelEventCases :
    (∃ (s : State) (k : Nat) (p : Packet) (h back : Nat) (e : Endpoint), s.arrived k = some p ∧ p.body = .offerWithdrawal h back .close
      ∧ p.src ≠ p.dst ∧ ((s.unpacket k).core p.dst).epFind h = some e ∧ e.state = 1 ∧ e.xferBack = back ∧ e.xferSrc = p.src
      ∧ (s.ep p.src back).state = 1 ∧ (s.ep p.src back).closing ≠ 0 ∧ (s.ep p.src back).engine = false
      ∧ (s.proc p.src (s.ep p.src back).owner.toNat).wait = .sending back)
    ∧ (∃ (s : State) (k : Nat) (p : Packet) (h back : Nat) (a : Word) (e : Endpoint) (i : Nat), s.arrived k = some p
      ∧ p.body = .offerWithdrawal h back (.deadlock a) ∧ p.src ≠ p.dst ∧ ((s.unpacket k).core p.dst).epFind h = some e ∧ e.state = 1
      ∧ e.xferBack = back ∧ e.xferSrc = p.src ∧ (s.ep p.src back).state = 1 ∧ (s.ep p.src back).closing = 0
      ∧ (s.ep p.src back).moving = false ∧ (s.proc p.src (s.ep p.src back).owner.toNat).wait = .sending back
      ∧ (s.core p.src).slotOf (s.ep p.src back).owner.toNat = some i)
    ∧ (∃ (s : State) (k : Nat) (p : Packet) (h back : Nat) (why : Why) (e : Endpoint), s.arrived k = some p
      ∧ p.body = .offerWithdrawal h back why ∧ ((s.unpacket k).core p.dst).epFind h = some e ∧ e.state ≠ 7
      ∧ (e.state ≠ 1 ∧ e.state ≠ 4 ∨ e.xferBack ≠ back ∨ e.xferSrc ≠ p.src))
    ∧ (∃ (s : State) (k : Nat) (p : Packet) (h g : Nat) (src : Word), s.arrived k = some p ∧ p.body = .credit h
      ∧ (s.ep p.dst h).valid = true ∧ (s.ep p.dst h).newPlace = none ∧ (s.ep p.dst h).state = 1 ∧ (s.ep p.dst h).engine = false
      ∧ (s.ep p.dst h).closing = 0 ∧ (s.ep p.dst h).moving = false ∧ (s.ep p.dst h).credit.toNat = (s.ep p.dst h).dm1.toNat
      ∧ (s.proc p.dst (s.ep p.dst h).owner.toNat).wait = .credit g src ∧ g % 2 ^ 20 = h % 2 ^ 20
      ∧ (s.proc p.dst (s.ep p.dst h).owner.toNat).state = .blockedChan
      ∧ (s.core p.dst).regionOf (s.ep p.dst h).owner.toNat = false)
    ∧ (∃ (s : State) (k : Nat) (p : Packet) (m : Msg), s.arrived k = some p ∧ p.body = .message m ∧ s.foreign p = false
      ∧ s.coreDone p.dst = false ∧ m.kind.toNat ≤ 1 ∧ s.closedFor p.dst m = false ∧ s.liveEnd p.dst m = true
      ∧ (s.core p.dst).normalRun m.units = none ∧ (s.core p.dst).stagingRun m.units = none)
    ∧ (∃ (s : State) (k : Nat) (p : Packet) (m : Msg) (x : Nat × Nat), s.arrived k = some p ∧ p.body = .message m ∧ s.foreign p = false
      ∧ s.coreDone p.dst = false ∧ s.closedFor p.dst m = false ∧ s.liveEnd p.dst m = true ∧ (s.core p.dst).divert = true
      ∧ (s.core p.dst).stagingRun m.units = some x ∧ (∀ d, (s.proc p.dst 255).wait ≠ .staged d))
    ∧ (∃ (s : State) (k : Nat) (p : Packet) (m : Msg) (x : Nat × Nat), s.arrived k = some p ∧ p.body = .message m ∧ s.foreign p = false
      ∧ s.coreDone p.dst = false ∧ s.closedFor p.dst m = false ∧ s.liveEnd p.dst m = true ∧ (s.core p.dst).normalRun m.units = none
      ∧ (s.core p.dst).stagingRun m.units = some x ∧ (∀ d, (s.proc p.dst 255).wait ≠ .staged d))
    ∧ (∃ (s : State) (k : Nat) (p : Packet) (m : Msg) (u : Nat) (e : Endpoint), s.arrived k = some p ∧ p.body = .message m
      ∧ s.foreign p = false ∧ s.coreDone p.dst = false ∧ m.kind.toNat ≤ 1 ∧ (s.core p.dst).epFind m.handle.toNat = some e
      ∧ e.state ≠ 6 ∧ e.newPlace = none ∧ e.state ≠ 2 ∧ e.state ≠ 3 ∧ (s.core p.dst).divert = false
      ∧ (s.core p.dst).normalRun m.units = some u)
    ∧ (∃ (s : State) (k : Nat) (p : Packet) (m : Msg) (u : Nat) (e : Endpoint) (d : Nat), s.arrived k = some p ∧ p.body = .message m
      ∧ s.foreign p = false ∧ s.coreDone p.dst = false ∧ m.kind = 0 ∧ (s.core p.dst).epFind m.handle.toNat = some e ∧ e.state = 2
      ∧ e.newPlace = none ∧ e.engine = false ∧ e.isTile = false ∧ e.closing = 0 ∧ e.moving = false ∧ s.mem.poison = []
      ∧ (s.core p.dst).messageFor m.handle.toNat = none ∧ (s.core p.dst).divert = false
      ∧ (s.core p.dst).normalRun m.units = some u ∧ (s.proc p.dst e.owner.toNat).wait = .receivingB m.handle.toNat d 0
      ∧ (s.proc p.dst e.owner.toNat).state = .blockedChan ∧ 0 < d ∧ d < (s.proc p.dst e.owner.toNat).regs.length)
    ∧ (∃ (s : State) (k : Nat) (p : Packet) (m : Msg), s.arrived k = some p ∧ p.body = .message m ∧ s.foreign p = false
      ∧ s.coreDone p.dst = false ∧ s.closedFor p.dst m = true) := by
  refine ⟨⟨withdrawing .close { closing := 0x41 }, 0, _, 1, 2, _, rfl, rfl, ?_, rfl, ?_⟩,
    ⟨withdrawing (.deadlock 7) {}, 0, _, 1, 2, 7, _, 0, rfl, rfl, ?_, rfl, ?_⟩,
    ⟨arrival (.offerWithdrawal 1 2 .close) { dirIn := true, state := 5 }, 0, _, 1, 2, _, _, rfl, rfl, rfl, ?_⟩,
    ⟨arrival (.credit 1) { buffered := true, state := 1, dm1 := 63, credit := 63 } (fun p => { p with
      state := .blockedChan, wait := .credit 1 7 }), 0, _, 1, 1, 7, rfl, ?_⟩,
    ⟨arrival (toEnd1 1) { dirIn := true, buffered := true } id fullInbox, 0, _, _, rfl, rfl, ?_⟩,
    ⟨arrival (toEnd1 1) { dirIn := true, buffered := true } id divertedInbox, 0, _, _, (0, 0), rfl, rfl, ?_, ?_, ?_, ?_, ?_, ?_, nofun⟩,
    ⟨arrival (.message { kind := 3 }) {} id (fun c => { fullInbox c with staging := [] }), 0, _, _, (0, 0), rfl, rfl, ?_, ?_, ?_, ?_, ?_, ?_, nofun⟩,
    ⟨arrival (toEnd1 1) { dirIn := true, buffered := true }, 0, _, _, 0, _, rfl, rfl, ?_, ?_, ?_, rfl, ?_⟩,
    ⟨arrival (toEnd1 0) { dirIn := true, buffered := true, state := 2 } (fun p => { p with
      state := .blockedChan, wait := .receivingB 1 31 0 }), 0, _, _, 0, _, 31, rfl, rfl, ?_, ?_, rfl, rfl, ?_⟩,
    ⟨arrival (toEnd1 0) { dirIn := true, buffered := true, state := 6 }, 0, _, _, rfl, rfl, ?_⟩⟩ <;> decide

/-- The gate of core 0 belongs to no job. -/
def shut (c : Core) : Core := { c with gateV := false }
/-- A return from an inline call whose stack lies at 2^48, which the TLB does not hold; at 4, no multiple of 8; and behind an
AMO of the word below an unperformed acquire. -/
def returnsBelow (g2 : Word) (f : Core → Core := id) : State := on 0 (fun p => regs [(2, g2)] { p with depth := 1 }) f
/-- The mark of the frame, as the return looks for it. -/
def markOf (s : State) : StackRead :=
  ((s.begun 0 { reads := [2], writes := [1, 2], var := true }).block .blockedSync (.inlineReturn (s.g 2) none)).stackWord
    s.ctx.core s.ctx.pn { pn := s.ctx.pn, ea := s.g 2 + 16, size := 8, job := s.jobOf s.ctx.core }

theorem marksTrap (x : StackRead) (h : (match x with | .trap _ _ _ => true | _ => false) = true) : ∃ u c a, x = .trap u c a := by
  cases x with | trap u c a => exact ⟨u, c, a, rfl⟩ | _ => cases h
theorem marksWait (x : StackRead) (h : (match x with | .wait _ => true | _ => false) = true) : ∃ u, x = .wait u := by
  cases x with | wait u => exact ⟨u, rfl⟩ | _ => cases h
theorem marksWalk (x : StackRead) (h : (match x with | .walk _ => true | _ => false) = true) : ∃ va, x = .walk va := by
  cases x with | walk va => exact ⟨va, rfl⟩ | _ => cases h

theorem witness_LaunchForms :
    (∃ (s : State) (a b : BitVec 5), s.clear { reads := [s.ra a, s.rb b] } = true ∧ s.inHandler = false ∧ s.gateShut s.ctx.core = true)
    ∧ (∃ (s : State) (a b : BitVec 5), s.clear { reads := [s.ra a, s.rb b] } = true ∧ s.inHandler = false ∧ s.gateShut s.ctx.core = false)
    ∧ (∃ s : State, s.clear { reads := [2], writes := [1, 2], var := true } = true ∧ s.inHandler = false ∧ s.me.depth ≠ 0
      ∧ ∃ u c a, markOf s = .trap u c a)
    ∧ (∃ s : State, s.clear { reads := [2], writes := [1, 2], var := true } = true ∧ s.inHandler = false ∧ s.me.depth ≠ 0
      ∧ ∃ u, markOf s = .wait u)
    ∧ (∃ s : State, s.clear { reads := [2], writes := [1, 2], var := true } = true ∧ s.inHandler = false ∧ s.me.depth ≠ 0
      ∧ ∃ va, markOf s = .walk va) := by
  refine ⟨⟨on 0 id shut, 31, 31, ?_⟩, ⟨base, 31, 31, ?_⟩, ⟨returnsBelow 4, ?_, ?_, ?_, marksTrap _ ?_⟩,
    ⟨returnsBelow 64 behindAcquire, ?_, ?_, ?_, marksWait _ ?_⟩, ⟨returnsBelow (2 ^ 48), ?_, ?_, ?_, marksWalk _ ?_⟩⟩ <;> decide

/-- The GSET of a husk of core 0 with the state READY, or with FREE. -/
def husk (i : Nat) (ready : Bool) (f : Core := {}) : State := gset (sel 2 i) (if ready then [0, 2 ^ 56] else []) f
/-- Cores 0 and 1 of one launch; process 7 of core 1 is displaced, and the GSET of husk i of core 0 holds its image. -/
def huskMoves (i : Nat) : State :=
  let g : Core := { gateV := true, launch := some { id := 1 }, procs := [(7, { ({} : Proc).freshWindow 32 with state := .ready, moving := true })] }
  let s := (gset (sel 2 i)).setCore 1 g
  let v := s.huskImage g 7
  { (gset (sel 2 i) ((List.range 8).map (fun k => v / 2 ^ (64 * k) % 2 ^ 64)) { gateV := true, launch := some { id := 1 } }).setCore 1 g with ticks := 0 }

theorem witness_HuskAndRegisterWrites :
    let k (core : Nat) (x : Word) : Nat := dieOf core * 512 + selCore x
    let turn (cls : Nat) (s : State) (core pn : Nat) (x y : Word) : Prop := s.gsetTurn core pn x y false cls
    let code (s : State) (core : Nat) (y : Word) : Nat := s.image core y 64 / 2 ^ 120 % 16
    (∃ (s : State) (core pn : Nat) (x y : Word), turn 2 s core pn x y ∧ code s core y = 0
      ∧ (s.proc (k core x) (selIndex x)).state ≠ .free ∧ (s.core (k core x)).moveBarred (selIndex x) = true)
    ∧ (∃ (s : State) (core pn : Nat) (x y : Word), turn 2 s core pn x y ∧ code s core y = 0
      ∧ (s.proc (k core x) (selIndex x)).state = .free ∧ (s.proc (k core x) (selIndex x)).moving = false
      ∧ s.savedWith (k core x) (selIndex x) = none)
    ∧ (∀ out : Bool, ∃ (s : State) (core pn : Nat) (x y : Word), turn 2 s core pn x y ∧ code s core y = 0
      ∧ (s.proc (k core x) (selIndex x)).state ≠ .free ∧ (s.core (k core x)).moveBarred (selIndex x) = false
      ∧ (k core x, selIndex x) ≠ (core, pn) ∧ (s.proc (k core x) (selIndex x)).moving = true
      ∧ (s.core (k core x)).movable (selIndex x) = out)
    ∧ (∃ (s : State) (core pn : Nat) (x y : Word), turn 2 s core pn x y ∧ code s core y = 0
      ∧ (s.proc (k core x) (selIndex x)).state ≠ .free ∧ (s.core (k core x)).moveBarred (selIndex x) = false
      ∧ (k core x, selIndex x) ≠ (core, pn) ∧ (s.proc (k core x) (selIndex x)).moving = false
      ∧ (s.core (k core x)).slotOf (selIndex x) = none)
    ∧ (∃ (s : State) (core pn : Nat) (x y : Word) (j : Nat), turn 2 s core pn x y ∧ code s core y = 0
      ∧ (s.proc (k core x) (selIndex x)).state ≠ .free ∧ (s.core (k core x)).moveBarred (selIndex x) = false
      ∧ (k core x, selIndex x) ≠ (core, pn) ∧ (s.proc (k core x) (selIndex x)).moving = false
      ∧ (s.core (k core x)).slotOf (selIndex x) = some j ∧ ((s.core (k core x)).slot j).settled = none)
    ∧ (∃ (s : State) (core pn : Nat) (x y : Word) (j : Nat), turn 2 s core pn x y ∧ code s core y = 0
      ∧ (s.core (k core x)).moveBarred (selIndex x) = false
      ∧ (k core x, selIndex x) ≠ (core, pn) ∧ (s.proc (k core x) (selIndex x)).moving = false
      ∧ (s.core (k core x)).slotOf (selIndex x) = some j ∧ (s.proc (k core x) (selIndex x)).state = .running
      ∧ (s.proc (k core x) (selIndex x)).wait = .none ∧ ((s.core (k core x)).slot j).settled.isSome = true
      ∧ (s.core (k core x)).mayLeave j = true)
    ∧ (∃ (s : State) (core pn : Nat) (x y : Word), turn 2 s core pn x y ∧ code s core y ≠ 0
      ∧ (s.proc (k core x) (selIndex x)).state = .faulted ∧ (k core x, selIndex x) ≠ (core, pn))
    ∧ (∃ (s : State) (core pn : Nat) (x y : Word), turn 2 s core pn x y ∧ code s core y ≠ 0
      ∧ (s.proc (k core x) (selIndex x)).moving = true ∧ s.mover (s.image core y 64) = none ∧ (k core x, selIndex x) ≠ (core, pn))
    ∧ (∃ (s : State) (core pn : Nat) (x y : Word), turn 2 s core pn x y ∧ code s core y ≠ 0
      ∧ (s.proc (k core x) (selIndex x)).state ≠ .faulted ∧ (s.proc (k core x) (selIndex x)).moving = false
      ∧ s.mover (s.image core y 64) = none ∧ s.savedWith (k core x) (selIndex x) = none)
    ∧ (∃ (s : State) (core pn : Nat) (x y : Word) (z : Saved), turn 2 s core pn x y ∧ code s core y ≠ 0
      ∧ (s.proc (k core x) (selIndex x)).state ≠ .faulted ∧ (s.proc (k core x) (selIndex x)).moving = false
      ∧ s.mover (s.image core y 64) = none ∧ (s.die (dieOf core)).saved = [z] ∧ isKernel (k core x) = false
      ∧ s.jobOf (k core x) ≠ z.job ∧ ((look ({} : Core) z.cores (k core x)).proc (selIndex x)).state ≠ .free)
    ∧ (∃ (s : State) (core pn : Nat) (x y : Word) (g n : Nat) (a l : LaunchRef) (b : Nat), turn 2 s core pn x y ∧ code s core y ≠ 0
      ∧ (s.proc (k core x) (selIndex x)).state = .free ∧ (s.proc (k core x) (selIndex x)).moving = false
      ∧ s.mover (s.image core y 64) = some (g, none, n) ∧ g ≠ k core x ∧ (g, n) ≠ (core, pn) ∧ isKernel (k core x) = false
      ∧ (s.core (k core x)).gateV = true ∧ s.jobOf (k core x) = s.jobOf g ∧ (s.core (k core x)).freeNumber = some (selIndex x)
      ∧ (s.core (k core x)).launch = some a ∧ (s.core g).launch = some l ∧ a.die = l.die ∧ a.id = l.id
      ∧ (s.core (k core x)).allocWindow (s.proc g n).wsz = some b)
    ∧ (∃ (s : State) (core pn : Nat) (x y : Word) (g n : Nat), turn 2 s core pn x y ∧ code s core y ≠ 0
      ∧ (s.proc (k core x) (selIndex x)).state = .free ∧ (s.proc (k core x) (selIndex x)).moving = false
      ∧ s.mover (s.image core y 64) = some (g, none, n) ∧ g ≠ k core x ∧ (g, n) ≠ (core, pn) ∧ isKernel (k core x) = false
      ∧ (s.core (k core x)).gateV = true ∧ s.jobOf (k core x) = s.jobOf g ∧ s.savedWith (k core x) (selIndex x) = none
      ∧ (s.core (k core x)).freeNumber ≠ some (selIndex x))
    ∧ (∃ (s : State) (core pn : Nat) (x y : Word), turn 3 s core pn x y
      ∧ (s.proc (k core x) (selIndex x % 256)).state ≠ .faulted ∧ (s.proc (k core x) (selIndex x % 256)).moving = false
      ∧ s.savedWith (k core x) (selIndex x % 256) = none)
    ∧ (∃ (s : State) (core pn : Nat) (x y : Word), turn 3 s core pn x y
      ∧ (let p := s.proc (k core x) (selIndex x % 256)
         p.state = .faulted ∧ 0 < selIndex x / 256 ∧ selIndex x / 256 < p.regs.length ∧ selIndex x / 256 < p.pend.length))
    ∧ (∃ (s : State) (core pn : Nat) (x y : Word), turn 3 s core pn x y
      ∧ (let p := s.proc (k core x) (selIndex x % 256)
         p.moving = true ∧ (k core x, selIndex x % 256) ≠ (core, pn) ∧ 0 < selIndex x / 256 ∧ selIndex x / 256 < p.regs.length
         ∧ selIndex x / 256 < p.pend.length))
    ∧ (∃ (s : State) (core pn : Nat) (x y : Word) (z : Saved), turn 3 s core pn x y
      ∧ (s.proc (k core x) (selIndex x % 256)).state ≠ .faulted ∧ (s.proc (k core x) (selIndex x % 256)).moving = false
      ∧ (s.die (dieOf core)).saved = [z] ∧ isKernel (k core x) = false ∧ s.jobOf (k core x) ≠ z.job
      ∧ ((look ({} : Core) z.cores (k core x)).proc (selIndex x % 256)).state ≠ .free) := by
  intro k turn' code
  let turn {s : State} {core pn : Nat} {x y : Word} {rd : Bool} {cls : Nat} (a : (s.core core).gsetHead = some (pn, x, y)) (b : selRd x = rd)
      (c : selClass x = cls) (d : (s.core core).storesDone pn (s.core core).nextTag = true) (e : (s.proc core pn).state = .blockedSync)
      (f : s.mem.poisonIn (poolKey core y.toNat) (imageBytes cls) = none ∧ (s.core (dieOf core * 512 + selCore x)).gated = false) :
      s.gsetTurn core pn x y rd cls := ⟨a, b, c, d, e, fun _ => f.1, fun _ => f.2⟩
  refine ⟨⟨husk 7 false (p7 { state := .faulted }), 256, 0, _, 0, turn rfl ?_ ?_ ?_ ?_ ?_, ?_⟩,
    ⟨husk 7 false, 256, 0, _, 0, turn rfl ?_ ?_ ?_ ?_ ?_, ?_⟩,
    fun out => ⟨husk 7 false { p7 { state := .ready, moving := true } with reqs := if out then [] else [{ pn := 7 }] }, 256, 0, _, 0,
      turn rfl ?_ ?_ ?_ ?_ ?_, ?_⟩,
    ⟨husk 7 false (p7 { state := .ready }), 256, 0, _, 0, turn rfl ?_ ?_ ?_ ?_ ?_, ?_⟩,
    ⟨husk 7 false ((p7 { state := .running }).setSlot 0 { proc := some 7, switchEnd := some 5 }), 256, 0, _, 0, 0, turn rfl ?_ ?_ ?_ ?_ ?_, ?_⟩,
    ⟨husk 7 false ((p7 { state := .running }).setSlot 0 { proc := some 7 }), 256, 0, _, 0, 0, turn rfl ?_ ?_ ?_ ?_ ?_, ?_⟩,
    ⟨husk 7 true (p7 { state := .faulted }), 256, 0, _, 0, turn rfl ?_ ?_ ?_ ?_ ?_, ?_⟩,
    ⟨husk 7 true (p7 { state := .ready, moving := true }), 256, 0, _, 0, turn rfl ?_ ?_ ?_ ?_ ?_, ?_⟩,
    ⟨husk 7 true, 256, 0, _, 0, turn rfl ?_ ?_ ?_ ?_ ?_, ?_⟩,
    ⟨(husk 7 true).setDie 0 (away (p7 { state := .ready })), 256, 0, _, 0, _, turn rfl ?_ ?_ ?_ ?_ ?_, ?_, ?_, ?_, ?_, rfl, ?_⟩,
    ⟨huskMoves 0, 256, 0, _, 0, 1, 7, _, _, 128, turn rfl ?_ ?_ ?_ ?_ ?_, ?_, ?_, ?_, ?_, ?_, ?_, ?_, ?_, ?_, ?_, rfl, rfl, ?_⟩,
    ⟨huskMoves 7, 256, 0, _, 0, 1, 7, turn rfl ?_ ?_ ?_ ?_ ?_, ?_⟩,
    ⟨gset (sel 3 (7 + 31 * 256)), 256, 0, _, 0, turn rfl ?_ ?_ ?_ ?_ ?_, ?_⟩,
    ⟨gset (sel 3 (7 + 31 * 256)) [] (p7 { state := .faulted }), 256, 0, _, 0, turn rfl ?_ ?_ ?_ ?_ ?_, ?_⟩,
    ⟨gset (sel 3 (7 + 31 * 256)) [] (p7 { state := .ready, moving := true }), 256, 0, _, 0, turn rfl ?_ ?_ ?_ ?_ ?_, ?_⟩,
    ⟨(gset (sel 3 (7 + 31 * 256))).setDie 0 (away (p7 { state := .ready })), 256, 0, _, 0, _, turn rfl ?_ ?_ ?_ ?_ ?_, ?_, ?_, rfl, ?_⟩⟩
  all_goals first | decide | (cases out <;> decide)

/-- A record at pool address 64, which process 0's earlier writes reach, and which wait behind an acquire. -/
def recordAt64 (calm : Bool) : State := on 0 (regs [(31, 64)]) (fun c => if calm then c else behindAcquire c)

theorem witness_RecordsBehindOwnWrites :
    (∃ (s : State) (a : BitVec 5), s.clear { reads := [s.ra a] } = true ∧ (s.core s.ctx.core).inScratchpad (s.g (s.ra a)) 64 = true
      ∧ (s.g (s.ra a)).toNat % 64 = 0 ∧ waitsForOwn s { reads := [s.ra a] })
    ∧ (∃ (s : State) (a n : BitVec 5), s.clear { reads := [s.ra a], legal := s.rb n < 8 } = true ∧ (s.g (s.ra a)).toNat % 32 = 0
      ∧ (s.core s.ctx.core).inScratchpad (s.g (s.ra a)) 32 = true ∧ waitsForOwn s { reads := [s.ra a], legal := s.rb n < 8 })
    ∧ (∃ (s : State) (d a : BitVec 5), let u : Use := {
        reads := [s.ra a], writes := [s.rd d], var := true, legal := !isKernel s.ctx.core
        ready := (s.core s.ctx.core).tasks.length < 8 && (s.core s.ctx.core).futureFree }
      s.clear u = true ∧ (s.core s.ctx.core).inScratchpad (s.g (s.ra a)) 64 = true ∧ (s.g (s.ra a)).toNat % 64 = 0 ∧ waitsForOwn s u)
    ∧ (∃ (s : State) (d a n : BitVec 5), let u : Use := {
        reads := [s.ra a], writes := [s.rd d], var := true, legal := !isKernel s.ctx.core
        ready := (s.core s.ctx.core).tasks.length < 8 && (s.core s.ctx.core).futureFree }
      s.clear u = true ∧ s.clear { reads := [s.ra a], legal := s.rb n < 8 } = true ∧ s.clear { reads := [s.ra a] } = true
      ∧ (s.core s.ctx.core).inScratchpad (s.g (s.ra a)) 64 = true ∧ (s.g (s.ra a)).toNat % 64 = 0 ∧ s.quiet) := by
  refine ⟨⟨recordAt64 false, 31, ?_, ?_, ?_, ?_⟩, ⟨recordAt64 false, 31, 7, ?_, ?_, ?_, ?_⟩, ⟨recordAt64 false, 31, 31, ?_, ?_, ?_, ?_⟩,
    ⟨recordAt64 true, 31, 31, 7, ?_, ?_, ?_, ?_, ?_, ?_⟩⟩
  all_goals first | decide | (unfold waitsForOwn; decide) | (unfold State.quiet State.calm; decide)

/-- Process 7 of core 0, RUNNING in slot 0, with a request outstanding, a result in flight, a START and a future. -/
def busy7 (p : Proc) : State :=
  let c : Core := {
    reqs := [{ pn := 7 }], flight := [{ pn := 7, writes := [(31, 1)], due := 1, seq := 0 }], starts := (starting 16 {}).starts
    futures := [(1, { used := true, owner := 7 })] }
  (on 259 (regs [(31, 7)])).setCore 0 ((c.setProc 7 p).setSlot 0 { proc := some 7 })

theorem witness_KillsOfBusyProcesses :
    ∀ st ∈ [ProcState.running, .blockedSync, .blockedChan, .faulted], ∃ (s : State) (a : BitVec 5) (k n i : Nat),
      s.clear { reads := [s.ra a], legal := isKernel s.ctx.core } = true ∧ (s.core s.ctx.core).kernelHead = none
      ∧ pidOnDie s.ctx.core (s.g (s.ra a)) = some (k, n) ∧ n ≠ 255 ∧ (s.proc k n).state = st ∧ s.me.wait = .none
      ∧ (s.core k).slotOf n = some i ∧ (s.core k).reqs ≠ [] ∧ (s.core k).flight ≠ [] ∧ (k ≠ s.ctx.core ∨ n ≠ s.ctx.pn) := by
  intro st h
  refine ⟨busy7 { state := st }, 31, 0, 7, 0, ?_⟩
  simp only [List.mem_cons, List.not_mem_nil, or_false] at h
  rcases h with rfl | rfl | rfl | rfl <;> decide

theorem witness_SleepDeadlines :
    ∃ (s : State) (core pn : Nat) (e : Word), (s.proc core pn).wait = .sleep e ∧ (s.proc core pn).state = .sleeping
      ∧ (s.proc core pn).moving = false ∧ e.toNat = (s.cyc (dieOf core)).toNat ∧ (s.core core).slotOf pn = none :=
  ⟨{ on 0 id (fun c => c.setProc 7 { state := .sleeping, wait := .sleep 9 }) with ticks := 9 }, 0, 7, 9, by decide⟩

/-- A request of core 0 whose home, memory of die 1, the island check bars. -/
def barredReq (ph : ReqPhase) : Req := { kind := .store, phase := ph, homeIsDie := true, home := 1, order := .release }

theorem witness_BarredAndLostRequests :
    (∃ (s : State) (core tag : Nat) (r : Req), (s.core core).req tag = some r ∧ r.tag = tag ∧ r.phase = .buffered ∧ r.order ≠ .strong
      ∧ s.reqShut core r = true)
    ∧ (∀ other : Bool, ∃ (s : State) (core tag : Nat) (r : Req), (s.core core).req tag = some r ∧ r.tag = tag ∧ r.phase = .buffered
      ∧ r.order ≠ .strong ∧ r.lost = false ∧ s.reqShut core r = false ∧ (r.homePkg == pkgOf core) = !other)
    ∧ (∀ free : Bool, ∃ (s : State) (core tag i : Nat) (r : Req), (s.core core).req tag = some r ∧ r.tag = tag ∧ r.phase = .full ∧ r.blocks = false
      ∧ (s.proc core r.pn).wait = .bufferFull tag ∧ (s.proc core r.pn).state = .blockedSync ∧ (s.core core).slotOf r.pn = some i
      ∧ r.homePkg = pkgOf core ∧ r.lost = false ∧ s.reqShut core r = false ∧ (s.core core).entryFree r = free)
    ∧ (∃ (s : State) (core tag : Nat) (r : Req), (s.core core).req tag = some r ∧ r.tag = tag ∧ r.phase = .refused ∧ r.homePkg = pkgOf core
      ∧ r.lost = false ∧ s.reqShut core r = false ∧ r.due = s.ticks)
    ∧ (∃ (s : State) (core tag : Nat) (r : Req) (k : Nat), (s.core core).req tag = some r ∧ r.tag = tag ∧ r.phase = .sent
      ∧ r.homeWait = false ∧ r.due ≤ s.ticks ∧ s.mayPerform core r = true ∧ r.place = .bytes k ∧ r.ownPool = true ∧ r.home = core
      ∧ r.homeIsDie = false ∧ r.lost = false ∧ (s.die (dieOfKey k)).waits = [] ∧ s.findPacket (.memory core tag) = none ∧ r.plain = true
      ∧ (s.mem.serve r (pidOf core r.pn) k (s.wordSeen core r.pn r.path (k / 8))).isSome = true)
    ∧ (∃ (s : State) (core tag : Nat) (r : Req), (s.core core).req tag = some r ∧ r.withdrawn = true ∧ r.phase = .full
      ∧ r.homeWait = false)
    ∧ (∃ (s : State) (core tag : Nat) (r : Req), (s.core core).req tag = some r ∧ r.withdrawn = true ∧ r.phase ≠ .sent ∧ r.phase ≠ .full) := by
  refine ⟨⟨withReq (barredReq .buffered), 0, 0, _, rfl, ?_⟩,
    fun other => ⟨withReq { barredReq .buffered with home := if other then 4 else 0 }, 0, 0, _, rfl, ?_⟩,
    fun free => ⟨withReq { barredReq .full with home := 0 } (fun p => { p with state := .blockedSync, wait := .bufferFull 0 })
      (fun c => if free then c else { c with reqs := c.reqs ++ (List.range 64).map (fun i => {
        kind := .store, pn := 1, tag := i + 1, global := true, phase := .buffered }) }), 0, 0, 0, { barredReq .full with home := 0 }, ?_⟩,
    ⟨withReq { barredReq .refused with home := 0 }, 0, 0, _, rfl, ?_⟩,
    ⟨poolReq (.load false) [], 0, 0, _, poolKey 0 64, rfl, ?_⟩,
    ⟨withReq { withdrawn := true, phase := .full }, 0, 0, _, rfl, ?_⟩,
    ⟨withReq { withdrawn := true, phase := .waiting }, 0, 0, _, rfl, ?_⟩⟩
  all_goals first | decide | (cases other <;> decide) | (cases free <;> decide)

/-- A handler whose inline code, of two words, ends in a REP, at which it stands. -/
def endsInRep : State :=
  let m : Msg := { kind := 2, nm1 := 1 }
  let s := handling 0 m
  match (s.core 0).inlineCode with
  | none => s
  | some (b, n) => { (s.modProc 0 256 (fun p => { p with pc := word (b + 4 * (n - 1)) })) with
      mem := ({} : Memory).write (poolKey 0 (b + 4 * (n - 1))) 4 0x151F0000 }

theorem witness_InlineCodeEnds :
    (∃ (s : State) (core b n : Nat) (m : Stored), (s.core core).handler = some m ∧ (s.core core).inlineCode = some (b, n)
      ∧ (s.proc core 256).state = .running ∧ (s.proc core 256).pc.toNat = b + 4 * (n - 1)
      ∧ (BitVec.ofNat 32 (s.mem.read (poolKey core (s.proc core 256).pc.toNat) 4)).extractLsb' 24 6 = 0x15#6)
    ∧ (∃ (s : State) (core b n : Nat) (m : Stored), (s.core core).handler = some m ∧ (s.core core).inlineCode = some (b, n)
      ∧ (s.proc core 256).state = .running ∧ (s.proc core 256).inRep = false ∧ b ≤ (s.proc core 256).pc.toNat
      ∧ (s.proc core 256).pc.toNat < b + 4 * n
      ∧ ¬ ((s.proc core 256).pc.toNat = b + 4 * (n - 1)
        ∧ (BitVec.ofNat 32 (s.mem.read (poolKey core (s.proc core 256).pc.toNat) 4)).extractLsb' 24 6 = 0x15#6)) := by
  refine ⟨⟨endsInRep, 0, _, _, _, rfl, rfl, ?_⟩, ⟨{ endsInRep with mem := {} }, 0, _, _, _, rfl, rfl, ?_⟩⟩ <;> decide

theorem witness_ProbesThatReturn :
    ∃ (s : State) (pkt : Nat) (p : Packet) (origin seq h hseq pid hops : Nat) (record : List (Nat × Nat)) (trunc : Bool) (k d : Nat),
      s.arrived pkt = some p ∧ p.body = .probe origin seq h hseq pid hops record trunc
      ∧ (let u := s.unpacket pkt
         let e := u.ep (pid / 256) h
         let q := u.proc (e.peerPid / 256) (e.peerPid % 256)
         h ∈ u.waitEdges (pid / 256) (pid % 256) ∧ e.wseq.toNat = hseq ∧ e.peerPid = origin ∧ q.waitSince = seq ∧ q.reported ≠ seq
         ∧ q.wait = .receiving k d ∧ (u.ep (e.peerPid / 256) k).state = 2) :=
  ⟨ring, 0, _, _, _, _, _, _, _, _, _, 2, 31, rfl, rfl, by decide⟩

/-- An operation queued behind a write of its process that waits behind an acquire. -/
def queuedBehind (calm : Bool) : State :=
  on 0 id (fun c => let c : Core := { c with
      vecQ := [{ fn := 6, a := 0, b := 0, pn := 0, entry := 1, upto := 2 }]
      copyQ := [{ multi := false, src := 8, dst := 0, pn := 0, entry := 1, promise := 0, upto := 2 }] }
    if calm then c else behindAcquire c)

theorem witness_EnginesBehindOwnWrites :
    (∃ (s : State) (core : Nat) (v : VecOp) (o : CopyOp), (s.core core).vecQ = [v] ∧ (s.core core).copyQ = [o] ∧ v.started = false
      ∧ o.started = false ∧ ((s.settleOwn core v.pn).core core).ownWritesDone v.pn v.upto = false
      ∧ ((s.settleOwn core o.pn).core core).ownWritesDone o.pn o.upto = false)
    ∧ (∃ (s : State) (core : Nat) (v : VecOp) (o : CopyOp), (s.core core).vecQ = [v] ∧ (s.core core).copyQ = [o] ∧ v.started = false
      ∧ o.started = false ∧ s.calm core v.pn ∧ s.calm core o.pn)
    ∧ (∃ (s : State) (core target : Nat) (o : CopyOp) (rest : List CopyOp) (cs : List Nat), (s.core core).copyQ = o :: rest
      ∧ o.started = true ∧ o.multi = true ∧ rectCores (pkgOf core) o.rect = some cs ∧ target ∈ cs
      ∧ o.cores.any (fun x => x.1 == target) = false ∧ (s.die (dieOf target)).isSaved (s.jobOf core) = false
      ∧ (s.core target).gated = false ∧ s.islandShut core (dieOf target) = true ∧ (s.core core).lost = []) := by
  refine ⟨⟨queuedBehind false, 0, _, _, rfl, rfl, ?_⟩, ⟨queuedBehind true, 0, _, _, rfl, rfl, rfl, rfl, ?_, ?_⟩,
    ⟨copyOp { oneWord 8 0 true with rect := 16 }, 0, 512, _, _, _, rfl, ?_, ?_, rfl, ?_⟩⟩
  all_goals first | decide | (unfold State.calm; decide)

theorem witness_ReachedCores : base.reaches 0 1 := by unfold State.reaches; rfl

/-- O47 (a publication whose process a GKILL ended), O48, O50 and O52 to O56: the remaining clauses. -/
theorem witness_SheafEvents_ended :
    ∃ (s : State) (die : Nat) (f : Frame) (c pn entry : Nat) (src desc : Word), let p := s.pkg (pkgOfDie die)
      let n := (s.die die).applied + 1
      p.formed = true ∧ p.frame n = some f ∧ f.ops = [.pub c pn entry src desc] ∧ f.ended = [0] ∧ n < ssnLimit
      ∧ n ≤ p.landed ∧ n ∉ p.landFault ∧ s.noAcquirers die ∧ dieOf c = die ∧ (s.die die).saved = []
      ∧ ((s.core c).future entry).used = true ∧ ((s.core c).future entry).engine = 5
      ∧ ((s.core c).future entry).owner = pn ∧ ((s.core c).future entry).ownerLive = false := by
  refine ⟨{ sheaf { member with landed := 1, got := [{ frameOf [.pub 0 7 1 0 0] with ended := [0] }] } member1 with
    cores := [(0, { futures := [(1, { used := true, engine := 5, owner := 7, ownerLive := false })] })] }, 0, _, _, _, _, _, _, ?_, rfl, rfl,
    rfl, ?_, ?_, ?_, ?_, rfl, ?_⟩ <;> try decide
  intro core pn target _ h
  have : ∀ s : State, s.cores = [(0, ({ futures := [(1, { used := true, engine := 5, owner := 7, ownerLive := false })] } : Core))] →
      (s.proc core pn).wait = .none := by
    intro s e
    cases core <;> simp [State.proc, State.core, e, look, Core.proc]
  rw [this _ rfl] at h
  cases h

theorem witness_LaunchAndTenantEvents_completion :
    (∃ (s : State) (die pos : Nat) (q : Running) (rest : List Running), takeAt (s.die die).running pos = some (q, rest)
      ∧ ((lrCores (pkgOfDie die) q.record).map (fun e => e.1)).all (fun c => s.freeOf c die q.id) = true
      ∧ (s.die (dieOf q.core)).saved = [] ∧ ((s.core q.core).future q.entry).gen = q.gen
      ∧ ((s.core q.core).future q.entry).used = true ∧ ((s.core q.core).future q.entry).engine = 3)
    ∧ (∀ switching : Bool, ∃ (s : State) (pkg job target d : Nat), job ≠ target ∧ s.leavers job target = [(d, job)] ∧ d ∈ s.tenantDies job
      ∧ pkgOfDie d = pkg ∧ s.timeShares target d = true ∧ s.turnOf d target = true
      ∧ ((s.die d).switching && (s.tenantCores d).all (fun c => (s.core c).quiet)) = switching
      ∧ (s.die d).saved = [])
    ∧ (∀ switching : Bool, ∃ (s : State) (pkg job target : Nat), s.switchDue pkg job target = true ∧ s.leavers job target ≠ []
      ∧ (s.leavers job target).all (fun d => (s.die d.1).switching && (s.tenantCores d.1).all (fun c => (s.core c).quiet)) = switching) := by
  refine ⟨⟨launched [] (withFuture (fun c => { c with procs := [] })) |>.modCore 0 (fun c => { c with
      futures := [(0, { used := true, engine := 3 })] }), 0, 0, _, _, rfl, ?_⟩,
    fun b => ⟨sharing { turn := 1, switching := b }, 0, 1, 2, 0, ?_, ?_, ?_, ?_, ?_, ?_, ?_, ?_⟩,
    fun b => ⟨sharing { turn := 1, switching := b }, 0, 1, 2, ?_, ?_, ?_⟩⟩
  all_goals first | decide | (cases b <;> decide)

theorem witness_ShootDowns_cores :
    (∃ (s : State) (job c : Nat), job ≠ 0 ∧ (∃ p, (pkgOf c, p) ∈ s.pkgs) ∧ c ∈ s.shootCores job)
    ∧ (∃ (s : State) (job c : Nat), job ≠ 0 ∧ (∃ p, (pkgOf c, p) ∈ s.pkgs) ∧ c ∉ s.shootCores job) := by
  refine ⟨⟨mail (fun p => { p with ldbind := [(0, 0x10021)] }), 1, 0, ?_, ⟨_, List.mem_singleton.mpr rfl⟩, ?_⟩,
    ⟨mail, 1, 0, ?_, ⟨_, List.mem_singleton.mpr rfl⟩, ?_⟩⟩ <;> decide

theorem witness_MailboxCommands_held :
    (∃ (s : State) (pkg dev : Nat), s.mailOpen pkg dev ∧ (s.pkg pkg).turning.getLsbD 3 = true)
    ∧ (∃ (s : State) (pkg dev : Nat), s.mailOpen pkg dev ∧ (s.pkg pkg).turning = 0
      ∧ (s.pkg pkg).heldCmds.any (fun h => h.op == 0xC004) = true)
    ∧ (∃ (s : State) (pkg dev : Nat), s.mailOpen pkg dev ∧ (s.pkg pkg).turning.getLsbD 0 = true ∧ (s.pkg pkg).dutyMode 0 = false)
    ∧ (∃ (s : State) (pkg dev : Nat), s.mailOpen pkg dev ∧ (s.pkg pkg).turning = 0
      ∧ (s.pkg pkg).heldCmds.any (fun h => h.op == 0xC002) = true)
    ∧ (∃ (s : State) (pkg dev job va die k : Nat) (ds : List Nat), s.mailOpen pkg dev ∧ (s.pkg pkg).dutyMode 0 = true
      ∧ (s.pkg pkg).heldCmds = [] ∧ (s.pkg pkg).devDies pkg dev = die :: ds ∧ ldJob ((s.pkg pkg).binding dev) = job
      ∧ s.leafKey die job va 0 = .inl (some k) ∧ pteOwn (s.mem.word (k / 8)) = 2)
    ∧ (∀ turns : Bool, ∃ (s : State) (pkg dev job va g die : Nat) (ds : List Nat), s.mailOpen pkg dev ∧ (s.pkg pkg).dutyMode 0 = true
      ∧ (s.pkg pkg).heldCmds = [] ∧ (s.pkg pkg).devDies pkg dev = die :: ds ∧ ldJob ((s.pkg pkg).binding dev) = job ∧ migrateOwn g ≠ none
      ∧ (if turns then (s.pkg pkg).turning.getLsbD 0 = true ∧ (job, va) ∉ (s.pkg pkg).migrating
         else (s.pkg pkg).migrations.any (fun m => m.die == die) = true))
    ∧ (∃ (s : State) (pkg dev die i k o q : Nat), s.mailOpen pkg dev ∧ (s.pkg pkg).heldCmds = [] ∧ (s.pkg pkg).dutyMode 3 = true
      ∧ (s.pkg pkg).turning.getLsbD 3 = false ∧ i < 4096 ∧ o < 0x8000000000 ∧ q < 256 ∧ die < 4 ∧ k < 8) := by
  refine ⟨⟨mail (fun p => { p with turning := 8 }), 0, 0, ?_⟩, ⟨mail (fun p => { p with heldCmds := [.routeload 0 0 0] }), 0, 0, ?_⟩,
    ⟨mail (fun p => { p with turning := 1 }), 0, 0, ?_⟩, ⟨mail (fun p => { p with heldCmds := [.migrate 0 0 0 0] }), 0, 0, ?_⟩,
    ⟨mail id (shooting (1 + 2 ^ 16) (1 + 2 ^ 17) 0x87), 0, 0, 0, 2 ^ 48, 0, 131072, [], ?_, ?_, ?_, ?_, ?_, ?_, ?_⟩,
    fun turns => ⟨mail (fun p => { p with turning := if turns then 1 else 0, duty := if turns then 0x154 else 0x155, migrations := [{ dev := 0, die := 0 }] }), 0, 0, 0, 2 ^ 48, 0, 0, [],
      ?_, ?_, ?_, ?_, ?_, ?_, ?_⟩,
    ⟨mail, 0, 0, 3, 4095, 7, 0, 255, ?_⟩⟩
  all_goals first | decide | (unfold State.mailOpen; decide) | (cases turns <;> first | decide | (unfold State.mailOpen; decide))

/-- The end of the host that a MIGRATE or a ROUTELOAD still waits for; the release of a process that sends to it. -/
theorem witness_HostAccesses_held :
    (∃ (s : State) (pkg dev : Nat), (s.pkg pkg).serves dev = true ∧ hostEnds s pkg (fun e => e.hostDev == dev) = []
      ∧ (∀ c, (s.core c).reqs = [] ∧ (s.core c).vecQ = [] ∧ (s.core c).copyQ = []) ∧ (s.pkg pkg).migrating = []
      ∧ (s.pkg pkg).heldCmds.filter (fun h => h.dev == dev) ≠ [] ∧ (s.pkg pkg).heldCmds.filter (fun h => !(h.dev == dev)) ≠ [])
    ∧ (∃ (s : State) (pkg dev q core handle i : Nat) (rest : List (Nat × Nat)), let h := hostQueueAt (s.pkg pkg) dev q
      let e := s.ep core handle
      h.used = true ∧ h.toHost = true ∧ h.head < h.tail ∧ h.owners = (core, handle) :: rest ∧ (s.die (dieOf core)).saved = []
      ∧ e.buffered = false ∧ e.engine = false ∧ (s.proc core e.owner.toNat).wait = .sending handle ∧ e.killed = none
      ∧ (s.proc core e.owner.toNat).state = .blockedChan ∧ (s.core core).slotOf e.owner.toNat = some i) := by
  refine ⟨⟨mail (fun p => { p with heldCmds := [.routeload 0 0 0, .routeload 1 0 0] }) {}, 0, 0, ?_, ?_, fun _ => ⟨rfl, rfl, rfl⟩, ?_⟩,
    ⟨hostRing { tail := 1, owners := [(0, 1)] } (hostEp { state := 1 } (fun p => { p with state := .blockedChan, wait := .sending 1 })),
      0, 0, 2, 0, 1, 0, [], ?_⟩⟩ <;> decide

theorem witness_Fabric_generations :
    (∃ (s : State) (p : Packet) (gen : Bool), dieOf (p.inj.getD p.src) ≠ dieOf p.dst ∧ pkgOf (p.inj.getD p.src) = pkgOf p.dst
      ∧ s.islandOk p gen = true)
    ∧ (∃ (s : State) (p : Packet) (gen : Bool), dieOf (p.inj.getD p.src) ≠ dieOf p.dst ∧ pkgOf (p.inj.getD p.src) = pkgOf p.dst
      ∧ s.islandOk p gen = false)
    ∧ (∃ (s : State) (p : Packet) (gen : Bool), pkgOf (p.inj.getD p.src) ≠ pkgOf p.dst ∧ s.islandOk p gen = true)
    ∧ (∃ (s : State) (p : Packet) (rest : List Packet), s.net = p :: rest ∧ p.at_ ≠ pkgOf p.dst ∧ 0 < p.hop
      ∧ (s.pkg p.at_).busy = false ∧ p.gen ≠ (s.pkg p.at_).gen)
    ∧ (∃ (s : State) (p : Packet) (rest : List Packet), s.net = p :: rest ∧ p.at_ ≠ pkgOf p.dst ∧ 0 < p.hop
      ∧ (s.pkg p.at_).busy = false ∧ p.gen = (s.pkg p.at_).gen ∧ rteUsable ((s.pkg p.at_).rte p.gen (pkgOf p.dst)) = false)
    ∧ (∃ (s : State) (die : Nat) (v : Word), v.getLsbD 16 = true ∧ (s.die die).tdWork = none ∧ (s.die die).tdQueue = [])
    ∧ (∃ (s : State) (die : Nat) (v : Word), v.getLsbD 16 = true ∧ (s.die die).tdWork ≠ none)
    ∧ (∃ (s : State) (die : Nat) (v : Word), v.getLsbD 16 = true ∧ (s.die die).tdQueue ≠ [])
    ∧ (∃ v : Word, v.getLsbD 16 = false) := by
  refine ⟨⟨{ pkgs := [(0, { rte0 := [(0, route)] })] }, { toPkg1 with dst := 512 }, true, ?_⟩, ⟨{}, { toPkg1 with dst := 512 }, false, ?_⟩,
    ⟨routed route toPkg1, toPkg1, false, ?_⟩, ⟨routed route (toPkg1 1 true), _, _, rfl, ?_⟩, ⟨routed 0 (toPkg1 1), _, _, rfl, ?_⟩,
    ⟨base, 0, 0x1FFFF, ?_⟩, ⟨tearing 0 base, 0, 0x10000, ?_⟩, ⟨base.setDie 0 { tdQueue := [(1, 0x41)] }, 0, 0x10000, ?_⟩, ⟨0xFFFF, ?_⟩⟩ <;> decide

theorem witness_RepairAndResetEvents_queues :
    (∃ (s : State) (die job : Nat), (s.die die).tdWork.any (fun w => w.1 == job) = true)
    ∧ (∃ (s : State) (die job : Nat), (s.die die).tdQueue.any (fun w => w.1 == job) = true ∧ (s.die die).tdWork ≠ none)
    ∧ (∃ (s : State) (die job : Nat), (s.die die).tdQueue.any (fun w => w.1 == job) = true ∧ (s.die die).tdWork = none
      ∧ (s.die die).switching = true)
    ∧ (∃ (s : State) (p : Packet) (rest : List Packet) (h core n d : Nat) (i : Bool), s.net = p :: rest ∧ s.quarantined 0 = some p
      ∧ p.body = .futureWait h (pidOf core n) ∧ n < 256 ∧ isKernel core = true ∧ (s.proc core n).wait = .future h d i
      ∧ (s.proc core n).state = .blockedFut)
    ∧ (∃ (s : State) (die : Nat), (s.die die).resetWanted = false ∧ s.dieJobs die = [] ∧ (s.die die).tdWork = none
      ∧ ((dies4 (pkgOfDie die)).all (fun k => k == die || (s.die k).inReset) = false ∨ (s.pkg (pkgOfDie die)).formed = false)) := by
  refine ⟨⟨tearing 0 base, 0, 0, ?_⟩, ⟨base.setDie 0 { tdQueue := [(1, 0x41)], tdWork := some (0, 0x41) }, 0, 1, ?_⟩,
    ⟨base.setDie 0 { tdQueue := [(1, 0x41)], switching := true }, 0, 1, ?_⟩,
    ⟨{ (on 256 (fun p => { p with state := .blockedFut, wait := .future 129 5 false })).setDie 0 { tdWork := some (0, 0x41) } with
      net := [{ src := 256, dst := 0, at_ := 0, body := .futureWait 129 (pidOf 256 0) }] }, _, _, _, 256, 0, 5, false, rfl, rfl, rfl, ?_⟩,
    ⟨{}, 0, ?_⟩⟩ <;> decide

theorem witness_StepTakesEvents_held :
    (∃ s : State, s.inputs = [] ∧ s.phase = [] ∧ ∀ e ∈ s.pkgs, e.2.busy = false ∧ e.2.heldCmds = [])
    ∧ (∃ (s : State) (k : Nat) (p : Pkg), s.inputs = [] ∧ s.phase = [] ∧ s.pkgs = [(k, p)] ∧ p.busy = false ∧ p.heldCmds ≠ [])
    ∧ (∃ (s : State) (k dev o : Nat) (v : Word), (s.pkg k).heldCmds = [.routeload dev o v])
    ∧ (∃ (s : State) (k dev j v g : Nat), (s.pkg k).heldCmds = [.migrate dev j v g]) := by
  refine ⟨⟨mail, rfl, rfl, ?_⟩, ⟨mail (fun p => { p with heldCmds := [.routeload 0 0 0] }), _, _, rfl, rfl, rfl, rfl, ?_⟩,
    ⟨mail (fun p => { p with heldCmds := [.routeload 0 0 0] }), 0, _, _, _, rfl⟩,
    ⟨mail (fun p => { p with heldCmds := [.migrate 0 0 0 0] }), 0, _, _, _, _, rfl⟩⟩ <;> decide

end Sys2Proof.Tests
end

/-! ## The decoder and the encoder (R32 to R38)

A word is cut into fields by R33, R36 and R37. Both directions of the round trip speak of the same thing: which field of
the word reads which value. The word of an instruction is some word x exactly when x reads the parts that the encoder
puts together (mkWord_eq_iff, reads_append), and the decoder reads its fields of x. -/

section
namespace Sys2Proof

/-! ### The fields that a word reads -/

/-- The bits of a word from lo up are those of a field. -/
def Reads (x : BitVec 32) (lo : Nat) {n : Nat} (a : BitVec n) : Prop := bitsAt x lo n = a

theorem Reads.eq {x : BitVec 32} {lo n : Nat} {a : BitVec n} (h : Reads x lo a) : bitsAt x lo n = a := h

theorem reads_bitsAt (x : BitVec 32) (lo n : Nat) : Reads x lo (bitsAt x lo n) := rfl

theorem reads_append {x : BitVec 32} {lo m n : Nat} {a : BitVec m} {b : BitVec n} :
    Reads x lo (a ++ b) ↔ Reads x (lo + n) a ∧ Reads x lo b := by
  unfold Reads bitsAt
  rw [← BitVec.extractLsb'_append_extractLsb'_eq_extractLsb' rfl]
  constructor
  · intro h
    have high := congrArg (BitVec.extractLsb' n m) h
    have low := congrArg (BitVec.extractLsb' 0 n) h
    rw [BitVec.extractLsb'_append_eq_left, BitVec.extractLsb'_append_eq_left] at high
    rw [BitVec.extractLsb'_append_eq_right, BitVec.extractLsb'_append_eq_right] at low
    exact ⟨high, low⟩
  · rintro ⟨rfl, rfl⟩
    rfl

/-- R32: a word is its stall count, its major opcode and its low 24 bits. -/
theorem mkWord_eq_iff {x : BitVec 32} {w : BitVec 2} {m : BitVec 6} {l : BitVec 24} :
    mkWord w m l = x ↔ Reads x 30 w ∧ Reads x 24 m ∧ Reads x 0 l := by
  have h : Reads x 0 (mkWord w m l) ↔ mkWord w m l = x := by
    rw [Reads, bitsAt, BitVec.extractLsb'_eq_self, eq_comm]
  rw [← h, mkWord, reads_append, reads_append, and_assoc]

/-- A field inside a part that a word reads. -/
theorem Reads.bits {x : BitVec 32} {lo n : Nat} {a : BitVec n} (h : Reads x lo a) (p m : Nat)
    (hp : lo ≤ p ∧ p + m ≤ lo + n) : bitsAt x p m = a.extractLsb' (p - lo) m := by
  obtain ⟨j, rfl⟩ := Nat.exists_eq_add_of_le hp.1
  rw [← h.eq, Nat.add_sub_cancel_left]
  ext i hi
  simp only [bitsAt, BitVec.getElem_extractLsb', BitVec.getLsbD_extractLsb']
  rw [Nat.add_assoc, decide_eq_true (by omega), Bool.true_and]

theorem Reads.zeroAt {x : BitVec 32} {lo n : Nat} {a : BitVec n} (h : Reads x lo a) (p m : Nat)
    (hp : lo ≤ p ∧ p + m ≤ lo + n) : zeroAt x p m = (a.extractLsb' (p - lo) m == 0#m) := by
  rw [← h.bits p m hp]
  rfl

/-! ### Fields as numbers -/

theorem toNat_bitsAt (x : BitVec 32) (lo n : Nat) : (bitsAt x lo n).toNat = x.toNat / 2 ^ lo % 2 ^ n := by
  simp [bitsAt, Nat.shiftRight_eq_div_pow]

theorem reads_ofNat {x : BitVec 32} {lo n k : Nat} :
    Reads x lo (BitVec.ofNat n k) ↔ x.toNat / 2 ^ lo % 2 ^ n = k % 2 ^ n := by
  rw [Reads, ← BitVec.toNat_inj, toNat_bitsAt, BitVec.toNat_ofNat]

theorem bitsAt_beq_ofNat {x : BitVec 32} {lo n k : Nat} :
    (bitsAt x lo n == BitVec.ofNat n k) = true ↔ x.toNat / 2 ^ lo % 2 ^ n = k % 2 ^ n :=
  beq_iff_eq.trans reads_ofNat

theorem zeroAt_iff {x : BitVec 32} {lo n : Nat} : zeroAt x lo n = true ↔ x.toNat / 2 ^ lo % 2 ^ n = 0 :=
  bitsAt_beq_ofNat.trans (by rw [Nat.zero_mod])

/-! ### The decoder reads back what the encoder wrote -/

/-- D and A of a LARM are not both g0: with both zero the word is the inline return's. -/
theorem zeroAt_of_larm {x : BitVec 32} {w : BitVec 2}
    (h : (Instr.larm w (bitsAt x 19 5) (bitsAt x 14 5)).wellFormed = true) : zeroAt x 14 10 = false := by
  refine Bool.eq_false_iff.2 fun hz => ?_
  have both : Reads x 14 (0#5 ++ 0#5) := beq_iff_eq.1 hz
  obtain ⟨hd, ha⟩ := reads_append.1 both
  rw [hd.eq, ha.eq] at h
  contradiction

/-- Each block is the members that one layout of R33, R36 and R37 serves, of whatever major opcode: their operands are the
fields that the word reads, and their literals give the member code and the zeros that the decoder asks for. -/
theorem decodeFields_of_encode {i : Instr} {x : BitVec 32} (hwf : i.wellFormed = true) (h : encode i = some x) :
    decodeFields x = some i := by
  cases i
  all_goals try contradiction
  all_goals
    replace h := Option.some.inj h
    simp only [mkWord_eq_iff, reads_append] at h
    obtain ⟨rfl, hm, hl⟩ := h
    rw [decodeFields, hm.eq]
  case add | sub | and | or | xor | andn | orn | sll | srl | sra | ror | mul | mulh | mulhu | div | divu | rem | remu
    | min | max | minu | maxu | slt | sltu | bfx | bfxu | bfi | hpack | hunpk | faddS | fsubS | fmulS | fdivS | fminS
    | fmaxS | faddD | fsubD | fmulD | fdivD | fminD | fmaxD | feqS | fltS | fleS | feqD | fltD | fleD | fmaddS
    | fmsubS | fnmaddS | fmaddD | fmsubD | fnmaddD | start | shpub | shst | shcas =>
    obtain ⟨⟨⟨rfl, rfl⟩, rfl⟩, hf⟩ := hl
    delta decodeMajor01 decodeMajor0C decodeMajor0D decodeMajor1F decodeMajor20 decodeMajor24 decodeMajor2B
    rw [hf.eq]
    rfl
  case clz | ctz | popc | brev | bswap | sextb | sexth | sextw | zextw | hlrd | fsqrtS | fsqrtD | fclass | fcvtSD
    | fcvtDS | fcvtSL | fcvtLS | fcvtDL | fcvtLD | fcvtBS | fcvtSB | recv | fwait | ftest | fpass | fprom =>
    obtain ⟨⟨rfl, rfl⟩, hf⟩ := hl
    delta decodeMajor01 decodeMajor0D decodeMajor1F decodeMajor21 decodeMajor25 decodeMajor29
    rw [hf.bits 0 9 (by decide), hf.zeroAt 9 5 (by decide)]
    rfl
  case addi | andi | ori | xori | slti | sltiu | jlr =>
    obtain ⟨⟨rfl, rfl⟩, rfl⟩ := hl
    rfl
  case slli | srli | srai | rori =>
    obtain ⟨⟨⟨rfl, rfl⟩, hf⟩, rfl⟩ := hl
    delta decodeMajor08
    rw [hf.bits 12 2 (by decide), hf.zeroAt 6 6 (by decide)]
    rfl
  case liu | addpc =>
    obtain ⟨rfl, rfl⟩ := hl
    rfl
  case bfxi | bfxui | bfii =>
    obtain ⟨⟨⟨⟨rfl, rfl⟩, rfl⟩, rfl⟩, hf⟩ := hl
    delta decodeMajor0B
    rw [hf.eq]
    rfl
  case hlwr | send | sendb | sendh | tsend | trecv | altg | altt | lpatch | gset =>
    obtain ⟨⟨⟨hd, rfl⟩, rfl⟩, hf⟩ := hl
    delta decodeMajor0D decodeMajor25 decodeMajor26 decodeMajor28 decodeMajor3A
    rw [hf.eq, hd.zeroAt 19 5 (by decide)]
    rfl
  case getx =>
    obtain ⟨⟨rfl, hf⟩, rfl⟩ := hl
    delta decodeMajor0E
    rw [hf.bits 12 2 (by decide), hf.zeroAt 14 5 (by decide)]
    rfl
  case putx =>
    obtain ⟨⟨⟨hd, rfl⟩, hf⟩, rfl⟩ := hl
    delta decodeMajor0E
    rw [hf.bits 12 2 (by decide), hd.zeroAt 19 5 (by decide)]
    rfl
  case addx =>
    obtain ⟨hf, rfl⟩ := hl
    delta decodeMajor0E
    rw [hf.bits 12 2 (by decide), hf.zeroAt 14 10 (by decide)]
    rfl
  case cbEq | cbNe | cbLt | cbGe | cbLtu | cbGeu | cbBset | cbBclr =>
    obtain ⟨⟨⟨⟨hf, rfl⟩, rfl⟩, rfl⟩, rfl⟩ := hl
    delta decodeMajor10
    rw [hf.bits 21 3 (by decide)]
    rfl
  case cbiEq | cbiNe | cbiLt | cbiGe | cbiLtu | cbiGeu | cbiBset | cbiBclr =>
    obtain ⟨⟨⟨hf, rfl⟩, rfl⟩, rfl⟩ := hl
    delta decodeMajor11
    rw [hf.bits 21 3 (by decide)]
    rfl
  case j | jl =>
    obtain rfl := hl
    rfl
  case rep =>
    obtain ⟨⟨⟨rfl, rfl⟩, rfl⟩, hf⟩ := hl
    delta decodeMajor15
    rw [hf.zeroAt 0 13 (by decide)]
    rfl
  case nop | yield | ifsync =>
    delta decodeMajor16
    rw [hl.bits 10 4 (by decide), hl.zeroAt 0 10 (by decide), hl.zeroAt 14 10 (by decide)]
    rfl
  case align =>
    obtain ⟨hf, rfl⟩ := hl
    delta decodeMajor16
    rw [hf.bits 10 4 (by decide), hf.zeroAt 8 2 (by decide), hf.zeroAt 14 10 (by decide)]
    rfl
  case schk =>
    obtain ⟨hf, rfl⟩ := hl
    delta decodeMajor16
    rw [hf.bits 10 4 (by decide), hf.zeroAt 1 9 (by decide), hf.zeroAt 14 10 (by decide)]
    rfl
  case lb | lh | lw | ld | lbu | lhu | lwu | sb | sh | sw | sd | readf | take | peek | put | fill | clear | ovwr =>
    obtain ⟨⟨⟨rfl, rfl⟩, hf⟩, rfl⟩ := hl
    delta decodeMajor18 decodeMajor19 decodeMajor1A decodeMajor1B
    rw [hf.bits 11 3 (by decide)]
    rfl
  case aadd | aand | aor | axor | amin | amax | aminu | amaxu | aswap | afadd | afamax =>
    obtain ⟨⟨⟨⟨⟨rfl, rfl⟩, rfl⟩, hz⟩, rfl⟩, hf⟩ := hl
    delta decodeMajor1C
    rw [hf.eq, hz.zeroAt 5 4 (by decide)]
    rfl
  case cas =>
    obtain ⟨⟨⟨⟨rfl, rfl⟩, rfl⟩, hz⟩, rfl⟩ := hl
    delta decodeMajor1D
    rw [hz.zeroAt 1 8 (by decide)]
    rfl
  case fenceC | fenceD | fenceG | stop | done | altb | specb | commit | abort =>
    delta decodeMajor1E decodeMajor24 decodeMajor26 decodeMajor27
    rw [hl.bits 0 9 (by decide), hl.zeroAt 9 15 (by decide)]
    rfl
  case xfence =>
    obtain ⟨⟨⟨⟨hd, rfl⟩, hz⟩, rfl⟩, hf⟩ := hl
    delta decodeMajor1E
    rw [hf.eq, hz.zeroAt 12 2 (by decide), hd.zeroAt 17 7 (by decide)]
    rfl
  case pri | sleepc | bwait | fcancel | nestset | shacq | gresume | gkill =>
    obtain ⟨⟨hd, rfl⟩, hf⟩ := hl
    delta decodeMajor24 decodeMajor29 decodeMajor2A decodeMajor2B decodeMajor3A
    rw [hf.bits 0 9 (by decide), hf.zeroAt 9 5 (by decide), hd.zeroAt 19 5 (by decide)]
    rfl
  case who | altw | iter =>
    obtain ⟨rfl, hf⟩ := hl
    delta decodeMajor24 decodeMajor26 decodeMajor2A
    rw [hf.bits 0 9 (by decide), hf.zeroAt 9 10 (by decide)]
    rfl
  case larm =>
    obtain ⟨⟨rfl, rfl⟩, hf⟩ := hl
    delta decodeMajor28
    rw [hf.bits 0 9 (by decide), hf.zeroAt 9 5 (by decide), zeroAt_of_larm hwf]
    rfl
  case larmReturn =>
    delta decodeMajor28
    rw [hl.bits 0 9 (by decide), hl.zeroAt 9 5 (by decide), hl.zeroAt 14 10 (by decide)]
    rfl
  case ewr | ewra =>
    obtain ⟨⟨⟨⟨hd, rfl⟩, hf⟩, rfl⟩, rfl⟩ := hl
    delta decodeMajor2C
    rw [hf.bits 12 2 (by decide), hd.zeroAt 19 5 (by decide)]
    rfl
  case erd =>
    obtain ⟨⟨⟨rfl, hf⟩, rfl⟩, rfl⟩ := hl
    delta decodeMajor2C
    rw [hf.bits 12 2 (by decide), hf.zeroAt 14 5 (by decide)]
    rfl
  case vadd | vsub | vmul | vfma | vmax | vmin | vabs | vneg | vexp | vlog | vrcp | vrsq | vcvt | vrsum | vrmax
    | vamax | vscale | vsel | vcmp | vtrans | vgath | vscat | vbcast =>
    obtain ⟨⟨⟨rfl, rfl⟩, rfl⟩, hf⟩ := hl
    delta decodeMajor30
    rw [hf.bits 0 5 (by decide), hf.zeroAt 5 4 (by decide)]
    rfl
  case cpy | cpym | mmerge =>
    obtain ⟨⟨⟨rfl, rfl⟩, rfl⟩, hf⟩ := hl
    delta decodeMajor32 decodeMajor33
    rw [hf.bits 0 5 (by decide), hf.bits 5 4 (by decide)]
    rfl
  case mclaim | mtask =>
    obtain ⟨⟨rfl, rfl⟩, hf⟩ := hl
    delta decodeMajor33
    rw [hf.bits 0 5 (by decide), hf.bits 5 9 (by decide)]
    rfl
  case mrel =>
    obtain ⟨⟨hd, rfl⟩, hf⟩ := hl
    delta decodeMajor33
    rw [hf.bits 0 5 (by decide), hf.bits 5 9 (by decide), hd.zeroAt 19 5 (by decide)]
    rfl
  case wset =>
    obtain ⟨⟨⟨hd, rfl⟩, rfl⟩, hf⟩ := hl
    delta decodeMajor34
    rw [hf.zeroAt 0 9 (by decide), hd.zeroAt 19 5 (by decide)]
    rfl
  case rdcr =>
    obtain ⟨⟨rfl, hf⟩, rfl⟩ := hl
    delta decodeMajor38
    rw [hf.bits 13 1 (by decide), hf.zeroAt 8 5 (by decide), hf.zeroAt 14 5 (by decide)]
    rfl
  case wrcr =>
    obtain ⟨⟨⟨hd, rfl⟩, hf⟩, rfl⟩ := hl
    delta decodeMajor38
    rw [hf.bits 13 1 (by decide), hf.zeroAt 8 5 (by decide), hd.zeroAt 19 5 (by decide)]
    rfl
  case trap =>
    obtain ⟨hf, rfl⟩ := hl
    delta decodeMajor39
    rw [hf.zeroAt 14 10 (by decide)]
    rfl

/-! ### The encoder writes back what the decoder read -/

/-- In each arm of the decoder the word reads the instruction's operands by themselves, and its literals because the member
code and the zero fields have been checked. -/
theorem encode_of_decodeFields {x : BitVec 32} {i : Instr} (h : decodeFields x = some i) : encode i = some x := by
  unfold decodeFields at h
  split at h
  all_goals try contradiction
  all_goals dsimp only [decodeMajor01, decodeMajor02, decodeMajor03, decodeMajor04, decodeMajor05, decodeMajor06,
    decodeMajor07, decodeMajor08, decodeMajor09, decodeMajor0A, decodeMajor0B, decodeMajor0C, decodeMajor0D,
    decodeMajor0E, decodeMajor10, decodeMajor11, decodeMajor12, decodeMajor13, decodeMajor14, decodeMajor15,
    decodeMajor16, decodeMajor18, decodeMajor19, decodeMajor1A, decodeMajor1B, decodeMajor1C, decodeMajor1D,
    decodeMajor1E, decodeMajor1F, decodeMajor20, decodeMajor21, decodeMajor24, decodeMajor25, decodeMajor26,
    decodeMajor27, decodeMajor28, decodeMajor29, decodeMajor2A, decodeMajor2B, decodeMajor2C, decodeMajor30,
    decodeMajor32, decodeMajor33, decodeMajor34, decodeMajor38, decodeMajor39, decodeMajor3A] at h
  all_goals repeat' split at h
  all_goals try contradiction
  all_goals
    cases h
    refine congrArg some (mkWord_eq_iff.2 ?_)
    simp only [reads_append, reads_ofNat, toNat_bitsAt, zeroAt_iff, bitsAt_beq_ofNat, Bool.and_eq_true, Nat.reducePow,
      Nat.reduceMod, Nat.div_one] at *
    simp only [Nat.reduceAdd, Nat.reducePow, reads_bitsAt, true_and, and_true, *]
  all_goals omega

/-! ### The round trip -/

theorem decode_eq_some_iff {x : BitVec 32} {i : Instr} :
    decode x = some i ↔ decodeFields x = some i ∧ i.wellFormed = true := by
  unfold decode
  cases decodeFields x with
  | none => simp
  | some j =>
    by_cases hj : j.wellFormed = true
    · simp only [hj, if_true, Option.some.injEq]
      exact ⟨fun e => ⟨e, e ▸ hj⟩, fun e => e.1⟩
    · simp only [hj, Bool.false_eq_true, if_false, reduceCtorEq, Option.some.injEq, false_iff]
      exact fun e => hj (e.1 ▸ e.2)

theorem isEvent_of_encode {i : Instr} {x : BitVec 32} (h : encode i = some x) : i.isEvent = false := by
  refine Bool.eq_false_iff.2 fun he => ?_
  cases i <;> contradiction

theorem decode_of_encode {i : Instr} {x : BitVec 32} (hwf : i.wellFormed = true) (h : encode i = some x) :
    decode x = some i :=
  decode_eq_some_iff.2 ⟨decodeFields_of_encode hwf h, hwf⟩

/-- Settles O60: the decoder and the encoder read and write the same fields. -/
theorem decodeOfEncode : Obligations.DecodeOfEncode := by
  refine ⟨fun i w => decode_of_encode, fun w i h => ?_⟩
  obtain ⟨hf, hwf⟩ := decode_eq_some_iff.1 h
  have he := encode_of_decodeFields hf
  exact ⟨hwf, isEvent_of_encode he, he⟩

/-- Settles O59: each word is the encoder's word of its instruction, and the words of all zeros and of all ones have no
major opcode of R35. -/
theorem decodeSamples : Obligations.DecodeSamples := by
  refine ⟨?_, ?_, ?_, ?_, ?_, ?_, ?_, ?_, ?_, ?_, ?_, ?_, ?_, ?_, ?_, ?_, ?_, rfl, rfl⟩
  all_goals exact decode_of_encode rfl rfl

/-! ### Words that are no instruction (R38) -/

theorem decode_eq_none {x : BitVec 32} (h : decodeFields x = none) : decode x = none := by
  rw [decode, h]

theorem decode_unassignedMajor {x : BitVec 32}
    (h : (x.extractLsb' 24 6).toNat ∈ [0x00, 0x3B, 0x3C, 0x3D, 0x3E, 0x3F]) : decode x = none := by
  refine decode_eq_none ?_
  simp only [List.mem_cons, List.not_mem_nil, or_false] at h
  rw [decodeFields, bitsAt]
  rcases h with h | h | h | h | h | h <;> rw [h] <;> rfl

theorem decode_jlr {x : BitVec 32} (h : Reads x 24 0x14#6) :
    decode x = some (.jlr (bitsAt x 30 2) (bitsAt x 19 5) (bitsAt x 14 5) (bitsAt x 0 14)) := by
  refine decode_eq_some_iff.2 ⟨?_, rfl⟩
  rw [decodeFields, h.eq]
  rfl

theorem decode_trap_reserved {x : BitVec 32} (h : Reads x 24 0x39#6) (hz : x.extractLsb' 14 10 ≠ 0#10) :
    decode x = none := by
  refine decode_eq_none ?_
  rw [decodeFields, h.eq]
  change decodeMajor39 x = none
  exact if_neg fun e => hz (beq_iff_eq.1 e)

end Sys2Proof
end

/-! ## Traps: TRAP and ILLEGAL_WORD (R38, R40, R111 to R114) -/

section
namespace Sys2Proof.Machine

/-! ### A trap's delivery (R112 to R114) -/

@[simp] theorem Core.slotOf_setProc (c : Core) (n m : Nat) (p : Proc) : (c.setProc n p).slotOf m = c.slotOf m := rfl

@[simp] theorem Core.slot_setProc (c : Core) (n i : Nat) (p : Proc) : (c.setProc n p).slot i = c.slot i := rfl

/-- The wait of a resident RUNNING process ends, and nothing else changes. -/
theorem State.wake_resident {s : State} {core pn i : Nat} (hr : (s.proc core pn).state = .running)
    (hi : (s.core core).slotOf pn = some i) :
    s.wake core pn = s.setCore core ((s.core core).setProc pn { s.proc core pn with wait := .none }) := by
  have hr' : ((s.core core).proc pn).state = .running := hr
  simp only [State.wake, State.modCore, State.proc, hi, hr']
  rfl

/-- A process that goes on at TVEC, which it clears (R113). -/
def Proc.toTvec (p : Proc) : Proc := { p with pc := p.tvec, tvec := 0, inRep := false, wait := .none }

/-- A trap that is recoverable, or of a kernel core, is delivered at TVEC (R113, R332). -/
theorem State.deliver_toTvec {s : State} {core pn i : Nat} {cause : Cause} (hn : pn ≠ 256)
    (hc : (cause.recoverable || isKernel core) = true) (ht : (s.proc core pn).tvec ≠ 0)
    (hr : (s.proc core pn).state = .running) (hi : (s.core core).slotOf pn = some i) :
    s.deliver core pn cause = s.setCore core ((s.core core).setProc pn (s.proc core pn).toTvec) := by
  have hp : ∀ q, (s.setProc core pn q).proc core pn = q := fun q => by simp [State.setProc, State.proc]
  have hq : ∀ q, (s.setProc core pn q).core core = (s.core core).setProc pn q := fun q => by simp [State.setProc]
  rw [State.deliver, if_neg hn, if_pos (Bool.and_eq_true_iff.2 ⟨hc, bne_iff_ne.2 ht⟩),
    State.wake_resident (i := i) (by rw [hp]; exact hr) (by rw [hq]; exact hi), hp, hq, Core.setProc_setProc]
  exact State.setCore_setCore _ _ _ _

/-- Any other trap of a compute core parks its process (R114). -/
theorem State.deliver_park {s : State} {core pn : Nat} {cause : Cause} (hn : pn ≠ 256) (hk : isKernel core = false)
    (hc : cause.recoverable = false ∨ (s.proc core pn).tvec = 0) :
    s.deliver core pn cause = s.park core pn := by
  have hv : ¬ ((cause.recoverable || isKernel core) && (s.proc core pn).tvec != 0) = true := by
    rcases hc with hc | hc <;> simp [hc, hk]
  rw [State.deliver, if_neg hn, if_neg hv, if_neg (by simp [hk])]

/-- A process with its trap recorded, as parking leaves it: its husk PC is FPC (R114). -/
def Proc.parked (p : Proc) : Proc :=
  { p with state := .faulted, pc := p.fpc, wait := .none, inRep := false, held := false, closeReason := 0 }

/-- A core whose process in slot i is parked: the slot is free, and a fault message waits in the gate (R114, R337). -/
def Core.parking (c : Core) (i pn : Nat) (p : Proc) (m : FaultMsg) : Core :=
  { ((c.setSlot i (c.slot i).emptied).unlist pn).setProc pn p with faultOut := c.faultOut ++ [m] }

/-- The fault message of a recorded trap (R341). -/
def Proc.faultMsg (p : Proc) (core pn : Nat) (job : BitVec 16) : FaultMsg :=
  { kind := 1, cause := p.cause, pid := BitVec.ofNat 31 (pidOf core pn), job := job, fpc := p.fpc, faddr := p.faddr
    finst := p.finst, extra := p.closeReason }

theorem State.park_resident {s : State} {core pn i : Nat} (hk : isKernel core = false)
    (hi : (s.core core).slotOf pn = some i) (hl : ((s.core core).slot i).leaving = none) :
    s.park core pn = s.setCore core ((s.core core).parking i pn (s.proc core pn).parked
      ((s.proc core pn).faultMsg core pn (s.core core).gateJob)) := by
  have hf : (s.core core).freeSlotOf pn = (s.core core).setSlot i ((s.core core).slot i).emptied := by
    simp only [Core.freeSlotOf, hi, hl]
  simp only [State.park, State.report, State.modCore, State.jobOf, hk, hf, State.core_setCore, State.setCore_setCore]
  simp [Core.parking, Proc.faultMsg, Core.setProc, Core.unlist, Core.setSlot, Proc.parked]

theorem Core.slotOf_lt {c : Core} {pn i : Nat} (h : c.slotOf pn = some i) : i < c.slots.length :=
  (List.findIdx?_eq_some_iff_getElem.1 h).1

theorem Core.parking_slot {c : Core} {i pn : Nat} (p : Proc) (m : FaultMsg) (h : c.slotOf pn = some i) :
    ((c.parking i pn p m).slot i).proc = none := by
  simp [Core.parking, Core.slot, Core.setProc, Core.unlist, Core.setSlot, Slot.emptied, Core.slotOf_lt h]

@[simp] theorem Core.parking_proc (c : Core) (i pn : Nat) (p : Proc) (m : FaultMsg) : (c.parking i pn p m).proc pn = p :=
  look_put_self _ _ _ _

theorem Core.parking_proc_ne {c : Core} {i pn n : Nat} (p : Proc) (m : FaultMsg) (h : n ≠ pn) :
    (c.parking i pn p m).proc n = c.proc n :=
  look_put_ne _ _ _ h

@[simp] theorem Core.parking_setProc (c : Core) (i pn : Nat) (p q : Proc) (m : FaultMsg) :
    (c.setProc pn q).parking i pn p m = c.parking i pn p m := by
  simp [Core.parking, Core.setSlot, Core.unlist, Core.setProc, Core.slot]

/-- The issuing process with a trap recorded (R112), before its delivery. -/
def State.trapped (s : State) (cause : Cause) (faddr : Word) : Proc :=
  { s.me with
    cause := cause.code, fpc := pc56 s.ctx.pc &&& ~~~(3 : Word), faddr := faddr, finst := s.ctx.word
    earliest := s.ticks + 1, tagSince := none }

/-- The state with its issuing process's trap recorded. -/
def State.trapping (s : State) (cause : Cause) (faddr : Word) : State :=
  s.withCore ((s.core s.ctx.core).setProc s.ctx.pn (s.trapped cause faddr))

theorem State.trap_eq_deliver (s : State) (cause : Cause) (faddr : Word) :
    s.trap cause faddr = (s.trapping cause faddr).deliver s.ctx.core s.ctx.pn cause := rfl

@[simp] theorem State.core_trapping (s : State) (cause : Cause) (faddr : Word) :
    (s.trapping cause faddr).core s.ctx.core = (s.core s.ctx.core).setProc s.ctx.pn (s.trapped cause faddr) :=
  State.core_setCore _ _ _

@[simp] theorem State.proc_trapping (s : State) (cause : Cause) (faddr : Word) :
    (s.trapping cause faddr).proc s.ctx.core s.ctx.pn = s.trapped cause faddr := by
  simp [State.proc]

/-- A trap that is recoverable, or of a kernel core, goes on at TVEC, which it clears (R113). -/
theorem State.trap_toTvec {s : State} {cause : Cause} {faddr : Word} {i : Nat} (hn : s.ctx.pn < 256)
    (hc : (cause.recoverable || isKernel s.ctx.core) = true) (ht : s.me.tvec ≠ 0) (hr : s.me.state = .running)
    (hi : (s.core s.ctx.core).slotOf s.ctx.pn = some i) :
    s.trap cause faddr = s.withCore ((s.core s.ctx.core).setProc s.ctx.pn
      (s.trapped cause faddr).toTvec) := by
  have hp := s.proc_trapping cause faddr
  rw [State.trap_eq_deliver, State.deliver_toTvec (i := i) (by omega) hc (by rw [hp]; exact ht) (by rw [hp]; exact hr)
    (by simpa using hi), hp, State.core_trapping, Core.setProc_setProc]
  exact State.setCore_setCore _ _ _ _

/-- A trap of a compute core that no TVEC takes parks the process (R114). -/
theorem State.trap_park {s : State} {cause : Cause} {faddr : Word} {i : Nat} (hn : s.ctx.pn < 256)
    (hk : isKernel s.ctx.core = false) (hc : cause.recoverable = false ∨ s.me.tvec = 0)
    (hi : (s.core s.ctx.core).slotOf s.ctx.pn = some i) (hl : ((s.core s.ctx.core).slot i).leaving = none) :
    s.trap cause faddr = s.withCore ((s.core s.ctx.core).parking i s.ctx.pn (s.trapped cause faddr).parked
      ((s.trapped cause faddr).faultMsg s.ctx.core s.ctx.pn (s.core s.ctx.core).gateJob)) := by
  have hp := s.proc_trapping cause faddr
  rw [State.trap_eq_deliver, State.deliver_park (by omega) hk (by rw [hp]; exact hc),
    State.park_resident (i := i) hk (by simpa using hi) (by simpa using hl), hp, State.core_trapping]
  simp [State.trapping, State.withCore]

/-! ### TRAP and ILLEGAL_WORD -/

@[simp] theorem Proc.observeRegs_nil (p : Proc) : p.observeRegs [] = p := by
  unfold Proc.observeRegs; split <;> simp

@[simp] theorem State.core_begun (s : State) (w : BitVec 2) (u : Use) :
    (s.begun w u).core s.ctx.core = (s.core s.ctx.core).setProc s.ctx.pn (s.begun w u).me := by
  simp [State.begun, State.modMe, State.me]

@[simp] theorem State.withCore_begun (s : State) (w : BitVec 2) (u : Use) (c : Core) :
    (s.begun w u).withCore c = s.withCore c := by
  simp [State.begun, State.modMe, State.modProc, State.setProc, State.modCore, State.withCore]

/-- A trap sets the stall count and the tag wait itself, so the issue of a word without sources leaves no trace in it. -/
@[simp] theorem State.trapped_begun (s : State) (w : BitVec 2) (cause : Cause) (faddr : Word) :
    (s.begun w {}).trapped cause faddr = s.trapped cause faddr := by
  simp [State.trapped, State.me_begun]

theorem exec_trap {s : State} (h : s.clear {} = true) (w : BitVec 2) (k : BitVec 14) :
    exec (.trap w k) s = .next ((s.begun w {}).trap .trapi (k.setWidth 64)) :=
  State.issue_clear h w (fun t => t.trap .trapi (k.setWidth 64))

theorem State.clear_running {s : State} {u : Use} (h : s.clear u = true) : s.me.state = .running := by
  simp only [State.clear, Bool.and_eq_true, beq_iff_eq] at h
  obtain ⟨⟨⟨⟨⟨⟨hr, -⟩, -⟩, -⟩, -⟩, -⟩, -⟩ := h
  exact hr

theorem exec_trap_toTvec {s : State} {i : Nat} (w : BitVec 2) (k : BitVec 14) (h : s.clear {} = true) (hn : s.ctx.pn < 256)
    (ht : s.me.tvec ≠ 0) (hi : (s.core s.ctx.core).slotOf s.ctx.pn = some i) :
    exec (.trap w k) s = .next (s.withCore ((s.core s.ctx.core).setProc s.ctx.pn
      (s.trapped .trapi (k.setWidth 64)).toTvec)) := by
  rw [exec_trap h, State.trap_toTvec (s := s.begun w {}) (i := i) hn rfl]
  · simp
  · simpa [State.me_begun] using ht
  · simpa [State.me_begun] using State.clear_running h
  · simpa using hi

theorem exec_trap_park {s : State} {i : Nat} (w : BitVec 2) (k : BitVec 14) (h : s.clear {} = true) (hn : s.ctx.pn < 256)
    (ht : s.me.tvec = 0) (hk : isKernel s.ctx.core = false) (hi : (s.core s.ctx.core).slotOf s.ctx.pn = some i)
    (hl : ((s.core s.ctx.core).slot i).leaving = none) :
    exec (.trap w k) s = .next (s.withCore ((s.core s.ctx.core).parking i s.ctx.pn (s.trapped .trapi (k.setWidth 64)).parked
      ((s.trapped .trapi (k.setWidth 64)).faultMsg s.ctx.core s.ctx.pn (s.core s.ctx.core).gateJob))) := by
  rw [exec_trap h, State.trap_park (s := s.begun w {}) (i := i) hn hk]
  · simp
  · exact .inr (by simpa [State.me_begun] using ht)
  · simpa using hi
  · simpa using hl

theorem State.onlyCore_withCore (s : State) (c : Core) : s.onlyCore (s.withCore c) s.ctx.core :=
  State.onlyCore_setCore s _ c

@[simp] theorem State.core_withCore (s : State) (c : Core) : (s.withCore c).core s.ctx.core = c :=
  State.core_setCore s _ c

/-- Settles O18: TVEC set, TRAP goes on there; TVEC 0, it parks its process. -/
theorem recoverableTrapEntry : Obligations.RecoverableTrapEntry := by
  refine ⟨fun s w k i h hn ht hi => ⟨_, exec_trap_toTvec w k h hn ht hi, ?_, ?_, s.onlyCore_withCore _⟩,
    fun s w k i h hn ht hk hi hl => ⟨_, exec_trap_park w k h hn ht hk hi hl, ?_, ?_, ?_, ?_, s.onlyCore_withCore _⟩⟩
  · rw [State.me_withCore, Core.proc_setProc]
    rfl
  · simpa using Core.onlyProc_setProc _ _ _
  · rw [State.me_withCore, Core.parking_proc]
    rfl
  · simpa using Core.parking_slot _ _ hi
  · rw [State.core_withCore]
    rfl
  · intro n hne
    simpa using Core.parking_proc_ne _ _ hne

/-- The state in which the word being issued is x. -/
def State.withWord (s : State) (x : BitVec 32) : State := { s with ctx := { s.ctx with word := x } }

@[simp] theorem State.withWord_ctx_core (s : State) (x : BitVec 32) : (s.withWord x).ctx.core = s.ctx.core := rfl
@[simp] theorem State.withWord_ctx_pn (s : State) (x : BitVec 32) : (s.withWord x).ctx.pn = s.ctx.pn := rfl

theorem exec_illegalWord {s : State} {x : BitVec 32} (hx : decode x = none) (hr : s.me.state = .running) :
    exec (.illegalWord x) s = .next ((s.withWord x).trap .ill 0) := by
  change execIllegalWord x s = _
  rw [execIllegalWord, if_neg (by simp [hx]), if_neg (by simp [hr])]
  rfl

theorem exec_illegalWord_park {s : State} {x : BitVec 32} {i : Nat} (hx : decode x = none) (hr : s.me.state = .running)
    (hn : s.ctx.pn < 256) (hk : isKernel s.ctx.core = false) (hi : (s.core s.ctx.core).slotOf s.ctx.pn = some i)
    (hl : ((s.core s.ctx.core).slot i).leaving = none) :
    exec (.illegalWord x) s = .next ((s.withWord x).withCore ((s.core s.ctx.core).parking i s.ctx.pn
      ((s.withWord x).trapped .ill 0).parked
      (((s.withWord x).trapped .ill 0).faultMsg s.ctx.core s.ctx.pn (s.core s.ctx.core).gateJob))) := by
  rw [exec_illegalWord hx hr, State.trap_park (s := s.withWord x) hn hk (.inl rfl) hi hl]
  rfl

theorem exec_illegalWord_toTvec {s : State} {x : BitVec 32} {i : Nat} (hx : decode x = none) (hr : s.me.state = .running)
    (hn : s.ctx.pn < 256) (hk : isKernel s.ctx.core = true) (ht : s.me.tvec ≠ 0)
    (hi : (s.core s.ctx.core).slotOf s.ctx.pn = some i) :
    exec (.illegalWord x) s = .next ((s.withWord x).withCore ((s.core s.ctx.core).setProc s.ctx.pn
      ((s.withWord x).trapped .ill 0).toTvec)) := by
  rw [exec_illegalWord hx hr, State.trap_toTvec (s := s.withWord x) hn (by simpa [State.withWord] using .inr hk) ht hr hi]
  rfl

/-- Settles O19: ILL is not recoverable, so a compute core parks the process whatever its TVEC is. -/
theorem illegalWordsTrap : Obligations.IllegalWordsTrap := by
  refine ⟨fun s x i hx hr hn hk hi hl => ⟨_, exec_illegalWord_park hx hr hn hk hi hl, ?_⟩,
    fun s x i hx hr hn hk ht hi => ⟨_, exec_illegalWord_toTvec hx hr hn hk ht hi, ?_⟩,
    rfl, rfl, fun x => decode_unassignedMajor, fun x h => by rw [decode_jlr h]; rfl, fun x => decode_trap_reserved⟩
  · rw [State.me_withCore, State.withWord_ctx_pn, Core.parking_proc]
    refine ⟨rfl, rfl, rfl, rfl, rfl, rfl, rfl, rfl, rfl, rfl, ?_, rfl⟩
    simpa [State.withCore] using Core.parking_slot _ _ hi
  · rw [State.me_withCore, State.withWord_ctx_pn, Core.proc_setProc]
    exact ⟨hr, rfl, rfl, rfl, rfl, rfl, rfl, rfl⟩

end Sys2Proof.Machine
end

/-! ## Conversion of a value that a format holds (R55, R62, R101) -/

section
namespace Sys2Proof.Machine

/-- A value whose last place is not below the unit of rounding is a whole number of units, whatever the method. -/
theorem roundTo_of_le {q e : Int} (h : q ≤ e) (mode : Mode) (neg : Bool) (m : Nat) :
    roundTo mode neg m e q false = (m * 2 ^ (e - q).toNat, false) := by
  simp [roundTo, h]

/-- Rounding to the value's own last place: the unit of a result is the larger of the place that the precision leaves to
the leading bit and the last place of the subnormals. -/
theorem Fmt.round_of_unit {f : Fmt} {m c : Nat} {e : Int} (o : Overflow) (mode : Mode) (neg : Bool) (hm : m ≠ 0)
    (hq : max (topExp m e - (f.prec - 1 : Nat)) f.qmin = e)
    (hc : c = if m < 2 ^ (f.prec - 1) then m else (e - f.qmin).toNat * 2 ^ (f.prec - 1) + m) (hmax : c ≤ f.maxCode) :
    f.round o mode neg m e false = (f.signed neg c, 0) := by
  have hmax' : ¬ f.maxCode < c := Nat.not_lt.2 hmax
  rw [hc] at hmax'
  simp [Fmt.round, hq, roundTo_of_le, hm, hmax', hc]

/-- A normal number: its leading bit is the hidden one, so the precision gives the unit. -/
theorem Fmt.round_normal {f : Fmt} {frac k : Nat} (o : Overflow) (mode : Mode) (neg : Bool) (hf : frac < 2 ^ (f.prec - 1))
    (hmax : (k + 1) * 2 ^ (f.prec - 1) + frac ≤ f.maxCode) :
    f.round o mode neg (2 ^ (f.prec - 1) + frac) (f.qmin + k) false
      = (f.signed neg ((k + 1) * 2 ^ (f.prec - 1) + frac), 0) := by
  have hpos := Nat.two_pow_pos (f.prec - 1)
  have htop : Nat.log2 (2 ^ (f.prec - 1) + frac) = f.prec - 1 :=
    (Nat.log2_eq_iff (by omega)).2 ⟨by omega, by rw [Nat.pow_succ]; omega⟩
  refine Fmt.round_of_unit o mode neg (by omega) ?_ ?_ hmax
  · rw [topExp, htop]
    omega
  · rw [if_neg (by omega), add_sub_cancel_left, Int.toNat_natCast]
    ring

/-- A subnormal number: its leading bit stands below the hidden one, so the last place of the subnormals is the unit. -/
theorem Fmt.round_subnormal {f : Fmt} {frac : Nat} (o : Overflow) (mode : Mode) (neg : Bool) (hf : frac < 2 ^ (f.prec - 1))
    (hmax : frac ≤ f.maxCode) : f.round o mode neg frac f.qmin false = (f.signed neg frac, 0) := by
  rcases Nat.eq_zero_or_pos frac with rfl | hpos
  · simp [Fmt.round]
  · have htop : Nat.log2 frac < f.prec - 1 := (Nat.log2_lt (by omega)).2 hf
    refine Fmt.round_of_unit o mode neg (by omega) ?_ (by rw [if_pos hf]) hmax
    rw [topExp]
    omega

/-- A code is its sign over its magnitude. -/
theorem Fmt.signed_sign_mag {f : Fmt} {code : Nat} (hw : 0 < f.width) (h : code < 2 ^ f.width) :
    f.signed (code / 2 ^ (f.width - 1) % 2 == 1) (code % 2 ^ (f.width - 1)) = code := by
  have hsplit := Nat.mod_add_div code (2 ^ (f.width - 1))
  have hlt : code / 2 ^ (f.width - 1) < 2 :=
    Nat.div_lt_of_lt_mul (by rwa [← Nat.pow_succ, Nat.succ_eq_add_one, Nat.sub_add_cancel hw])
  unfold Fmt.signed
  obtain hs | hs := Nat.le_one_iff_eq_zero_or_eq_one.1 (Nat.le_of_lt_succ hlt)
  all_goals
    rw [hs] at hsplit ⊢
    simpa using hsplit

/-- The codes of finite values are those whose magnitude does not pass the greatest. -/
theorem Fmt.mag_le_of_finite {f : Fmt} {code : Nat} (hn : (f.decode code).isNan = false)
    (hi : (f.decode code).isInf = false) : code % 2 ^ (f.width - 1) ≤ f.maxCode := by
  by_contra hmag
  simp only [Fmt.decode, if_neg hmag] at hn hi
  split at hn <;> simp_all [Val.isNan, Val.isInf]

/-- A finite code converts to itself: its exponent field is 0 or not, and the value is subnormal or normal. -/
theorem Fmt.convert_decode {f : Fmt} {code : Nat} (hw : 0 < f.width) (o : Overflow) (mode : Mode) (h : code < 2 ^ f.width)
    (hmag : code % 2 ^ (f.width - 1) ≤ f.maxCode) : f.convert o mode (f.decode code) = (code, 0) := by
  have hcode := Fmt.signed_sign_mag hw h
  rw [Fmt.decode, if_pos hmag]
  generalize code % 2 ^ (f.width - 1) = mag at hcode hmag ⊢
  generalize (code / 2 ^ (f.width - 1) % 2 == 1) = neg at hcode ⊢
  have hsplit := Nat.div_add_mod' mag (2 ^ (f.prec - 1))
  have hfrac := Nat.mod_lt mag (Nat.two_pow_pos (f.prec - 1))
  cases hfield : mag / 2 ^ (f.prec - 1) with
  | zero =>
    rw [hfield, Nat.zero_mul, Nat.zero_add] at hsplit
    rw [hsplit] at hfrac ⊢
    exact (Fmt.round_subnormal o mode neg hfrac hmag).trans (by rw [hcode])
  | succ k =>
    rw [hfield] at hsplit
    exact (Fmt.round_normal o mode neg hfrac (hsplit.trans_le hmag)).trans (by rw [hsplit, hcode])

/-- Settles O14: a finite code converts to itself in every format whose codes have a sign bit, as those of the six do. -/
theorem representableValuesConvertExactly : Obligations.RepresentableValuesConvertExactly := by
  intro f hf o m code hcode hnan hinf
  have hw : ∀ g ∈ [fp64, fp32, bf16, e5m2, e4m3, e2m1], 0 < g.width := by decide
  exact Fmt.convert_decode (hw f hf) o m hcode (Fmt.mag_le_of_finite hnan hinf)

end Sys2Proof.Machine
end

/-! ## Records at the end of a pool (R78) -/

section
namespace Sys2Proof.Machine

/-- Memory that holds one byte, a 1, the first of core 0's pool. -/
def firstPoolByteOne : State := { mem := { cells := [(poolKey 0 0, 1)] } }

/-- Two words from the last word of core 0's 2 MiB of keys: a record's read goes on into the keys of core 1. -/
theorem recordWords_firstPoolByteOne : firstPoolByteOne.recordWords 0 0 0x1FFFF8 2 = [0, 0] := by decide

/-- A pool offset is taken modulo 2 MiB, so the word after the last is the pool's first. -/
theorem poolWords_firstPoolByteOne :
    (List.range 2).map (fun i => word (firstPoolByteOne.mem.read (poolKey 0 ((0x1FFFF8 : Word).toNat + 8 * i)) 8)) = [0, 1] := by
  decide

/-- Refutes O35: its last clause bounds neither the record's address nor its length. For two words at offset 0x1FFFF8 of core
0 the record's read goes on past the pool's keys, and the clause reads the pool's first word. -/
theorem not_engineRegisterInstructions : ¬ Obligations.EngineRegisterInstructions := by
  rintro ⟨-, -, -, -, hread⟩
  have h := hread firstPoolByteOne 0 0 0x1FFFF8 2 rfl rfl (by decide) (by decide)
  rw [recordWords_firstPoolByteOne, poolWords_firstPoolByteOne] at h
  exact absurd h (by decide)

end Sys2Proof.Machine
end

/-! ## Scalar instructions of fixed latency and of the divider (R19, R80 to R87, R101 to R108) -/

section
namespace Sys2Proof.Machine

/-! ### One lemma for each operand form -/

theorem State.flies_of_issue {s : State} {i : Instr} {w : BitVec 2} {u : Use} {l : Nat} {ws : List (Nat × Word)}
    {fl : BitVec 5} {xi : Option (BitVec 16)} (h : exec i s = s.issue w u (fun t => (t.fly l ws fl xi).advance))
    (hc : s.clear u = true) : s.flies i w l ws fl xi :=
  State.flies_of (h.trans (State.issue_clear hc w _))

theorem State.delivers_of_issue {s : State} {i : Instr} {w : BitVec 2} {u : Use} {l : Nat} {ws : List (Nat × Word)}
    (h : exec i s = s.issue w u (fun t => (t.varResult l ws).advance)) (hc : s.clear u = true) :
    s.delivers i w l ws s.nextPc :=
  State.delivers_advance (h.trans (State.issue_clear hc w _))

theorem State.computes_of_issue {s : State} {i : Instr} {w : BitVec 2} {u : Use} {l : Nat} {d : BitVec 5} {v : Word}
    (h : exec i s = s.issue w u (fun t => t.result l (s.rd d) v 0)) (hc : s.clear u = true) : s.computes i w l d v :=
  State.flies_of_issue h hc

theorem Binary.of_exec {mk : BitVec 2 → BitVec 5 → BitVec 5 → BitVec 5 → Instr} {l : Nat} {f : Word → Word → Word}
    (h : ∀ (s : State) w d a b, exec (mk w d a b) s = s.alu2 w d a b l f) : Binary mk l f :=
  fun s w d a b => State.flies_of_issue (h s w d a b)

theorem Unary.of_exec {mk : BitVec 2 → BitVec 5 → BitVec 5 → Instr} {l : Nat} {f : Word → Word}
    (h : ∀ (s : State) w d a, exec (mk w d a) s = s.alu1 w d a l f) : Unary mk l f :=
  fun s w d a => State.flies_of_issue (h s w d a)

theorem FloatBinary.of_exec {f : Fmt} {mk : BitVec 2 → BitVec 5 → BitVec 5 → BitVec 5 → Instr}
    {op : Mode → Val → Val → Nat × BitVec 5}
    (h : ∀ (s : State) w d a b, exec (mk w d a b) s = s.fpu2 f w d a b op) : FloatBinary f mk op :=
  fun s w d a b => State.flies_of_issue (h s w d a b)

theorem FloatUnary.of_exec {mk : BitVec 2 → BitVec 5 → BitVec 5 → Instr} {op : Mode → Word → Word × BitVec 5}
    (h : ∀ (s : State) w d a, exec (mk w d a) s = s.fpu1 w d a op) : FloatUnary mk op :=
  fun s w d a => State.flies_of_issue (h s w d a)

theorem FloatFused.of_exec {f : Fmt} {mk : BitVec 2 → BitVec 5 → BitVec 5 → BitVec 5 → Instr}
    {op : Mode → Val → Val → Val → Val × BitVec 5}
    (h : ∀ (s : State) w d a b, exec (mk w d a b) s = s.fma3 f w d a b op) : FloatFused f mk op :=
  fun s w d a b => State.flies_of_issue (h s w d a b)

theorem State.divides_of_intDivide {s : State} {i : Instr} {w : BitVec 2} {d a b : BitVec 5} {f : Word → Word → Word}
    (h : exec i s = s.intDivide w d a b f)
    (hc : s.clear { reads := [s.ra a, s.rb b], writes := [s.rd d], var := true } = true) :
    s.divides i w d (f (s.g (s.ra a)) (s.g (s.rb b))) 0 34 :=
  State.divides_of (h.trans (State.issue_clear hc w _))

theorem State.divides_of_fpDivide {s : State} {i : Instr} {w : BitVec 2} {d : BitVec 5} {reads : List Nat}
    {r : Nat × BitVec 5} {cycles : Nat} (h : exec i s = s.fpDivide w d reads r cycles)
    (hc : s.clear { reads := reads, writes := [s.rd d], var := true } = true) :
    s.divides i w d (word r.1) r.2 cycles :=
  State.divides_of (h.trans (State.issue_clear hc w _))

/-! ### The ALU family (R80, R82) -/

/-- F codes from 33 on name no member of major 0x01. -/
theorem decode_unassignedAlu {x : BitVec 32} (hm : x.extractLsb' 24 6 = 0x01#6) (hf : 33 ≤ (x.extractLsb' 0 9).toNat) :
    decode x = none := by
  refine decode_eq_none ?_
  rw [decodeFields, bitsAt, hm]
  change decodeMajor01 x = none
  rw [decodeMajor01, bitsAt]
  split
  case h_34 => rfl
  all_goals omega

/-- Settles O1: the members have two sources, one source, or go through the divider. -/
theorem aluFamilyResults : Obligations.AluFamilyResults := by
  unfold Obligations.AluFamilyResults
  iterate 20 refine ⟨Binary.of_exec fun _ _ _ _ _ => rfl, ?_⟩
  iterate 9 refine ⟨Unary.of_exec fun _ _ _ _ => rfl, ?_⟩
  iterate 4 refine ⟨fun _ _ _ _ _ => State.divides_of_intDivide rfl, ?_⟩
  exact fun _ => decode_unassignedAlu

/-- Settles O3: ten members have one source, and the two of the U format none. -/
theorem immediateFormsResults : Obligations.ImmediateFormsResults := by
  unfold Obligations.ImmediateFormsResults
  iterate 10 refine ⟨fun _ => Unary.of_exec fun _ _ _ _ => rfl, ?_⟩
  exact ⟨fun _ _ _ _ => State.computes_of_issue rfl, fun _ _ _ _ => State.computes_of_issue rfl⟩

/-- Settles O12: sixteen members have two operands of a format, six are fused, nine have one operand, and four go through
the divider. -/
theorem scalarFloatResults : Obligations.ScalarFloatResults := by
  unfold Obligations.ScalarFloatResults
  iterate 8 refine ⟨FloatBinary.of_exec fun _ _ _ _ _ => rfl, ?_⟩
  iterate 3 refine ⟨FloatFused.of_exec fun _ _ _ _ _ => rfl, ?_⟩
  iterate 8 refine ⟨FloatBinary.of_exec fun _ _ _ _ _ => rfl, ?_⟩
  iterate 3 refine ⟨FloatFused.of_exec fun _ _ _ _ _ => rfl, ?_⟩
  iterate 9 refine ⟨FloatUnary.of_exec fun _ _ _ _ => rfl, ?_⟩
  exact ⟨fun _ _ _ _ _ => State.divides_of_fpDivide rfl, fun _ _ _ _ => State.divides_of_fpDivide rfl,
    fun _ _ _ _ _ => State.divides_of_fpDivide rfl, fun _ _ _ _ => State.divides_of_fpDivide rfl⟩

end Sys2Proof.Machine
end

/-! ## Integer functions, bit by bit and by division (R80, R81, R86, R87) -/

section
namespace Sys2Proof.Machine

/-! ### Division (R81) -/

theorem divSigned_zero (a : Word) : divSigned a 0 = 0xFFFFFFFFFFFFFFFF := if_pos rfl
theorem divUnsigned_zero (a : Word) : divUnsigned a 0 = 0xFFFFFFFFFFFFFFFF := if_pos rfl
theorem remSigned_zero (a : Word) : remSigned a 0 = a := if_pos rfl
theorem remUnsigned_zero (a : Word) : remUnsigned a 0 = a := if_pos rfl

theorem toNat_divUnsigned {a b : Word} (hb : b ≠ 0) : (divUnsigned a b).toNat = a.toNat / b.toNat := by
  rw [divUnsigned, if_neg hb]
  exact congrArg BitVec.toNat BitVec.udiv_def.symm

theorem toNat_remUnsigned {a b : Word} (hb : b ≠ 0) : (remUnsigned a b).toNat = a.toNat % b.toNat := by
  rw [remUnsigned, if_neg hb]
  exact congrArg BitVec.toNat BitVec.umod_def.symm

theorem toInt_divSigned {a b : Word} (hb : b ≠ 0) (ho : ¬ (a = 0x8000000000000000 ∧ b = -1)) :
    (divSigned a b).toInt = a.toInt.tdiv b.toInt := by
  rw [divSigned, if_neg hb, BitVec.toInt_ofInt, ← BitVec.toInt_sdiv]
  exact BitVec.toInt_sdiv_of_ne_or_ne a b (not_and_or.1 ho)

theorem toInt_remSigned {a b : Word} (hb : b ≠ 0) : (remSigned a b).toInt = a.toInt.tmod b.toInt := by
  rw [remSigned, if_neg hb, ← BitVec.toInt_srem]
  exact congrArg BitVec.toInt BitVec.ofInt_toInt

/-- R81: a = q × b + r. -/
theorem remUnsigned_eq_sub {a b : Word} (hb : b ≠ 0) : remUnsigned a b = a - divUnsigned a b * b := by
  have h := congrArg (BitVec.ofNat 64) (Nat.mod_add_div' a.toNat b.toNat)
  rw [BitVec.ofNat_add, BitVec.ofNat_mul, BitVec.ofNat_toNat, BitVec.ofNat_toNat, BitVec.setWidth_eq,
    BitVec.setWidth_eq] at h
  rw [remUnsigned, divUnsigned, if_neg hb, if_neg hb, eq_sub_iff_add_eq]
  exact h

theorem remSigned_eq_sub {a b : Word} (hb : b ≠ 0) : remSigned a b = a - divSigned a b * b := by
  have h := congrArg (BitVec.ofInt 64) (Int.tmod_add_tdiv_mul a.toInt b.toInt)
  rw [BitVec.ofInt_add, BitVec.ofInt_mul, BitVec.ofInt_toInt, BitVec.ofInt_toInt] at h
  rw [remSigned, divSigned, if_neg hb, if_neg hb, eq_sub_iff_add_eq]
  exact h

/-- Settles O15: each member goes through the divider, whatever its operands. -/
theorem divisionResults : Obligations.DivisionResults := by
  unfold Obligations.DivisionResults
  iterate 4 refine ⟨fun _ _ _ _ _ => State.divides_of_intDivide rfl, ?_⟩
  exact ⟨fun a => ⟨divSigned_zero a, divUnsigned_zero a, remSigned_zero a, remUnsigned_zero a⟩, by decide, by decide,
    fun _ _ hb => ⟨toNat_divUnsigned hb, remUnsigned_eq_sub hb⟩,
    fun _ _ hb ho => ⟨toInt_divSigned hb ho, remSigned_eq_sub hb⟩⟩

/-! ### High products -/

theorem toNat_mulhu (a b : Word) : (mulhu a b).toNat = a.toNat * b.toNat / 2 ^ 64 := by
  have h : a.toNat * b.toNat < 2 ^ 64 * 2 ^ 64 := Nat.mul_lt_mul'' a.isLt b.isLt
  rw [mulhu, BitVec.toNat_ofNat, Nat.mod_eq_of_lt (Nat.div_lt_of_lt_mul h)]

theorem mulhu_mul_add (a b : Word) : (mulhu a b).toNat * 2 ^ 64 + (a * b).toNat = a.toNat * b.toNat := by
  rw [toNat_mulhu, BitVec.toNat_mul, Nat.div_add_mod']

theorem toInt_mulh (a b : Word) : (mulh a b).toInt = a.toInt * b.toInt / 2 ^ 64 := by
  have hlo : -2 ^ 126 ≤ a.toInt * b.toInt := BitVec.le_toInt_mul_toInt
  have hhi : a.toInt * b.toInt ≤ 2 ^ 126 := BitVec.toInt_mul_toInt_le
  refine BitVec.toInt_ofInt_eq_self (by decide) ?_ ?_
  all_goals
    norm_num only at hlo hhi ⊢
    omega

theorem mulh_mul_add (a b : Word) : (mulh a b).toInt * 2 ^ 64 + ((a * b).toNat : Int) = a.toInt * b.toInt := by
  have hlow : ((a * b).toNat : Int) = a.toInt * b.toInt % 2 ^ 64 := by
    have h := BitVec.toNat_ofInt (n := 64) (a.toInt * b.toInt)
    rw [BitVec.ofInt_mul, BitVec.ofInt_toInt, BitVec.ofInt_toInt] at h
    rw [h, Int.toNat_of_nonneg (Int.emod_nonneg _ (by decide))]
    rfl
  rw [hlow, toInt_mulh, Int.ediv_mul_add_emod]

/-! ### Runs of zeros -/

theorem falseRun_le_length (l : List Bool) : falseRun l ≤ l.length := by
  induction l with
  | nil => exact le_refl 0
  | cons b l ih => cases b <;> simp [falseRun, ih]

theorem getElem_of_lt_falseRun {l : List Bool} {i : Nat} (h : i < falseRun l) :
    l[i]'(h.trans_le (falseRun_le_length l)) = false := by
  induction l generalizing i with
  | nil => simp [falseRun] at h
  | cons b l ih =>
    cases b with
    | true => simp [falseRun] at h
    | false =>
      cases i with
      | zero => rfl
      | succ i => exact ih (by simpa [falseRun] using h)

theorem getElem_falseRun {l : List Bool} (h : falseRun l < l.length) : l[falseRun l] = true := by
  induction l with
  | nil => simp at h
  | cons b l ih =>
    cases b with
    | true => rfl
    | false => exact ih (by simpa [falseRun] using h)

@[simp] theorem length_bitsOf (a : Word) : (bitsOf a).length = 64 := by simp [bitsOf]

@[simp] theorem getElem_bitsOf (a : Word) (i : Nat) (h : i < (bitsOf a).length) : (bitsOf a)[i] = a.getLsbD i := by
  simp [bitsOf]

theorem toNat_ctz (a : Word) : (ctz a).toNat = falseRun (bitsOf a) := by
  have h := falseRun_le_length (bitsOf a)
  rw [length_bitsOf] at h
  rw [ctz, BitVec.toNat_ofNat, Nat.mod_eq_of_lt (by omega)]

theorem toNat_clz (a : Word) : (clz a).toNat = falseRun (bitsOf a).reverse := by
  have h := falseRun_le_length (bitsOf a).reverse
  rw [List.length_reverse, length_bitsOf] at h
  rw [clz, BitVec.toNat_ofNat, Nat.mod_eq_of_lt (by omega)]

theorem ctz_spec (a : Word) : (ctz a).toNat ≤ 64 ∧ (∀ i, i < (ctz a).toNat → a.getLsbD i = false)
    ∧ ((ctz a).toNat < 64 → a.getLsbD (ctz a).toNat = true) := by
  rw [toNat_ctz]
  refine ⟨by simpa using falseRun_le_length (bitsOf a), fun i hi => ?_, fun h => ?_⟩
  · simpa using getElem_of_lt_falseRun hi
  · have ho := getElem_falseRun (l := bitsOf a) (by simpa using h)
    rwa [getElem_bitsOf] at ho

theorem clz_spec (a : Word) : (clz a).toNat ≤ 64 ∧ (∀ i, 64 - (clz a).toNat ≤ i → i < 64 → a.getLsbD i = false)
    ∧ ((clz a).toNat < 64 → a.getLsbD (63 - (clz a).toNat) = true) := by
  rw [toNat_clz]
  have hlen : falseRun (bitsOf a).reverse ≤ 64 := by simpa using falseRun_le_length (bitsOf a).reverse
  refine ⟨hlen, fun i hi hi64 => ?_, fun h => ?_⟩
  · have hz := getElem_of_lt_falseRun (l := (bitsOf a).reverse) (i := 63 - i) (by omega)
    rw [List.getElem_reverse, getElem_bitsOf, length_bitsOf] at hz
    rwa [show 64 - 1 - (63 - i) = i by omega] at hz
  · have ho := getElem_falseRun (l := (bitsOf a).reverse) (by simpa using h)
    rwa [List.getElem_reverse, getElem_bitsOf, length_bitsOf] at ho

/-! ### Counts and reversals -/

theorem toNat_popc (a : Word) : (popc a).toNat = ((List.range 64).filter (fun i => a.getLsbD i)).length := by
  have hlen : ((bitsOf a).filter id).length = ((List.range 64).filter (fun i => a.getLsbD i)).length := by
    rw [bitsOf, List.filter_map, List.length_map]
    rfl
  have hle := List.length_filter_le id (bitsOf a)
  rw [length_bitsOf] at hle
  rw [popc, BitVec.toNat_ofNat, Nat.mod_eq_of_lt (by omega), hlen]

theorem testBit_ofBits (l : List Bool) (i : Nat) : (ofBits l).testBit i = l.getD i false := by
  induction l generalizing i with
  | nil => simp [ofBits]
  | cons b l ih =>
    cases i with
    | zero => cases b <;> simp [ofBits, Nat.testBit_zero]
    | succ i =>
      have hdiv : ofBits (b :: l) / 2 = ofBits l := by
        rw [ofBits]
        split <;> omega
      rw [Nat.testBit_succ, hdiv, ih, List.getD_cons_succ]

theorem getLsbD_brev (a : Word) {i : Nat} (h : i < 64) : (brev a).getLsbD i = a.getLsbD (63 - i) := by
  rw [brev, BitVec.getLsbD_ofNat, testBit_ofBits, decide_eq_true h, Bool.true_and,
    List.getD_eq_getElem _ _ (by simpa using h), List.getElem_reverse, getElem_bitsOf, length_bitsOf]

theorem getLsbD_bswap (a : Word) {i : Nat} (h : i < 64) :
    (bswap a).getLsbD i = a.getLsbD (8 * (7 - i / 8) + i % 8) := by
  simp only [bswap, BitVec.getLsbD_append, BitVec.getLsbD_extractLsb']
  split_ifs
  all_goals
    rw [decide_eq_true (by omega), Bool.true_and]
    congr 1
    omega

/-! ### Bit fields -/

/-- Bits of a field of R87: those of the source from its position on, 0 from its clipped width on. -/
theorem testBit_fieldAt (a : Word) (p n i : Nat) :
    (fieldAt a p n).testBit i = (decide (i < clipWidth p n) && a.getLsbD (p + i)) := by
  rw [fieldAt, Nat.testBit_mod_two_pow, Nat.testBit_div_two_pow, BitVec.testBit_toNat, Nat.add_comm]

theorem clipWidth_eq (p n : Nat) : clipWidth p n = min n (64 - p) := by
  unfold clipWidth
  split <;> omega

theorem getLsbD_bfxz (a : Word) (p n : Nat) {i : Nat} (h : i < 64) :
    (bfxz a p n).getLsbD i = (decide (i < n) && decide (p + i < 64) && a.getLsbD (p + i)) := by
  rw [bfxz, BitVec.getLsbD_ofNat, testBit_fieldAt, clipWidth_eq, decide_eq_true h, Bool.true_and]
  congr 1
  rw [← Bool.decide_and]
  exact decide_eq_decide.2 (by omega)

theorem getLsbD_sextN (a : Word) {n i : Nat} (hn : 0 < n) (h : i < 64) :
    (sextN n a).getLsbD i = a.getLsbD (min i (n - 1)) := by
  rw [sextN, BitVec.getLsbD_signExtend, BitVec.msb_eq_getLsbD_last, BitVec.getLsbD_setWidth, BitVec.getLsbD_setWidth,
    decide_eq_true h, Bool.true_and]
  split
  · rw [decide_eq_true (by omega), Bool.true_and, min_eq_left (by omega)]
  · rw [decide_eq_true (by omega), Bool.true_and, min_eq_right (by omega)]

theorem getLsbD_bfxs (a : Word) {p n i : Nat} (hn : 0 < n) (hp : p < 64) (h : i < 64) :
    (bfxs a p n).getLsbD i = a.getLsbD (min (p + i) (min (p + n) 64 - 1)) := by
  have hc := clipWidth_eq p n
  rw [bfxs, if_neg (by omega), getLsbD_sextN _ (by omega) h, BitVec.getLsbD_ofNat, testBit_fieldAt,
    decide_eq_true (by omega), decide_eq_true (by omega), Bool.true_and, Bool.true_and]
  congr 1
  omega

theorem bfxs_of_empty (a : Word) {p n : Nat} (h : n = 0 ∨ 64 ≤ p) : bfxs a p n = 0 := by
  rw [bfxs, if_pos (by rw [clipWidth_eq]; omega)]

/-- Bits of the mask over a clipped field. -/
theorem getLsbD_fieldMask (p n : Nat) {i : Nat} (h : i < 64) :
    (word (2 ^ clipWidth p n - 1) <<< p).getLsbD i = decide (p ≤ i ∧ i < p + n) := by
  rw [BitVec.getLsbD_shiftLeft, BitVec.getLsbD_ofNat, Nat.testBit_two_pow_sub_one, clipWidth_eq, decide_eq_true h,
    Bool.true_and, ← decide_not, ← Bool.decide_and, ← Bool.decide_and]
  exact decide_eq_decide.2 (by omega)

theorem getLsbD_bfins (old a : Word) (p n : Nat) {i : Nat} (h : i < 64) :
    (bfins old a p n).getLsbD i = if p ≤ i ∧ i < p + n then a.getLsbD (i - p) else old.getLsbD i := by
  unfold bfins
  dsimp only
  split
  case isTrue hempty =>
    rw [clipWidth_eq] at hempty
    rw [if_neg (by omega)]
  case isFalse =>
    rw [BitVec.getLsbD_or, BitVec.getLsbD_and, BitVec.getLsbD_and, BitVec.getLsbD_not, getLsbD_fieldMask p n h,
      BitVec.getLsbD_shiftLeft]
    by_cases hi : p ≤ i ∧ i < p + n
    · simp [h, hi]
    · simp [h, hi]

/-- Settles O4: a bit of a result is one bit of a source, found through the clipped field. -/
theorem bitFieldResults : Obligations.BitFieldResults := by
  unfold Obligations.BitFieldResults
  refine ⟨fun _ _ => Unary.of_exec fun _ _ _ _ => rfl, fun _ _ => Unary.of_exec fun _ _ _ _ => rfl,
    Binary.of_exec fun _ _ _ _ _ => rfl, Binary.of_exec fun _ _ _ _ _ => rfl,
    fun _ _ _ _ _ _ => State.computes_of_issue rfl, fun _ _ _ _ _ => State.computes_of_issue rfl,
    fun old a p n i h => ⟨getLsbD_bfxz a p n h, getLsbD_bfins old a p n h⟩,
    fun a p n i hn hp h => getLsbD_bfxs a hn hp h, fun a p n => bfxs_of_empty a⟩

/-- Settles O2: bits of lists of bits, and the library's divisions and products of numbers. -/
theorem arithmeticFunctions : Obligations.ArithmeticFunctions := by
  refine ⟨clz_spec, ctz_spec, toNat_popc, fun a i => getLsbD_brev a, fun a i => getLsbD_bswap a, mulhu_mul_add,
    mulh_mul_add, fun a => ⟨divSigned_zero a, divUnsigned_zero a, remSigned_zero a, remUnsigned_zero a⟩, by decide, by decide,
    fun a b hb => ⟨toNat_divUnsigned hb, toNat_remUnsigned hb⟩,
    fun a b hb ho => ⟨toInt_divSigned hb ho, toInt_remSigned hb⟩⟩

end Sys2Proof.Machine
end

/-! ## Special operands, comparisons and classes of floating point (R101 to R108) -/

section
namespace Sys2Proof.Machine

/-! ### NaN operands (R102 to R104) -/

@[simp] theorem Val.isNan_negate (a : Val) : a.negate.isNan = a.isNan := by cases a <;> rfl
@[simp] theorem Val.isSnan_negate (a : Val) : a.negate.isSnan = a.isSnan := by cases a <;> rfl

/-- A NaN among two operands, as the case analysis of each operation meets it. -/
theorem Val.nan_cases {a b : Val} (h : (a.isNan || b.isNan) = true) :
    (∃ x, a = .nan x) ∨ ((∃ y, b = .nan y) ∧ a.isNan = false) := by
  cases a with
  | nan x => exact .inl ⟨x, rfl⟩
  | inf _ | fin _ _ _ =>
    cases b with
    | nan y => exact .inr ⟨⟨y, rfl⟩, rfl⟩
    | inf _ | fin _ _ _ => contradiction

theorem Val.add_nan {a b : Val} (m : Mode) (h : (a.isNan || b.isNan) = true) : a.add m b = (.nan false, snanFlag a b) := by
  obtain ⟨x, rfl⟩ | ⟨⟨y, rfl⟩, ha⟩ := Val.nan_cases h
  · rfl
  · cases a with
    | nan _ => contradiction
    | inf _ | fin _ _ _ => rfl

theorem Val.mul_nan {a b : Val} (h : (a.isNan || b.isNan) = true) : a.mul b = (.nan false, snanFlag a b) := by
  obtain ⟨x, rfl⟩ | ⟨⟨y, rfl⟩, ha⟩ := Val.nan_cases h
  · rfl
  · cases a with
    | nan _ => contradiction
    | inf _ => rfl
    | fin _ m _ => simp [Val.mul, Val.isInf, Val.isZero, snanFlag]

theorem Fmt.div_nan {a b : Val} (f : Fmt) (o : Overflow) (m : Mode) (h : (a.isNan || b.isNan) = true) :
    f.div o m a b = (f.nanCode, snanFlag a b) := by
  obtain ⟨x, rfl⟩ | ⟨⟨y, rfl⟩, ha⟩ := Val.nan_cases h
  · rfl
  · cases a with
    | nan _ => contradiction
    | inf _ | fin _ _ _ => rfl

theorem Val.eq_nan {a b : Val} (h : (a.isNan || b.isNan) = true) : a.eq b = false := by
  obtain ⟨x, rfl⟩ | ⟨⟨y, rfl⟩, ha⟩ := Val.nan_cases h
  · rfl
  · cases a <;> rfl

theorem Val.lt_nan {a b : Val} (h : (a.isNan || b.isNan) = true) : a.lt b = false := by
  obtain ⟨x, rfl⟩ | ⟨⟨y, rfl⟩, ha⟩ := Val.nan_cases h
  · rfl
  · cases a <;> rfl

theorem fpEq_nan {a b : Val} (m : Mode) (h : (a.isNan || b.isNan) = true) : fpEq m a b = (0, snanFlag a b) := by
  simp [fpEq, Val.eq_nan h]

theorem fpLt_nan {a b : Val} (m : Mode) (h : (a.isNan || b.isNan) = true) : fpLt m a b = (0, flagNV) := by
  simp only [fpLt, Val.lt_nan h, nanFlag, h, if_true, Bool.false_eq_true, if_false]

theorem fpLe_nan {a b : Val} (m : Mode) (h : (a.isNan || b.isNan) = true) : fpLe m a b = (0, flagNV) := by
  simp only [fpLe, Val.lt_nan h, Val.eq_nan h, nanFlag, h, if_true, Bool.or_self, Bool.false_eq_true, if_false]

theorem snanFlag_comm (a b : Val) : snanFlag a b = snanFlag b a := by
  rw [snanFlag, Bool.or_comm, ← snanFlag]

/-- R63: a quiet NaN converts into the canonical one with no flag of its own. -/
theorem fpRound_nan {f : Fmt} (hf : f.width ≠ 4) (m : Mode) (fl : BitVec 5) :
    fpRound f m (.nan false, fl) = (f.nanCode, fl) := by
  simp [fpRound, Fmt.convert, hf]

/-! ### Infinities and zeros (R102, R106) -/

theorem Val.mul_inf_zero {a b : Val} (h : (a.isInf && b.isZero) = true) : a.mul b = (.nan false, flagNV) := by
  simp only [Val.mul, h, Bool.true_or, if_true]

theorem Val.mul_zero_inf {a b : Val} (h : (a.isInf && b.isZero) = true) : b.mul a = (.nan false, flagNV) := by
  simp only [Val.mul, Bool.and_comm b.isZero, h, Bool.or_true, if_true]

/-- An invalid product stays invalid whatever the addend is. -/
theorem Val.fma_inf_zero {a b : Val} (m : Mode) (c : Val) (h : (a.isInf && b.isZero) = true) :
    a.fma m b c = (.nan false, flagNV) := by
  have hnv : ∀ p : Bool, (if p then flagNV else 0) ||| flagNV ||| 0 = flagNV := by decide
  unfold Val.fma
  simp only [Val.mul_inf_zero h]
  cases c with
  | nan s => exact congrArg _ (hnv _)
  | inf _ | fin _ _ _ => exact congrArg _ (hnv _)

theorem Fmt.div_invalid {a b : Val} (f : Fmt) (o : Overflow) (m : Mode)
    (h : (a.isInf && b.isInf || a.isZero && b.isZero) = true) : f.div o m a b = (f.nanCode, flagNV) := by
  cases a with
  | nan _ => contradiction
  | inf _ =>
    cases b with
    | inf _ => rfl
    | nan _ | fin _ _ _ => contradiction
  | fin _ am _ =>
    cases b with
    | nan _ | inf _ => simp [Val.isInf, Val.isZero] at h
    | fin _ bm _ =>
      obtain ⟨rfl, rfl⟩ : am = 0 ∧ bm = 0 := by simpa [Val.isInf, Val.isZero] using h
      rfl

theorem Fmt.convert_inf {f : Fmt} {i : Nat} (hi : f.infCode = some i) (o : Overflow) (m : Mode) (n : Bool) :
    f.convert o m (.inf n) = (f.signed n i, 0) := by
  simp only [Fmt.convert, hi]

theorem Fmt.div_by_zero {f : Fmt} {i k : Nat} {b : Val} (hi : f.infCode = some i) (o : Overflow) (m : Mode) (n : Bool)
    (e : Int) (hk : 0 < k) (hb : b.isZero = true) : f.div o m (.fin n k e) b = (f.signed (n != b.neg?) i, flagDZ) := by
  cases b with
  | nan _ | inf _ => contradiction
  | fin bn bm be =>
    obtain rfl : bm = 0 := by simpa [Val.isZero] using hb
    simp only [Fmt.div, if_pos, if_neg hk.ne', Fmt.convert_inf hi]
    rfl

theorem Fmt.sqrt_negative (f : Fmt) (m : Mode) (e : Int) {k : Nat} (hk : 0 < k) :
    f.sqrt m (.fin true k e) = (f.nanCode, flagNV) := by
  simp [Fmt.sqrt, hk.ne']

/-! ### Minimum and maximum (R103) -/

theorem fpMinMax_nans {f : Fmt} {a b : Val} (larger : Bool) (m : Mode)
    (h : (a.isNan && b.isNan) = true) : fpMinMax f larger m a b = (f.nanCode, snanFlag a b) := by
  cases a with
  | inf _ | fin _ _ _ => contradiction
  | nan _ =>
    cases b with
    | inf _ | fin _ _ _ => contradiction
    | nan _ => rfl

theorem fpMinMax_nan_left {f : Fmt} {a b : Val} (larger : Bool) (m : Mode) (ha : a.isNan = true) (hb : b.isNan = false) :
    fpMinMax f larger m a b = ((f.convert .ieee .rne b).1, snanFlag a b) := by
  cases a with
  | inf _ | fin _ _ _ => contradiction
  | nan _ =>
    cases b with
    | nan _ => contradiction
    | inf _ | fin _ _ _ => rfl

theorem fpMinMax_nan_right {f : Fmt} {a b : Val} (larger : Bool) (m : Mode) (ha : a.isNan = true) (hb : b.isNan = false) :
    fpMinMax f larger m b a = ((f.convert .ieee .rne b).1, snanFlag a b) := by
  rw [snanFlag_comm]
  cases a with
  | inf _ | fin _ _ _ => contradiction
  | nan _ =>
    cases b with
    | nan _ => contradiction
    | inf _ | fin _ _ _ => rfl

/-! ### Conversions to an integer (R108) -/

theorem toIntRange_nan {v : Val} (m : Mode) (lo hi nanValue : Int) (h : v.isNan = true) :
    toIntRange m lo hi nanValue v = (nanValue, flagNV) := by
  cases v with
  | nan _ => rfl
  | inf _ | fin _ _ _ => contradiction

/-! ### Classes (R105) -/

theorem classBit_lt (f : Fmt) (v : Val) : classBit f v < 10 := by
  cases v
  all_goals
    dsimp only [classBit]
    split_ifs
  all_goals decide

/-- Settles O13: FP32 and FP64 have an infinity, and are not the format whose every NaN raises NV. -/
theorem floatSpecialOperands : Obligations.FloatSpecialOperands := by
  intro f hf m a b c
  have hw : f.width ≠ 4 := by rcases hf with rfl | rfl <;> decide
  obtain ⟨i, hi⟩ : ∃ i, f.infCode = some i := by rcases hf with rfl | rfl <;> exact ⟨_, rfl⟩
  refine ⟨fun h => ⟨?_, ?_, ?_, f.div_nan _ m h, fpEq_nan m h, fpLt_nan m h, fpLe_nan m h⟩, fpRound_nan hw m _,
    fpRound_nan hw m _, fun h => ⟨?_, ?_, ?_, ?_⟩, f.div_invalid _ m, fun n k e hk hb => ?_, fun n e => rfl,
    fun k e => f.sqrt_negative m e, rfl, fun larger => fpMinMax_nans larger m,
    fun larger ha hb => ⟨fpMinMax_nan_left larger m ha hb, fpMinMax_nan_right larger m ha hb⟩,
    fun x => ⟨_, _, classBit_lt _ _, classBit_lt _ _, rfl⟩, toIntRange_nan m _ _ _, rfl, rfl, ?_, ?_⟩
  · rw [fpAdd, Val.add_nan m h, fpRound_nan hw]
  · rw [fpSub, Val.add_nan m (by simpa using h), fpRound_nan hw, snanFlag, Val.isSnan_negate, ← snanFlag]
  · rw [fpMul, Val.mul_nan h, fpRound_nan hw]
  · rw [fpMul, Val.mul_inf_zero h, fpRound_nan hw]
  · rw [fpMul, Val.mul_zero_inf h, fpRound_nan hw]
  · rw [Val.fma_inf_zero m c h]; rfl
  · rw [Val.fma_inf_zero m c h]
  · rw [Fmt.div_by_zero hi _ m n e hk hb, hi]; rfl
  · simp [toIntRange, roundInt, roundTo]
  · simp [toIntRange, roundInt, roundTo]

/-! ### Comparisons of numbers (R104) -/

/-- A finite value in units of a place that is not above its own. -/
theorem finiteValue_eq_scaled {e e0 : Int} (neg : Bool) (m : Nat) (h : e0 ≤ e) :
    finiteValue neg m e = (scaled neg m e e0 : Rat) * (2 : Rat) ^ e0 := by
  have hpow : (2 : Rat) ^ e = ((2 : Int) ^ (e - e0).toNat : Int) * (2 : Rat) ^ e0 := by
    rw [Int.cast_pow, ← zpow_natCast, Int.toNat_of_nonneg (by omega), Int.cast_ofNat, ← zpow_add₀ two_ne_zero,
      Int.sub_add_cancel]
  unfold finiteValue scaled
  rw [hpow]
  cases neg
  · simp [mul_assoc]
  · simp [mul_assoc]

theorem Val.eq_fin (x y : Bool) (k l : Nat) (e f : Int) :
    (Val.fin x k e).eq (.fin y l f) = decide (finiteValue x k e = finiteValue y l f) := by
  rw [finiteValue_eq_scaled x k (min_le_left e f), finiteValue_eq_scaled y l (min_le_right e f),
    Bool.eq_iff_iff, Val.eq, beq_iff_eq, decide_eq_true_iff, mul_left_inj' (zpow_pos two_pos _).ne', Int.cast_inj]

theorem Val.lt_fin (x y : Bool) (k l : Nat) (e f : Int) :
    (Val.fin x k e).lt (.fin y l f) = decide (finiteValue x k e < finiteValue y l f) := by
  rw [finiteValue_eq_scaled x k (min_le_left e f), finiteValue_eq_scaled y l (min_le_right e f),
    Bool.eq_iff_iff, Val.lt, decide_eq_true_iff, decide_eq_true_iff, mul_lt_mul_iff_left₀ (zpow_pos two_pos _), Int.cast_lt]

theorem fpEq_fin (m : Mode) (x y : Bool) (k l : Nat) (e f : Int) :
    fpEq m (.fin x k e) (.fin y l f) = (if finiteValue x k e = finiteValue y l f then 1 else 0, 0) := by
  rw [fpEq, Val.eq_fin]
  simp [snanFlag, Val.isSnan]

theorem fpLt_fin (m : Mode) (x y : Bool) (k l : Nat) (e f : Int) :
    fpLt m (.fin x k e) (.fin y l f) = (if finiteValue x k e < finiteValue y l f then 1 else 0, 0) := by
  rw [fpLt, Val.lt_fin]
  simp [nanFlag, Val.isNan]

theorem fpLe_fin (m : Mode) (x y : Bool) (k l : Nat) (e f : Int) :
    fpLe m (.fin x k e) (.fin y l f) = (if finiteValue x k e ≤ finiteValue y l f then 1 else 0, 0) := by
  rw [fpLe, Val.lt_fin, Val.eq_fin, ← Bool.decide_or]
  simp [nanFlag, Val.isNan, le_iff_lt_or_eq]

theorem fpEq_zeros (m : Mode) (e f : Int) : fpEq m (.fin true 0 e) (.fin false 0 f) = (1, 0) := by
  simp [fpEq_fin, finiteValue]

theorem fpCompare_infinities (m : Mode) (x y : Bool) : fpEq m (.inf x) (.inf y) = (if x = y then 1 else 0, 0)
    ∧ fpLt m (.inf x) (.inf y) = (if x = true ∧ y = false then 1 else 0, 0)
    ∧ fpLe m (.inf x) (.inf y) = (if x = true ∨ y = false then 1 else 0, 0) := by
  cases x <;> cases y <;> exact ⟨rfl, rfl, rfl⟩

/-- Settles O16: finite values compare as their multiples of the smaller last place. -/
theorem floatCompares : Obligations.FloatCompares := by
  refine ⟨?_, fun m => ⟨fun x y k l e f => ⟨fpEq_fin m x y k l e f, fpLt_fin m x y k l e f, fpLe_fin m x y k l e f⟩,
    fpEq_zeros m, fun x k e => ⟨rfl, rfl, rfl, rfl, rfl, rfl, rfl, rfl, rfl, rfl, rfl, rfl⟩, fpCompare_infinities m,
    fun a b h => ⟨fpEq_nan m h, fpLt_nan m h, fpLe_nan m h⟩⟩⟩
  iterate 5 refine ⟨FloatBinary.of_exec fun _ _ _ _ _ => rfl, ?_⟩
  exact FloatBinary.of_exec fun _ _ _ _ _ => rfl

/-! ### FCLASS (R105) -/

/-- The class of a code by R105's table, in a format whose infinity and NaNs have the exponent field top. -/
def Fmt.classOfCode (f : Fmt) (top code : Nat) : Nat :=
  classOfFields (code / 2 ^ (f.width - 1) % 2 == 1) (code % 2 ^ (f.width - 1) / 2 ^ (f.prec - 1))
    (code % 2 ^ (f.width - 1) % 2 ^ (f.prec - 1)) top (2 ^ (f.prec - 2))

/-- A finite code: its exponent field is 0 for a zero and a subnormal, and its fraction lies below the hidden bit. -/
theorem classBit_decode_finite {f : Fmt} {code top : Nat} (hmag : code % 2 ^ (f.width - 1) ≤ f.maxCode)
    (htop : code % 2 ^ (f.width - 1) / 2 ^ (f.prec - 1) ≠ top) : classBit f (f.decode code) = f.classOfCode top code := by
  have hfrac := Nat.mod_lt (code % 2 ^ (f.width - 1)) (Nat.two_pow_pos (f.prec - 1))
  rw [Fmt.decode, if_pos hmag, Fmt.classOfCode, classOfFields, if_neg htop]
  split
  case isTrue hfield => simp only [if_pos hfield, classBit, if_pos hfrac]
  case isFalse hfield =>
    simp only [if_neg hfield, classBit, if_neg (Nat.not_lt.2 (Nat.le_add_right _ _)),
      if_neg (Nat.add_pos_left (Nat.two_pow_pos (f.prec - 1)) _).ne']

/-- A code above the finite ones: the infinity has fraction 0, and the top bit of the fraction makes a NaN quiet. -/
theorem classBit_decode_special {f : Fmt} {code top : Nat} (hp : 2 ≤ f.prec) (hw : 8 < f.width)
    (hinf : f.infCode = some (top * 2 ^ (f.prec - 1))) (hmag : f.maxCode < code % 2 ^ (f.width - 1))
    (htop : code % 2 ^ (f.width - 1) / 2 ^ (f.prec - 1) = top) : classBit f (f.decode code) = f.classOfCode top code := by
  rw [Fmt.decode, if_neg (Nat.not_le.2 hmag), Fmt.classOfCode, classOfFields, if_pos htop, hinf]
  generalize code % 2 ^ (f.width - 1) = mag at htop
  have hsplit := Nat.div_add_mod' mag (2 ^ (f.prec - 1))
  have hfrac := Nat.mod_lt mag (Nat.two_pow_pos (f.prec - 1))
  have hhalf : 2 ^ (f.prec - 1) = 2 ^ (f.prec - 2) * 2 := by
    rw [← Nat.pow_succ]
    congr 1
    omega
  rw [htop] at hsplit
  split
  case isTrue heq =>
    have hzero : mag % 2 ^ (f.prec - 1) = 0 := by
      have := Option.some.inj heq
      omega
    rw [if_pos hzero]
    rfl
  case isFalse hne =>
    have hzero : mag % 2 ^ (f.prec - 1) ≠ 0 := fun h => hne (congrArg some (by omega))
    have hquiet : mag / 2 ^ (f.prec - 2) % 2 = 0 ↔ ¬ 2 ^ (f.prec - 2) ≤ mag % 2 ^ (f.prec - 1) := by
      rw [← Nat.mod_mul_right_div_self, ← hhalf, Nat.div_eq_zero_iff_lt (Nat.two_pow_pos _), Nat.not_le]
    rw [if_neg hzero]
    by_cases hq : 2 ^ (f.prec - 2) ≤ mag % 2 ^ (f.prec - 1)
    · simp [classBit, hw, hquiet, hq]
    · simp [classBit, hw, hquiet, hq]

/-- The class of a code of a format whose magnitudes go on, above those of the finite values, with the exponent field
top. -/
theorem classBit_decode {f : Fmt} {code top : Nat} (hp : 2 ≤ f.prec) (hw : 8 < f.width)
    (hmax : f.maxCode + 1 = top * 2 ^ (f.prec - 1)) (hinf : f.infCode = some (top * 2 ^ (f.prec - 1)))
    (htop : code % 2 ^ (f.width - 1) / 2 ^ (f.prec - 1) ≤ top) : classBit f (f.decode code) = f.classOfCode top code := by
  rcases Nat.lt_or_eq_of_le htop with hlt | heq
  · have hmag := (Nat.div_lt_iff_lt_mul (Nat.two_pow_pos (f.prec - 1))).1 hlt
    exact classBit_decode_finite (by omega) hlt.ne
  · have hmag := Nat.div_mul_le_self (code % 2 ^ (f.width - 1)) (2 ^ (f.prec - 1))
    rw [heq] at hmag
    exact classBit_decode_special hp hw hinf (by omega) heq

theorem getLsbD_eq_div (x : Word) (i : Nat) : x.getLsbD i = (x.toNat / 2 ^ i % 2 == 1) := by
  rw [← BitVec.testBit_toNat, Nat.testBit_eq_decide_div_mod_eq]
  rfl

theorem toNat_extractLsb' (x : Word) (lo n : Nat) : (x.extractLsb' lo n).toNat = x.toNat / 2 ^ lo % 2 ^ n := by
  rw [BitVec.extractLsb'_toNat, Nat.shiftRight_eq_div_pow]

/-- The class of an operand from its fields, as they stand in the register. -/
theorem classBit_operand {f : Fmt} {top : Nat} (hp : 2 ≤ f.prec) (hw : 8 < f.width) (hpw : f.prec ≤ f.width)
    (htop : 2 ^ (f.width - f.prec) = top + 1) (hmax : f.maxCode + 1 = top * 2 ^ (f.prec - 1))
    (hinf : f.infCode = some (top * 2 ^ (f.prec - 1))) (x : Word) :
    classBit f (f.operand x) = classOfFields (x.getLsbD (f.width - 1))
      (x.extractLsb' (f.prec - 1) (f.width - f.prec)).toNat (x.extractLsb' 0 (f.prec - 1)).toNat top
      (2 ^ (f.prec - 2)) := by
  have hmags : 2 ^ (f.width - 1) = 2 ^ (f.prec - 1) * 2 ^ (f.width - f.prec) := by
    rw [← Nat.pow_add]
    congr 1
    omega
  have hcodes : 2 ^ f.width = 2 ^ (f.width - 1) * 2 := by
    rw [← Nat.pow_succ, Nat.succ_eq_add_one, Nat.sub_add_cancel (by omega)]
  have hneg : x.toNat % 2 ^ f.width / 2 ^ (f.width - 1) % 2 = x.toNat / 2 ^ (f.width - 1) % 2 := by
    rw [hcodes, Nat.mod_mul_right_div_self, Nat.mod_mod]
  have hmag : x.toNat % 2 ^ f.width % 2 ^ (f.width - 1) = x.toNat % 2 ^ (f.width - 1) :=
    Nat.mod_mod_of_dvd _ (Dvd.intro _ hcodes.symm)
  have hexp : x.toNat % 2 ^ (f.width - 1) / 2 ^ (f.prec - 1) = x.toNat / 2 ^ (f.prec - 1) % 2 ^ (f.width - f.prec) := by
    rw [hmags, Nat.mod_mul_right_div_self]
  have hfrac : x.toNat % 2 ^ (f.width - 1) % 2 ^ (f.prec - 1) = x.toNat % 2 ^ (f.prec - 1) :=
    Nat.mod_mod_of_dvd _ (Dvd.intro _ hmags.symm)
  have hfield : x.toNat / 2 ^ (f.prec - 1) % 2 ^ (f.width - f.prec) ≤ top := by
    rw [htop]
    exact Nat.le_of_lt_succ (Nat.mod_lt _ (Nat.succ_pos _))
  rw [Fmt.operand, classBit_decode hp hw hmax hinf (by rwa [hmag, hexp]), Fmt.classOfCode, hneg, hmag, hexp, hfrac,
    getLsbD_eq_div, toNat_extractLsb', toNat_extractLsb', Nat.pow_zero, Nat.div_one]

theorem fclass_eq_classOfFields (x : Word) : fclass x =
    word (2 ^ classOfFields (x.getLsbD 63) (x.extractLsb' 52 11).toNat (x.extractLsb' 0 52).toNat 0x7FF (2 ^ 51)
      + 2 ^ (16 + classOfFields (x.getLsbD 31) (x.extractLsb' 23 8).toNat (x.extractLsb' 0 23).toNat 0xFF (2 ^ 22))) := by
  rw [fclass, classBit_operand (f := fp64) (top := 0x7FF) (by decide) (by decide) (by decide) rfl rfl rfl,
    classBit_operand (f := fp32) (top := 0xFF) (by decide) (by decide) (by decide) rfl rfl rfl]
  rfl

/-- Settles O17: the classes are read from the fields of the two codes. -/
theorem classesOfFclass : Obligations.ClassesOfFclass :=
  ⟨FloatUnary.of_exec fun _ _ _ _ => rfl, fclass_eq_classOfFields, by decide⟩

end Sys2Proof.Machine
end

/-! ## Branches, jumps, header fields and relative access (R21 to R23, R88 to R96) -/

section
namespace Sys2Proof.Machine

/-! ### Acts on the issuing process -/

@[simp] theorem State.me_modMe (s : State) (f : Proc → Proc) : (s.modMe f).me = f s.me := by
  simp [State.modMe, State.me]

@[simp] theorem State.me_advance (s : State) : s.advance.me = s.me.stepPc s.ctx.pc s.ctx.rep.isSome :=
  s.me_modMe _

/-- The issuing process when its instruction begins. -/
def State.begunProc (s : State) (w : BitVec 2) (u : Use) : Proc :=
  { s.me.observeRegs u.reads with earliest := s.ticks + stallGap w, tagSince := none }

theorem State.begun_modMe (s : State) (w : BitVec 2) (u : Use) (f : Proc → Proc) :
    (s.begun w u).modMe f = s.withCore ((s.core s.ctx.core).setProc s.ctx.pn (f (s.begunProc w u))) := by
  simp [State.begun, State.modMe, State.modProc, State.setProc, State.withCore, State.modCore, State.begunProc, State.me,
    State.proc]

theorem State.acts_advance {s : State} {i : Instr} {w : BitVec 2} {u : Use} (h : exec i s = .next (s.begun w u).advance) :
    s.actsOnProcess i w s.nextPc id :=
  State.acts_of h (s.steppedProc_pc w u) (s.steppedProc_earliest w u) (s.steppedProc_moved w u)

theorem State.acts_jump {s : State} {i : Instr} {w : BitVec 2} {u : Use} {target : Word}
    (h : exec i s = .next ((s.begun w u).jump target)) : s.actsOnProcess i w (pc56 target) id :=
  State.acts_of h rfl rfl (Proc.begun_moved s.me u.reads (s.ticks + stallGap w))

/-! ### Transfers of control (R22, R23, R195) -/

@[simp] theorem Core.inlineOf_setProc (c : Core) (n m : Nat) (p : Proc) : (c.setProc n p).inlineOf m = c.inlineOf m := rfl

theorem State.transfer_begun {s : State} {target : Word} (w : BitVec 2) (u : Use) (body : State → State)
    (h : s.mayJump target = true) : (s.begun w u).transfer target body = (body (s.begun w u)).jump target := by
  unfold State.transfer
  unfold State.mayJump at h
  rw [State.begun_ctx, State.core_begun, Core.inlineOf_setProc]
  cases hin : (s.core s.ctx.core).inlineOf s.ctx.pn with
  | none => rfl
  | some code =>
    rw [hin] at h
    exact if_pos h

/-- A link: core-delivered results, and a jump. -/
theorem State.delivers_jump {s : State} {i : Instr} {w : BitVec 2} {u : Use} {l : Nat} {ws : List (Nat × Word)}
    {target : Word} (h : exec i s = .next (((s.begun w u).varResult l ws).jump target)) :
    s.delivers i w l ws (pc56 target) :=
  State.delivers_of h rfl rfl rfl rfl

/-! ### Skips (R21) -/

theorem State.skipFrom_rep {s : State} {core i addr : Nat} {v : BitVec 32} (n : Nat) (h : s.wordAt core i addr = some v)
    (hv : v.extractLsb' 24 6 = 0x15#6) : s.skipFrom core i (n + 1) addr = s.skipFrom core i n (addr + 8) := by
  simp [State.skipFrom, h, hv]

/-- A word that is not there for the skip to look at counts as any other. -/
theorem State.skipFrom_plain {s : State} {core i addr : Nat} (n : Nat)
    (h : ∀ v, s.wordAt core i addr = some v → v.extractLsb' 24 6 ≠ 0x15#6) :
    s.skipFrom core i (n + 1) addr = s.skipFrom core i n (addr + 4) := by
  rw [State.skipFrom]
  cases hw : s.wordAt core i addr with
  | none => rfl
  | some v => simp [h v hw]

theorem State.skipFrom_noRep {s : State} {core i n : Nat} (addr : Nat)
    (h : ∀ k v, k < n → s.wordAt core i (addr + 4 * k) = some v → v.extractLsb' 24 6 ≠ 0x15#6) :
    s.skipFrom core i n addr = addr + 4 * n := by
  induction n generalizing addr with
  | zero => rfl
  | succ n ih =>
    have hhead : ∀ v, s.wordAt core i addr = some v → v.extractLsb' 24 6 ≠ 0x15#6 := fun v => h 0 v n.succ_pos
    have htail : ∀ k v, k < n → s.wordAt core i (addr + 4 + 4 * k) = some v → v.extractLsb' 24 6 ≠ 0x15#6 := by
      intro k v hk hw
      refine h (k + 1) v (Nat.succ_lt_succ hk) ?_
      rwa [show addr + 4 * (k + 1) = addr + 4 + 4 * k by omega]
    rw [State.skipFrom_plain n hhead, ih (addr + 4) htail]
    omega

theorem State.fetched_begun (s : State) (w : BitVec 2) (u : Use) (i addr : Nat) :
    (s.begun w u).fetched s.ctx.core i addr = s.fetched s.ctx.core i addr := by
  unfold State.fetched
  rw [State.core_begun]
  rfl

theorem State.wordAt_begun (s : State) (w : BitVec 2) (u : Use) (i addr : Nat) :
    (s.begun w u).wordAt s.ctx.core i addr = s.wordAt s.ctx.core i addr := by
  have hjob : (s.begun w u).jobOf s.ctx.core = s.jobOf s.ctx.core := by
    rw [State.jobOf, State.core_begun]
    rfl
  unfold State.wordAt
  rw [State.fetched_begun, hjob]
  rfl

theorem State.skipFrom_begun (s : State) (w : BitVec 2) (u : Use) (i n addr : Nat) :
    (s.begun w u).skipFrom s.ctx.core i n addr = s.skipFrom s.ctx.core i n addr := by
  induction n generalizing addr with
  | zero => rfl
  | succ n ih => rw [State.skipFrom, State.skipFrom, State.wordAt_begun, ih]

/-! ### Compares (R94) -/

theorem State.acts_skip_true {s : State} {i : Instr} {w : BitVec 2} {u : Use} {n : Nat}
    (h : exec i s = .next ((s.begun w u).skip true n)) : s.actsOnProcess i w s.nextPc id :=
  State.acts_advance h

theorem State.acts_skip_false {s : State} {i : Instr} {w : BitVec 2} {u : Use} {n : Nat}
    (h : exec i s = .next ((s.begun w u).skip false n)) :
    s.actsOnProcess i w (pc56 (word (s.skipFrom s.ctx.core s.ctx.slot n (s.ctx.pc + 4).toNat))) id := by
  rw [← s.skipFrom_begun w u]
  exact State.acts_jump h

theorem Compares.of_exec {mk : BitVec 2 → BitVec 2 → BitVec 5 → BitVec 5 → BitVec 9 → Instr} {c : Word → Word → Bool}
    (h : ∀ (s : State) w n a b o, exec (mk w n a b o) s = s.branch w n a b o c) : Compares mk c := by
  intro s w n a b o hc
  have he := (h s w n a b o).trans (State.issue_clear hc w _)
  dsimp only at he
  refine ⟨fun hn ht hj => ?_, fun hn ht => ?_, fun hn ht => ?_, fun hn ht => ?_⟩
  · rw [if_pos (show n = 0 from hn), if_pos ht] at he
    exact State.acts_jump (he.trans (congrArg _ (State.transfer_begun w _ id hj)))
  · rw [if_pos (show n = 0 from hn), if_neg (Bool.eq_false_iff.1 ht)] at he
    exact State.acts_advance he
  · rw [if_neg (show n ≠ 0 from hn), ht] at he
    exact State.acts_skip_true he
  · rw [if_neg (show n ≠ 0 from hn), ht] at he
    exact State.acts_skip_false he

theorem ComparesImm.of_exec {mk : BitVec 2 → BitVec 2 → BitVec 5 → BitVec 14 → Instr} {c : Word → Word → Bool}
    (h : ∀ (s : State) w n a i, exec (mk w n a i) s = s.compareImm w n a i c) : ComparesImm mk c := by
  intro s w n a i hc
  have he := (h s w n a i).trans (State.issue_clear hc w _)
  refine ⟨fun ht => ?_, fun ht => ?_⟩
  · rw [imm, ht] at he
    exact State.acts_skip_true he
  · rw [imm, ht] at he
    exact State.acts_skip_false he

/-- The address after n words from the next one. -/
theorem word_next_add (pc : Word) (n : Nat) : word ((pc + 4).toNat + 4 * n) = pc + word (4 * (1 + n)) := by
  bv_omega

/-- Settles O5: the compares differ in their condition only, and a skip steps over each word that is not a REP by 4. -/
theorem branchesAndSkips : Obligations.BranchesAndSkips := by
  unfold Obligations.BranchesAndSkips
  iterate 8 refine ⟨Compares.of_exec fun _ _ _ _ _ _ => rfl, ?_⟩
  iterate 8 refine ⟨ComparesImm.of_exec fun _ _ _ _ _ => rfl, ?_⟩
  refine ⟨fun s core i n pc h => ?_, fun s core i n addr v => State.skipFrom_rep n, fun s core i n addr v hw hv => ?_⟩
  · rw [State.skipFrom_noRep _ h, word_next_add]
  · refine State.skipFrom_plain n fun x hx => ?_
    rw [hw] at hx
    exact Option.some.inj hx ▸ hv

/-! ### Jumps (R95, R96) -/

theorem exec_j {s : State} (w : BitVec 2) (o : BitVec 24) (h : s.clear {} = true)
    (hj : s.mayJump (s.ctx.pc + (imm o <<< 2)) = true) :
    exec (.j w o) s = .next ((s.begun w {}).jump (s.ctx.pc + (imm o <<< 2))) :=
  (State.issue_clear h w (fun t => t.transfer (s.ctx.pc + (imm o <<< 2)) id)).trans
    (congrArg _ (State.transfer_begun w _ id hj))

theorem exec_jl {s : State} (w : BitVec 2) (o : BitVec 24) (h : s.clear { writes := [1], var := true } = true)
    (hj : s.mayJump (s.ctx.pc + (imm o <<< 2)) = true) :
    exec (.jl w o) s = .next (((s.begun w { writes := [1], var := true }).varResult 1 [(1, s.ctx.pc + 4)]).jump
      (s.ctx.pc + (imm o <<< 2))) :=
  (State.issue_clear h w (fun t =>
    t.transfer (s.ctx.pc + (imm o <<< 2)) (fun u => u.varResult 1 [(1, s.ctx.pc + 4)]))).trans
    (congrArg _ (State.transfer_begun w _ _ hj))

/-- JLR reads its target before its link is written, and checks it (R96). -/
theorem exec_jlr {s : State} {d a : BitVec 5} {i : BitVec 14} {target : Word} (w : BitVec 2) {u : Use}
    (hu : u = { reads := [s.ra a], writes := [s.rd d], var := true }) (h : s.clear u = true)
    (ht : target = s.g (s.ra a) + (imm i <<< 2)) :
    exec (.jlr w d a i) s = .next (if target.toNat % 4 != 0 then (s.begun w u).trap .align target
      else (s.begun w u).transfer target (fun v => v.varResult 1 [(s.rd d, s.ctx.pc + 4)])) := by
  subst ht hu
  exact State.issue_clear h w (fun t =>
    if (s.g (s.ra a) + (imm i <<< 2)).toNat % 4 != 0 then t.trap .align (s.g (s.ra a) + (imm i <<< 2))
    else t.transfer (s.g (s.ra a) + (imm i <<< 2)) (fun v => v.varResult 1 [(s.rd d, s.ctx.pc + 4)]))

/-- Settles O6: an allowed transfer is a jump after the link has entered flight. -/
theorem jumpsAndLinks : Obligations.JumpsAndLinks :=
  ⟨fun _ w o h hj => State.acts_jump (exec_j w o h hj), fun _ w o h hj => State.delivers_jump (exec_jl w o h hj),
    fun _ w _ _ _ h ht hj => State.delivers_jump ((exec_jlr w rfl h rfl).trans (congrArg _
      ((if_neg (by simpa [imm] using ht)).trans (State.transfer_begun w _ _ hj)))),
    fun _ w _ _ _ h ht => (exec_jlr w rfl h rfl).trans (congrArg _ (if_pos (by simpa [imm] using ht)))⟩

/-! ### Header fields (R88 to R91) -/

/-- The issuing core after HLWR: one descriptor is put, bit 15 as zero (R90, R91). -/
def State.hlwrCore (s : State) (w : BitVec 2) (a b : BitVec 5) : Core :=
  { (s.core s.ctx.core).setProc s.ctx.pn (s.steppedProc w { reads := [s.ra a, s.rb b] }) with
    layout := put (s.core s.ctx.core).layout ((s.g (s.rb b)).toNat % 128) ((s.g (s.ra a)).setWidth 16 &&& 0x7FFF) }

theorem State.hlwrCore_proc (s : State) (w : BitVec 2) (a b : BitVec 5) :
    (s.hlwrCore w a b).proc s.ctx.pn = s.steppedProc w { reads := [s.ra a, s.rb b] } :=
  Core.proc_setProc _ _ _

theorem exec_hlwr {s : State} (w : BitVec 2) (a b : BitVec 5) (h : s.clear { reads := [s.ra a, s.rb b] } = true) :
    exec (.hlwr w a b) s = .next (s.withCore (s.hlwrCore w a b)) := by
  refine (State.issue_clear h w (fun t => (t.modCore s.ctx.core (fun c => { c with
    layout := put c.layout ((s.g (s.rb b)).toNat % 128) ((s.g (s.ra a)).setWidth 16 &&& 0x7FFF) })).advance)).trans
    (congrArg _ ?_)
  simp [State.begun, State.advance, State.modMe, State.modProc, State.setProc, State.withCore, State.proc, Core.setProc,
    Core.proc, State.steppedProc, State.modCore, State.me, State.hlwrCore]

/-- Settles O9: HPACK and HUNPK are results of latency 2, HLRD a core-delivered one, and HLWR puts one descriptor. -/
theorem headerFieldResults : Obligations.HeaderFieldResults := by
  refine ⟨fun s w d a b => State.flies_of_issue rfl, fun s w d a b => State.flies_of_issue rfl,
    fun s w a b h => ⟨_, exec_hlwr w a b h, ?_⟩, fun s w d a => State.delivers_of_issue rfl⟩
  rw [State.core_withCore, State.me_withCore, State.hlwrCore_proc]
  exact ⟨fun i => look_put _ _ _ _ _, s.steppedProc_pc w _, s.steppedProc_earliest w _, s.steppedProc_moved w _, rfl,
    s.onlyCore_withCore _⟩

/-! ### Relative access (R92, R93) -/

theorem relOk_of_lt {s : State} {n : Nat} (h : n < s.me.wsz) : relOk s n = true := by
  simpa [relOk] using h

theorem relOk_of_outside {s : State} {n : Int} (h : n < 0 ∨ (s.me.wsz : Int) ≤ n) : relOk s n = false := by
  simp only [relOk, Bool.and_eq_false_iff, decide_eq_false_iff_not]
  omega

theorem exec_getx_inside {s : State} {k : BitVec 12} {n : Nat} (w : BitVec 2) (d : BitVec 5) (hn : relIndex s k = n)
    (hw : n < s.me.wsz) : exec (.getx w d k) s
      = s.issue w { reads := [n], writes := [s.rd d] } (fun t => t.result 1 (s.rd d) (s.g n) 0) := by
  change execGetx w d k s = _
  simp only [execGetx, hn, relOk_of_lt hw, if_true, Int.toNat_natCast]

theorem exec_getx_outside {s : State} {k : BitVec 12} {n : Int} (w : BitVec 2) (d : BitVec 5) (hn : relIndex s k = n)
    (hw : n < 0 ∨ (s.me.wsz : Int) ≤ n) : exec (.getx w d k) s
      = s.issue w { writes := [s.rd d] } (fun t => t.trap .window (wordOfInt n)) := by
  change execGetx w d k s = _
  simp only [execGetx, hn, relOk_of_outside hw, Bool.false_eq_true, if_false]

theorem exec_putx_inside {s : State} {k : BitVec 12} {n : Nat} (w : BitVec 2) (a : BitVec 5) (hn : relIndex s k = n)
    (hw : n < s.me.wsz) : exec (.putx w a k) s
      = s.issue w { reads := [s.ra a], writes := [n], var := true } (fun t =>
        (t.varResult 1 [(n, s.g (s.ra a))]).advance) := by
  change execPutx w a k s = _
  simp only [execPutx, hn, relOk_of_lt hw, if_true, Int.toNat_natCast]

theorem exec_putx_outside {s : State} {k : BitVec 12} {n : Int} (w : BitVec 2) (a : BitVec 5) (hn : relIndex s k = n)
    (hw : n < 0 ∨ (s.me.wsz : Int) ≤ n) : exec (.putx w a k) s
      = s.issue w { reads := [s.ra a], var := true } (fun t => t.trap .window (wordOfInt n)) := by
  change execPutx w a k s = _
  simp only [execPutx, hn, relOk_of_outside hw, Bool.false_eq_true, if_false]

/-- Settles O10: the index decides between the access and the trap before the word issues. -/
theorem relativeAccessResults : Obligations.RelativeAccessResults :=
  ⟨fun _ w d _ _ hn hw h => State.computes_of_issue (exec_getx_inside w d hn hw) h,
    fun _ w a _ _ hn hw h => State.delivers_of_issue (exec_putx_inside w a hn hw) h,
    fun _ w d _ _ hn hw h => (exec_getx_outside w d hn hw).trans (State.issue_clear h w _),
    fun _ w a _ _ hn hw h => (exec_putx_outside w a hn hw).trans (State.issue_clear h w _),
    fun _ _ _ => State.flies_of_issue rfl⟩

end Sys2Proof.Machine
end

/-! ## The MISC group (R31, R98 to R100) -/

section
namespace Sys2Proof.Machine

/-! ### NOP, SCHK and IFSYNC -/

/-- A word without operands that changes its process by g, which leaves what the issue has set, and goes on. -/
theorem State.acts_modMe_advance {s : State} {i : Instr} {w : BitVec 2} {g : Proc → Proc}
    (h : exec i s = .next ((s.begun w {}).modMe g).advance) (hr : ∀ p, (g p).repRemain = p.repRemain)
    (he : ∀ p, (g p).earliest = p.earliest) (hm : (g s.me).moved (g (s.begunProc w {}))) :
    s.actsOnProcess i w s.nextPc g := by
  have h' : exec i s = .next ((s.begun w {}).modMe (fun p => (g p).stepPc s.ctx.pc s.ctx.rep.isSome)) :=
    h.trans (by simp [State.advance, State.modMe])
  refine State.acts_of h' ?_ ?_ (Proc.stepPc_moved _ _ _ _ hm)
  · exact Proc.stepPc_pc s _ ((hr _).trans (by simp))
  · rw [Proc.stepPc_earliest, he]

theorem acts_nop {s : State} (w : BitVec 2) (h : s.clear {} = true) : s.actsOnProcess (.nop w) w s.nextPc id :=
  State.acts_advance (State.issue_clear h w (fun t => t.advance))

theorem acts_schk {s : State} (w : BitVec 2) (v : BitVec 1) (h : s.clear {} = true) :
    s.actsOnProcess (.schk w v) w s.nextPc (fun p => { p with schk := v == 1 }) :=
  State.acts_modMe_advance (State.issue_clear h w (fun t => (t.modMe (fun p => { p with schk := v == 1 })).advance))
    (fun _ => rfl) (fun _ => rfl) (by simp [State.begunProc, Proc.moved])

theorem blocks_ifsync {s : State} (w : BitVec 2) (h : s.clear {} = true) (hh : s.inHandler = false) :
    s.blocks (.ifsync w) w .blockedSync (.ifsync 0 0) := by
  have he := State.issue_clear h w (fun t => if s.inHandler then t.trap .prot 0 else t.block .blockedSync (.ifsync 0 0))
  rw [if_neg (Bool.eq_false_iff.1 hh)] at he
  exact State.acts_modMe_advance he (fun _ => rfl) (fun _ => rfl) (by simp [State.begunProc, Proc.moved, State.blocking])

/-! ### YIELD (R99, R153) -/

@[simp] theorem State.modMe_modMe (s : State) (f g : Proc → Proc) : (s.modMe f).modMe g = s.modMe (fun p => g (f p)) := by
  simp [State.modMe]

@[simp] theorem State.withCore_modCore (s : State) (c : Core) (g : Core → Core) :
    (s.withCore c).modCore s.ctx.core g = s.withCore (g c) := by
  simp [State.withCore, State.modCore]

/-- A YIELD goes on and starts its process's rotation count again. -/
def State.yieldStep (s : State) (p : Proc) : Proc := { p.stepPc s.ctx.pc s.ctx.rep.isSome with rot := s.ticks }

/-- The core once the resident of a slot has yielded to a waiter; slot 15 is kept for the work that waits for it. -/
def Core.handOver (c : Core) (slot n : Nat) : Core :=
  if slot = 15 && c.slot15Work then c.setSlot 15 { c.slot 15 with leaving := some (.yield, 1024) }
  else (c.unlist n).setSlot slot { c.slot slot with leaving := some (.yield, n) }

/-- The core after a YIELD that gives the slot to process n. -/
def State.yieldCore (s : State) (w : BitVec 2) (n : Nat) : Core :=
  ((s.core s.ctx.core).setProc s.ctx.pn (s.yieldStep (s.begunProc w {}))).handOver s.ctx.slot n

theorem State.begun_yieldStep (s : State) (w : BitVec 2) :
    (s.begun w {}).advance.modMe (fun p => { p with rot := s.ticks }) = (s.begun w {}).modMe s.yieldStep :=
  State.modMe_modMe _ (fun p => p.stepPc s.ctx.pc s.ctx.rep.isSome) (fun p => { p with rot := s.ticks })

theorem exec_yield_alone {s : State} (w : BitVec 2) (h : s.clear {} = true)
    (hn : 255 ≤ s.ctx.pn ∨ (s.core s.ctx.core).readyAt s.me.prio.toNat = []) :
    exec (.yield w) s = .next ((s.begun w {}).modMe s.yieldStep) := by
  change execYield w s = _
  unfold execYield
  rw [State.issue_clear h]
  by_cases hp : 255 ≤ s.ctx.pn
  · simp only [State.begun_yieldStep, if_pos hp]
  · simp only [State.begun_yieldStep, if_neg hp, hn.resolve_left hp]

theorem exec_yield_handOver {s : State} {n : Nat} {l : List Nat} (w : BitVec 2) (h : s.clear {} = true)
    (hn : s.ctx.pn < 255) (hl : (s.core s.ctx.core).readyAt s.me.prio.toNat = n :: l) :
    exec (.yield w) s = .next (s.withCore (s.yieldCore w n)) := by
  change execYield w s = _
  unfold execYield
  rw [State.issue_clear h]
  simp only [State.begun_yieldStep, if_neg (Nat.not_le.2 hn), hl, State.begun_modMe, State.withCore_modCore]
  rfl

theorem acts_yield_alone {s : State} (w : BitVec 2) (h : s.clear {} = true)
    (hn : 255 ≤ s.ctx.pn ∨ (s.core s.ctx.core).readyAt s.me.prio.toNat = []) :
    s.actsOnProcess (.yield w) w s.nextPc (fun p => { p with rot := s.ticks }) := by
  refine State.acts_of (exec_yield_alone w h hn) (s.steppedProc_pc w {}) (s.steppedProc_earliest w {}) ?_
  have hm : s.me.moved (s.steppedProc w {}) := s.steppedProc_moved w {}
  exact congrArg (fun p : Proc => { p with rot := s.ticks }) hm

theorem Core.slot15Work_setProc (c : Core) {n : Nat} (p : Proc) (h : n ≠ 255) :
    (c.setProc n p).slot15Work = c.slot15Work := by
  rw [Core.slot15Work, Core.overflowWork, Core.proc_setProc_ne c p h.symm]
  rfl

theorem Core.proc_handOver (c : Core) (slot n m : Nat) : (c.handOver slot n).proc m = c.proc m := by
  unfold Core.handOver
  split <;> rfl

theorem Core.slot_setSlot (c : Core) {i : Nat} (x : Slot) (h : i < c.slots.length) : (c.setSlot i x).slot i = x := by
  simp [Core.slot, Core.setSlot, h]

theorem State.yieldCore_proc (s : State) (w : BitVec 2) (n : Nat) :
    (s.yieldCore w n).proc s.ctx.pn = s.yieldStep (s.begunProc w {}) :=
  (Core.proc_handOver _ _ _ _).trans (Core.proc_setProc _ _ _)

theorem State.pc_yieldCore (s : State) (w : BitVec 2) (n : Nat) : (s.withCore (s.yieldCore w n)).me.pc = s.nextPc := by
  rw [State.me_withCore, State.yieldCore_proc]
  exact s.steppedProc_pc w {}

theorem State.rot_yieldCore (s : State) (w : BitVec 2) (n : Nat) : (s.withCore (s.yieldCore w n)).me.rot = s.ticks := by
  rw [State.me_withCore, State.yieldCore_proc]
  rfl

theorem State.yieldCore_given {s : State} (w : BitVec 2) (n : Nat) (hn : s.ctx.pn < 255)
    (hs : s.ctx.slot < (s.core s.ctx.core).slots.length)
    (hw : s.ctx.slot ≠ 15 ∨ (s.core s.ctx.core).slot15Work = false) :
    ((s.yieldCore w n).slot s.ctx.slot).leaving = some (.yield, n) := by
  rw [State.yieldCore, Core.handOver, Core.slot15Work_setProc _ _ (by omega), if_neg (by simpa [imp_iff_not_or] using hw),
    Core.slot_setSlot]
  exact hs

theorem State.yieldCore_kept {s : State} (w : BitVec 2) (n : Nat) (hn : s.ctx.pn < 255)
    (hs : s.ctx.slot < (s.core s.ctx.core).slots.length) (h15 : s.ctx.slot = 15)
    (hw : (s.core s.ctx.core).slot15Work = true) (prio : Nat) :
    ((s.yieldCore w n).slot 15).leaving = some (.yield, 1024)
      ∧ (s.yieldCore w n).readyAt prio = (s.core s.ctx.core).readyAt prio := by
  rw [State.yieldCore, Core.handOver, Core.slot15Work_setProc _ _ (by omega), if_pos (by simp [h15, hw]),
    Core.slot_setSlot]
  · exact ⟨rfl, rfl⟩
  · exact h15 ▸ hs

/-! ### ALIGN (R31): processes that are held and go on -/

/-- A process that no ALIGN holds. -/
def Proc.unheld (p : Proc) : Prop := p.held = false ∧ p.wait = .none

theorem Proc.unheld_stepPc {p : Proc} (pc : Word) (rep : Bool) (h : p.unheld) : (p.stepPc pc rep).unheld := by
  unfold Proc.stepPc
  split_ifs
  all_goals exact h

/-- What holds of a process still holds after a change of any one process that keeps it there. -/
theorem State.modProc_keeps {P : Proc → Prop} (s : State) {k pn j n : Nat} {g : Proc → Proc}
    (hg : P (s.proc k pn) → P (g (s.proc k pn))) (h : P (s.proc j n)) : P ((s.modProc k pn g).proc j n) := by
  by_cases hj : j = k
  · subst hj
    rw [State.proc, State.core_modProc]
    by_cases hn : n = pn
    · subst hn
      rw [Core.proc_setProc]
      exact hg h
    · rwa [Core.proc_setProc_ne _ _ hn]
  · rwa [State.proc, State.core_modProc_ne _ _ _ hj]

/-- The processes that have joined an entry go on. -/
def State.unholdAll (s : State) (l : List (Nat × Nat)) : State := l.foldl (fun t e => t.unhold e.1 e.2) s

theorem State.unholdAll_onlyCores (s : State) (l : List (Nat × Nat)) : { s.unholdAll l with cores := s.cores } = s := by
  induction l generalizing s with
  | nil => rfl
  | cons e l ih => exact congrArg (fun t : State => { t with cores := s.cores }) (ih (s.unhold e.1 e.2))

/-- Going on changes nothing of a process but held and wait. -/
theorem State.unholdAll_keeps {P : Proc → Prop} (hP : ∀ p : Proc, P p → P { p with held := false, wait := .none })
    (s : State) (l : List (Nat × Nat)) {j n : Nat} (h : P (s.proc j n)) : P ((s.unholdAll l).proc j n) := by
  induction l generalizing s with
  | nil => exact h
  | cons e l ih => exact ih _ (s.modProc_keeps (hP _) h)

theorem State.unholdAll_unheld (s : State) {l : List (Nat × Nat)} {e : Nat × Nat} (h : e ∈ l) :
    ((s.unholdAll l).proc e.1 e.2).unheld := by
  induction l generalizing s with
  | nil => contradiction
  | cons x l ih =>
    rcases List.mem_cons.1 h with rfl | h
    · refine State.unholdAll_keeps (P := Proc.unheld) (fun _ _ => ⟨rfl, rfl⟩) _ l ?_
      exact s.proc_modProc e.1 e.2 _ ▸ ⟨rfl, rfl⟩
    · exact ih _ h

/-! ### ALIGN (R31): its four cases -/

theorem exec_align_handler {s : State} (w : BitVec 2) (k : BitVec 8) (h : s.clear {} = true) (hh : s.inHandler = true) :
    exec (.align w k) s = .next ((s.begun w {}).trap .prot 0) := by
  change execAlign w k s = _
  unfold execAlign
  rw [State.issue_clear h]
  exact congrArg _ (if_pos hh)

theorem exec_align_exempt {s : State} (w : BitVec 2) (k : BitVec 8) (h : s.clear {} = true) (hh : s.inHandler = false)
    (he : s.ctx.pn = 255 ∨ isKernel s.ctx.core = true) : exec (.align w k) s = .next (s.begun w {}).advance := by
  change execAlign w k s = _
  unfold execAlign
  rw [State.issue_clear h]
  exact congrArg _ ((if_neg (Bool.eq_false_iff.1 hh)).trans (if_pos (by simpa using he)))

/-- The entry of an ALIGN k of a process's launch in its cluster. -/
def State.sameAlign (s : State) (k : BitVec 8) (e : Nat × Nat × Nat × List (Nat × Nat)) : Bool :=
  e.1 == (s.core s.ctx.core).launchId && e.2.1 == k.toNat

/-- The entries of the issuing process's cluster. -/
def State.aligns (s : State) : List (Nat × Nat × Nat × List (Nat × Nat)) :=
  (s.cluster (dieOf s.ctx.core) (clusterOf s.ctx.core)).aligns

theorem State.alignExempt_eq_false {s : State} (hn : s.ctx.pn ≠ 255) (hk : isKernel s.ctx.core = false) :
    (s.ctx.pn == 255 || isKernel s.ctx.core) = false := by
  simp [hn, hk]

theorem exec_align_noEntry {s : State} (w : BitVec 2) (k : BitVec 8) (h : s.clear {} = true) (hh : s.inHandler = false)
    (hn : s.ctx.pn ≠ 255) (hk : isKernel s.ctx.core = false) (hf : s.aligns.find? (s.sameAlign k) = none)
    (hl : 8 ≤ s.aligns.length) : exec (.align w k) s = .next (s.begun w {}).advance := by
  have hx := State.alignExempt_eq_false hn hk
  change execAlign w k s = _
  unfold execAlign
  rw [State.issue_clear h]
  unfold State.aligns State.sameAlign at hf
  unfold State.aligns at hl
  simp only [hh, hx, hf, hl, Bool.false_eq_true, if_false, List.isEmpty_nil, decide_true, Bool.and_self, if_true]

theorem exec_align_hold {s : State} (w : BitVec 2) (k : BitVec 8) (h : s.clear {} = true) (hh : s.inHandler = false)
    (hn : s.ctx.pn ≠ 255) (hk : isKernel s.ctx.core = false) (ha : s.aligns = []) {p : Nat}
    (hp : p = s.alignParty (dieOf s.ctx.core) (clusterOf s.ctx.core) (s.core s.ctx.core).launchId) (hp2 : 2 < p) :
    exec (.align w k) s = .next ((((s.begun w {}).modCluster (dieOf s.ctx.core) (clusterOf s.ctx.core) (fun c => { c with
        aligns := c.aligns.filter (fun e => !s.sameAlign k e)
          ++ [((s.core s.ctx.core).launchId, k.toNat, p, [] ++ [(s.ctx.core, s.ctx.pn)])] })).advance).modMe
      (fun q => { q with held := true, wait := .align, waitSince := s.ticks })) := by
  have hx := State.alignExempt_eq_false hn hk
  have hparty : ¬ (p + 1) / 2 ≤ 0 + 1 := by omega
  subst hp
  change execAlign w k s = _
  unfold execAlign
  rw [State.issue_clear h]
  unfold State.aligns at ha
  simp only [hh, hx, ha, hparty, Bool.false_eq_true, if_false, List.find?_nil, List.isEmpty_nil, List.length_nil,
    Nat.reduceLeDiff, decide_false, Bool.and_false]
  rfl

theorem exec_align_release {s : State} {lid n p : Nat} {joined : List (Nat × Nat)} (w : BitVec 2) (k : BitVec 8)
    (h : s.clear {} = true) (hh : s.inHandler = false) (hn : s.ctx.pn ≠ 255) (hk : isKernel s.ctx.core = false)
    (hf : s.aligns.find? (s.sameAlign k) = some (lid, n, p, joined)) (hj : joined ≠ [])
    (hp : (p + 1) / 2 ≤ joined.length + 1) :
    exec (.align w k) s = .next ((((s.begun w {}).modCluster (dieOf s.ctx.core) (clusterOf s.ctx.core) (fun c => { c with
      aligns := c.aligns.filter (fun e => !s.sameAlign k e) })).unholdAll joined).advance) := by
  have hx := State.alignExempt_eq_false hn hk
  change execAlign w k s = _
  unfold execAlign
  rw [State.issue_clear h]
  unfold State.aligns State.sameAlign at hf
  simp only [hh, hx, hf, hp, List.isEmpty_eq_false_iff.2 hj, Bool.false_eq_true, if_false, Bool.false_and, if_true]
  rfl

/-! ### ALIGN (R31): what its cases leave -/

theorem Proc.stepPc_regs (p : Proc) (pc : Word) (rep : Bool) : (p.stepPc pc rep).regs = p.regs := by
  unfold Proc.stepPc
  split_ifs <;> rfl

theorem State.steppedProc_regs (s : State) (w : BitVec 2) (u : Use) : (s.steppedProc w u).regs = s.me.regs :=
  (congrArg Proc.regs (s.steppedProc_moved w u) :)

@[simp] theorem State.me_modCluster (s : State) (die cl : Nat) (F : Cluster → Cluster) :
    (s.modCluster die cl F).me = s.me := rfl

@[simp] theorem State.cluster_modCluster (s : State) (die cl : Nat) (F : Cluster → Cluster) :
    (s.modCluster die cl F).cluster die cl = F (s.cluster die cl) := by
  simp [State.modCluster, State.cluster]

theorem State.unholdAll_ctx (s : State) (l : List (Nat × Nat)) : (s.unholdAll l).ctx = s.ctx :=
  (congrArg State.ctx (s.unholdAll_onlyCores l) :)

theorem State.unholdAll_mem (s : State) (l : List (Nat × Nat)) : (s.unholdAll l).mem = s.mem :=
  (congrArg State.mem (s.unholdAll_onlyCores l) :)

theorem State.unholdAll_cluster (s : State) (l : List (Nat × Nat)) (die cl : Nat) :
    (s.unholdAll l).cluster die cl = s.cluster die cl :=
  (congrArg (fun t : State => t.cluster die cl) (s.unholdAll_onlyCores l) :)

/-- The issuing process, when those that wait for its launch's ALIGN go on. -/
theorem State.unholdAll_me (s : State) (l : List (Nat × Nat)) :
    (s.unholdAll l).me.repRemain = s.me.repRemain ∧ (s.unholdAll l).me.regs = s.me.regs := by
  rw [State.me, State.unholdAll_ctx]
  exact State.unholdAll_keeps (P := fun p => p.repRemain = s.me.repRemain ∧ p.regs = s.me.regs) (fun _ h => h) s l
    ⟨rfl, rfl⟩

theorem align_holds {s : State} (w : BitVec 2) (k : BitVec 8) (h : s.clear {} = true) (hh : s.inHandler = false)
    (hn : s.ctx.pn ≠ 255) (hk : isKernel s.ctx.core = false) (ha : s.aligns = [])
    (hp : 2 < s.alignParty (dieOf s.ctx.core) (clusterOf s.ctx.core) (s.core s.ctx.core).launchId) :
    ∃ t, exec (.align w k) s = .next t ∧ t.me.held = true ∧ t.me.wait = .align ∧ t.me.pc = s.nextPc
      ∧ t.me.regs = s.me.regs ∧ t.mem = s.mem := by
  refine ⟨_, exec_align_hold w k h hh hn hk ha rfl hp, ?_⟩
  rw [State.me_modMe, State.me_advance, State.me_modCluster, State.me_begun]
  exact ⟨rfl, rfl, s.steppedProc_pc w {}, s.steppedProc_regs w {}, rfl⟩

theorem align_releases {s : State} {lid n p : Nat} {joined : List (Nat × Nat)} (w : BitVec 2) (k : BitVec 8)
    (h : s.clear {} = true) (hh : s.inHandler = false) (hn : s.ctx.pn ≠ 255) (hk : isKernel s.ctx.core = false)
    (hf : s.aligns.find? (s.sameAlign k) = some (lid, n, p, joined)) (hj : joined ≠ [])
    (hp : (p + 1) / 2 ≤ joined.length + 1) :
    ∃ t, exec (.align w k) s = .next t ∧ t.me.pc = s.nextPc ∧ t.me.regs = s.me.regs ∧ t.mem = s.mem
      ∧ (∀ e ∈ joined, (t.proc e.1 e.2).unheld)
      ∧ (t.cluster (dieOf s.ctx.core) (clusterOf s.ctx.core)).aligns = s.aligns.filter (fun e => !s.sameAlign k e) := by
  refine ⟨_, exec_align_release w k h hh hn hk hf hj hp, ?_⟩
  generalize hx : (s.begun w {}).modCluster (dieOf s.ctx.core) (clusterOf s.ctx.core) _ = x
  have hctx : x.ctx = s.ctx := by rw [← hx]; rfl
  have hme : x.me.repRemain = s.me.repRemain ∧ x.me.regs = s.me.regs := by
    rw [← hx, State.me_modCluster, State.me_begun, Proc.observeRegs_nil]
    exact ⟨rfl, rfl⟩
  obtain ⟨hrep, hregs⟩ := x.unholdAll_me joined
  refine ⟨?_, ?_, ?_, fun e he => ?_, ?_⟩
  · rw [State.me_advance, State.unholdAll_ctx, hctx]
    exact Proc.stepPc_pc s _ (hrep.trans hme.1)
  · rw [State.me_advance, Proc.stepPc_regs, hregs, hme.2]
  · rw [State.advance_mem, State.unholdAll_mem, ← hx]
    rfl
  · exact State.modProc_keeps _ (Proc.unheld_stepPc _ _) (x.unholdAll_unheld he)
  · change ((x.unholdAll joined).cluster _ _).aligns = _
    rw [State.unholdAll_cluster, ← hx, State.cluster_modCluster]
    rfl

/-- Settles O8: YIELD keeps or hands over its slot, and ALIGN traps, goes on, holds its process or releases those it holds. -/
theorem miscGroupResults : Obligations.MiscGroupResults := by
  refine ⟨fun s w => acts_nop w, fun s w v => acts_schk w v, fun s w => acts_yield_alone w,
    fun s w n l h hn hl hs hw => ⟨_, exec_yield_handOver w h hn hl, ?_, s.pc_yieldCore w n, s.rot_yieldCore w n,
      s.onlyCore_withCore _⟩,
    fun s w n l h hn hl hs h15 hw => ⟨_, exec_yield_handOver w h hn hl, ?_, ?_, s.pc_yieldCore w n, s.rot_yieldCore w n,
      s.onlyCore_withCore _⟩,
    fun s w => blocks_ifsync w, fun s w k h hh he => State.acts_advance (exec_align_exempt w k h hh he),
    fun s w k => align_holds w k,
    fun s w k h hh hn hk hf hl => State.acts_advance (exec_align_noEntry w k h hh hn hk hf hl),
    fun s w k lid n p joined h hh hn hk hf hj hp => align_releases w k h hh hn hk hf hj hp,
    fun s w k => exec_align_handler w k⟩
  · rw [State.core_withCore]
    exact State.yieldCore_given w n hn hs hw
  · rw [State.core_withCore]
    exact (State.yieldCore_kept w n hn hs h15 hw 0).1
  · rw [State.core_withCore, (State.yieldCore_kept w n hn hs h15 hw _).2, hl]

end Sys2Proof.Machine
end

/-! ## Memory instructions at issue (R117 to R138, R204, R205) -/

section
namespace Sys2Proof.Machine

/-! ### The issuing process -/

theorem Proc.keeps_refl (p : Proc) : p.keeps p :=
  ⟨rfl, rfl, rfl, rfl, rfl, rfl, rfl, rfl, rfl, rfl, rfl, rfl, rfl, rfl, rfl⟩

theorem Proc.keeps_stepPc {p q : Proc} (h : p.keeps q) (pc : Word) (rep : Bool) : p.keeps (q.stepPc pc rep) := by
  unfold Proc.stepPc
  split_ifs
  all_goals exact h

theorem State.keeps_begunProc (s : State) (w : BitVec 2) (u : Use) : s.me.keeps (s.begunProc w u) := by
  unfold State.begunProc Proc.observeRegs
  split
  all_goals exact s.me.keeps_refl

@[simp] theorem State.begunProc_earliest (s : State) (w : BitVec 2) (u : Use) :
    (s.begunProc w u).earliest = s.ticks + stallGap w := rfl
@[simp] theorem State.begunProc_pend (s : State) (w : BitVec 2) (u : Use) : (s.begunProc w u).pend = s.me.pend := by
  simp [State.begunProc]
@[simp] theorem State.begunProc_repRemain (s : State) (w : BitVec 2) (u : Use) :
    (s.begunProc w u).repRemain = s.me.repRemain := by
  simp [State.begunProc]

theorem State.begunProc_as (s : State) (w : BitVec 2) (u : Use) : (s.begunProc w u).pc = s.me.pc
    ∧ (s.begunProc w u).state = s.me.state ∧ (s.begunProc w u).wait = s.me.wait := by
  unfold State.begunProc Proc.observeRegs
  split
  all_goals exact ⟨rfl, rfl, rfl⟩

/-- Pending destinations are set as those of the core's own results are. -/
theorem State.begunProc_pendAll (s : State) (w : BitVec 2) (u : Use) (ds : List Nat) :
    (s.begunProc w u).pendAll ds true = s.pendedProc w u (ds.map (·, 0)) := by
  rw [Proc.pendAll, State.pendedProc, List.foldl_map]
  rfl

/-- The issuing process once its destinations are pending. -/
theorem State.begunProc_pendAll_eq (s : State) (w : BitVec 2) (u : Use) (ds : List Nat) :
    (s.begunProc w u).pendAll ds true = { s.begunProc w u with pend := ((s.begunProc w u).pendAll ds true).pend } := by
  rw [State.begunProc_pendAll]
  exact s.pendedProc_eq w u _

theorem State.isPending_pendAll (s : State) (w : BitVec 2) (u : Use) (ds : List Nat) {n : Nat}
    (h : n < s.me.pend.length) :
    ((s.begunProc w u).pendAll ds true).isPending n = (s.me.isPending n || (n != 0 && ds.contains n)) := by
  rw [State.begunProc_pendAll, State.pendedProc_pending s w u _ n h, List.any_map, List.contains_eq_any_beq]
  congr 3
  funext d
  exact Bool.beq_comm

/-! ### The state in which an access begins -/

/-- The instruction has begun, and the TLB entry of its address may have been marked. -/
def State.opened (s : State) (w : BitVec 2) (u : Use) (x : List TlbEntry) : State :=
  s.withCore { (s.core s.ctx.core).setProc s.ctx.pn (s.begunProc w u) with tlbRecent := x }

theorem State.begun_eq_opened (s : State) (w : BitVec 2) (u : Use) :
    s.begun w u = s.opened w u (s.core s.ctx.core).tlbRecent :=
  rfl

theorem State.opened_touch (s : State) (w : BitVec 2) (u : Use) (x : List TlbEntry) (e : TlbEntry) :
    ∃ y, (s.opened w u x).modCore s.ctx.core (fun c => c.tlbTouch e) = s.opened w u y :=
  ⟨_, s.withCore_modCore _ _⟩

@[simp] theorem State.core_opened (s : State) (w : BitVec 2) (u : Use) (x : List TlbEntry) :
    (s.opened w u x).core s.ctx.core
      = { (s.core s.ctx.core).setProc s.ctx.pn (s.begunProc w u) with tlbRecent := x } :=
  s.core_withCore _

@[simp] theorem State.jobOf_opened (s : State) (w : BitVec 2) (u : Use) (x : List TlbEntry) :
    (s.opened w u x).jobOf s.ctx.core = s.jobOf s.ctx.core := by
  unfold State.jobOf
  rw [State.core_opened]
  rfl

/-- The checks of an access read nothing that the begin of its instruction changes. -/
@[simp] theorem State.locate_opened (s : State) (w : BitVec 2) (u : Use) (x : List TlbEntry) (r : Req) :
    (s.opened w u x).locate s.ctx.core r = s.locate s.ctx.core r := by
  unfold State.locate
  rw [State.core_opened, State.jobOf_opened]
  rfl

@[simp] theorem State.me_opened (s : State) (w : BitVec 2) (u : Use) (x : List TlbEntry) :
    (s.opened w u x).me = s.begunProc w u := by
  simp [State.opened, Core.setProc, Core.proc]

/-! ### Where an access goes -/

theorem leafLocated_away {r q : Req} {p : Word} {large : Bool} {job : Nat} (h : leafLocated r p large job = .away q) :
    q = leafReq r p job := by
  unfold leafLocated at h
  split at h
  · contradiction
  · split at h
    · contradiction
    · exact (Located.away.inj h).symm

/-- Where an access goes, its request keeps its process and its kind, and is as lost as before. -/
theorem physicalLocated_away {core : Nat} {r q : Req} (h : physicalLocated core r = .away q) :
    q.pn = r.pn ∧ q.kind = r.kind ∧ q.lost = r.lost := by
  unfold physicalLocated at h
  dsimp only at h
  split_ifs at h
  all_goals
    obtain rfl := Located.away.inj h
    exact ⟨rfl, rfl, rfl⟩

theorem State.locate_away {s : State} {core : Nat} {r q : Req} (h : s.locate core r = .away q) :
    q.pn = r.pn ∧ q.kind = r.kind ∧ q.lost = r.lost := by
  unfold State.locate at h
  dsimp only at h
  split at h
  · split_ifs at h
  · split_ifs at h
    split at h
    · split at h
      all_goals contradiction
    · split at h
      all_goals contradiction
    · contradiction
  · contradiction
  · contradiction
  · contradiction
  · split_ifs at h
    obtain rfl := Located.away.inj h
    exact ⟨rfl, rfl, rfl⟩
  · exact physicalLocated_away h
  · split_ifs at h
    split at h
    · contradiction
    · rw [leafLocated_away h]
      exact ⟨rfl, rfl, rfl⟩

/-- A request that has a place has passed the checks. -/
theorem State.placeOf_eq_some {s : State} {r q : Req} (h : s.placeOf r = some q) :
    ∃ l, s.locate s.ctx.core r = l ∧ (∀ c, l ≠ .trap c) ∧ l ≠ .miss ∧ q = placed s.ctx.core r l := by
  unfold State.placeOf at h
  split at h
  case h_1 => contradiction
  case h_2 => contradiction
  case h_3 l ht hm => exact ⟨_, rfl, fun c hc => ht c hc, hm, (Option.some.inj h).symm⟩

theorem State.placeOf_keeps {s : State} {r q : Req} (h : s.placeOf r = some q) :
    q.pn = r.pn ∧ q.kind = r.kind ∧ q.lost = r.lost := by
  obtain ⟨l, hl, -, -, rfl⟩ := State.placeOf_eq_some h
  cases l with
  | away q' => exact State.locate_away hl
  | trap _ | miss | own _ | tensor _ _ => exact ⟨rfl, rfl, rfl⟩

/-! ### An access at its word -/

/-- The TLB entry of an access's address is marked as used (R325). -/
def State.tlbUsed (t : State) (core : Nat) (r : Req) : State :=
  match (t.core core).tlbFind r.job r.ea.toNat with
  | some e => if spaceOf (isKernel core) r.ea == Space.global then t.modCore core (fun c => c.tlbTouch e) else t
  | none => t

/-- The checks of an access, and its effect. -/
def State.checkedAccess (t : State) (core : Nat) (r : Req) : State :=
  match t.locate core r with
  | .trap c => t.trap c r.ea
  | .miss => (t.askWalk core r.pn r.ea.toNat r.job).block .blockedSync (.walk r)
  | l => t.enterLocated core r l

theorem State.access_eq_ite (t : State) (r : Req) : t.access r
    = if t.ctx.pn = 256 && r.kind.waits then t.trap .prot r.ea
      else if r.kind.barred && t.inRegion && (spaceOf (isKernel t.ctx.core) r.ea).leaves then t.trap .prot r.ea
      else (t.tlbUsed t.ctx.core (t.requestOf r)).checkedAccess t.ctx.core (t.requestOf r) := by
  rcases r with ⟨tag, pn, kind, _⟩
  cases kind
  all_goals rfl

theorem State.tlbUsed_opened (s : State) (w : BitVec 2) (u : Use) (x : List TlbEntry) (r : Req) :
    ∃ y, (s.opened w u x).tlbUsed s.ctx.core r = s.opened w u y := by
  unfold State.tlbUsed
  split
  · split
    · exact s.opened_touch w u x _
    · exact ⟨_, rfl⟩
  · exact ⟨_, rfl⟩

@[simp] theorem State.inRegion_begun (s : State) (w : BitVec 2) (u : Use) : (s.begun w u).inRegion = s.inRegion := by
  unfold State.inRegion
  rw [State.begun_ctx, State.core_begun]
  rfl

/-- The access of an instruction that has begun: barred in a region (R205), or checked with its TLB entry marked. -/
theorem State.access_begun {s : State} (w : BitVec 2) (u : Use) {r : Req}
    (hw : r.kind.waits = true → s.inHandler = false) :
    ∃ x, (s.begun w u).access r
      = if r.kind.barred && s.inRegion && (spaceOf (isKernel s.ctx.core) r.ea).leaves then (s.begun w u).trap .prot r.ea
        else (s.opened w u x).checkedAccess s.ctx.core (s.requestOf r) := by
  have hhandler : (decide (s.ctx.pn = 256) && r.kind.waits) = false := by
    cases hk : r.kind.waits with
    | false => exact Bool.and_false _
    | true => simpa [State.inHandler] using hw hk
  have hreq : (s.begun w u).requestOf r = s.requestOf r := by
    rw [State.begun_eq_opened, State.requestOf]
    exact congrArg (fun j : Nat => { r with pn := s.ctx.pn, fpc := s.ctx.pc, finst := s.ctx.word, job := j })
      (s.jobOf_opened w u _)
  obtain ⟨x, hx⟩ := s.tlbUsed_opened w u (s.core s.ctx.core).tlbRecent (s.requestOf r)
  refine ⟨x, ?_⟩
  rw [State.access_eq_ite, hreq, State.inRegion_begun, State.begun_ctx, hhandler, if_neg Bool.false_ne_true,
    ← hx, ← State.begun_eq_opened]

/-! ### A request that is sent -/

/-- A request stands in its core's table as r, once it has started on its way: one that the island check bars is counted
(R358). -/
structure State.Started (s t : State) (core : Nat) (r : Req) : Prop where
  core_eq : t.core core = (s.core core).setReq r
  others : ∀ j, j ≠ core → t.core j = s.core j
  mem : t.mem = s.mem
  ctx : t.ctx = s.ctx
  ticks : t.ticks = s.ticks
  counted : if r.lost then (t.pkg (pkgOf core)).isldrop = (s.pkg (pkgOf core)).isldrop + 1
    else t.dies = s.dies ∧ t.pkgs = s.pkgs

/-- An inventory record concerns its die alone. -/
theorem State.invRecord_eq (s : State) (die : Nat) (x : InvRec) : ∃ d, s.invRecord die x = { s with dies := d } := by
  unfold State.invRecord
  split
  · exact ⟨s.dies, rfl⟩
  · exact ⟨_, rfl⟩

/-- What the island check discards is counted by its package; the record of it concerns die 0 of that package alone. -/
theorem State.islandDrop_eq (s : State) (pkg job pid : Nat) (id : Word) : ∃ d, s.islandDrop pkg job pid id
    = { s.modPkg pkg (fun k => { k with isldrop := k.isldrop + 1 }) with dies := d } :=
  State.invRecord_eq _ _ _

theorem State.started_modCore (s : State) (core : Nat) {r : Req} (h : r.lost = false) :
    s.Started (s.modCore core (fun c => c.setReq r)) core r :=
  ⟨State.core_modCore _ _ _, fun _ hj => State.core_modCore_ne s _ hj, rfl, rfl, rfl, by rw [h]; exact ⟨rfl, rfl⟩⟩

theorem State.started_islandDrop (s : State) (core job pid : Nat) (id : Word) {r : Req} (h : r.lost = true) :
    s.Started ((s.modCore core (fun c => c.setReq r)).islandDrop (pkgOf core) job pid id) core r := by
  obtain ⟨d, hd⟩ := (s.modCore core (fun c => c.setReq r)).islandDrop_eq (pkgOf core) job pid id
  rw [hd]
  refine ⟨(s.core_modCore core (fun c => c.setReq r) :),
    fun j hj => (s.core_modCore_ne (fun c => c.setReq r) hj :), rfl, rfl, rfl, ?_⟩
  rw [h]
  exact (congrArg Pkg.isldrop (s.pkg_modPkg (pkgOf core) (fun k => { k with isldrop := k.isldrop + 1 })) :)

theorem State.sendReq_started (s : State) (core : Nat) (r : Req) :
    s.Started (s.sendReq core r) core { r with phase := .sent, lost := s.reqShut core r } := by
  unfold State.sendReq
  dsimp only
  split
  next hshut => exact s.started_islandDrop core _ _ _ hshut
  next hshut =>
    have h := s.started_modCore core (r := { r with phase := .sent, lost := s.reqShut core r })
      (Bool.eq_false_iff.2 hshut)
    split
    · exact h
    · exact ⟨h.core_eq, h.others, h.mem, h.ctx, h.ticks, h.counted⟩

/-- A request that has its entry starts on its way. -/
theorem State.startReq_started (s : State) (core : Nat) {r : Req} (h : r.lost = false) :
    s.Started (s.startReq core r) core { r with
      phase := if r.kind.buffered && !r.ownPool then .buffered else .sent, lost := r.sends && s.reqShut core r } := by
  obtain ⟨q, rfl⟩ : ∃ q : Req, r = { q with lost := false } := ⟨r, by rw [← h]⟩
  unfold State.startReq Req.sends
  cases hb : q.kind.buffered
  · exact State.sendReq_started _ _ _
  cases ho : Req.ownPool { q with lost := false }
  · exact State.started_modCore s core rfl
  · exact State.sendReq_started _ _ _

/-! ### A request that is entered (R124) -/

/-- A request as its core numbers it at its issue. -/
def State.numbered (s : State) (core : Nat) (q : Req) (phase : ReqPhase) : Req :=
  { q with
    tag := (s.core core).nextTag, blocks := q.blocks || q.mesh, kept := (s.core core).heldBytes q
    due := if q.ownPool && q.kind.buffered then s.ticks + 1 else s.ticks, phase := phase }

/-- The request stands at the end of its core's list. -/
def Core.enlist (c : Core) (q : Req) : Core := { c with nextTag := c.nextTag + 1, reqs := c.reqs ++ [q] }

/-- The state with a request in its core's list and the destinations pending. -/
def State.enlisted (t : State) (core : Nat) (q : Req) : State :=
  (t.modCore core (fun c => c.enlist q)).modProc core q.pn (fun p => p.pendAll q.dests true)

/-- How an access enters its request. -/
theorem State.enterReq_eq (t : State) (core : Nat) (q : Req) : t.enterReq core q
    = (if (t.core core).entryFree q then
        (t.enlisted core (t.numbered core q (if (t.core core).entryFree q then .sent else .full))).startReq core
          (t.numbered core q (if (t.core core).entryFree q then .sent else .full))
      else t.enlisted core (t.numbered core q (if (t.core core).entryFree q then .sent else .full)),
      t.numbered core q (if (t.core core).entryFree q then .sent else .full)) :=
  rfl

theorem State.enterReq_free {t : State} {core : Nat} {q : Req} (h : (t.core core).entryFree q = true) :
    t.enterReq core q = ((t.enlisted core (t.numbered core q .sent)).startReq core (t.numbered core q .sent),
      t.numbered core q .sent) := by
  rw [State.enterReq_eq, if_pos h, if_pos h]

theorem State.enterReq_full {t : State} {core : Nat} {q : Req} (h : (t.core core).entryFree q = false) :
    t.enterReq core q = (t.enlisted core (t.numbered core q .full), t.numbered core q .full) := by
  rw [State.enterReq_eq, if_neg (Bool.eq_false_iff.1 h), if_neg (Bool.eq_false_iff.1 h)]

/-- The issuing core with a request in its list and the destinations pending. -/
def State.listed (s : State) (w : BitVec 2) (u : Use) (x : List TlbEntry) (q : Req) : Core :=
  { ((s.core s.ctx.core).setProc s.ctx.pn ((s.begunProc w u).pendAll q.dests true)).enlist q with tlbRecent := x }

theorem State.enlisted_opened {s : State} {q : Req} (w : BitVec 2) (u : Use) (x : List TlbEntry) (hq : q.pn = s.ctx.pn) :
    (s.opened w u x).enlisted s.ctx.core q = s.withCore (s.listed w u x q) := by
  unfold State.enlisted
  rw [hq]
  simp [State.opened, State.modProc, State.setProc, State.proc, State.listed, Core.enlist, Core.setProc, Core.proc]

@[simp] theorem State.numbered_opened (s : State) (w : BitVec 2) (u : Use) (x : List TlbEntry) (q : Req) (ph : ReqPhase) :
    (s.opened w u x).numbered s.ctx.core q ph = s.numbered s.ctx.core q ph := by
  unfold State.numbered
  rw [State.core_opened]
  rfl

/-! ### How the access goes on -/

/-- The process once its access is issued: past the instruction, or blocked for a wait. -/
def State.issuedProc (s : State) (wt : Option Wait) (p : Proc) : Proc :=
  (match wt with
    | some v => s.blocking .blockedSync v p
    | none => p).stepPc s.ctx.pc s.ctx.rep.isSome

/-- An access that is entered, or stands aside, goes on by what it waits for. -/
def State.goOn (t : State) (wt : Option Wait) : State :=
  match wt with
  | some v => t.block .blockedSync v
  | none => t.advance

theorem State.goOn_eq {s t : State} (h : t.ctx = s.ctx) (hk : t.ticks = s.ticks) (wt : Option Wait) :
    t.goOn wt = t.modProc s.ctx.core s.ctx.pn (s.issuedProc wt) := by
  cases wt with
  | none =>
    unfold State.goOn State.advance State.modMe
    rw [h]
    rfl
  | some v =>
    unfold State.goOn State.block State.advance State.modMe
    dsimp only
    rw [State.modProc_ctx, h, State.modProc_modProc, hk]
    rfl

/-- What the issue of an access leaves in its process record. -/
structure State.Issued (s : State) (w : BitVec 2) (q : Req) (wt : Option Wait) (p : Proc) : Prop where
  keeps : s.me.keeps p
  pc : p.pc = s.nextPc
  earliest : p.earliest = s.ticks + stallGap w
  pending : ∀ n, n < s.me.pend.length → p.isPending n = (s.me.isPending n || (n != 0 && q.dests.contains n))
  goes : match wt with
    | some v => p.state = .blockedSync ∧ p.wait = v
    | none => p.state = s.me.state ∧ p.wait = s.me.wait

theorem Proc.stepPc_as (p : Proc) (pc : Word) (rep : Bool) :
    (p.stepPc pc rep).state = p.state ∧ (p.stepPc pc rep).wait = p.wait := by
  unfold Proc.stepPc
  split_ifs
  all_goals exact ⟨rfl, rfl⟩

theorem State.issued_issuedProc (s : State) (w : BitVec 2) (u : Use) (q : Req) (wt : Option Wait) :
    s.Issued w q wt (s.issuedProc wt ((s.begunProc w u).pendAll q.dests true)) := by
  have hp := s.begunProc_pendAll_eq w u q.dests
  have hd : ∀ n, n < s.me.pend.length → _ := fun n hn => s.isPending_pendAll w u q.dests (n := n) hn
  generalize (s.begunProc w u).pendAll q.dests true = p at *
  obtain ⟨-, hstate, hwait⟩ := s.begunProc_as w u
  have hkeeps : s.me.keeps p := by
    rw [hp]
    exact s.keeps_begunProc w u
  have hrem : p.repRemain = s.me.repRemain := by
    rw [hp]
    exact s.begunProc_repRemain w u
  have hearly : p.earliest = s.ticks + stallGap w := by
    rw [hp]
    rfl
  cases wt with
  | none =>
    refine ⟨Proc.keeps_stepPc hkeeps _ _, Proc.stepPc_pc s _ hrem, (Proc.stepPc_earliest _ _ _).trans hearly,
      fun n hn => (Proc.isPending_congr (Proc.stepPc_pend _ _ _) n).trans (hd n hn), ?_⟩
    obtain ⟨hs, hw⟩ := p.stepPc_as s.ctx.pc s.ctx.rep.isSome
    exact ⟨hs.trans ((congrArg Proc.state hp).trans hstate), hw.trans ((congrArg Proc.wait hp).trans hwait)⟩
  | some v =>
    exact ⟨Proc.keeps_stepPc (q := s.blocking .blockedSync v p) hkeeps _ _, Proc.stepPc_pc s _ hrem,
      (Proc.stepPc_earliest _ _ _).trans hearly,
      fun n hn => (Proc.isPending_congr (Proc.stepPc_pend _ _ _) n).trans (hd n hn), Proc.stepPc_as _ _ _⟩

/-- The issuing process where its access goes on by what it waits for. -/
theorem State.issued_goOn {s t : State} {w : BitVec 2} {u : Use} {q : Req} (h : t.ctx = s.ctx) (hk : t.ticks = s.ticks)
    (hp : (t.core s.ctx.core).proc s.ctx.pn = (s.begunProc w u).pendAll q.dests true) (wt : Option Wait) :
    s.Issued w q wt (t.goOn wt).me := by
  have hme : (t.goOn wt).me = s.issuedProc wt ((t.core s.ctx.core).proc s.ctx.pn) := by
    rw [State.goOn_eq h hk, State.me, State.modProc_ctx, h, State.proc_modProc]
    rfl
  rw [hme, hp]
  exact s.issued_issuedProc w u q wt

/-- Outside the issuing process, going on changes nothing. -/
theorem State.goOn_rest {s t : State} (h : t.ctx = s.ctx) (hk : t.ticks = s.ticks) (wt : Option Wait) :
    (∃ p, (t.goOn wt).core s.ctx.core = (t.core s.ctx.core).setProc s.ctx.pn p)
    ∧ (∀ j, j ≠ s.ctx.core → (t.goOn wt).core j = t.core j) ∧ { t.goOn wt with cores := t.cores } = t := by
  rw [State.goOn_eq h hk]
  exact ⟨⟨_, State.core_modProc t _ _ _⟩, fun j hj => State.core_modProc_ne t _ _ hj, rfl⟩

@[simp] theorem State.listed_proc (s : State) (w : BitVec 2) (u : Use) (x : List TlbEntry) (q : Req) :
    (s.listed w u x q).proc s.ctx.pn = (s.begunProc w u).pendAll q.dests true :=
  Core.proc_setProc (s.core s.ctx.core) s.ctx.pn _

theorem State.listed_proc_ne (s : State) (w : BitVec 2) (u : Use) (x : List TlbEntry) (q : Req) {n : Nat}
    (h : n ≠ s.ctx.pn) : (s.listed w u x q).proc n = (s.core s.ctx.core).proc n :=
  Core.proc_setProc_ne (s.core s.ctx.core) _ h

/-- Where a request stands last in a list, it alone is replaced by what it becomes, and those of other tags stay. -/
theorem Core.setReq_enlist (c : Core) {q r : Req} (h : q.tag = r.tag) :
    r ∈ ((c.enlist q).setReq r).reqs ∧ ((c.enlist q).setReq r).reqs.length = c.reqs.length + 1
      ∧ ∀ x ∈ c.reqs, x.tag ≠ r.tag → x ∈ ((c.enlist q).setReq r).reqs := by
  refine ⟨List.mem_map.2 ⟨q, by simp [Core.enlist], if_pos h⟩, by simp [Core.enlist, Core.setReq],
    fun x hx hne => ?_⟩
  exact List.mem_map.2 ⟨x, List.mem_append_left _ hx, if_neg hne⟩

/-- A request that has its entry is entered. -/
theorem State.enters_goOn {s y : State} {w : BitVec 2} {u : Use} {x : List TlbEntry} {q : Req}
    (hrun : s.me.state = .running)
    (hs : (s.withCore (s.listed w u x (s.numbered s.ctx.core q .sent))).Started y s.ctx.core (s.entry q)) :
    s.enters (y.goOn (s.numbered s.ctx.core q .sent).wait) w (s.entry q) := by
  obtain ⟨hcore, hothers, hmem, hctx, hticks, hcounted⟩ := hs
  rw [State.core_withCore] at hcore
  replace hctx : y.ctx = s.ctx := hctx
  replace hticks : y.ticks = s.ticks := hticks
  have hothers : ∀ j, j ≠ s.ctx.core → y.core j = s.core j := fun j hj =>
    (hothers j hj).trans (State.core_setCore_ne s _ hj)
  obtain ⟨⟨p, hp⟩, hrest, hframe⟩ := State.goOn_rest hctx hticks (s.numbered s.ctx.core q .sent).wait
  have hproc : (y.core s.ctx.core).proc s.ctx.pn = (s.begunProc w u).pendAll (s.entry q).dests true := by
    rw [hcore]
    exact s.listed_proc w u x _
  obtain ⟨hkeeps, hpc, hearly, hpend, hgoes⟩ :=
    State.issued_goOn (q := s.entry q) hctx hticks hproc (s.numbered s.ctx.core q .sent).wait
  obtain ⟨hin, hlen, hold⟩ := (s.core s.ctx.core).setReq_enlist (q := s.numbered s.ctx.core q .sent) (r := s.entry q) rfl
  unfold State.enters
  dsimp only
  rw [hp, hcore]
  refine ⟨hin, hlen, hold, rfl, hpend, hkeeps, hpc, hearly, ?_, ?_, ?_, ?_, ?_⟩
  · cases hb : (s.entry q).blocks with
    | true =>
      have hwait : (s.numbered s.ctx.core q .sent).wait = some (.access (s.entry q).tag) := if_pos hb
      rw [hwait] at hgoes ⊢
      exact hgoes
    | false =>
      have hwait : (s.numbered s.ctx.core q .sent).wait = none := if_neg (Bool.eq_false_iff.1 hb)
      rw [hwait] at hgoes ⊢
      rw [if_neg Bool.false_ne_true, ← hrun]
      exact hgoes
  · intro n hn
    rw [Core.proc_setProc_ne _ _ hn]
    exact s.listed_proc_ne w u x _ hn
  · exact fun k hk => (hrest k hk).trans (hothers k hk)
  · exact (congrArg State.mem hframe :).trans hmem
  · cases hl : (s.entry q).lost with
    | true =>
      rw [if_pos hl] at hcounted
      exact (congrArg (fun z : State => (z.pkg (pkgOf s.ctx.core)).isldrop) hframe :).trans hcounted
    | false =>
      rw [if_neg (Bool.eq_false_iff.1 hl)] at hcounted
      obtain ⟨hdies, hpkgs⟩ := hcounted
      exact ⟨(congrArg State.dies hframe :).trans hdies, (congrArg State.pkgs hframe :).trans hpkgs⟩

/-- A request that finds no entry stands aside. -/
theorem State.standsAside_goOn {s : State} {q : Req} (w : BitVec 2) (u : Use) (x : List TlbEntry) (hl : q.lost = false) :
    s.standsAside ((s.withCore (s.listed w u x (s.numbered s.ctx.core q .full))).goOn
      (s.numbered s.ctx.core q .full).wait) w q := by
  have hwait : (s.numbered s.ctx.core q .full).wait = some (.bufferFull (s.core s.ctx.core).nextTag) := rfl
  rw [hwait]
  obtain ⟨⟨p, hp⟩, hrest, hframe⟩ := State.goOn_rest (s := s)
    (t := s.withCore (s.listed w u x (s.numbered s.ctx.core q .full))) rfl rfl
    (some (.bufferFull (s.core s.ctx.core).nextTag))
  obtain ⟨hkeeps, hpc, hearly, hpend, hstate, hwt⟩ := State.issued_goOn (s := s) (w := w) (u := u) (q := q)
    (t := s.withCore (s.listed w u x (s.numbered s.ctx.core q .full))) rfl rfl
    (by rw [State.core_withCore]; exact s.listed_proc w u x _) (some (.bufferFull (s.core s.ctx.core).nextTag))
  unfold State.standsAside
  dsimp only
  rw [hp, State.core_withCore]
  refine ⟨?_, rfl, hpend, hkeeps, hpc, hearly, hstate, hwt, ?_, ?_, ?_⟩
  · have hq : ({ s.entry q with phase := .full, lost := false } : Req) = s.numbered s.ctx.core q .full := by
      rw [← hl]
      rfl
    rw [hq]
    exact List.mem_append_right _ (List.mem_singleton_self _)
  · intro n hn
    rw [Core.proc_setProc_ne _ _ hn]
    exact s.listed_proc_ne w u x _ hn
  · exact fun k hk => (hrest k hk).trans (State.core_setCore_ne s _ hk)
  · exact (congrArg (fun z : State => { z with cores := s.cores }) hframe :)

/-! ### The cases of a checked access -/

theorem State.enterLocated_held {t : State} {core : Nat} {r : Req} {l : Located}
    (h : ((placed core r l).kind.buffered && (placed core r l).leaves
      && (t.core core).regionOf (placed core r l).pn) = true) :
    t.enterLocated core r l = if (t.core core).hold.room 8 then
      (t.modCore core (fun c => c.holdStore (placed core r l))).advance else t.trap .specovf 0 :=
  if_pos h

theorem State.enterLocated_entered {t : State} {core : Nat} {r : Req} {l : Located}
    (h : ((placed core r l).kind.buffered && (placed core r l).leaves
      && (t.core core).regionOf (placed core r l).pn) = false) :
    t.enterLocated core r l = (t.enterReq core (placed core r l)).1.goOn (t.enterReq core (placed core r l)).2.wait :=
  if_neg (Bool.eq_false_iff.1 h)

theorem State.checkedAccess_of_placeOf {s : State} {r q : Req} (w : BitVec 2) (u : Use) (x : List TlbEntry)
    (h : s.placeOf r = some q) :
    ∃ l, q = placed s.ctx.core r l
      ∧ (s.opened w u x).checkedAccess s.ctx.core r = (s.opened w u x).enterLocated s.ctx.core r l := by
  obtain ⟨l, hl, htrap, hmiss, hq⟩ := State.placeOf_eq_some h
  refine ⟨l, hq, ?_⟩
  unfold State.checkedAccess
  rw [State.locate_opened, hl]
  cases l with
  | trap c => exact absurd rfl (htrap c)
  | miss => exact absurd rfl hmiss
  | own _ | tensor _ _ | away _ => rfl

theorem State.regionOf_opened (s : State) (w : BitVec 2) (u : Use) (x : List TlbEntry) {n : Nat} (h : n = s.ctx.pn) :
    ((s.opened w u x).core s.ctx.core).regionOf n = s.inRegion := by
  rw [State.core_opened, h]
  rfl

/-- An access that no region holds is entered, and goes on by what its request waits for. -/
theorem State.checked_entered {s : State} {r q : Req} (w : BitVec 2) (u : Use) (x : List TlbEntry)
    (hpn : q.pn = s.ctx.pn) (hp : s.placeOf r = some q) (hh : (q.kind.buffered && q.leaves && s.inRegion) = false) :
    (s.opened w u x).checkedAccess s.ctx.core r
      = ((s.opened w u x).enterReq s.ctx.core q).1.goOn ((s.opened w u x).enterReq s.ctx.core q).2.wait := by
  obtain ⟨l, rfl, hc⟩ := State.checkedAccess_of_placeOf w u x hp
  rw [hc, State.enterLocated_entered]
  rw [State.regionOf_opened s w u x hpn]
  exact hh

theorem State.entryFree_opened (s : State) (w : BitVec 2) (u : Use) (x : List TlbEntry) (q : Req) :
    ((s.opened w u x).core s.ctx.core).entryFree q = (s.core s.ctx.core).entryFree q := by
  rw [State.core_opened]
  rfl

theorem State.checked_enters {s : State} {r q : Req} (w : BitVec 2) (u : Use) (x : List TlbEntry)
    (hrun : s.me.state = .running) (hpn : r.pn = s.ctx.pn) (hlost : r.lost = false) (hp : s.placeOf r = some q)
    (hh : (q.kind.buffered && q.leaves && s.inRegion) = false) (hf : (s.core s.ctx.core).entryFree q = true) :
    s.enters ((s.opened w u x).checkedAccess s.ctx.core r) w (s.entry q) := by
  obtain ⟨hqpn, -, hqlost⟩ := State.placeOf_keeps hp
  rw [hpn] at hqpn
  rw [State.checked_entered w u x hqpn hp hh, State.enterReq_free ((s.entryFree_opened w u x q).trans hf),
    State.numbered_opened, State.enlisted_opened (q := s.numbered s.ctx.core q .sent) w u x hqpn]
  exact State.enters_goOn hrun (State.startReq_started _ _ (hqlost.trans hlost))

theorem State.checked_standsAside {s : State} {r q : Req} (w : BitVec 2) (u : Use) (x : List TlbEntry)
    (hpn : r.pn = s.ctx.pn) (hlost : r.lost = false) (hp : s.placeOf r = some q)
    (hh : (q.kind.buffered && q.leaves && s.inRegion) = false) (hf : (s.core s.ctx.core).entryFree q = false) :
    s.standsAside ((s.opened w u x).checkedAccess s.ctx.core r) w q := by
  obtain ⟨hqpn, -, hqlost⟩ := State.placeOf_keeps hp
  rw [hpn] at hqpn
  rw [State.checked_entered w u x hqpn hp hh, State.enterReq_full ((s.entryFree_opened w u x q).trans hf),
    State.numbered_opened, State.enlisted_opened (q := s.numbered s.ctx.core q .full) w u x hqpn]
  exact State.standsAside_goOn w u x (hqlost.trans hlost)

/-- What an open region does with a store that leaves its core: held where there is room, else SPECOVF. -/
theorem State.checked_held {s : State} {r q : Req} (w : BitVec 2) (u : Use) (x : List TlbEntry)
    (hpn : r.pn = s.ctx.pn) (hp : s.placeOf r = some q) (hh : (q.kind.buffered && q.leaves && s.inRegion) = true) :
    (s.opened w u x).checkedAccess s.ctx.core r = if (s.core s.ctx.core).hold.room 8 then
      ((s.opened w u x).modCore s.ctx.core (fun c => c.holdStore q)).advance else (s.opened w u x).trap .specovf 0 := by
  obtain ⟨hqpn, -, -⟩ := State.placeOf_keeps hp
  obtain ⟨l, rfl, hc⟩ := State.checkedAccess_of_placeOf w u x hp
  have hqpn : (placed s.ctx.core r l).pn = s.ctx.pn := hqpn.trans hpn
  rw [hc, State.enterLocated_held (by rw [State.regionOf_opened s w u x hqpn]; exact hh), State.core_opened]
  rfl

theorem State.advance_withCore (s : State) (c : Core) : (s.withCore c).advance
    = s.withCore (c.setProc s.ctx.pn ((c.proc s.ctx.pn).stepPc s.ctx.pc s.ctx.rep.isSome)) := by
  simp [State.advance, State.modMe, State.modProc, State.setProc, State.proc, State.withCore, State.modCore]

/-- A held store stands in the hold buffer, and its process goes on. -/
theorem State.holds1_advance (s : State) (w : BitVec 2) (u : Use) (x : List TlbEntry) (q : Req) :
    s.holds1 ((s.opened w u x).modCore s.ctx.core (fun c => c.holdStore q)).advance w q := by
  have hadv : ((s.opened w u x).modCore s.ctx.core (fun c => c.holdStore q)).advance = s.withCore
      (({ (s.core s.ctx.core).setProc s.ctx.pn ((s.begunProc w u).stepPc s.ctx.pc s.ctx.rep.isSome) with
        tlbRecent := x } : Core).holdStore q) := by
    rw [State.opened, State.withCore_modCore, State.advance_withCore]
    simp [Core.holdStore, Core.setProc, Core.proc]
  have hme : ((s.opened w u x).modCore s.ctx.core (fun c => c.holdStore q)).advance.me
      = (s.begunProc w u).stepPc s.ctx.pc s.ctx.rep.isSome := by
    rw [hadv, State.me_withCore]
    exact Core.proc_setProc (s.core s.ctx.core) s.ctx.pn _
  unfold State.holds1
  dsimp only
  rw [hme, hadv, State.core_withCore]
  exact ⟨rfl, rfl, rfl, Proc.stepPc_pc s _ (s.begunProc_repRemain w u), Proc.stepPc_earliest _ _ _,
    (Proc.stepPc_pend _ _ _).trans (s.begunProc_pend w u), Proc.keeps_stepPc (s.keeps_begunProc w u) _ _,
    s.onlyCore_withCore _⟩

theorem State.checked_trap {s : State} {r : Req} {c : Cause} (w : BitVec 2) (u : Use) (x : List TlbEntry)
    (h : s.locate s.ctx.core r = .trap c) :
    (s.opened w u x).checkedAccess s.ctx.core r = (s.opened w u x).trap c r.ea := by
  unfold State.checkedAccess
  rw [State.locate_opened, h]

/-- A trap of the instruction, from the state in which it has begun. -/
theorem State.endsIn_opened {s : State} {i : Instr} {w : BitVec 2} {u : Use} {x : List TlbEntry} {c : Cause} {a : Word}
    (h : exec i s = .next ((s.opened w u x).trap c a)) : s.endsIn i c a := by
  refine ⟨_, h, rfl, ?_, ?_, ?_, s.onlyCore_withCore _⟩
  all_goals rw [State.me_opened]
  · exact s.keeps_begunProc w u
  · exact s.begunProc_pend w u
  · exact (s.begunProc_as w u).1

/-- A TLB miss: the process waits for the die's walker. -/
theorem State.checked_miss {s : State} {r : Req} (w : BitVec 2) (u : Use) (x : List TlbEntry)
    (hpn : r.pn = s.ctx.pn) (h : s.locate s.ctx.core r = .miss) :
    (s.opened w u x).checkedAccess s.ctx.core r
      = ((s.opened w u x).askWalk s.ctx.core s.ctx.pn r.ea.toNat r.job).goOn (some (.walk r)) := by
  unfold State.checkedAccess
  rw [State.locate_opened, h, ← hpn]
  rfl

/-- The state in which the process waits for the walker. -/
theorem State.walk_goOn (s : State) (w : BitVec 2) (u : Use) (x : List TlbEntry) (va job : Nat) (r : Req) :
    let t := ((s.opened w u x).askWalk s.ctx.core s.ctx.pn va job).goOn (some (.walk r))
    t.me.state = .blockedSync ∧ t.me.wait = .walk r ∧ t.me.pc = s.nextPc ∧ s.me.keeps t.me ∧ t.me.pend = s.me.pend
      ∧ t.mem = s.mem ∧ (t.die (dieOf s.ctx.core)).walks = (s.die (dieOf s.ctx.core)).walks ++ [{
          job := job, va := va, asker := .access s.ctx.core s.ctx.pn }] := by
  have hme : (((s.opened w u x).askWalk s.ctx.core s.ctx.pn va job).goOn (some (.walk r))).me
      = s.issuedProc (some (.walk r)) (s.begunProc w u) := by
    rw [State.goOn_eq (s := s) (t := (s.opened w u x).askWalk s.ctx.core s.ctx.pn va job) rfl rfl, ← s.me_opened w u x]
    exact State.me_modMe ((s.opened w u x).askWalk s.ctx.core s.ctx.pn va job) _
  obtain ⟨hkeeps, hpc, -, -, hstate, hwait⟩ := s.issued_issuedProc w u { kind := .store } (some (.walk r))
  have hdie : (((s.opened w u x).askWalk s.ctx.core s.ctx.pn va job).die (dieOf s.ctx.core)).walks
      = (s.die (dieOf s.ctx.core)).walks ++ [{ job := job, va := va, asker := .access s.ctx.core s.ctx.pn }] := by
    rw [State.askWalk, State.die_modDie]
    rfl
  dsimp only
  rw [hme]
  exact ⟨hstate, hwait, hpc, hkeeps, (Proc.stepPc_pend _ _ _).trans (s.begunProc_pend w u), rfl, hdie⟩

/-! ### Memory instructions at issue -/

/-- A word whose body is one access does at issue what `State.accesses` says. -/
theorem State.accesses_of {s : State} {i : Instr} {w : BitVec 2} {u : Use} {r0 : Req}
    (h : exec i s = s.issue w u (fun t => t.access r0)) (hc : s.clear u = true)
    (hw : r0.kind.waits = true → s.inHandler = false) (hl : r0.lost = false) : s.accesses i w r0 := by
  obtain ⟨x, hx⟩ := State.access_begun w u hw
  have he : exec i s = .next ((s.begun w u).access r0) := h.trans (State.issue_clear hc w _)
  refine ⟨fun hb => ?_, fun hb => ?_⟩
  · rw [hx, if_pos (show (_ && (spaceOf _ r0.ea).leaves) = true from hb), State.begun_eq_opened] at he
    exact State.endsIn_opened he
  rw [hx, if_neg (Bool.eq_false_iff.1 (show (_ && (spaceOf _ r0.ea).leaves) = false from hb))] at he
  refine ⟨fun q hq hh hf => ?_, fun q hq hh hf => ?_, fun q hq hh hr => ?_, fun q hq hh hr => ?_,
    fun c ht => ?_, fun hm => ?_⟩
  · exact ⟨_, he, State.checked_enters w u x (State.clear_running hc) rfl hl hq hh hf⟩
  · exact ⟨_, he, State.checked_standsAside w u x rfl hl hq hh hf⟩
  · rw [State.checked_held w u x rfl hq hh, if_pos hr] at he
    exact ⟨_, he, s.holds1_advance w u x q⟩
  · rw [State.checked_held w u x rfl hq hh, if_neg (Bool.eq_false_iff.1 hr)] at he
    exact State.endsIn_opened he
  · rw [State.checked_trap w u x ht] at he
    exact State.endsIn_opened he
  · rw [State.checked_miss w u x rfl hm] at he
    exact ⟨_, he, s.walk_goOn w u x _ _ _⟩

/-- A word whose access does not wait for a full or empty word. -/
theorem State.accesses_of_not_waits {s : State} {i : Instr} {w : BitVec 2} {u : Use} {r0 : Req}
    (h : exec i s = s.issue w u (fun t => t.access r0)) (hc : s.clear u = true) (hw : r0.kind.waits = false)
    (hl : r0.lost = false) : s.accesses i w r0 :=
  State.accesses_of h hc (fun hk => absurd (hw.symm.trans hk) Bool.false_ne_true) hl

/-- Settles O21: each word's body is the access of its request. -/
theorem loadsAndAtomicsIssue : Obligations.LoadsAndAtomicsIssue := by
  unfold Obligations.LoadsAndAtomicsIssue
  iterate 8 refine ⟨fun _ _ _ _ _ hc => State.accesses_of_not_waits rfl hc rfl rfl, ?_⟩
  iterate 11 refine ⟨fun _ _ _ _ _ _ hc => State.accesses_of_not_waits rfl hc rfl rfl, ?_⟩
  exact fun _ _ _ _ _ _ hc => State.accesses_of_not_waits rfl hc rfl rfl

theorem accesses_sd {s : State} (w : BitVec 2) (r a : BitVec 5) (o : BitVec 11)
    (hc : s.clear { reads := [s.ra a, s.rd r] } = true) : s.accesses (.sd w r a o) w {
      kind := .store, ea := s.g (s.ra a) + (o.signExtend 64 : Word) * 8, size := 8, data := s.g (s.rd r) } :=
  State.accesses_of_not_waits rfl hc rfl rfl

/-- Settles O22: a store that an open region holds is the third case of an access. -/
theorem storesIssue : Obligations.StoresIssue := by
  unfold Obligations.StoresIssue
  iterate 6 refine ⟨fun _ _ _ _ _ hc => State.accesses_of_not_waits rfl hc rfl rfl, ?_⟩
  intro s w r a o q hc hin hq hl hroom
  have hheldq : (q.kind.buffered && q.leaves && s.inRegion) = true := by
    obtain ⟨-, hkind, -⟩ := State.placeOf_keeps hq
    rw [hkind, hl, hin]
    rfl
  obtain ⟨-, hopen⟩ := accesses_sd w r a o hc
  obtain ⟨-, -, hheld, -⟩ := hopen rfl
  obtain ⟨t, ht, hitems, hreqs, -, hpc, -, -, hkeeps, -, hframe⟩ := hheld q hq hheldq hroom
  exact ⟨t, ht, hitems, hreqs, hpc, hkeeps, (congrArg State.mem hframe :)⟩

/-- In a handler, an access that waits traps PROT (R195). -/
theorem exec_waits_handler {s : State} {i : Instr} {w : BitVec 2} {u : Use} {r : Req}
    (h : exec i s = s.issue w u (fun t => t.access r)) (hc : s.clear u = true) (hw : r.kind.waits = true)
    (hh : s.inHandler = true) : exec i s = .next ((s.begun w u).trap .prot r.ea) := by
  rw [h, State.issue_clear hc, State.access_eq_ite, if_pos]
  rw [hw, Bool.and_true, decide_eq_true_eq]
  exact beq_iff_eq.1 hh

/-- At an address that leaves the core, an access that a region bars traps PROT (R205). -/
theorem exec_barred_region {s : State} {i : Instr} {w : BitVec 2} {u : Use} {r : Req}
    (h : exec i s = s.issue w u (fun t => t.access r)) (hc : s.clear u = true) (hb : r.kind.barred = true)
    (hin : s.inRegion = true) (hl : (spaceOf (isKernel s.ctx.core) r.ea).leaves = true) :
    exec i s = .next ((s.begun w u).trap .prot r.ea) := by
  rw [h, State.issue_clear hc, State.access_eq_ite, State.inRegion_begun, State.begun_ctx, hb, hin, hl,
    Bool.and_true, Bool.and_true, if_pos rfl, ite_self]

/-- Settles O23: READF, TAKE, PUT and FILL are accesses that wait, and trap PROT in a handler. -/
theorem blockingAccessesIssue : Obligations.BlockingAccessesIssue := by
  unfold Obligations.BlockingAccessesIssue
  iterate 4 refine ⟨fun _ _ _ _ _ hc hh => State.accesses_of rfl hc (fun _ => hh) rfl, ?_⟩
  refine ⟨fun s w d a o hc hh i hi => ?_, fun s w r a o hc hh i hi => ?_, fun s w d a o hc hin hl => ?_⟩
  · rcases List.mem_pair.1 hi with rfl | rfl
    · exact (exec_waits_handler (i := .readf w d a o) rfl hc rfl hh :)
    · exact (exec_waits_handler (i := .take w d a o) rfl hc rfl hh :)
  · rcases List.mem_pair.1 hi with rfl | rfl
    · exact (exec_waits_handler (i := .put w r a o) rfl hc rfl hh :)
    · exact (exec_waits_handler (i := .fill w r a o) rfl hc rfl hh :)
  · exact (exec_barred_region (i := .take w d a o) rfl hc rfl hin hl :)

end Sys2Proof.Machine
end

/-! ## Fences (R139 to R141, R278, R281, R282) -/

section
namespace Sys2Proof.Machine

/-! ### Fences at issue -/

@[simp] theorem State.inHandler_begun (s : State) (w : BitVec 2) (u : Use) : (s.begun w u).inHandler = s.inHandler := rfl

/-- A word without operands that blocks its process. -/
theorem State.blocks_of {s : State} {i : Instr} {w : BitVec 2} {st : ProcState} {wt : Wait}
    (h : exec i s = .next ((s.begun w {}).block st wt)) : s.blocks i w st wt :=
  State.acts_modMe_advance h (fun _ => rfl) (fun _ => rfl) (by simp [State.begunProc, Proc.moved, State.blocking])

theorem exec_fence {s : State} {i : Instr} {w : BitVec 2} {scope : Scope} (hi : exec i s = s.fence w scope)
    (h : s.clear {} = true) (hh : s.inHandler = false) :
    exec i s = .next ((s.begun w {}).block .blockedSync (.fence scope (s.core s.ctx.core).nextTag)) := by
  rw [hi, State.fence, State.issue_clear h]
  exact congrArg _ (if_neg (Bool.eq_false_iff.1 hh))

theorem exec_fence_handler {s : State} {i : Instr} {w : BitVec 2} {scope : Scope} (hi : exec i s = s.fence w scope)
    (h : s.clear {} = true) (hh : s.inHandler = true) : exec i s = .next ((s.begun w {}).trap .prot 0) := by
  rw [hi, State.fence, State.issue_clear h]
  exact congrArg _ (if_pos hh)

/-- The issue of an XFENCE whose path codes name paths. -/
theorem exec_xfence {s : State} (w : BitVec 2) {p q : BitVec 3} (hp : s.pathA p < 7) (hq : s.pathB q < 7)
    (h : s.clear {} = true) :
    exec (.xfence w p q) s = .next ((s.begun w {}).noHandler 0 (fun t =>
      if s.pathA p = s.pathB q then t.advance
      else t.block .blockedSync (.xfence (pathOf (s.pathA p)) (pathOf (s.pathB q))))) := by
  change execXfence w p q s = _
  rw [execXfence, decide_eq_true hp, decide_eq_true hq]
  exact State.issue_clear h w _

theorem exec_xfence_same {s : State} (w : BitVec 2) {p q : BitVec 3} (hp : s.pathA p < 7) (hpq : s.pathA p = s.pathB q)
    (h : s.clear {} = true) (hh : s.inHandler = false) : exec (.xfence w p q) s = .next (s.begun w {}).advance := by
  rw [exec_xfence w hp (hpq ▸ hp) h, State.noHandler, State.inHandler_begun, if_neg (Bool.eq_false_iff.1 hh), if_pos hpq]

theorem exec_xfence_paths {s : State} (w : BitVec 2) {p q : BitVec 3} (hp : s.pathA p < 7) (hq : s.pathB q < 7)
    (hpq : s.pathA p ≠ s.pathB q) (h : s.clear {} = true) (hh : s.inHandler = false) :
    exec (.xfence w p q) s
      = .next ((s.begun w {}).block .blockedSync (.xfence (pathOf (s.pathA p)) (pathOf (s.pathB q)))) := by
  rw [exec_xfence w hp hq h, State.noHandler, State.inHandler_begun, if_neg (Bool.eq_false_iff.1 hh), if_neg hpq]

theorem exec_xfence_handler {s : State} (w : BitVec 2) {p q : BitVec 3} (hp : s.pathA p < 7) (hq : s.pathB q < 7)
    (h : s.clear {} = true) (hh : s.inHandler = true) : exec (.xfence w p q) s = .next ((s.begun w {}).trap .prot 0) := by
  rw [exec_xfence w hp hq h, State.noHandler, State.inHandler_begun, if_pos hh]

/-- A path code that a repeat steps past the paths is illegal; an XFENCE has no registers to wait for (R26). -/
theorem exec_xfence_illegal {s : State} (w : BitVec 2) {p q : BitVec 3} (h : 7 ≤ s.pathA p ∨ 7 ≤ s.pathB q)
    (hr : s.me.state = .running) : exec (.xfence w p q) s = .next (s.trap .ill 0) := by
  have hl : (decide (s.pathA p < 7) && decide (s.pathB q < 7)) = false := by
    rcases h with h | h <;> simp [h]
  change execXfence w p q s = _
  simp [execXfence, State.issue, hr, hl, State.waitsTag, State.waitsFlight]

/-! ### Releases -/

/-- The end of a wait for a process that is not at its end: it runs in its slot, or is READY outside one (R149). -/
theorem State.proc_wake {s : State} {core pn : Nat} (h : (s.proc core pn).state = .blockedSync) :
    (s.wake core pn).proc core pn = { s.proc core pn with
      wait := .none, state := if (s.core core).slotOf pn = none then .ready else .running } := by
  have h' : ((s.core core).proc pn).state = .blockedSync := h
  simp only [State.wake, State.proc, State.core_modCore, h']
  cases (s.core core).slotOf pn with
  | some i => exact Core.proc_setProc _ _ _
  | none =>
    dsimp only
    rw [if_neg (by decide)]
    split
    all_goals exact Core.proc_setProc _ _ _

/-- The release of a fence, and of an XFENCE, before its process goes on. -/
def State.fenced (s : State) (core pn : Nat) (scope : Scope) (upto : Nat) : State :=
  (s.modCore core (fun c => c.fencedStores scope pn upto)).modProc core pn (fun p => p.fencedBy scope s.mem.age)

def State.xfenced (s : State) (core pn : Nat) (e : Path × Path × Nat) : State :=
  { s with carries := e :: s.carries.filter (fun x => !(x.1 == e.1 && x.2.1 == e.2.1 && x.2.2 ≤ e.2.2)) }.modProc core pn
    (fun x => { x with carried := e :: x.carried })

theorem exec_fenceRelease {s : State} {core pn upto : Nat} {scope : Scope} (h : (s.proc core pn).wait = .fence scope upto) :
    exec (.fenceRelease core pn) s = .next (if (s.core core).fenceDone scope pn upto then
      (s.fenced core pn scope upto).wake core pn else s) := by
  change execFenceRelease core pn s = _
  simp only [execFenceRelease, h]
  rfl

theorem exec_xfenceRelease {s : State} {core pn : Nat} {p q : Path} (h : (s.proc core pn).wait = .xfence p q) :
    exec (.xfenceRelease core pn) s
      = .next ((s.xfenced core pn (p, q, (s.proc core pn).observedAge p)).wake core pn) := by
  change execXfenceRelease core pn s = _
  simp only [execXfenceRelease, h]
  rfl

theorem Core.fencedStores_keeps (c : Core) (scope : Scope) (pn upto : Nat) :
    (c.fencedStores scope pn upto).procs = c.procs ∧ (c.fencedStores scope pn upto).slots = c.slots := by
  unfold Core.fencedStores
  split_ifs
  all_goals exact ⟨rfl, rfl⟩

theorem State.proc_fenced (s : State) (core pn : Nat) (scope : Scope) (upto : Nat) :
    (s.fenced core pn scope upto).proc core pn = (s.proc core pn).fencedBy scope s.mem.age := by
  rw [State.fenced, State.proc_modProc, State.proc, State.core_modCore, Core.proc, (Core.fencedStores_keeps _ _ _ _).1]
  rfl

theorem State.slotOf_fenced (s : State) (core pn : Nat) (scope : Scope) (upto : Nat) :
    ((s.fenced core pn scope upto).core core).slotOf pn = (s.core core).slotOf pn := by
  rw [State.fenced, State.core_modProc, Core.slotOf_setProc, State.core_modCore, Core.slotOf,
    (Core.fencedStores_keeps _ _ _ _).2]
  rfl

theorem Proc.fencedBy_keeps (p : Proc) (scope : Scope) (age : Nat) : (p.fencedBy scope age).state = p.state
    ∧ (p.fencedBy scope age).fencedDie = (if scope = .die then age else p.fencedDie)
    ∧ (p.fencedBy scope age).fenced = (if scope = .all then age else p.fenced) := by
  cases scope
  all_goals exact ⟨rfl, rfl, rfl⟩

theorem State.fence_releases {s : State} {core pn upto : Nat} {scope : Scope}
    (hw : (s.proc core pn).wait = .fence scope upto) (hd : (s.core core).fenceDone scope pn upto = true)
    (hs : (s.proc core pn).state = .blockedSync) :
    ∃ t, exec (.fenceRelease core pn) s = .next t ∧ (t.proc core pn).wait = .none
      ∧ (t.proc core pn).state = (if (s.core core).slotOf pn = none then .ready else .running)
      ∧ (t.proc core pn).fencedDie = (if scope = .die then s.mem.age else (s.proc core pn).fencedDie)
      ∧ (t.proc core pn).fenced = (if scope = .all then s.mem.age else (s.proc core pn).fenced) ∧ t.mem = s.mem := by
  obtain ⟨hstate, hdie, hall⟩ := (s.proc core pn).fencedBy_keeps scope s.mem.age
  refine ⟨_, (exec_fenceRelease hw).trans (by rw [if_pos hd]), ?_⟩
  rw [State.proc_wake (by rw [State.proc_fenced, hstate, hs]), State.slotOf_fenced, State.proc_fenced]
  exact ⟨rfl, rfl, hdie, hall, rfl⟩

theorem State.xfence_releases {s : State} {core pn : Nat} {p q : Path} (hw : (s.proc core pn).wait = .xfence p q)
    (hs : (s.proc core pn).state = .blockedSync) :
    ∃ t, exec (.xfenceRelease core pn) s = .next t ∧ (t.proc core pn).wait = .none
      ∧ (t.proc core pn).carried = (p, q, (s.proc core pn).observedAge p) :: (s.proc core pn).carried
      ∧ (p, q, (s.proc core pn).observedAge p) ∈ t.carries ∧ t.mem = s.mem := by
  have hp : ∀ e, (s.xfenced core pn e).proc core pn = { s.proc core pn with carried := e :: (s.proc core pn).carried } :=
    fun e => State.proc_modProc _ _ _ _
  refine ⟨_, exec_xfenceRelease hw, ?_⟩
  rw [State.proc_wake (by rw [hp]; exact hs), hp]
  exact ⟨rfl, rfl, List.mem_cons_self, rfl⟩

theorem Core.fenceDone_eq_all (c : Core) (scope : Scope) (pn upto : Nat) :
    c.fenceDone scope pn upto = c.reqs.all (fun r => decide (r.pn ≠ pn) || decide (upto ≤ r.tag)
      || r.ended || decide (r.phase = .performed) || (decide (scope = .core) && r.inBuffer)) := by
  unfold Core.fenceDone
  congr 1
  funext r
  rw [decide_not]
  rfl

/-- Settles O24: a fence blocks its process, and its release tests the accesses that it waits for. -/
theorem fencesHoldAndRelease : Obligations.FencesHoldAndRelease := by
  refine ⟨fun s w h hh => State.blocks_of (exec_fence rfl h hh), fun s w h hh => State.blocks_of (exec_fence rfl h hh),
    fun s w h hh => State.blocks_of (exec_fence rfl h hh),
    fun s w p q hp hpq h hh => State.acts_advance (exec_xfence_same w hp hpq h hh),
    fun s w p q hp hq hpq h hh => State.blocks_of (exec_xfence_paths w hp hq hpq h hh),
    fun s w p q => exec_xfence_illegal w, fun s w p q hp hq h hh i hi => ?_,
    fun s core pn scope upto => State.fence_releases,
    fun s core pn scope upto hw hd => (exec_fenceRelease hw).trans (by rw [hd]; rfl),
    Core.fenceDone_eq_all, fun s core pn p q => State.xfence_releases⟩
  rcases List.mem_cons.1 hi with rfl | hi
  · exact exec_fence_handler rfl h hh
  rcases List.mem_cons.1 hi with rfl | hi
  · exact exec_fence_handler rfl h hh
  rcases List.mem_cons.1 hi with rfl | hi
  · exact exec_fence_handler rfl h hh
  obtain rfl := List.mem_singleton.1 hi
  exact exec_xfence_handler w hp hq h hh

end Sys2Proof.Machine
end

/-! ## Accesses at their point of service (R127 to R138, R166) -/

section
namespace Sys2Proof.Machine

/-! ### Bytes, bits and poison after a write -/

theorem Memory.byte_write {m : Memory} (h : m.wf = true) (k n v a : Nat) :
    (m.write k n v).byte a = if k ≤ a ∧ a < k + n then BitVec.ofNat 8 (v / 256 ^ (a - k)) else m.byte a := by
  induction n generalizing m k v with
  | zero => rw [if_neg (by omega)]; rfl
  | succ n ih =>
    rw [Memory.write, ih (Memory.wf_setByte h _ _)]
    rcases Nat.lt_trichotomy a k with hlt | rfl | hgt
    · rw [if_neg (by omega), if_neg (by omega), Memory.byte_setByte_ne _ _ (by omega)]
    · rw [if_neg (by omega), if_pos (by omega), Memory.byte_setByte_self h, Nat.sub_self, Nat.pow_zero, Nat.div_one]
    · have hexp : a - k = a - (k + 1) + 1 := by omega
      rw [Memory.byte_setByte_ne _ _ (by omega), hexp, Nat.pow_succ', ← Nat.div_div_eq_div_mul]
      exact if_congr (by omega) rfl rfl

@[simp] theorem Memory.full_write (m : Memory) (k n v : Nat) : (m.write k n v).full = m.full := by
  induction n generalizing m k v with
  | zero => rfl
  | succ n ih => exact ih _ _ _

@[simp] theorem Memory.poison_write (m : Memory) (k n v : Nat) : (m.write k n v).poison = m.poison := by
  induction n generalizing m k v with
  | zero => rfl
  | succ n ih => exact ih _ _ _

/-- Owner tags and the record of R281 are no bytes. -/
theorem Memory.byte_writeOn {m : Memory} (h : m.wf = true) (p : Path) (pid job k n v a : Nat) :
    (m.writeOn p pid job k n v).byte a = if k ≤ a ∧ a < k + n then BitVec.ofNat 8 (v / 256 ^ (a - k)) else m.byte a := by
  generalize hx : (if k ≤ a ∧ a < k + n then BitVec.ofNat 8 (v / 256 ^ (a - k)) else m.byte a) = x
  have hlog : ∀ {c : Memory}, c.wf = true → (∀ y, c.byte y = m.byte y) → (c.write k n v).byte a = x :=
    fun hc hb => by rw [Memory.byte_write hc, hb, hx]
  simp only [Memory.writeOn]
  split_ifs
  all_goals exact hlog h fun _ => rfl

@[simp] theorem Memory.full_writeOn (m : Memory) (p : Path) (pid job k n v : Nat) :
    (m.writeOn p pid job k n v).full = m.full := by
  simp only [Memory.writeOn]
  split_ifs
  all_goals exact Memory.full_write _ _ _ _

@[simp] theorem Memory.poison_writeOn (m : Memory) (p : Path) (pid job k n v : Nat) :
    (m.writeOn p pid job k n v).poison = m.poison := by
  simp only [Memory.writeOn]
  split_ifs
  all_goals exact Memory.poison_write _ _ _ _

/-! ### Each kind of access -/

section
variable {m : Memory} {r : Req} {k : Nat} (pid : Nat) (seen : Word)

/-- The request of an access performed on a word of device memory that is not poisoned. -/
def Req.served (r : Req) (m : Memory) (k : Nat) : Req :=
  { r with phase := .performed, bit := m.isFull (k / 8), poisoned := false }

theorem Memory.serve_store (hp : m.isPoisoned k = false) (hh : r.host = false) (hk : r.kind = .store ∨ r.kind = .fill) :
    m.serve r pid k seen
      = some ((m.writeOn r.path pid r.job k r.size r.data.toNat).setFull (k / 8) true, r.served m k) := by
  rcases hk with hk | hk
  all_goals simp [Memory.serve, Req.served, hk, hp, hh]

theorem Memory.serve_clear (hp : m.isPoisoned k = false) (hh : r.host = false) (hk : r.kind = .clear) :
    m.serve r pid k seen
      = some ((m.writeOn r.path pid r.job k r.size r.data.toNat).setFull (k / 8) false, r.served m k) := by
  simp [Memory.serve, Req.served, hk, hp, hh]

theorem Memory.serve_ovwr (hp : m.isPoisoned k = false) (hh : r.host = false) (hk : r.kind = .ovwr) :
    m.serve r pid k seen = some (m.writeOn r.path pid r.job k r.size r.data.toNat, r.served m k) := by
  simp [Memory.serve, Req.served, hk, hp, hh]

theorem Memory.serve_put_empty (hp : m.isPoisoned k = false) (hh : r.host = false) (hk : r.kind = .put)
    (hf : m.isFull (k / 8) = false) :
    m.serve r pid k seen
      = some ((m.writeOn r.path pid r.job k r.size r.data.toNat).setFull (k / 8) true, r.served m k) := by
  simp [Memory.serve, Req.served, hk, hp, hh, hf]

theorem Memory.serve_put_full (hk : r.kind = .put) (hf : m.isFull (k / 8) = true) : m.serve r pid k seen = none := by
  simp [Memory.serve, hk, hf]

theorem Memory.serve_readf_full (hp : m.isPoisoned k = false) (hh : r.host = false) (hk : r.kind = .readf)
    (hf : m.isFull (k / 8) = true) :
    m.serve r pid k seen = some (m, { r.served m k with result := BitVec.ofNat 64 (m.read k r.size) }) := by
  simp [Memory.serve, Req.served, hk, hp, hh, hf]

theorem Memory.serve_take_full (hp : m.isPoisoned k = false) (hh : r.host = false) (hk : r.kind = .take)
    (hf : m.isFull (k / 8) = true) :
    m.serve r pid k seen = some ((m.setFull (k / 8) false).setTag (k / 64) r.job,
      { r.served m k with result := BitVec.ofNat 64 (m.read k r.size) }) := by
  have hp' : (m.setFull (k / 8) false).isPoisoned k = false := hp
  simp [Memory.serve, Req.served, hk, hp, hp', hh, hf]

theorem Memory.serve_acquire_empty (hh : r.host = false) (hk : r.kind = .readf ∨ r.kind = .take)
    (hf : m.isFull (k / 8) = false) : m.serve r pid k seen = none := by
  rcases hk with hk | hk
  all_goals simp [Memory.serve, hk, hh, hf]

theorem Memory.serve_load (hp : m.isPoisoned k = false) (hh : r.host = false) {g : Bool} (hk : r.kind = .load g)
    (hf : r.fe = false ∨ m.isFull (k / 8) = true) :
    m.serve r pid k seen = some (m, { r.served m k with
      result := extend g r.size (seen.toNat / 256 ^ (k % 8) % 256 ^ r.size) }) := by
  rcases hf with hf | hf
  all_goals simp [Memory.serve, Req.served, hk, hp, hh, hf]

theorem Memory.serve_load_empty (hh : r.host = false) {g : Bool} (hk : r.kind = .load g) (hfe : r.fe = true)
    (hf : m.isFull (k / 8) = false) : m.serve r pid k seen = none := by
  simp [Memory.serve, hk, hh, hf, hfe]

theorem Memory.serve_peek (hp : m.isPoisoned k = false) (hh : r.host = false) (hk : r.kind = .peek) :
    m.serve r pid k seen = some (m, { r.served m k with result := BitVec.ofNat 64 (m.read k r.size) }) := by
  simp [Memory.serve, Req.served, hk, hp, hh]

theorem Memory.serve_amo (hp : m.isPoisoned k = false) (hh : r.host = false) {op : Nat} (hk : r.kind = .amo op) :
    m.serve r pid k seen = some
      (m.writeOn r.path pid r.job k r.size (amoNew op r.size (m.read k r.size) (r.data.toNat % 256 ^ r.size)).1,
        { r.served m k with
          result := extend (amoSigned op) r.size (m.read k r.size)
          flags := (amoNew op r.size (m.read k r.size) (r.data.toNat % 256 ^ r.size)).2 }) := by
  simp [Memory.serve, Req.served, hk, hp, hh]

theorem Memory.serve_cas_equal (hp : m.isPoisoned k = false) (hh : r.host = false) (hk : r.kind = .cas)
    (he : m.read k r.size = r.cmp.toNat % 256 ^ r.size) :
    m.serve r pid k seen = some (m.writeOn r.path pid r.job k r.size (r.data.toNat % 256 ^ r.size),
      { r.served m k with result := extend true r.size (m.read k r.size) }) := by
  simp [Memory.serve, Req.served, hk, hp, hh, he]

theorem Memory.serve_cas_unequal (hp : m.isPoisoned k = false) (hh : r.host = false) (hk : r.kind = .cas)
    (he : m.read k r.size ≠ r.cmp.toNat % 256 ^ r.size) :
    m.serve r pid k seen = some (m, { r.served m k with result := extend true r.size (m.read k r.size) }) := by
  simp [Memory.serve, Req.served, hk, hp, hh, he]

theorem Memory.serve_iterClaim (hp : m.isPoisoned k = false) (hh : r.host = false) (hk : r.kind = .iterClaim) :
    m.serve r pid k seen = some
      (m.writeOn r.path pid r.job k r.size (m.read k r.size
        + claimChunk r.data.toNat (r.cmp.toNat / 2 ^ 32) (r.cmp.toNat % 2 ^ 32) (m.read k r.size)),
        { r.served m k with result := BitVec.ofNat 64 (m.read k r.size) }) := by
  simp [Memory.serve, Req.served, hk, hp, hh]

end

end Sys2Proof.Machine
end

section
open Sys2Proof.Machine
open Sys2Proof (Word word)

/-! ### Shapes of service -/

theorem bitAt_of_full {m m' : Memory} (h : m'.full = m.full) (w : Nat) : bitAt m m' w (m.isFull w) := by
  intro x
  rw [Memory.isFull, h]
  split_ifs with hx
  · rw [hx, Memory.isFull]
  · rfl

/-- An access that writes its bytes and sets the bit of its word. -/
theorem Writes.of_setFull {m : Memory} {r r' : Req} {pid k v : Nat} {seen x : Word} {b : Bool} (hwf : m.wf = true)
    (h : m.serve r pid k seen = some ((m.writeOn r.path pid r.job k r.size v).setFull (k / 8) b, r'))
    (hr : r'.phase = .performed) (hx : r'.result = x) : Writes m r pid k seen v b x := by
  refine ⟨_, _, h, Memory.byte_writeOn hwf r.path pid r.job k r.size v, fun y => ?_,
    Memory.wf_setFull (Memory.wf_writeOn hwf _ _ _ _ _ _) _ _, Memory.poison_writeOn _ _ _ _ _ _ _, hr, hx⟩
  rw [Memory.isFull_setFull, Memory.isFull, Memory.full_writeOn, ← Memory.isFull]

/-- An access that writes its bytes and leaves the bit of its word. -/
theorem Writes.of_writeOn {m : Memory} {r r' : Req} {pid k v : Nat} {seen x : Word} (hwf : m.wf = true)
    (h : m.serve r pid k seen = some (m.writeOn r.path pid r.job k r.size v, r'))
    (hr : r'.phase = .performed) (hx : r'.result = x) :
    Writes m r pid k seen v (m.isFull (k / 8)) x :=
  ⟨_, _, h, Memory.byte_writeOn hwf r.path pid r.job k r.size v, bitAt_of_full (Memory.full_writeOn _ _ _ _ _ _ _) _,
    Memory.wf_writeOn hwf _ _ _ _ _ _, Memory.poison_writeOn _ _ _ _ _ _ _, hr, hx⟩

/-- An access that leaves memory as it was. -/
theorem Reads.of_same {m : Memory} {r r' : Req} {pid k : Nat} {seen x : Word} (hwf : m.wf = true)
    (h : m.serve r pid k seen = some (m, r'))
    (hr : r'.phase = .performed) (hx : r'.result = x) :
    Reads m r pid k seen (m.isFull (k / 8)) x :=
  ⟨_, _, h, fun _ => rfl, bitAt_of_full rfl _, hwf, rfl, hr, hx⟩

/-- An access that leaves every byte and empties its word. -/
theorem Reads.of_setEmpty {m : Memory} {r r' : Req} {pid k : Nat} {seen x : Word} (hwf : m.wf = true)
    (h : m.serve r pid k seen = some ((m.setFull (k / 8) false).setTag (k / 64) r.job, r'))
    (hr : r'.phase = .performed) (hx : r'.result = x) :
    Reads m r pid k seen false x :=
  ⟨_, _, h, fun _ => rfl, fun y => Memory.isFull_setFull m (k / 8) y false,
    Memory.wf_setTag (Memory.wf_setFull hwf _ _) _ _, rfl, hr, hx⟩

/-- Settles O25: each kind has one of four shapes of service. -/
theorem serviceOfAccesses : Obligations.ServiceOfAccesses := by
  intro m r pid k seen hwf hp hh _ _ old full
  have hload : ∀ g v, extend g r.size v
      = if g = true then ((word v).setWidth (8 * r.size)).signExtend 64 else word v := fun _ _ => rfl
  have hamo : ∀ op v, extend (amoSigned op) r.size v
      = if op ≤ 8 then ((word v).setWidth (8 * r.size)).signExtend 64 else word v := fun op v => by
    simp [extend, amoSigned, sextN]
  refine ⟨fun hk => .of_setFull hwf (m.serve_store pid seen hp hh (.inl hk)) rfl rfl,
    fun hk => .of_setFull hwf (m.serve_store pid seen hp hh (.inr hk)) rfl rfl,
    fun hk => .of_setFull hwf (m.serve_clear pid seen hp hh hk) rfl rfl,
    fun hk => .of_writeOn hwf (m.serve_ovwr pid seen hp hh hk) rfl rfl,
    fun hk hf => .of_setFull hwf (m.serve_put_empty pid seen hp hh hk hf) rfl rfl,
    fun hk hf => m.serve_put_full pid seen hk hf,
    fun hk hf => hf ▸ .of_same hwf (m.serve_readf_full pid seen hp hh hk hf) rfl rfl,
    fun hk hf => .of_setEmpty hwf (m.serve_take_full pid seen hp hh hk hf) rfl rfl,
    fun hk hf => m.serve_acquire_empty pid seen hh hk hf,
    fun g hk hf => hload g _ ▸ .of_same hwf (m.serve_load pid seen hp hh hk hf) rfl rfl,
    fun g hk hfe hf => m.serve_load_empty pid seen hh hk hfe hf,
    fun hk => .of_same hwf (m.serve_peek pid seen hp hh hk) rfl rfl,
    fun op hk => hamo op _ ▸ .of_writeOn hwf (m.serve_amo pid seen hp hh hk) rfl rfl,
    fun hk he => .of_writeOn hwf (m.serve_cas_equal pid seen hp hh hk he) rfl rfl,
    fun hk he => .of_same hwf (m.serve_cas_unequal pid seen hp hh hk he) rfl rfl,
    fun hk hs => .of_writeOn hwf (m.serve_iterClaim pid seen hp hh hk) rfl rfl⟩

end

/-! ## The AMO functions and the claim of an ITER (R134, R136, R166) -/

section
namespace Sys2Proof.Machine

/-! ### Two's complement (R134) -/

/-- A number below 2^n read as two's complement: the upper half stands for the negative numbers. -/
theorem toInt_ofNat_eq_ite {n x : Nat} (hn : 0 < n) (h : x < 2 ^ n) :
    (BitVec.ofNat n x).toInt = if 2 ^ n / 2 ≤ x then (x : Int) - (2 ^ n : Nat) else x := by
  rw [BitVec.toInt_eq_toNat_cond, BitVec.toNat_ofNat, Nat.mod_eq_of_lt h]
  have heven : 2 ^ n / 2 * 2 = 2 ^ n := Nat.div_mul_cancel (dvd_pow_self 2 hn.ne')
  generalize 2 ^ n = m at heven
  cases Nat.lt_or_ge (2 * x) m with
  | inl hlow => rw [if_pos hlow, if_neg (by omega)]
  | inr hhigh => rw [if_neg (by omega), if_pos (by omega)]

theorem amoNew_amin {n old b : Nat} (hn : 0 < n) (ho : old < 2 ^ (8 * n)) (hb : b < 2 ^ (8 * n)) :
    amoNew 4 n old b
      = (if (BitVec.ofNat (8 * n) old).toInt ≤ (BitVec.ofNat (8 * n) b).toInt then old else b, 0) := by
  rw [toInt_ofNat_eq_ite (by omega) ho, toInt_ofNat_eq_ite (by omega) hb]
  rfl

theorem amoNew_amax {n old b : Nat} (hn : 0 < n) (ho : old < 2 ^ (8 * n)) (hb : b < 2 ^ (8 * n)) :
    amoNew 5 n old b
      = (if (BitVec.ofNat (8 * n) old).toInt ≤ (BitVec.ofNat (8 * n) b).toInt then b else old, 0) := by
  rw [toInt_ofNat_eq_ite (by omega) ho, toInt_ofNat_eq_ite (by omega) hb]
  rfl

/-! ### Magnitudes of floating point (R136) -/

/-- The magnitude of a finite code, in units of the last place of the subnormals. -/
def Fmt.units (f : Fmt) (mag : Nat) : Nat :=
  if mag / 2 ^ (f.prec - 1) = 0 then mag % 2 ^ (f.prec - 1)
  else (2 ^ (f.prec - 1) + mag % 2 ^ (f.prec - 1)) * 2 ^ (mag / 2 ^ (f.prec - 1) - 1)

theorem Fmt.units_fields (f : Fmt) (field : Nat) {frac : Nat} (h : frac < 2 ^ (f.prec - 1)) :
    f.units (field * 2 ^ (f.prec - 1) + frac)
      = if field = 0 then frac else (2 ^ (f.prec - 1) + frac) * 2 ^ (field - 1) := by
  have hdiv : (field * 2 ^ (f.prec - 1) + frac) / 2 ^ (f.prec - 1) = field := by
    rw [Nat.mul_comm, Nat.mul_add_div (Nat.two_pow_pos _), Nat.div_eq_of_lt h, Nat.add_zero]
  rw [Fmt.units, hdiv, Nat.mul_comm, Nat.mul_add_mod, Nat.mod_eq_of_lt h]

/-- The next code is the next larger number, within an exponent field and from one field to the next. -/
theorem Fmt.units_lt_succ (f : Fmt) (mag : Nat) : f.units mag < f.units (mag + 1) := by
  have hpos := Nat.two_pow_pos (f.prec - 1)
  have hfrac := Nat.mod_lt mag hpos
  rw [← Nat.div_add_mod' mag (2 ^ (f.prec - 1))]
  generalize mag / 2 ^ (f.prec - 1) = field
  generalize mag % 2 ^ (f.prec - 1) = frac at hfrac
  rw [Fmt.units_fields f field hfrac]
  rcases Nat.lt_or_ge (frac + 1) (2 ^ (f.prec - 1)) with hin | hout
  · rw [Nat.add_assoc, Fmt.units_fields f field hin]
    split_ifs
    · omega
    · exact Nat.mul_lt_mul_of_pos_right (by omega) (Nat.two_pow_pos _)
  · have hnext : field * 2 ^ (f.prec - 1) + frac + 1 = (field + 1) * 2 ^ (f.prec - 1) + 0 := by
      rw [Nat.succ_mul]
      omega
    rw [hnext, Fmt.units_fields f _ hpos, if_neg (Nat.succ_ne_zero field), Nat.add_zero, Nat.add_sub_cancel]
    cases field with
    | zero => simpa using hfrac
    | succ k =>
      rw [if_neg (Nat.succ_ne_zero k), Nat.pow_succ, Nat.add_sub_cancel]
      nlinarith [Nat.two_pow_pos k]

theorem Fmt.units_strictMono (f : Fmt) : StrictMono f.units := strictMono_nat_of_lt_succ f.units_lt_succ

/-- The value of a finite code without its sign. -/
theorem Fmt.abs_decode_finite {f : Fmt} {code : Nat} (h : code % 2 ^ (f.width - 1) ≤ f.maxCode) :
    ∃ m e, (f.decode code).abs = .fin false m e ∧ f.qmin ≤ e
      ∧ scaled false m e f.qmin = f.units (code % 2 ^ (f.width - 1)) := by
  rw [Fmt.decode, if_pos h, Fmt.units]
  dsimp only
  split_ifs with hfield
  · exact ⟨_, _, rfl, le_refl _, by simp [scaled]⟩
  · exact ⟨_, _, rfl, by simp, by simp [scaled]⟩

/-- A code that is no NaN is finite or the infinity. -/
theorem Fmt.mag_of_number {f : Fmt} {code : Nat} (h : (f.decode code).isNan = false) :
    code % 2 ^ (f.width - 1) ≤ f.maxCode
      ∨ f.infCode = some (code % 2 ^ (f.width - 1)) ∧ (f.decode code).abs = .inf false
        ∧ f.maxCode < code % 2 ^ (f.width - 1) := by
  by_cases hmag : code % 2 ^ (f.width - 1) ≤ f.maxCode
  · exact .inl hmag
  · refine .inr ?_
    simp only [Fmt.decode, if_neg hmag] at h ⊢
    split at h
    case isTrue hinf => exact ⟨hinf, by rw [if_pos hinf]; rfl, Nat.lt_of_not_le hmag⟩
    case isFalse => contradiction

theorem Val.lt_units {f : Fmt} {m k : Nat} {d e : Int} (hd : f.qmin ≤ d) (he : f.qmin ≤ e) :
    (Val.fin false m d).lt (.fin false k e) = decide (scaled false m d f.qmin < scaled false k e f.qmin) := by
  rw [Val.lt_fin, finiteValue_eq_scaled false m hd, finiteValue_eq_scaled false k he, decide_eq_decide,
    mul_lt_mul_iff_left₀ (zpow_pos two_pos _), Int.cast_lt]

/-- Magnitudes compare as their codes do. -/
theorem Fmt.abs_lt_abs {f : Fmt} {x y : Nat} (hx : (f.decode x).isNan = false) (hy : (f.decode y).isNan = false) :
    (f.decode x).abs.lt (f.decode y).abs = decide (x % 2 ^ (f.width - 1) < y % 2 ^ (f.width - 1)) := by
  rcases Fmt.mag_of_number hx with hfx | ⟨hix, hax, hmx⟩
  · obtain ⟨m, d, ha, hd, hm⟩ := Fmt.abs_decode_finite hfx
    rcases Fmt.mag_of_number hy with hfy | ⟨-, hay, hmy⟩
    · obtain ⟨k, e, hb, he, hk⟩ := Fmt.abs_decode_finite hfy
      rw [ha, hb, Val.lt_units hd he, hm, hk, decide_eq_decide, Nat.cast_lt, f.units_strictMono.lt_iff_lt]
    · rw [ha, hay, decide_eq_true (by omega)]
      rfl
  · rcases Fmt.mag_of_number hy with hfy | ⟨hiy, hay, -⟩
    · obtain ⟨k, e, hb, -, -⟩ := Fmt.abs_decode_finite hfy
      rw [hax, hb, decide_eq_false (by omega)]
      rfl
    · have heq := Option.some.inj (hix.symm.trans hiy)
      rw [hax, hay, decide_eq_false (by omega)]
      rfl

/-- A code without its sign is the code of the magnitude. -/
theorem Fmt.abs_decode (f : Fmt) (code : Nat) :
    (f.decode code).abs = f.decode (code % 2 ^ (f.width - 1)) := by
  have hsign : (code % 2 ^ (f.width - 1) / 2 ^ (f.width - 1) % 2 == 1) = false := by
    rw [Nat.mod_div_self]
    rfl
  simp only [Fmt.decode, Nat.mod_mod, hsign]
  split_ifs
  all_goals rfl

theorem Fmt.convert_abs {f : Fmt} {code : Nat} (hw : 0 < f.width) (h : (f.decode code).isNan = false) :
    (f.convert .ieee .rne (f.decode code).abs).1 = code % 2 ^ (f.width - 1) := by
  rcases Fmt.mag_of_number h with hfin | ⟨hinf, habs, -⟩
  · have hlt : code % 2 ^ (f.width - 1) < 2 ^ f.width :=
      (Nat.mod_lt _ (Nat.two_pow_pos _)).trans (Nat.pow_lt_pow_right Nat.one_lt_two (by omega))
    rw [Fmt.abs_decode f code, Fmt.convert_decode hw _ _ hlt (by rwa [Nat.mod_mod])]
  · rw [habs, Fmt.convert_inf hinf]
    rfl

/-! ### AFAMAX (R136) -/

theorem amoNew_afamax_nan {f : Fmt} {n old b : Nat} (hf : f = if n = 4 then fp32 else fp64)
    (h : ((f.decode old).isNan || (f.decode b).isNan) = true) :
    amoNew 10 n old b = (f.nanCode, snanFlag (f.decode old) (f.decode b)) := by
  subst hf
  exact if_pos h

theorem amoNew_afamax_number {f : Fmt} {n old b : Nat} (hf : f = if n = 4 then fp32 else fp64)
    (h : ((f.decode old).isNan || (f.decode b).isNan) = false) :
    amoNew 10 n old b = (if old % 2 ^ (f.width - 1) < b % 2 ^ (f.width - 1) then b % 2 ^ (f.width - 1)
      else old % 2 ^ (f.width - 1), 0) := by
  obtain ⟨ho, hb⟩ := Bool.or_eq_false_iff.1 h
  have hw : 0 < f.width := by
    subst hf
    split_ifs
    all_goals decide
  have heq : amoNew 10 n old b = ((f.convert .ieee .rne (if (f.decode old).abs.lt (f.decode b).abs then (f.decode b).abs
      else (f.decode old).abs)).1, 0) := by
    subst hf
    exact if_neg (Bool.eq_false_iff.1 h)
  rw [heq, Fmt.abs_lt_abs ho hb]
  by_cases hlt : old % 2 ^ (f.width - 1) < b % 2 ^ (f.width - 1)
  · rw [decide_eq_true hlt, if_pos rfl, if_pos hlt, Fmt.convert_abs hw hb]
  · rw [decide_eq_false hlt, if_neg Bool.false_ne_true, if_neg hlt, Fmt.convert_abs hw ho]

/-! ### Claims (R166) -/

/-- A claim takes no more than is left, and where more than MINCH is left at least MINCH. -/
theorem claimChunk_bounds {n p minch c : Nat} (hc : c ≤ n) :
    claimChunk n p minch c ≤ n - c ∧ min (n - c) minch ≤ claimChunk n p minch c := by
  rw [claimChunk, Nat.min_eq_left hc]
  exact ⟨min_le_left _ _, min_le_min_left _ (le_max_right _ _)⟩

/-- p claims of one chunk's size use up what is left. -/
theorem le_claimChunk_mul {n p c : Nat} (minch : Nat) (hp : 0 < p) (hc : c ≤ n) : n - c ≤ claimChunk n p minch c * p := by
  have hceil : n - c ≤ (n - c + p - 1) / p * p := by
    have := Nat.lt_div_mul_add (a := n - c + p - 1) hp
    omega
  rw [claimChunk, Nat.min_eq_left hc, ← Nat.mul_min_mul_right]
  exact le_min (Nat.le_mul_of_pos_right _ hp) (hceil.trans (Nat.mul_le_mul_right p (le_max_left _ _)))

/-- Settles O26: the integer members by their definition, AFAMAX since magnitudes compare as their codes do. -/
theorem atomicFunctions : Obligations.AtomicFunctions := by
  refine ⟨fun n old b hn ho hb => ?_, fun n p minch c hp hc =>
    ⟨(claimChunk_bounds hc).1, (claimChunk_bounds hc).2, le_claimChunk_mul minch hp hc⟩⟩
  have hpow : 256 ^ n = 2 ^ (8 * n) := by rw [Nat.pow_mul]
  have hwidth : (if n = 4 then fp32 else fp64).width = 8 * n := by rcases hn with rfl | rfl <;> rfl
  rw [hpow] at ho hb ⊢
  refine ⟨rfl, fun i => ⟨Nat.testBit_and old b i, Nat.testBit_or old b i, Nat.testBit_xor old b i⟩,
    ⟨amoNew_amin (by omega) ho hb, amoNew_amax (by omega) ho hb⟩, ?_, ?_, rfl, rfl, amoNew_afamax_nan rfl, fun h => ?_⟩
  · exact congrArg (·, 0) Nat.min_def
  · exact congrArg (·, 0) Nat.max_def
  · rw [amoNew_afamax_number rfl h, hwidth]

end Sys2Proof.Machine
end

/-! ## Arrivals at the core's own pool (R119, R127, R131, R137) -/

section
namespace Sys2Proof.Machine

/-! ### What performing an access changes besides memory and its request -/

/-- Every other core, every package, the requests of one core and all waiting operations are as before. -/
structure State.SameRequests (s t : State) (core : Nat) : Prop where
  others : ∀ j, j ≠ core → t.core j = s.core j
  reqs : (t.core core).reqs = (s.core core).reqs
  waits : ∀ d, (t.die d).waits = (s.die d).waits
  pkgs : t.pkgs = s.pkgs

theorem State.SameRequests.refl (s : State) (core : Nat) : s.SameRequests s core :=
  ⟨fun _ _ => rfl, rfl, fun _ => rfl, rfl⟩

theorem State.SameRequests.trans {s t u : State} {core : Nat} (h : s.SameRequests t core) (h' : t.SameRequests u core) :
    s.SameRequests u core :=
  ⟨fun j hj => (h'.others j hj).trans (h.others j hj), h'.reqs.trans h.reqs, fun d => (h'.waits d).trans (h.waits d),
    h'.pkgs.trans h.pkgs⟩

theorem State.modLive_sameRequests (s : State) (core pn : Nat) (g : Proc → Proc) :
    s.SameRequests (s.modLive core pn g) core := by
  unfold State.modLive
  split
  · exact ⟨fun j hj => State.core_modProc_ne s pn g hj, by simp, fun _ => rfl, rfl⟩
  · exact .refl s core

theorem State.remember_sameRequests (s : State) (core pn w age : Nat) : s.SameRequests (s.remember core pn w age) core := by
  unfold State.remember
  split
  · exact s.modLive_sameRequests core pn _
  · exact .refl s core

theorem State.sawWord_sameRequests (s : State) (core pn : Nat) (q : Path) (w : Nat) :
    s.SameRequests (s.sawWord core pn q w) core := by
  have h := s.remember_sameRequests core pn w (s.version core pn q w).2
  unfold State.sawWord
  split
  · exact h
  · exact ⟨h.others, h.reqs, h.waits, h.pkgs⟩

/-- An inventory record waits in its die's buffer, beside the operations that wait there. -/
theorem State.invRecord_sameRequests (s : State) (core die : Nat) (x : InvRec) :
    s.SameRequests (s.invRecord die x) core := by
  unfold State.invRecord
  split
  · exact .refl s core
  · refine ⟨fun _ _ => rfl, rfl, fun d => ?_, rfl⟩
    by_cases hd : d = die
    · rw [hd, State.die_modDie]
      split
      all_goals rfl
    · rw [State.modDie, State.die_setDie_ne s _ hd]

@[simp] theorem State.invRecord_mem (s : State) (die : Nat) (x : InvRec) : (s.invRecord die x).mem = s.mem := by
  unfold State.invRecord
  split
  all_goals rfl

/-! ### A request that is performed -/

/-- An access at its point of service changes of its request what it answers. -/
theorem Memory.serve_answer {m m' : Memory} {r r' : Req} {pid k : Nat} {seen : Word}
    (h : m.serve r pid k seen = some (m', r')) :
    r' = { r with phase := .performed, bit := r'.bit, poisoned := r'.poisoned, result := r'.result, flags := r'.flags } := by
  simp only [Memory.serve] at h
  cases hk : r.kind
  all_goals
    simp only [hk] at h
    try split at h
  all_goals
    simp only [Option.some.injEq, Prod.mk.injEq, reduceCtorEq] at h
  all_goals
    obtain ⟨-, rfl⟩ := h
    rfl

/-- The read of an access is remembered by its process (R274), memory becomes what its service leaves, and a store that
meets poison is recorded (R378). -/
def State.performing (s : State) (core : Nat) (r r' : Req) (k : Nat) (m : Memory) : State :=
  let u : State := if r.ended || !r.kind.readsData then s
    else if r.kind.isLoad then s.sawWord core r.pn r.path (k / 8)
    else s.remember core r.pn (k / 8) m.age
  if r'.poisoned && r.kind.writes && !r.kind.readsData then { u with mem := m }.poisonStore (pidOf core r.pn) k
  else { u with mem := m }

theorem State.tryServe_eq_map (s : State) (core : Nat) (r : Req) (k : Nat) : s.tryServe core r k
    = (s.mem.serve r (pidOf core r.pn) k (s.wordSeen core r.pn r.path (k / 8))).map (fun x =>
        ((s.performing core r x.2 k x.1).finish core x.2).answerReq core x.2) := rfl

theorem State.withMem_sameRequests (s : State) (core : Nat) (m : Memory) : s.SameRequests { s with mem := m } core :=
  ⟨fun _ _ => rfl, rfl, fun _ => rfl, rfl⟩

theorem State.performing_sameRequests (s : State) (core : Nat) (r r' : Req) (k : Nat) (m : Memory) :
    s.SameRequests (s.performing core r r' k m) core := by
  have hstore : ∀ {u : State}, s.SameRequests u core →
      s.SameRequests (if r'.poisoned && r.kind.writes && !r.kind.readsData then
        { u with mem := m }.poisonStore (pidOf core r.pn) k else { u with mem := m }) core := by
    intro u hu
    split
    · exact (hu.trans (u.withMem_sameRequests core m)).trans (State.invRecord_sameRequests _ _ _ _)
    · exact hu.trans (u.withMem_sameRequests core m)
  refine hstore ?_
  split
  · exact .refl s core
  split
  · exact s.sawWord_sameRequests core r.pn r.path (k / 8)
  · exact s.remember_sameRequests core r.pn (k / 8) m.age

theorem State.performing_mem (s : State) (core : Nat) (r r' : Req) (k : Nat) (m : Memory) :
    (s.performing core r r' k m).mem = m := by
  unfold State.performing
  dsimp only
  split
  · exact State.invRecord_mem _ _ _
  · rfl

/-- A request of a core's own package that its word allows is performed and finished. -/
theorem State.tryServe_some {s : State} {core k : Nat} {r r' : Req} {m : Memory} (hp : r.homePkg = pkgOf core)
    (h : s.mem.serve r (pidOf core r.pn) k (s.wordSeen core r.pn r.path (k / 8)) = some (m, r')) :
    s.tryServe core r k = some ((s.performing core r r' k m).finish core r') := by
  have hp' : r'.homePkg = pkgOf core := by rw [Memory.serve_answer h]; exact hp
  rw [State.tryServe_eq_map, h]
  exact congrArg some (if_pos (beq_iff_eq.2 hp'))

theorem State.finish_keeps (s : State) (core : Nat) (r : Req) : (s.finish core r).mem = s.mem
    ∧ (s.finish core r).dies = s.dies ∧ (s.finish core r).pkgs = s.pkgs
    ∧ ∀ j, j ≠ core → (s.finish core r).core j = s.core j :=
  ⟨rfl, rfl, rfl, fun _ hj => State.core_modCore_ne s _ hj⟩

theorem Core.req_dropReq (c : Core) (tag : Nat) : (c.dropReq tag).req tag = none := by
  simp [Core.req, Core.dropReq]

theorem Core.req_setReq {c : Core} {tag : Nat} {r q : Req} (h : c.req tag = some r) (hq : q.tag = tag) :
    (c.setReq q).req tag = some q := by
  have hcomp : (fun x : Req => x.tag == tag) ∘ (fun x => if x.tag = q.tag then q else x) = fun x => x.tag == tag := by
    funext x
    rw [Function.comp_apply]
    split_ifs with hx
    · rw [hx]
    · rfl
  have htag : r.tag = tag := by simpa using List.find?_some h
  unfold Core.req Core.setReq at *
  rw [List.find?_map, hcomp, h, Option.map_some, if_pos (htag.trans hq.symm)]

/-! ### A request on its way to its core's own pool -/

/-- A request of a core on its way to the core's own pool that may be performed, where no operation of the die waits. -/
structure State.ToOwnPool (s : State) (core tag : Nat) (r : Req) (k : Nat) : Prop where
  req : (s.core core).req tag = some r
  tag_eq : r.tag = tag
  sent : r.phase = .sent
  homeWait : r.homeWait = false
  due : r.due ≤ s.ticks
  may : s.mayPerform core r = true
  place : r.place = .bytes k
  ownPool : r.ownPool = true
  home : r.home = core
  homeIsDie : r.homeIsDie = false
  lost : r.lost = false
  waits : (s.die (dieOfKey k)).waits = []
  packet : s.findPacket (.memory core tag) = none

namespace State.ToOwnPool

variable {s : State} {core tag k : Nat} {r : Req}

theorem mesh (h : s.ToOwnPool core tag r k) : r.mesh = false := by
  have hown := h.ownPool
  simp only [Req.ownPool, Bool.and_eq_true, Bool.not_eq_true'] at hown
  obtain ⟨⟨-, hmesh⟩, -⟩ := hown
  exact hmesh

theorem homePkg (h : s.ToOwnPool core tag r k) : r.homePkg = pkgOf core := by
  rw [Req.homePkg, h.homeIsDie, h.home]
  rfl

theorem serviceDie (h : s.ToOwnPool core tag r k) : r.serviceDie = dieOf core := by
  rw [Req.serviceDie, h.homeIsDie, h.home]
  rfl

/-- A store buffer holds no bytes of the own pool. -/
theorem wholeCover (h : s.ToOwnPool core tag r k) : s.wholeCover core r = false := by
  simp [State.wholeCover, h.ownPool]

/-- A load that may be performed shares no byte with a mesh store that stands in the store buffer. -/
theorem no_held (h : s.ToOwnPool core tag r k) (hl : r.kind.isLoad = true) : (s.core core).reqs.filter
    (fun y => y.tag < r.tag && y.inBuffer && y.mesh && s.shareByte y r) = [] := by
  have hmay := h.may
  have hb : r.kind.buffered = false := by
    cases hk : r.kind
    case load => rfl
    all_goals simp [hk, AccessKind.isLoad] at hl
  refine List.filter_eq_nil_iff.2 fun y hy hheld => ?_
  simp only [State.mayPerform, h.wholeCover, List.all_eq_true] at hmay
  have hy := hmay y hy
  simp only [Bool.and_eq_true, Req.inBuffer, Bool.or_eq_true, beq_iff_eq, Bool.not_eq_true', decide_eq_true_eq] at hheld
  obtain ⟨⟨⟨htag, ⟨hbuf, hown⟩, hphase⟩, -⟩, hshare⟩ := hheld
  have hp : y.phase ≠ .performed ∧ y.phase ≠ .full := by rcases hphase with hp | hp <;> simp [hp]
  simp [State.blockedBy, htag, hp.1, hp.2, hb, hl, hbuf, hown, hshare] at hy

/-- The request arrives before anything else happens: it is ordered behind no older access. -/
theorem arrive (h : s.ToOwnPool core tag r k) {which : Req → Bool} (hw : which r = true) :
    s.arrive core tag which = s.arriveOne core tag which := by
  simp only [State.arrive, h.req, h.sent, hw]
  rw [if_neg (by simp)]
  split_ifs with hl hwait
  · rw [h.no_held hl, State.arriveFirst, h.no_held hl]
    rfl
  · simp [h.may] at hwait
  · rfl

/-- The request reaches its pool. -/
theorem arriveOne (h : s.ToOwnPool core tag r k) {which : Req → Bool} (hw : which r = true) :
    s.arriveOne core tag which = s.serveAt core r k (poolServer core) (2 ^ 20) := by
  have hgo : (r.phase == .sent && which r && !r.homeWait && decide (r.due ≤ s.ticks) && s.mayPerform core r) = true := by
    simp [h.sent, hw, h.homeWait, h.due, h.may]
  have hhere : s.reqHere core r = true := by simp [State.reqHere, h.homePkg, h.lost]
  have hland : s.landReq core r = (s, r) := by rw [State.landReq, h.tag_eq, h.packet]
  simp only [State.arriveOne, h.req]
  rw [if_pos hgo, h.wholeCover, if_neg Bool.false_ne_true, hhere, if_neg (by simp), h.serviceDie, if_neg (by simp), hland]
  simp only [State.reach, h.place, h.mesh, h.ownPool, if_true, Bool.false_eq_true, if_false]

/-- A request whose word allows it is performed; nothing waits for a change of the word's bit. -/
theorem serveAt_some (h : s.ToOwnPool core tag r k) {m : Memory} {r' : Req} (server limit : Nat)
    (hs : s.mem.serve r (pidOf core r.pn) k (s.wordSeen core r.pn r.path (k / 8)) = some (m, r')) :
    s.serveAt core r k server limit = (s.performing core r r' k m).finish core r' := by
  have hrescan : ((s.performing core r r' k m).finish core r').rescan k = (s.performing core r r' k m).finish core r' := by
    have hw : (((s.performing core r r' k m).finish core r').die (dieOfKey k)).waits = [] :=
      ((s.performing_sameRequests core r r' k m).waits _).trans h.waits
    rw [State.rescan, hw]
    rfl
  rw [State.serveAt, State.tryServe_some h.homePkg hs]
  dsimp only
  split
  · rfl
  · exact hrescan

/-- A request whose word forbids it waits in the word's list. -/
theorem serveAt_none (h : s.ToOwnPool core tag r k) (server : Nat) {limit : Nat} (hl : 0 < limit)
    (hs : s.mem.serve r (pidOf core r.pn) k (s.wordSeen core r.pn r.path (k / 8)) = none) :
    s.serveAt core r k server limit = (s.modCore core (fun c => c.setReq { r with phase := .waiting })).modDie (dieOfKey k)
      (fun d => { d with
        waits := d.waits ++ [{ word := k / 8, core := core, tag := r.tag, server := server, job := r.job }] }) := by
  rw [State.serveAt, State.tryServe_eq_map, hs]
  simp only [Option.map_none, State.waitAt, h.waits]
  exact if_pos hl

/-- What the arrival of a request leaves, where its word allows it. -/
theorem arrive_performs (h : s.ToOwnPool core tag r k) {which : Req → Bool} (hw : which r = true) {m : Memory} {r' : Req}
    (hs : s.mem.serve r (pidOf core r.pn) k (s.wordSeen core r.pn r.path (k / 8)) = some (m, r')) :
    (s.arrive core tag which).mem = m
      ∧ (r.kind.buffered = true → ((s.arrive core tag which).core core).req tag = none)
      ∧ (r.kind.buffered = false → ((s.arrive core tag which).core core).req tag = some r')
      ∧ (∀ j, j ≠ core → (s.arrive core tag which).core j = s.core j)
      ∧ (s.arrive core tag which).pkgs = s.pkgs := by
  have hsame := s.performing_sameRequests core r r' k m
  have hr' := Memory.serve_answer hs
  have hkind : r'.kind = r.kind := by rw [hr']
  have hmesh : r'.mesh = false := by rw [hr']; exact h.mesh
  have htag : r'.tag = tag := by rw [hr']; exact h.tag_eq
  have hreq : ((s.performing core r r' k m).core core).req tag = some r := by
    rw [Core.req, hsame.reqs]
    exact h.req
  rw [h.arrive hw, h.arriveOne hw, h.serveAt_some _ _ hs]
  obtain ⟨hmem, -, hpkgs, hothers⟩ := (s.performing core r r' k m).finish_keeps core r'
  refine ⟨hmem.trans (s.performing_mem core r r' k m), fun hb => ?_, fun hb => ?_,
    fun j hj => (hothers j hj).trans (hsame.others j hj), hpkgs.trans hsame.pkgs⟩
  · rw [State.finish, State.core_modCore, hkind, hb, hmesh, htag]
    exact Core.req_dropReq _ _
  · rw [State.finish, State.core_modCore, hkind, hb]
    exact Core.req_setReq hreq htag

/-- What the arrival of a request leaves, where its word forbids it. -/
theorem arrive_waits (h : s.ToOwnPool core tag r k) {which : Req → Bool} (hw : which r = true)
    (hs : s.mem.serve r (pidOf core r.pn) k (s.wordSeen core r.pn r.path (k / 8)) = none) :
    (s.arrive core tag which).mem = s.mem
      ∧ ((s.arrive core tag which).core core).req tag = some { r with phase := .waiting }
      ∧ ((s.arrive core tag which).die (dieOfKey k)).waits
        = [{ word := k / 8, core := core, tag := tag, server := poolServer core, job := r.job }]
      ∧ (∀ j, j ≠ core → (s.arrive core tag which).core j = s.core j)
      ∧ (s.arrive core tag which).pkgs = s.pkgs := by
  rw [h.arrive hw, h.arriveOne hw, h.serveAt_none _ (by norm_num) hs]
  refine ⟨rfl, ?_, ?_, fun j hj => by rw [State.core_modDie, State.core_modCore_ne s _ hj], rfl⟩
  · rw [State.core_modDie, State.core_modCore]
    exact Core.req_setReq h.req h.tag_eq
  · rw [State.die_modDie, State.die_modCore, h.waits, h.tag_eq]
    rfl

end State.ToOwnPool

/-! ### A request that is not on its way -/

theorem State.arrive_of_not_sent {s : State} {core tag : Nat} (which : Req → Bool)
    (h : ∀ r, (s.core core).req tag = some r → r.phase ≠ .sent) : s.arrive core tag which = s := by
  cases hr : (s.core core).req tag with
  | none => simp only [State.arrive, hr]
  | some r =>
    have hp : (r.phase == .sent) = false := beq_eq_false_iff_ne.2 (h r hr)
    simp only [State.arrive, hr, bne, hp, Bool.not_false, Bool.true_or, if_true, State.arriveOne, Bool.false_and,
      Bool.false_eq_true, if_false]

/-- Settles O42: both arrivals take a request to its pool, where its service performs it or it waits. -/
theorem arrivalsAtThePool : Obligations.ArrivalsAtThePool := by
  refine ⟨?_, ?_, ?_, fun s core tag h => ⟨congrArg _ (State.arrive_of_not_sent _ h),
    congrArg _ (State.arrive_of_not_sent _ h)⟩⟩
  · intro s core tag r k m r' hreq htag hsent hwait hdue hmay hplace hown hhome hdie hlost hwaits hpacket hplain hs
    have h : s.ToOwnPool core tag r k :=
      ⟨hreq, htag, hsent, hwait, hdue, hmay, hplace, hown, hhome, hdie, hlost, hwaits, hpacket⟩
    exact ⟨_, rfl, h.arrive_performs hplain hs⟩
  · intro s core tag r k m r' hreq htag hsent hwait hdue hmay hplace hown hhome hdie hlost hwaits hpacket hsyncs hs hb
    have h : s.ToOwnPool core tag r k :=
      ⟨hreq, htag, hsent, hwait, hdue, hmay, hplace, hown, hhome, hdie, hlost, hwaits, hpacket⟩
    obtain ⟨hmem, -, hstands, hothers, hpkgs⟩ := h.arrive_performs hsyncs hs
    exact ⟨_, rfl, hmem, hstands hb, hothers, hpkgs⟩
  · intro s core tag r k hreq htag hsent hwait hdue hmay hplace hown hhome hdie hlost hwaits hpacket hsyncs hs
    have h : s.ToOwnPool core tag r k :=
      ⟨hreq, htag, hsent, hwait, hdue, hmay, hplace, hown, hhome, hdie, hlost, hwaits, hpacket⟩
    exact ⟨_, rfl, h.arrive_waits hsyncs hs⟩

end Sys2Proof.Machine
end

/-! ## A walk's leaf and a TLB in which every entry is marked (R325) -/

section
namespace Sys2Proof.Machine

/-- The entry that fills the TLB. -/
def otherEntry : TlbEntry := { job := 1, large := true, vpn := 0, leaf := 0 }

/-- The access that waits for its walk, at the lowest global address. -/
def waitingAccess : Req := { ea := 0x1000000000000 }

/-- A core whose process 0 waits for that walk, and whose TLB holds 96 entries that are all marked recent. -/
def markedCore : Core where
  procs := [(0, { state := .blockedSync, wait := .walk waitingAccess })]
  tlb := List.replicate 96 otherEntry
  tlbRecent := [otherEntry]

/-- Kernel core 256 of die 0 is that core, the die's walker has the walk at work, and the kernel job's page tables, at
address 0, map the address by a large leaf. -/
def markedTlb : State where
  cores := [(256, markedCore)]
  dies := [(0, { jobs := [(0, { valid := true })]
                 walks := [{ job := 0, va := 0x1000000000000, asker := .access 256 0 }] })]
  mem := { cells := [(0, 1), (1, 4), (512, 1)] }

/-- The same once the walker has done its work. -/
def markedTlbWalked : State := markedTlb.modDie 0 (fun d => { d with walks := [] })

theorem walk_markedTlb : markedTlbWalked.walk 0 0 0x1000000000000 = .leaf 0x401 true := by decide

/-- No entry of a full TLB gives way when all are marked: the leaf is not entered. -/
theorem tlbFind_markedCore : (markedCore.tlbEnter 0 0x1000000000000 0x401 true).tlbFind 0 0x1000000000000 = none := by
  decide

/-- The access misses again, and the walker is asked again. -/
theorem exec_markedTlb : exec (.tlbWalkCompletion 0 0) markedTlb
    = .next ((markedTlbWalked.setCore 256 (markedCore.tlbEnter 0 0x1000000000000 0x401 true)).askWalk 256 0
        0x1000000000000 0) := rfl

/-- Refutes O43: its clause on the walk of a present leaf asks for the leaf in the TLB, whatever the TLB holds. Where all 96
entries are marked none gives way to it, and the address still has no entry. -/
theorem not_answersReachTheirProcesses : ¬ Obligations.AnswersReachTheirProcesses := by
  rintro ⟨-, -, -, -, -, -, -, hwalk, -⟩
  obtain ⟨-, hpresent⟩ := hwalk markedTlb 0 _ [] 256 0 waitingAccess 0x401 true rfl rfl rfl rfl rfl walk_markedTlb
  obtain ⟨t, ht, ⟨e, he⟩, -⟩ := hpresent rfl
  obtain rfl : _ = t := Host.Outcome.next.inj (exec_markedTlb.symm.trans ht)
  exact Option.some_ne_none e (he.symm.trans tlbFind_markedCore)

end Sys2Proof.Machine
end

/-! ## The word of WHO past the kernel cores of a die (R160, R395) -/

section
namespace Sys2Proof.Machine

/-- Refutes O27: its clause on the word of WHO speaks of every core number, also of those past the four kernel cores of a die
(R395). For number 260 the index of the kernel core, 4, has no room in its field, and the package field [47:36] reads 1
in package 0. -/
theorem not_processInstructions : ¬ Obligations.ProcessInstructions := by
  rintro ⟨-, -, -, -, -, -, -, -, hwho, -⟩
  obtain ⟨-, -, hpackage, -⟩ := hwho {} 260 0 (by decide) (by decide)
  exact absurd hpackage (by decide)

end Sys2Proof.Machine
end

/-! ## Blocked processes and future tables at issue (R149, R240, R241) -/

section
namespace Sys2Proof.Machine

/-! ### Blocked processes -/

/-- The wait of a blocked resident ends: it runs, and nothing else changes (R149). -/
theorem State.wake_blocked {s : State} {core pn i : Nat} (hb : (s.proc core pn).state.isBlocked = true)
    (hi : (s.core core).slotOf pn = some i) :
    s.wake core pn = s.setProc core pn { s.proc core pn with wait := .none, state := .running } := by
  have hlive : (((s.core core).proc pn).state == .ended || ((s.core core).proc pn).state == .free
      || ((s.core core).proc pn).state == .faulted) = false := by
    change (s.proc core pn).state.isBlocked = true at hb
    change ((s.proc core pn).state == .ended || (s.proc core pn).state == .free || (s.proc core pn).state == .faulted) = false
    revert hb
    cases (s.proc core pn).state <;> decide
  simp only [State.wake, State.modCore, hlive, hi, Bool.false_eq_true, if_false]
  rfl

/-- The issuing process once its word has blocked it. -/
def State.blockedProc (s : State) (w : BitVec 2) (u : Use) (st : ProcState) (wt : Wait) : Proc :=
  (s.blocking st wt (s.begunProc w u)).stepPc s.ctx.pc s.ctx.rep.isSome

theorem State.block_modMe (s : State) (w : BitVec 2) (u : Use) (st : ProcState) (wt : Wait) :
    (s.begun w u).block st wt
      = (s.begun w u).modMe (fun p => (s.blocking st wt p).stepPc s.ctx.pc s.ctx.rep.isSome) := by
  unfold State.block State.advance
  rw [State.modMe_modMe]
  rfl

/-- A word that has begun, and blocks its process. -/
theorem State.block_begun (s : State) (w : BitVec 2) (u : Use) (st : ProcState) (wt : Wait) :
    (s.begun w u).block st wt
      = s.withCore ((s.core s.ctx.core).setProc s.ctx.pn (s.blockedProc w u st wt)) := by
  rw [State.block_modMe]
  exact s.begun_modMe w u _

theorem State.begun_eq_withCore (s : State) (w : BitVec 2) (u : Use) :
    s.begun w u = s.withCore ((s.core s.ctx.core).setProc s.ctx.pn (s.begunProc w u)) := rfl

theorem State.withCore_modProc (s : State) (c : Core) (n : Nat) (g : Proc → Proc) :
    (s.withCore c).modProc s.ctx.core n g = s.withCore (c.setProc n (g (c.proc n))) := by
  simp [State.modProc, State.setProc, State.proc]

theorem State.withCore_modMe (s : State) (c : Core) (g : Proc → Proc) :
    (s.withCore c).modMe g = s.withCore (c.setProc s.ctx.pn (g (c.proc s.ctx.pn))) :=
  s.withCore_modProc c s.ctx.pn g

theorem State.blockedProc_as (s : State) (w : BitVec 2) (u : Use) (st : ProcState) (wt : Wait) :
    s.me.keeps (s.blockedProc w u st wt) ∧ (s.blockedProc w u st wt).pc = s.nextPc
      ∧ (s.blockedProc w u st wt).state = st ∧ (s.blockedProc w u st wt).wait = wt := by
  obtain ⟨hstate, hwait⟩ := (s.blocking st wt (s.begunProc w u)).stepPc_as s.ctx.pc s.ctx.rep.isSome
  exact ⟨Proc.keeps_stepPc (q := s.blocking st wt (s.begunProc w u)) (s.keeps_begunProc w u) _ _,
    Proc.stepPc_pc s _ (s.begunProc_repRemain w u), hstate, hwait⟩

/-- What changes of a process record by registers, tags and waits is changed of one that has moved on alike. -/
theorem Proc.moved_map {p q : Proc} (g : Proc → Proc) (h : p.moved q)
    (hg : ∀ (x : Proc) pc rd rr ir e ts ob ro, g { x with
        pc := pc, repDone := rd, repRemain := rr, inRep := ir, earliest := e, tagSince := ts, observed := ob, regObs := ro }
      = { g x with
        pc := pc, repDone := rd, repRemain := rr, inRep := ir, earliest := e, tagSince := ts, observed := ob, regObs := ro }) :
    (g p).moved (g q) := by
  have hp := (congrArg g h).symm.trans (hg q p.pc p.repDone p.repRemain p.inRep p.earliest p.tagSince p.observed p.regObs)
  rw [hp]
  rfl

theorem Proc.moved_setReg {p q : Proc} (n : Nat) (v : Word) (h : p.moved q) : (p.setReg n v).moved (q.setReg n v) := by
  refine Proc.moved_map (fun x => x.setReg n v) h fun x _ _ _ _ _ _ _ _ => ?_
  unfold Proc.setReg
  split
  all_goals rfl

/-- A word that has begun, changes its process by g, which leaves what the issue has set, and goes on. -/
theorem State.acts_step {s : State} {i : Instr} {w : BitVec 2} {u : Use} {g : Proc → Proc}
    (h : exec i s = .next ((s.begun w u).modMe g).advance) (hr : ∀ p, (g p).repRemain = p.repRemain)
    (he : ∀ p, (g p).earliest = p.earliest) (hm : ∀ p q : Proc, p.moved q → (g p).moved (g q)) :
    s.actsOnProcess i w s.nextPc g := by
  have h' : exec i s = .next ((s.begun w u).modMe (fun p => (g p).stepPc s.ctx.pc s.ctx.rep.isSome)) :=
    h.trans (congrArg _ (State.modMe_modMe _ _ _))
  refine State.acts_of h' ?_ ?_ (Proc.stepPc_moved _ _ _ _ (hm _ _ (Proc.begun_moved _ _ _)))
  · exact Proc.stepPc_pc s _ ((hr _).trans (by simp))
  · rw [Proc.stepPc_earliest, he]

/-- A word with operands that blocks its process. -/
theorem State.blocks_begun {s : State} {i : Instr} {w : BitVec 2} {u : Use} {st : ProcState} {wt : Wait}
    (h : exec i s = .next ((s.begun w u).block st wt)) : s.blocks i w st wt := by
  rw [State.block_modMe] at h
  have hm : (s.blocking st wt s.me).moved (s.blocking st wt (s.begunProc w u)) := by
    unfold State.begunProc Proc.observeRegs
    split
    all_goals rfl
  exact State.acts_of h (s.blockedProc_as w u st wt).2.1 (Proc.stepPc_earliest _ _ _) (Proc.stepPc_moved _ _ _ _ hm)

/-! ### Futures -/

/-- A future instruction on a handle that passes the checks of R240. -/
theorem State.issue_onHandle {s : State} {w : BitVec 2} {u : Use} {x : Word} {body : State → Nat → State}
    (hc : s.clear u = true) (hh : s.inHandler = false) (hok : s.futureOk s.ctx.core (handleOf x) = true) :
    s.issue w u (fun t => t.onHandle x (body t)) = .next (body (s.begun w u) (handleOf x)) := by
  have hok' : (s.begun w u).futureOk s.ctx.core (handleOf x) = true := by
    rw [← hok]
    unfold State.futureOk State.gateShut State.jobOf
    rw [State.core_begun]
    rfl
  exact (State.issue_clear hc w _).trans (congrArg _ (if_neg (by simp [hh, hok'])))

theorem State.onTenant_own {s : State} {core job : Nat} (f : State → State) (h : s.jobOf core = job) :
    s.onTenant core job f = f s :=
  if_pos (by simp [h])

theorem pidOf_core (core pn : Nat) : pidOf core pn / 256 = core := by
  unfold pidOf
  omega

theorem pidOf_pn {pn : Nat} (core : Nat) (h : pn < 256) : pidOf core pn % 256 = pn := by
  unfold pidOf
  omega

/-- An FWAIT's destination gets its result, and its process has seen the writes of the operation (R241, R283). -/
def Proc.released (p : Proc) (d : Nat) (res : Word) (seen : Option (Path × Nat)) : Proc :=
  match seen with
  | some (q, a) => (p.setReg d res).observe q a
  | none => p.setReg d res

theorem Proc.released_as (p : Proc) (d : Nat) (res : Word) (seen : Option (Path × Nat)) :
    (p.released d res seen).regs = (p.setReg d res).regs ∧ (p.released d res seen).pc = p.pc
      ∧ (p.released d res seen).state = p.state := by
  cases seen with
  | none => exact ⟨rfl, p.setReg_pc d res, p.setReg_state d res⟩
  | some e => exact ⟨rfl, p.setReg_pc d res, p.setReg_state d res⟩

theorem State.onWaiter_own {s : State} {core pn h d job : Nat} {x : Bool} (f : State → Nat → Nat → Nat → State)
    (hn : pn < 256) (hj : s.jobOf core = job) (hw : (s.proc core pn).wait = .future h d x) :
    s.onWaiter job (pidOf core pn) h f = f s core pn d := by
  unfold State.onWaiter
  rw [pidOf_core, pidOf_pn core hn, State.onTenant_own _ hj, hw]
  exact if_pos rfl

theorem State.releaseWaiter_own {s : State} {core pn i h d job : Nat} {x : Bool} (res : Word) (seen : Option (Path × Nat))
    (hn : pn < 256) (hj : s.jobOf core = job) (hw : (s.proc core pn).wait = .future h d x)
    (hb : (s.proc core pn).state.isBlocked = true) (hi : (s.core core).slotOf pn = some i) :
    s.releaseWaiter job (pidOf core pn) h res seen = s.setProc core pn
      { (s.proc core pn).released d res seen with wait := .none, state := .running } := by
  have he : s.releaseWaiter job (pidOf core pn) h res seen
      = (s.modProc core pn (fun p => p.released d res seen)).wake core pn := State.onWaiter_own _ hn hj hw
  obtain ⟨-, -, hstate⟩ := (s.proc core pn).released_as d res seen
  rw [he, State.wake_blocked (i := i)]
  · rw [State.proc_modProc]
    simp [State.modProc, State.setProc]
  · rw [State.proc_modProc, hstate]
    exact hb
  · rw [State.core_modProc, Core.slotOf_setProc]
    exact hi

/-! ### FWAIT (R241) -/

/-- The three answers of the table to an FWAIT. -/
theorem State.futureAsk_expired {s : State} {h : Nat} (job pid : Nat)
    (hg : ((s.core (handleCore h)).future (handleEntry h)).gen.toNat ≠ handleGen h) :
    s.futureAsk job h pid = some (s.releaseWaiter job pid h (word (h + 4 * 2 ^ 32)) none) :=
  if_pos (bne_iff_ne.2 hg)

theorem State.futureAsk_ended {s : State} {h : Nat} {f : Future} (job pid : Nat)
    (hf : (s.core (handleCore h)).future (handleEntry h) = f) (hg : f.gen.toNat = handleGen h) (hu : f.used = false) :
    s.futureAsk job h pid = some (s.releaseWaiter job pid h f.status (some (enginePath f.engine.toNat, f.age))) := by
  simp only [State.futureAsk, hf, hg, hu, bne_self_eq_false, Bool.false_and, Bool.false_eq_true, if_false]

/-- A process joins the waiters of a table. -/
def Core.addWaiter (c : Core) (x : Nat × Nat × Nat) : Core := { c with waiters := c.waiters ++ [x] }

@[simp] theorem Core.proc_addWaiter (c : Core) (x : Nat × Nat × Nat) (n : Nat) : (c.addWaiter x).proc n = c.proc n := rfl

/-- A waiting process is registered at the table. -/
def Proc.registered (p : Proc) (h d : Nat) : Proc := { p with wait := .future h d true }

theorem State.futureAsk_pending {s : State} {h : Nat} {f : Future} (job pid : Nat)
    (hf : (s.core (handleCore h)).future (handleEntry h) = f) (hg : f.gen.toNat = handleGen h) (hu : f.used = true)
    (hl : f.late = false) (hw : (s.core (handleCore h)).waiters.length < 128) :
    s.futureAsk job h pid = some ((s.modCore (handleCore h) (fun c => c.addWaiter (handleEntry h, handleGen h, pid))).onWaiter job pid h
        (fun t who pn d => t.modProc who pn (fun p => p.registered h d))) := by
  simp only [State.futureAsk, hf, hg, hu, hl, hw, bne_self_eq_false, Bool.and_false, Bool.false_eq_true, if_false, if_true]
  rfl

end Sys2Proof.Machine
end

/-! ## FWAIT (R241) -/

section
namespace Sys2Proof.Machine

/-- The issuing core's state once an FWAIT has blocked its process. -/
def State.fwaiting (s : State) (w : BitVec 2) (d a : BitVec 5) : State :=
  s.withCore ((s.core s.ctx.core).setProc s.ctx.pn
    (s.blockedProc w (s.futureUse [s.rd d] a) .blockedFut (.future (handleOf (s.g (s.ra a))) (s.rd d) false)))

theorem State.proc_fwaiting (s : State) (w : BitVec 2) (d a : BitVec 5) :
    (s.fwaiting w d a).proc s.ctx.core s.ctx.pn
      = s.blockedProc w (s.futureUse [s.rd d] a) .blockedFut (.future (handleOf (s.g (s.ra a))) (s.rd d) false) :=
  s.me_withCore _ |>.trans (Core.proc_setProc _ _ _)

theorem State.core_fwaiting (s : State) (w : BitVec 2) (d a : BitVec 5) :
    (s.fwaiting w d a).core s.ctx.core = (s.core s.ctx.core).setProc s.ctx.pn
      (s.blockedProc w (s.futureUse [s.rd d] a) .blockedFut (.future (handleOf (s.g (s.ra a))) (s.rd d) false)) :=
  s.core_withCore _

theorem State.jobOf_fwaiting (s : State) (w : BitVec 2) (d a : BitVec 5) :
    (s.fwaiting w d a).jobOf s.ctx.core = s.jobOf s.ctx.core := by
  unfold State.jobOf
  rw [State.core_fwaiting]
  rfl

/-- An FWAIT on a handle of its own core asks the core's table. -/
theorem exec_fwait {s t : State} {d a : BitVec 5} (w : BitVec 2) (hc : s.clear (s.futureUse [s.rd d] a) = true)
    (hh : s.inHandler = false) (hok : s.futureOk s.ctx.core (handleOf (s.g (s.ra a))) = true)
    (hcore : handleCore (handleOf (s.g (s.ra a))) = s.ctx.core)
    (ht : (s.fwaiting w d a).futureAsk (s.jobOf s.ctx.core) (handleOf (s.g (s.ra a))) (pidOf s.ctx.core s.ctx.pn) = some t) :
    exec (.fwait w d a) s = .next t := by
  change execFwait w d a s = _
  refine (State.issue_onHandle hc hh hok).trans (congrArg _ ?_)
  dsimp only
  rw [if_pos hcore, State.block_begun]
  change ((s.fwaiting w d a).futureAsk ((s.fwaiting w d a).jobOf s.ctx.core) _ _).getD _ = t
  rw [State.jobOf_fwaiting, ht]
  rfl

theorem State.future_fwaiting {s : State} {a : BitVec 5} (w : BitVec 2) (d : BitVec 5) {h : Nat}
    (hcore : handleCore h = s.ctx.core) (e : Nat) :
    ((s.fwaiting w d a).core (handleCore h)).future e = (s.core s.ctx.core).future e := by
  rw [hcore, State.core_fwaiting]
  rfl

/-- An FWAIT that is answered at once with a word goes on, the word in its destination (R241). -/
theorem State.fwait_answered {s : State} {d a : BitVec 5} {i : Nat} (w : BitVec 2) (res : Word) (seen : Option (Path × Nat))
    (hn : s.ctx.pn < 256) (hi : (s.core s.ctx.core).slotOf s.ctx.pn = some i) (hd : 0 < s.rd d)
    (hl : s.rd d < s.me.regs.length) :
    let t := (s.fwaiting w d a).releaseWaiter (s.jobOf s.ctx.core) (pidOf s.ctx.core s.ctx.pn) (handleOf (s.g (s.ra a))) res seen
    t.me.reg (s.rd d) = res ∧ t.me.state = .running ∧ t.me.pc = s.nextPc
      ∧ (∀ n, n ≠ s.rd d → t.me.reg n = s.me.reg n) ∧ t.mem = s.mem := by
  obtain ⟨hkeeps, hpc, hstate, hwait⟩ := s.blockedProc_as w (s.futureUse [s.rd d] a) .blockedFut
    (.future (handleOf (s.g (s.ra a))) (s.rd d) false)
  have hregs : _ = s.me.regs := hkeeps.1
  dsimp only
  rw [State.releaseWaiter_own (s := s.fwaiting w d a) (i := i) (d := s.rd d) (x := false) res seen hn (s.jobOf_fwaiting w d a)
    (by rw [State.proc_fwaiting, hwait]) (by rw [State.proc_fwaiting, hstate]; rfl)
    (by rw [State.core_fwaiting, Core.slotOf_setProc, hi]), State.proc_fwaiting]
  generalize s.blockedProc _ _ _ _ = p at *
  obtain ⟨hr, hrpc, -⟩ := p.released_as (s.rd d) res seen
  have hme : ((s.fwaiting w d a).setProc s.ctx.core s.ctx.pn
      { p.released (s.rd d) res seen with wait := .none, state := .running }).me
      = { p.released (s.rd d) res seen with wait := .none, state := .running } :=
    State.proc_modProc (s.fwaiting w d a) s.ctx.core s.ctx.pn (fun _ => _)
  rw [hme]
  refine ⟨?_, rfl, hrpc.trans hpc, fun n hne => ?_, rfl⟩
  · exact (congrArg (fun l : List Word => if s.rd d = 0 then (0 : Word) else l.getD (s.rd d) 0) hr).trans
      (p.reg_setReg res (by omega) (by rw [hregs]; exact hl))
  · exact (congrArg (fun l : List Word => if n = 0 then (0 : Word) else l.getD n 0) hr).trans
      ((p.reg_setReg_ne res hne).trans (congrArg (fun l : List Word => if n = 0 then (0 : Word) else l.getD n 0) hregs))

theorem fwait_ended {s : State} {d a : BitVec 5} {i : Nat} (w : BitVec 2) (hc : s.clear (s.futureUse [s.rd d] a) = true)
    (hh : s.inHandler = false) (hok : s.futureOk s.ctx.core (handleOf (s.g (s.ra a))) = true)
    (hcore : handleCore (handleOf (s.g (s.ra a))) = s.ctx.core) (hn : s.ctx.pn < 256)
    (hi : (s.core s.ctx.core).slotOf s.ctx.pn = some i) (hd : 0 < s.rd d) (hl : s.rd d < s.me.regs.length)
    (hg : ((s.core s.ctx.core).future (handleEntry (handleOf (s.g (s.ra a))))).gen.toNat = handleGen (handleOf (s.g (s.ra a))))
    (hu : ((s.core s.ctx.core).future (handleEntry (handleOf (s.g (s.ra a))))).used = false) :
    ∃ t, exec (.fwait w d a) s = .next t
      ∧ t.me.reg (s.rd d) = ((s.core s.ctx.core).future (handleEntry (handleOf (s.g (s.ra a))))).status
      ∧ t.me.state = .running ∧ t.me.pc = s.nextPc ∧ (∀ n, n ≠ s.rd d → t.me.reg n = s.me.reg n) ∧ t.mem = s.mem :=
  ⟨_, exec_fwait w hc hh hok hcore (State.futureAsk_ended _ _ (State.future_fwaiting w d hcore _) hg hu),
    State.fwait_answered w _ _ hn hi hd hl⟩

theorem fwait_expired {s : State} {d a : BitVec 5} {i : Nat} (w : BitVec 2) (hc : s.clear (s.futureUse [s.rd d] a) = true)
    (hh : s.inHandler = false) (hok : s.futureOk s.ctx.core (handleOf (s.g (s.ra a))) = true)
    (hcore : handleCore (handleOf (s.g (s.ra a))) = s.ctx.core) (hn : s.ctx.pn < 256)
    (hi : (s.core s.ctx.core).slotOf s.ctx.pn = some i) (hd : 0 < s.rd d) (hl : s.rd d < s.me.regs.length)
    (hg : ((s.core s.ctx.core).future (handleEntry (handleOf (s.g (s.ra a))))).gen.toNat ≠ handleGen (handleOf (s.g (s.ra a)))) :
    ∃ t, exec (.fwait w d a) s = .next t ∧ t.me.reg (s.rd d) = word (handleOf (s.g (s.ra a)) + 4 * 2 ^ 32)
      ∧ t.me.state = .running ∧ t.me.pc = s.nextPc ∧ t.mem = s.mem := by
  obtain ⟨hreg, hstate, hpc, -, hmem⟩ := State.fwait_answered (a := a) w (word (handleOf (s.g (s.ra a)) + 4 * 2 ^ 32)) none
    hn hi hd hl
  exact ⟨_, exec_fwait w hc hh hok hcore (State.futureAsk_expired _ _ (by rw [State.future_fwaiting w d hcore]; exact hg)),
    hreg, hstate, hpc, hmem⟩

theorem fwait_pending {s : State} {d a : BitVec 5} {f : Future} (w : BitVec 2)
    (hc : s.clear (s.futureUse [s.rd d] a) = true) (hh : s.inHandler = false)
    (hok : s.futureOk s.ctx.core (handleOf (s.g (s.ra a))) = true)
    (hcore : handleCore (handleOf (s.g (s.ra a))) = s.ctx.core) (hn : s.ctx.pn < 256)
    (hf : (s.core s.ctx.core).future (handleEntry (handleOf (s.g (s.ra a)))) = f)
    (hg : f.gen.toNat = handleGen (handleOf (s.g (s.ra a)))) (hu : f.used = true) (hl : f.late = false)
    (hw : (s.core s.ctx.core).waiters.length < 128) :
    ∃ t, exec (.fwait w d a) s = .next t ∧ s.waitsOn t .blockedFut (.future (handleOf (s.g (s.ra a))) (s.rd d) true)
      ∧ (t.core s.ctx.core).waiters = (s.core s.ctx.core).waiters ++ [
        (handleEntry (handleOf (s.g (s.ra a))), handleGen (handleOf (s.g (s.ra a))), pidOf s.ctx.core s.ctx.pn)] := by
  obtain ⟨hkeeps, hpc, hstate, hwait⟩ := s.blockedProc_as w (s.futureUse [s.rd d] a) .blockedFut
    (.future (handleOf (s.g (s.ra a))) (s.rd d) false)
  have hask := State.futureAsk_pending (s := s.fwaiting w d a) (s.jobOf s.ctx.core) (pidOf s.ctx.core s.ctx.pn)
    ((State.future_fwaiting w d hcore _).trans hf) hg hu hl (by rw [hcore, State.core_fwaiting]; exact hw)
  refine ⟨_, exec_fwait w hc hh hok hcore hask, ?_⟩
  rw [hcore, State.fwaiting, State.withCore_modCore, State.onWaiter_own (d := s.rd d) (x := false) _ hn, State.withCore_modProc]
  · refine ⟨?_, by rw [State.core_withCore]; rfl⟩
    unfold State.waitsOn
    rw [State.me_withCore, State.core_withCore, Core.proc_setProc, Core.proc_addWaiter, Core.proc_setProc]
    refine ⟨hstate, rfl, hpc, hkeeps, fun n hne => ?_, fun k hk => State.core_setCore_ne s _ hk, rfl, rfl, rfl⟩
    rw [Core.proc_setProc_ne _ _ hne, Core.proc_addWaiter, Core.proc_setProc_ne _ _ hne]
  · unfold State.jobOf
    rw [State.core_withCore]
    rfl
  · rw [State.proc, State.core_withCore, Core.proc_addWaiter, Core.proc_setProc]
    exact hwait

end Sys2Proof.Machine
end

/-! ## FTEST, FPASS, FPROM and FCANCEL (R242 to R245) -/

section
namespace Sys2Proof.Machine

/-- An instruction that a handler may not issue, of a process. -/
theorem State.issue_noHandler {s : State} {w : BitVec 2} {u : Use} {x : Word} {body : State → State}
    (hc : s.clear u = true) (hh : s.inHandler = false) :
    s.issue w u (fun t => t.noHandler x body) = .next (body (s.begun w u)) :=
  (State.issue_clear hc w _).trans (congrArg _ (if_neg (by simp [hh])))

/-! ### FTEST, FPASS and FPROM (R242, R244, R245) -/

theorem delivers_ftest {s : State} (w : BitVec 2) (d a : BitVec 5) (hc : s.clear (s.futureUse [s.rd d] a) = true)
    (hh : s.inHandler = false) : s.delivers (.ftest w d a) w 2 [(s.rd d,
      match (s.core s.ctx.core).futureOf s.ctx.pn (s.ra a) with
      | some e => (s.core s.ctx.core).pendingWord s.ctx.core e
      | none => s.g (s.ra a))] s.nextPc := by
  have he : exec (.ftest w d a) s = .next _ := State.issue_noHandler (w := w) hc hh
  dsimp only at he
  rw [State.core_begun] at he
  exact State.delivers_advance he

theorem acts_fpass {s : State} (w : BitVec 2) (d a : BitVec 5) (hc : s.clear (s.futureUse [s.rd d] a) = true)
    (hh : s.inHandler = false) (hf : (s.core s.ctx.core).futureOf s.ctx.pn (s.ra a) = none) :
    s.actsOnProcess (.fpass w d a) w s.nextPc (fun p => p.setReg (s.rd d) (s.g (s.ra a))) := by
  have he : exec (.fpass w d a) s = .next _ := State.issue_noHandler (w := w) hc hh
  have hf' : ((s.begun w (s.futureUse [s.rd d] a)).core s.ctx.core).futureOf s.ctx.pn (s.ra a) = none := by
    rw [State.core_begun]
    exact hf
  simp only [hf'] at he
  exact State.acts_step he (fun p => p.setReg_repRemain _ _) (fun p => p.setReg_earliest _ _)
    (fun p q => Proc.moved_setReg _ _)

theorem State.coreFor_begun (s : State) (w : BitVec 2) (u : Use) (core job e : Nat) :
    ((s.begun w u).coreFor core job).future e = (s.coreFor core job).future e := by
  have hcore : ((s.begun w u).core core).future e = (s.core core).future e := by
    by_cases h : core = s.ctx.core
    · rw [h, State.core_begun]
      rfl
    · exact congrArg (fun c : Core => c.future e) (State.core_modProc_ne s _ _ h)
  unfold State.coreFor
  split
  · exact hcore
  · rw [show (s.begun w u).die (dieOf core) = s.die (dieOf core) from rfl]
    split
    · rfl
    · exact hcore

theorem acts_fprom {s : State} (w : BitVec 2) (d a : BitVec 5) (hc : s.clear (s.futureUse [s.rd d] a) = true)
    (hh : s.inHandler = false) (hok : s.futureOk s.ctx.core (handleOf (s.g (s.ra a))) = true) {f : Future}
    (hf : (s.coreFor (handleCore (handleOf (s.g (s.ra a)))) (s.jobOf s.ctx.core)).future
      (handleEntry (handleOf (s.g (s.ra a)))) = f) :
    s.actsOnProcess (.fprom w d a) w s.nextPc (fun p => p.setReg (s.rd d)
      (if f.gen.toNat = handleGen (handleOf (s.g (s.ra a))) then f.promise.getD (-1) else -1)) := by
  have he : execFprom w d a s = .next _ := State.issue_onHandle (w := w) hc hh hok
  have hjob : (s.begun w (s.futureUse [s.rd d] a)).jobOf s.ctx.core = s.jobOf s.ctx.core := State.jobOf_opened s w _ _
  simp only [hjob, State.coreFor_begun, hf] at he
  exact State.acts_step he (fun p => p.setReg_repRemain _ _) (fun p => p.setReg_earliest _ _)
    (fun p q => Proc.moved_setReg _ _)

/-! ### FCANCEL (R243) -/

theorem State.futureCancel_ended {s : State} {h : Nat}
    (hu : ((s.core (handleCore h)).future (handleEntry h)).used = false) : s.futureCancel h = s :=
  if_pos (by rw [hu]; rfl)

theorem exec_fcancel {s : State} {a : BitVec 5} (w : BitVec 2) (hc : s.clear (s.futureUse [] a) = true)
    (hh : s.inHandler = false) (hok : s.futureOk s.ctx.core (handleOf (s.g (s.ra a))) = true)
    (hcore : handleCore (handleOf (s.g (s.ra a))) = s.ctx.core) :
    exec (.fcancel w a) s
      = .next ((s.begun w (s.futureUse [] a)).advance.futureCancel (handleOf (s.g (s.ra a)))) := by
  have he : execFcancel w a s = .next _ := State.issue_onHandle (w := w) hc hh hok
  exact (he :).trans (congrArg _ (if_pos hcore))

theorem State.core_begun_advance (s : State) (w : BitVec 2) (u : Use) :
    (s.begun w u).advance.core s.ctx.core = (s.core s.ctx.core).setProc s.ctx.pn (s.steppedProc w u) :=
  (congrArg (fun t : State => t.core s.ctx.core) (s.begun_modMe w u _)).trans (s.core_withCore _)

theorem acts_fcancel {s : State} {a : BitVec 5} (w : BitVec 2) (hc : s.clear (s.futureUse [] a) = true)
    (hh : s.inHandler = false) (hok : s.futureOk s.ctx.core (handleOf (s.g (s.ra a))) = true)
    (hcore : handleCore (handleOf (s.g (s.ra a))) = s.ctx.core)
    (hu : ((s.core s.ctx.core).future (handleEntry (handleOf (s.g (s.ra a))))).used = false) :
    s.actsOnProcess (.fcancel w a) w s.nextPc id := by
  refine State.acts_advance ((exec_fcancel w hc hh hok hcore).trans (congrArg _ (State.futureCancel_ended ?_)))
  rw [hcore, State.core_begun_advance]
  exact hu

end Sys2Proof.Machine
end

/-! ## FPASS of a pending future (R244) -/

section
namespace Sys2Proof.Machine

/-! ### FPASS of a pending future (R244) -/

/-- An entry of a future table is written. -/
def Core.putFuture (c : Core) (e : Nat) (f : Future) : Core := { c with futures := put c.futures e f }

@[simp] theorem Core.proc_putFuture (c : Core) (e n : Nat) (f : Future) : (c.putFuture e f).proc n = c.proc n := rfl
@[simp] theorem Core.future_putFuture (c : Core) (e : Nat) (f : Future) : (c.putFuture e f).future e = f :=
  look_put_self _ _ _ _
@[simp] theorem Core.future_setProc (c : Core) (e n : Nat) (p : Proc) : (c.setProc n p).future e = c.future e := rfl

theorem State.modFuture_eq (s : State) (core e : Nat) (g : Future → Future) :
    s.modFuture core e g = s.modCore core (fun c => c.putFuture e (g (c.future e))) := rfl

/-- What FPASS makes of its process: the word is copied, and the tag moves with the target. -/
def Proc.passed (p : Proc) (d a : Nat) (x : Word) : Proc := ((p.setReg d x).setPending d true).setPending a false

theorem Proc.passed_reg {p : Proc} {d : Nat} (a : Nat) (x : Word) (hd : 0 < d) (hl : d < p.regs.length) :
    (p.passed d a x).reg d = x := by
  unfold Proc.passed
  rw [Proc.reg_setPending, Proc.reg_setPending, p.reg_setReg x (by omega) hl]

theorem Proc.isPending_setPending_self (p : Proc) (n : Nat) : (p.setPending n false).isPending n = false := by
  unfold Proc.isPending Proc.setPending
  by_cases hn : n = 0
  · simp [hn]
  · by_cases hl : n < p.pend.length
    · simp [hn, hl]
    · simp [hn, List.getD_eq_getElem?_getD, hl]

theorem Proc.isPending_setPending_ne (p : Proc) {m n : Nat} (b : Bool) (h : m ≠ n) :
    (p.setPending n b).isPending m = p.isPending m := by
  unfold Proc.isPending Proc.setPending
  split
  · rfl
  · simp [List.getD_eq_getElem?_getD, List.getElem?_set_ne (Ne.symm h)]

theorem Proc.passed_pending {p : Proc} {d a : Nat} (x : Word) (hd : 0 < d) (hl : d < p.pend.length) (ha : d ≠ a) :
    (p.passed d a x).isPending d = true ∧ (p.passed d a x).isPending a = false := by
  refine ⟨?_, Proc.isPending_setPending_self _ _⟩
  unfold Proc.passed
  rw [Proc.isPending_setPending_ne _ _ ha, Proc.isPending_setPending _ _ _ (by rwa [Proc.setReg_pend])]
  simp [Nat.ne_of_gt hd]

theorem exec_fpass_pending {s : State} {e : Nat} (w : BitVec 2) (d a : BitVec 5)
    (hc : s.clear (s.futureUse [s.rd d] a) = true) (hh : s.inHandler = false)
    (hf : (s.core s.ctx.core).futureOf s.ctx.pn (s.ra a) = some e) :
    exec (.fpass w d a) s = .next (((s.begun w (s.futureUse [s.rd d] a)).modFuture s.ctx.core e (fun f => { f with
      target := s.rd d })).modMe (fun p => p.passed (s.rd d) (s.ra a) (s.g (s.ra a)))).advance := by
  have he : exec (.fpass w d a) s = .next _ := State.issue_noHandler (w := w) hc hh
  have hf' : ((s.begun w (s.futureUse [s.rd d] a)).core s.ctx.core).futureOf s.ctx.pn (s.ra a) = some e := by
    rw [State.core_begun]
    exact hf
  simp only [hf'] at he
  exact he

/-- The issuing core once FPASS has moved a pending future's target. -/
def State.passing (s : State) (w : BitVec 2) (d a : BitVec 5) (e : Nat) : Core :=
  ((s.core s.ctx.core).putFuture e { (s.core s.ctx.core).future e with target := s.rd d }).setProc s.ctx.pn
    (((s.begunProc w (s.futureUse [s.rd d] a)).passed (s.rd d) (s.ra a) (s.g (s.ra a))).stepPc s.ctx.pc s.ctx.rep.isSome)

theorem State.fpass_eq (s : State) (w : BitVec 2) (d a : BitVec 5) (e : Nat) :
    ((((s.begun w (s.futureUse [s.rd d] a)).modFuture s.ctx.core e (fun f => { f with
      target := s.rd d })).modMe (fun p => p.passed (s.rd d) (s.ra a) (s.g (s.ra a)))).advance)
      = s.withCore (s.passing w d a e) := by
  rw [State.begun_eq_withCore, State.modFuture_eq, State.withCore_modCore]
  unfold State.advance
  rw [State.modMe_modMe, State.withCore_modMe, Core.proc_putFuture, Core.proc_setProc, Core.future_setProc]
  simp [State.passing, Core.setProc, Core.putFuture, State.withCore]

theorem fpass_pending {s : State} {d a : BitVec 5} {e : Nat} (w : BitVec 2)
    (hc : s.clear (s.futureUse [s.rd d] a) = true) (hh : s.inHandler = false)
    (hf : (s.core s.ctx.core).futureOf s.ctx.pn (s.ra a) = some e) (hd : 0 < s.rd d) (hne : s.rd d ≠ s.ra a)
    (hl : s.rd d < s.me.regs.length) (hpend : s.me.pend.length = s.me.regs.length) :
    ∃ t, exec (.fpass w d a) s = .next t ∧ ((t.core s.ctx.core).future e).target = s.rd d
      ∧ t.me.reg (s.rd d) = s.g (s.ra a) ∧ t.me.isPending (s.rd d) = true ∧ t.me.isPending (s.ra a) = false
      ∧ t.me.pc = s.nextPc ∧ t.mem = s.mem := by
  refine ⟨_, (exec_fpass_pending w d a hc hh hf).trans (congrArg _ (s.fpass_eq w d a e)), ?_⟩
  rw [State.core_withCore, State.me_withCore, State.passing, Core.proc_setProc, Core.future_setProc,
    Core.future_putFuture]
  obtain ⟨hregs, -⟩ := s.keeps_begunProc w (s.futureUse [s.rd d] a)
  have hpd := s.begunProc_pend w (s.futureUse [s.rd d] a)
  have hrep := s.begunProc_repRemain w (s.futureUse [s.rd d] a)
  generalize s.begunProc w (s.futureUse [s.rd d] a) = p at *
  obtain ⟨h1, h2⟩ := p.passed_pending (a := s.ra a) (s.g (s.ra a)) hd (by rw [hpd, hpend]; exact hl) hne
  refine ⟨rfl, ?_, ?_, ?_, Proc.stepPc_pc s _ ?_, rfl⟩
  · rw [Proc.reg, Proc.stepPc_regs]
    exact p.passed_reg _ _ hd (by rw [hregs]; exact hl)
  · rw [Proc.isPending_congr (Proc.stepPc_pend _ _ _), h1]
  · rw [Proc.isPending_congr (Proc.stepPc_pend _ _ _), h2]
  · rw [← hrep]
    simp [Proc.passed]

end Sys2Proof.Machine
end

/-! ## What releases and traps leave unchanged (R112 to R114, R149) -/

section
namespace Sys2Proof.Machine

/-! ### Bookkeeping of processes -/

/-- Of a core, only process records, slots, ready lists, reports and the mark of a stopped core differ. -/
def Core.sameWork (c d : Core) : Prop :=
  { d with procs := c.procs, slots := c.slots, ready := c.ready, faultOut := c.faultOut, stopped := c.stopped } = c

/-- Of a die, only saved tenants, reports and records differ. -/
def Die.sameWork (c d : Die) : Prop :=
  { d with saved := c.saved, stopReport := c.stopReport, invBuf := c.invBuf, invlost := c.invlost } = c

theorem Core.sameWork_refl (c : Core) : c.sameWork c := rfl

theorem Core.sameWork_trans {c d e : Core} (h : c.sameWork d) (h' : d.sameWork e) : c.sameWork e := by
  unfold Core.sameWork at *
  exact (congrArg (fun x : Core => { x with
    procs := c.procs, slots := c.slots, ready := c.ready, faultOut := c.faultOut, stopped := c.stopped }) h' :).trans h

theorem Die.sameWork_trans {c d e : Die} (h : c.sameWork d) (h' : d.sameWork e) : c.sameWork e := by
  unfold Die.sameWork at *
  exact (congrArg (fun x : Die => { x with
    saved := c.saved, stopReport := c.stopReport, invBuf := c.invBuf, invlost := c.invlost }) h' :).trans h

/-- What releases, traps and records do: they attend to processes and leave everything else. -/
structure State.Attends (s t : State) : Prop where
  cores : ∀ k, (s.core k).sameWork (t.core k)
  dies : ∀ d, (s.die d).sameWork (t.die d)
  rest : { t with cores := s.cores, dies := s.dies, phase := s.phase } = s

theorem State.Attends.refl (s : State) : s.Attends s := ⟨fun _ => rfl, fun _ => rfl, rfl⟩

theorem State.Attends.trans {s t u : State} (h : s.Attends t) (h' : t.Attends u) : s.Attends u :=
  ⟨fun k => Core.sameWork_trans (h.cores k) (h'.cores k), fun d => Die.sameWork_trans (h.dies d) (h'.dies d),
    (congrArg (fun x : State => { x with cores := s.cores, dies := s.dies, phase := s.phase }) h'.rest :).trans h.rest⟩

theorem State.Attends.mem {s t : State} (h : s.Attends t) : t.mem = s.mem := (congrArg State.mem h.rest :)

theorem State.Attends.jobOf {s t : State} (h : s.Attends t) (core : Nat) : t.jobOf core = s.jobOf core := by
  unfold State.jobOf
  rw [show (t.core core).gateJob = (s.core core).gateJob from (congrArg Core.gateJob (h.cores core) :)]

theorem State.attends_modCore {s : State} {k : Nat} {g : Core → Core} (h : (s.core k).sameWork (g (s.core k))) :
    s.Attends (s.modCore k g) := by
  refine ⟨fun j => ?_, fun _ => rfl, rfl⟩
  by_cases hj : j = k
  · rw [hj, State.core_modCore]
    exact h
  · rw [State.core_modCore_ne s g hj]
    exact Core.sameWork_refl _

theorem State.attends_modDie {s : State} {k : Nat} {g : Die → Die} (h : (s.die k).sameWork (g (s.die k))) :
    s.Attends (s.modDie k g) := by
  refine ⟨fun _ => rfl, fun j => ?_, rfl⟩
  by_cases hj : j = k
  · rw [hj, State.die_modDie]
    exact h
  · rw [State.modDie, State.die_setDie_ne s _ hj]
    rfl

theorem State.attends_setProc (s : State) (core pn : Nat) (p : Proc) : s.Attends (s.setProc core pn p) :=
  State.attends_modCore rfl

theorem State.attends_modProc (s : State) (core pn : Nat) (g : Proc → Proc) : s.Attends (s.modProc core pn g) :=
  s.attends_setProc core pn _

theorem State.attends_modLive (s : State) (core pn : Nat) (g : Proc → Proc) : s.Attends (s.modLive core pn g) := by
  unfold State.modLive
  split
  · exact s.attends_modProc core pn g
  · exact .refl s

theorem State.attends_invRecord (s : State) (die : Nat) (x : InvRec) : s.Attends (s.invRecord die x) := by
  unfold State.invRecord
  split
  · exact .refl s
  · refine State.attends_modDie ?_
    split
    all_goals rfl

theorem State.attends_wake (s : State) (core pn : Nat) : s.Attends (s.wake core pn) := by
  refine State.attends_modCore ?_
  dsimp only
  split
  · rfl
  · split
    · rfl
    · split
      all_goals rfl

theorem State.attends_reap (s : State) (core pn : Nat) : s.Attends (s.reap core pn) := by
  unfold State.reap
  dsimp only
  split
  · exact State.attends_modCore rfl
  · exact .refl s

theorem State.attends_tagWake (s : State) (core pn : Nat) : s.Attends (s.tagWake core pn) := by
  unfold State.tagWake
  dsimp only
  split
  · split
    · exact .refl s
    · exact s.attends_wake core pn
  · exact s.attends_reap core pn

theorem State.attends_arriveReg (s : State) (core pn n : Nat) (v : Word) : s.Attends (s.arriveReg core pn n v) :=
  (s.attends_modLive core pn _).trans (State.attends_tagWake _ core pn)

theorem State.attends_report (s : State) (core : Nat) (m : FaultMsg) : s.Attends (s.report core m) :=
  State.attends_modCore rfl

theorem Core.sameWork_freeSlotOf (c : Core) (pn : Nat) : c.sameWork (c.freeSlotOf pn) := by
  unfold Core.freeSlotOf
  split
  · dsimp only
    split
    · split
      all_goals rfl
    · rfl
  · rfl

/-- A change that keeps a core's work may follow the freeing of a slot. -/
theorem State.attends_freeSlot {s : State} {core pn : Nat} (g : Core → Core) (h : ∀ c : Core, c.sameWork (g c)) :
    s.Attends (s.modCore core (fun c => g (c.freeSlotOf pn))) :=
  State.attends_modCore (Core.sameWork_trans (Core.sameWork_freeSlotOf (s.core core) pn) (h _))

theorem State.attends_park (s : State) (core pn : Nat) : s.Attends (s.park core pn) :=
  (State.attends_freeSlot (fun c => (c.unlist pn).setProc pn _) fun _ => rfl).trans (State.attends_report _ core _)

theorem State.attends_deliver (s : State) (core : Nat) {pn : Nat} (cause : Cause) (h : pn ≠ 256) :
    s.Attends (s.deliver core pn cause) := by
  unfold State.deliver
  dsimp only
  rw [if_neg h]
  split
  · exact (s.attends_setProc core pn _).trans (State.attends_wake _ core pn)
  split
  · obtain ⟨hcores, hdies, hrest⟩ := (s.attends_freeSlot (core := core) (pn := pn) (fun c => { c.setProc pn
      { s.proc core pn with state := .faulted, pc := (s.proc core pn).fpc } with stopped := true }) fun _ => rfl).trans
      (State.attends_modDie (k := dieOf core) (g := fun d => { d with stopReport := true }) rfl)
    exact ⟨hcores, hdies, hrest⟩
  · exact s.attends_park core pn

theorem State.attends_trapAt (s : State) (core : Nat) {pn : Nat} (cause : Cause) (faddr fpc : Word) (finst : BitVec 32)
    (h : pn ≠ 256) : s.Attends (s.trapAt core pn cause faddr fpc finst) :=
  (s.attends_modProc core pn _).trans (State.attends_deliver _ core cause h)

theorem State.attends_trapBlocked (s : State) (core : Nat) {pn : Nat} (cause : Cause) (faddr : Word) (h : pn ≠ 256) :
    s.Attends (s.trapBlocked core pn cause faddr) := by
  unfold State.trapBlocked
  dsimp only
  split
  · exact (s.attends_setProc core pn _).trans (State.attends_wake _ core pn)
  · exact (s.attends_setProc core pn _).trans (State.attends_trapAt _ core cause faddr _ _ h)

/-- A change that attends to processes attends to those of a saved tenant too. -/
theorem State.attends_onTenant (s : State) (core job : Nat) {f : State → State} (h : ∀ t : State, t.Attends (f t)) :
    s.Attends (s.onTenant core job f) := by
  unfold State.onTenant
  dsimp only
  split
  · exact h s
  split
  · exact h s
  · next x _ =>
    have hf := h (s.setCore core (look {} x.cores core))
    have hback : s.Attends ((f (s.setCore core (look {} x.cores core))).setCore core (s.core core)) := by
      refine ⟨fun k => ?_, hf.dies,
        (congrArg (fun x : State => { x with cores := s.cores, dies := s.dies, phase := s.phase }) hf.rest :)⟩
      by_cases hk : k = core
      · rw [hk, State.core_setCore]
        exact Core.sameWork_refl _
      · rw [State.core_setCore_ne _ _ hk]
        have hkeep := hf.cores k
        rwa [State.core_setCore_ne s _ hk] at hkeep
    exact hback.trans (State.attends_modDie rfl)

theorem State.attends_onWaiter (s : State) (job pid handle : Nat) {f : State → Nat → Nat → Nat → State}
    (h : ∀ (t : State) d, t.Attends (f t (pid / 256) (pid % 256) d)) : s.Attends (s.onWaiter job pid handle f) := by
  unfold State.onWaiter
  refine s.attends_onTenant _ _ fun t => ?_
  split
  · split
    · exact h t _
    · exact .refl t
  · exact .refl t

theorem State.attends_releaseWaiter (s : State) (job pid handle : Nat) (res : Word) (seen : Option (Path × Nat)) :
    s.Attends (s.releaseWaiter job pid handle res seen) :=
  s.attends_onWaiter _ _ _ fun t _ => (t.attends_modProc _ _ _).trans (State.attends_wake _ _ _)

theorem State.attends_lateWaiter (s : State) (job pid handle : Nat) : s.Attends (s.lateWaiter job pid handle) :=
  s.attends_onWaiter _ _ _ fun t _ => t.attends_trapBlocked _ _ _ (by omega)

theorem State.attends_foldl {α : Type} {f : State → α → State} (h : ∀ (t : State) x, t.Attends (f t x)) (l : List α)
    (s : State) : s.Attends (l.foldl f s) := by
  induction l generalizing s with
  | nil => exact .refl s
  | cons x l ih => exact (h s x).trans (ih (f s x))

/-! ### The end of an operation (R239) -/

/-- The future table of a core: its entries, the order in which they were freed, and its waiters. -/
def State.withTable (s : State) (core : Nat) (fs : AMap Future) (free : List Nat) (ws : List (Nat × Nat × Nat)) : State :=
  s.modCore core (fun c => { c with futures := fs, freeOrder := free, waiters := ws })

theorem State.Attends.withTable {s t : State} (h : s.Attends t) (core : Nat) (fs : AMap Future) (free : List Nat)
    (ws : List (Nat × Nat × Nat)) : (s.withTable core fs free ws).Attends (t.withTable core fs free ws) := by
  refine ⟨fun k => ?_, h.dies, (congrArg (fun x : State => { x with
    cores := (s.withTable core fs free ws).cores, dies := s.dies, phase := s.phase }) h.rest :)⟩
  unfold State.withTable
  by_cases hk : k = core
  · rw [hk, State.core_modCore, State.core_modCore]
    exact (congrArg (fun c : Core => { c with futures := fs, freeOrder := free, waiters := ws }) (h.cores core) :)
  · rw [State.core_modCore_ne _ _ hk, State.core_modCore_ne _ _ hk]
    exact h.cores k

theorem State.withTable_withTable (s : State) (core : Nat) (fs fs' : AMap Future) (free free' : List Nat)
    (ws ws' : List (Nat × Nat × Nat)) :
    (s.withTable core fs free ws).withTable core fs' free' ws' = s.withTable core fs' free' ws' :=
  s.modCore_modCore core _ _

theorem State.withTable_own (s : State) (core : Nat) :
    (s.withTable core (s.core core).futures (s.core core).freeOrder (s.core core).waiters).Attends s := by
  refine ⟨fun k => ?_, fun _ => rfl, rfl⟩
  unfold State.withTable
  by_cases hk : k = core
  · rw [hk, State.core_modCore]
    exact Core.sameWork_refl _
  · rw [State.core_modCore_ne _ _ hk]
    exact Core.sameWork_refl _

/-- The check for LATE changes the table alone, where the promise has passed (R235). -/
theorem State.markLate_table (s : State) (core e : Nat) :
    ∃ fs ws, (s.withTable core fs (s.core core).freeOrder ws).Attends (s.markLate core e)
      ∧ look {} fs e = { (s.core core).future e with late := ((s.core core).future e).late || s.isLate core e } := by
  cases hl : s.isLate core e with
  | false =>
    refine ⟨(s.core core).futures, (s.core core).waiters, ?_, ?_⟩
    · rw [State.markLate, if_neg (Bool.eq_false_iff.1 hl)]
      exact s.withTable_own core
    · rw [Bool.or_false]
      rfl
  | true =>
    refine ⟨put (s.core core).futures e { (s.core core).future e with late := true },
      (s.core core).waiters.filter (fun w => w.1 != e), ?_, ?_⟩
    · rw [State.markLate, if_pos hl]
      have hmark : (s.modFuture core e (fun f => { f with late := true })).modCore core (fun c => { c with
          waiters := c.waiters.filter (fun w => w.1 != e) })
          = s.withTable core (put (s.core core).futures e { (s.core core).future e with late := true })
            (s.core core).freeOrder ((s.core core).waiters.filter (fun w => w.1 != e)) := by
        simp [State.modFuture, State.withTable, State.modCore]
      dsimp only
      rw [hmark]
      exact State.attends_foldl (fun t w => t.attends_lateWaiter _ _ _) _ _
    · rw [look_put_self, Bool.or_true]

end Sys2Proof.Machine
end

/-! ## The end of an operation (R239) -/

section
namespace Sys2Proof.Machine

theorem State.Attends.futures {s t : State} (h : s.Attends t) (core : Nat) : (t.core core).futures = (s.core core).futures :=
  (congrArg Core.futures (h.cores core) :)

theorem State.Attends.tearReason {s t : State} (h : s.Attends t) (core : Nat) :
    t.tearReason (dieOf core) (t.jobOf core) = s.tearReason (dieOf core) (s.jobOf core) := by
  unfold State.tearReason
  rw [h.jobOf, show (t.die (dieOf core)).tdWork = (s.die (dieOf core)).tdWork from (congrArg Die.tdWork (h.dies _) :)]

theorem State.core_withTable (s : State) (core : Nat) (fs : AMap Future) (free : List Nat) (ws : List (Nat × Nat × Nat)) :
    (s.withTable core fs free ws).core core
      = { s.core core with futures := fs, freeOrder := free, waiters := ws } := s.core_modCore core _

/-- The status word of a future that ends (R237): FAILED with the teardown's reason where its job is torn down. -/
def Future.statusAt (f : Future) (core e state : Nat) (reason : BitVec 8) (flags : BitVec 5) (xdata : BitVec 8)
    (tear : Option (BitVec 8)) : Word :=
  let torn := if state = 1 ∧ f.engine.toNat < 3 then tear else none
  futureWord (futureHandle core e f.gen.toNat) (if torn.isSome then 2 else state) f.late flags f.engine.toNat
    (torn.getD reason).toNat xdata.toNat

/-- An entry that is free again, with the status of its operation. -/
def Future.ended (f : Future) (status : Word) (age : Nat) : Future := { f with used := false, status := status, age := age }

/-- An entry that the check for LATE has seen (R235). -/
def Future.checked (f : Future) (late : Bool) : Future := { f with late := f.late || late }

theorem State.tearReason_withTable (s : State) (core : Nat) (fs : AMap Future) (free : List Nat) (ws : List (Nat × Nat × Nat)) :
    (s.withTable core fs free ws).tearReason (dieOf core) ((s.withTable core fs free ws).jobOf core)
      = s.tearReason (dieOf core) (s.jobOf core) := by
  unfold State.jobOf
  rw [State.core_withTable]
  rfl

theorem State.attends_ite {s t u : State} {p : Prop} [Decidable p] (ht : s.Attends t) (hu : s.Attends u) :
    s.Attends (if p then t else u) := by
  split
  · exact ht
  · exact hu

/-- What the end of an operation does once its entry has been checked for LATE (R239). -/
theorem State.endFuture_attends {s t : State} {core e : Nat} (state : Nat) (reason : BitVec 8) (flags : BitVec 5)
    (xdata : BitVec 8) (ht : s.markLate core e = t) (hu : ((t.core core).future e).used = true) :
    (t.withTable core (put (t.core core).futures e (((t.core core).future e).ended
        (((t.core core).future e).statusAt core e state reason flags xdata (t.tearReason (dieOf core) (t.jobOf core)))
        t.mem.age)) ((t.core core).freeOrder ++ [e]) ((t.core core).waiters.filter (fun w => w.1 != e))).Attends
      (s.endFuture core e state reason flags xdata) := by
  unfold State.endFuture Future.statusAt Future.ended
  dsimp only
  simp only [ht, hu, Bool.not_true, Bool.false_eq_true, if_false, State.withTable, Bool.and_eq_true, decide_eq_true_eq]
  refine State.Attends.trans ?_ (State.attends_foldl (fun u w => State.attends_releaseWaiter ..) _ _)
  refine State.Attends.trans ?_ (State.attends_ite ?_ (.refl _))
  · exact State.attends_ite (State.attends_invRecord ..) (.refl _)
  · exact (State.attends_modProc ..).trans (State.attends_arriveReg ..)

/-- A future that ends leaves its entry free, with its status word (R237, R239); only processes learn of it. -/
theorem State.endFuture_table (s : State) {core e : Nat} (state : Nat) (reason : BitVec 8) (flags : BitVec 5)
    (xdata : BitVec 8) (hu : ((s.core core).future e).used = true) :
    ∃ fs free ws, (s.withTable core fs free ws).Attends (s.endFuture core e state reason flags xdata)
      ∧ look {} fs e = (((s.core core).future e).checked (s.isLate core e)).ended
          ((((s.core core).future e).checked (s.isLate core e)).statusAt core e state reason flags xdata
            (s.tearReason (dieOf core) (s.jobOf core))) s.mem.age := by
  obtain ⟨fs, ws, hm, hl⟩ := s.markLate_table core e
  have hf : ((s.markLate core e).core core).future e = ((s.core core).future e).checked (s.isLate core e) := by
    rw [Core.future, hm.futures, State.core_withTable]
    exact hl
  have hu' : (((s.markLate core e).core core).future e).used = true := by
    rw [hf]
    exact hu
  have he := State.endFuture_attends state reason flags xdata rfl hu'
  rw [hf, hm.tearReason, hm.mem, State.tearReason_withTable] at he
  have hw := (hm.withTable core _ _ _).trans he
  rw [State.withTable_withTable] at hw
  exact ⟨_, _, _, hw, look_put_self _ _ _ _⟩

end Sys2Proof.Machine
end

/-! ## FCANCEL of a queued operation (R243) -/

section
namespace Sys2Proof.Machine

/-- What the end of a future reads of a core's table, its clock and its teardown is as before. -/
structure State.SameFutures (s u : State) (core : Nat) : Prop where
  futures : (u.core core).futures = (s.core core).futures
  gateJob : (u.core core).gateJob = (s.core core).gateJob
  ticks : u.ticks = s.ticks
  epoch : (u.die (dieOf core)).epoch = (s.die (dieOf core)).epoch
  tdWork : (u.die (dieOf core)).tdWork = (s.die (dieOf core)).tdWork

theorem State.SameFutures.trans {s t u : State} {core : Nat} (h : s.SameFutures t core) (h' : t.SameFutures u core) :
    s.SameFutures u core :=
  ⟨h'.futures.trans h.futures, h'.gateJob.trans h.gateJob, h'.ticks.trans h.ticks, h'.epoch.trans h.epoch,
    h'.tdWork.trans h.tdWork⟩

theorem State.Attends.sameFutures {s t : State} (h : s.Attends t) (core : Nat) : s.SameFutures t core :=
  ⟨h.futures core, (congrArg Core.gateJob (h.cores core) :), (congrArg State.ticks h.rest :), (congrArg Die.epoch (h.dies _) :),
    (congrArg Die.tdWork (h.dies _) :)⟩

theorem State.SameFutures.future {s u : State} {core : Nat} (h : s.SameFutures u core) (e : Nat) :
    (u.core core).future e = (s.core core).future e := by
  unfold Core.future
  rw [h.futures]

theorem State.SameFutures.isLate {s u : State} {core : Nat} (h : s.SameFutures u core) (e : Nat) :
    u.isLate core e = s.isLate core e := by
  unfold State.isLate State.cyc
  rw [h.future, h.ticks, h.epoch]

theorem State.SameFutures.tearReason {s u : State} {core : Nat} (h : s.SameFutures u core) :
    u.tearReason (dieOf core) (u.jobOf core) = s.tearReason (dieOf core) (s.jobOf core) := by
  unfold State.tearReason State.jobOf
  rw [h.tdWork, h.gateJob]

/-- The end of an operation, in a state in which its table is as before (R237, R239). -/
theorem State.SameFutures.futureEnds {s u : State} {core : Nat} (h : s.SameFutures u core) {e : Nat} (state : Nat)
    (reason : BitVec 8) (flags : BitVec 5) (hu : ((s.core core).future e).used = true) :
    s.futureEnds (u.endFuture core e state reason flags 0) core e state reason flags := by
  obtain ⟨fs, free, ws, ht, hl⟩ := u.endFuture_table state reason flags 0 (by rw [h.future]; exact hu)
  rw [h.future, h.isLate, h.tearReason] at hl
  have he : ((u.endFuture core e state reason flags 0).core core).future e = look {} fs e := by
    rw [Core.future, ht.futures, State.core_withTable]
  unfold State.futureEnds
  rw [he, hl]
  exact ⟨rfl, rfl⟩

/-- An engine operation ends FAILED, as its future's end says (R238). -/
theorem State.SameFutures.failFuture {s u : State} {core : Nat} (h : s.SameFutures u core) {e : Nat} (item : Nat)
    {reason : BitVec 8} (flags : BitVec 5) {started : Bool} (hu : ((s.core core).future e).used = true)
    (hr : (started && !fromOutside reason && ((s.core core).future e).engine.toNat < 3) = false) :
    s.futureEnds (u.failFuture core e item reason flags 0 started) core e 2 reason flags := by
  unfold State.failFuture
  dsimp only
  rw [h.future, hr]
  exact (h.trans ((u.attends_invRecord _ _).sameFutures core)).futureEnds _ _ _ hu

/-- A future's end leaves memory, and of dies all but saved tenants and records. -/
theorem State.endFuture_frame {u : State} {core e : Nat} (state : Nat) (reason : BitVec 8) (flags : BitVec 5) (xdata : BitVec 8)
    (hu : ((u.core core).future e).used = true) :
    (∀ d, (u.die d).sameWork ((u.endFuture core e state reason flags xdata).die d))
      ∧ (u.endFuture core e state reason flags xdata).mem = u.mem := by
  obtain ⟨fs, free, ws, ht, -⟩ := u.endFuture_table state reason flags xdata hu
  exact ⟨ht.dies, ht.mem⟩

theorem State.failFuture_frame {u : State} {core e : Nat} (item : Nat) (reason : BitVec 8) (flags : BitVec 5) (xdata : BitVec 8)
    (started : Bool) (hu : ((u.core core).future e).used = true) :
    (∀ d, (u.die d).sameWork ((u.failFuture core e item reason flags xdata started).die d))
      ∧ (u.failFuture core e item reason flags xdata started).mem = u.mem := by
  unfold State.failFuture State.itemEnds
  dsimp only
  generalize hr : InvRec.mk .. = x
  have ha := u.attends_invRecord (dieOf core) x
  obtain ⟨hdies, hmem⟩ := State.endFuture_frame (u := u.invRecord (dieOf core) x) (core := core) (e := e) 2
    (if started && !fromOutside reason && ((u.core core).future e).engine.toNat < 3 then u.reasonAt core reason else reason)
    flags xdata (by rw [(ha.sameFutures core).future]; exact hu)
  exact ⟨fun d => Die.sameWork_trans (ha.dies d) (hdies d), hmem.trans ha.mem⟩

theorem State.recall_rest (s : State) (i : Nat) : { s.recall i with net := s.net, pkgs := s.pkgs } = s := by
  unfold State.recall
  split
  · dsimp only
    split
    all_goals rfl
  · rfl

theorem State.foldl_recall_rest (l : List Packet) (s : State) :
    { l.foldl (fun t p => match t.findPacket p.body with | some i => t.recall i | none => t) s with
      net := s.net, pkgs := s.pkgs } = s := by
  induction l generalizing s with
  | nil => rfl
  | cons p l ih =>
    rw [List.foldl_cons]
    split
    · next i _ =>
      exact (congrArg (fun t : State => { t with net := s.net, pkgs := s.pkgs }) (ih (s.recall i)) :).trans (s.recall_rest i)
    · exact ih s

/-- A core with what it keeps of lost crossings. -/
def Core.withLost (c : Core) (lost : AMap Bool) : Core := { c with lost := lost }

/-- A core with a queue of vector operations. -/
def Core.withVecQ (c : Core) (q : List VecOp) : Core := { c with vecQ := q }

/-- What is dropped of an engine's crossings: packets, their counts, and what the core keeps of lost ones. -/
theorem State.sweepCrossings_keeps (s : State) (core : Nat) :
    (s.sweepCrossings core).core core = (s.core core).withLost ((s.sweepCrossings core).core core).lost
      ∧ (s.sweepCrossings core).dies = s.dies ∧ (s.sweepCrossings core).mem = s.mem
      ∧ (s.sweepCrossings core).ticks = s.ticks := by
  unfold State.sweepCrossings
  dsimp only
  have hrest := s.foldl_recall_rest (s.net.filter (fun p => match p.body with
    | .engine k va => k == core && (!(s.core core).copyQ.any (fun o => o.started)
        && !(s.core core).vecQ.any (fun v => v.b.toNat == va))
    | _ => false))
  generalize List.foldl _ s _ = t at *
  have hcore : t.core core = s.core core := (congrArg (fun x : State => x.core core) hrest :)
  have hdies : t.dies = s.dies := (congrArg State.dies hrest :)
  have hmem : t.mem = s.mem := (congrArg State.mem hrest :)
  have hticks : t.ticks = s.ticks := (congrArg State.ticks hrest :)
  split
  · refine ⟨?_, hdies, hmem, hticks⟩
    rw [hcore]
    rfl
  · refine ⟨?_, hdies, hmem, hticks⟩
    rw [State.core_modCore, hcore]
    rfl

theorem State.futureCancel_vector {s : State} {h : Nat}
    (hu : ((s.core (handleCore h)).future (handleEntry h)).used = true)
    (hg : ((s.core (handleCore h)).future (handleEntry h)).gen.toNat = handleGen h)
    (he : ((s.core (handleCore h)).future (handleEntry h)).engine = 0)
    (hv : (s.core (handleCore h)).vecQ.any (fun v => v.entry == handleEntry h && !v.started) = true) :
    s.futureCancel h = (((s.setCore (handleCore h) ((s.core (handleCore h)).withVecQ
        ((s.core (handleCore h)).vecQ.filter (fun v => v.entry != handleEntry h)))).sweepCrossings
        (handleCore h)).endFuture (handleCore h) (handleEntry h) 3 0 0 0) := by
  simp only [State.futureCancel, hu, hg, he, hv, Bool.not_true, bne_self_eq_false, Bool.or_self, Bool.false_eq_true,
    if_false, if_true]
  rfl

/-- FCANCEL of a vector operation that has not started. -/
theorem fcancel_queued {s : State} {a : BitVec 5} {f : Future} (w : BitVec 2) (hc : s.clear (s.futureUse [] a) = true)
    (hh : s.inHandler = false) (hok : s.futureOk s.ctx.core (handleOf (s.g (s.ra a))) = true)
    (hcore : handleCore (handleOf (s.g (s.ra a))) = s.ctx.core)
    (hf : (s.core s.ctx.core).future (handleEntry (handleOf (s.g (s.ra a)))) = f) (hu : f.used = true)
    (hg : f.gen.toNat = handleGen (handleOf (s.g (s.ra a)))) (he : f.engine = 0)
    (hl : s.isLate s.ctx.core (handleEntry (handleOf (s.g (s.ra a)))) = false)
    (hv : (s.core s.ctx.core).vecQ.any (fun v => v.entry == handleEntry (handleOf (s.g (s.ra a))) && !v.started) = true) :
    ∃ t, exec (.fcancel w a) s = .next t
      ∧ ((t.core s.ctx.core).future (handleEntry (handleOf (s.g (s.ra a))))).used = false
      ∧ ((t.core s.ctx.core).future (handleEntry (handleOf (s.g (s.ra a))))).status
          = futureWord (futureHandle s.ctx.core (handleEntry (handleOf (s.g (s.ra a)))) f.gen.toNat) 3 f.late 0 0 0 0
      ∧ (t.core s.ctx.core).vecQ
          = (s.core s.ctx.core).vecQ.filter (fun v => v.entry != handleEntry (handleOf (s.g (s.ra a))))
      ∧ t.mem = s.mem := by
  have hbc := s.core_begun_advance w (s.futureUse [] a)
  refine ⟨_, (exec_fcancel w hc hh hok hcore).trans (congrArg _ (State.futureCancel_vector ?_ ?_ ?_ ?_)), ?_⟩
  · rw [hcore, hbc, Core.future_setProc, hf]
    exact hu
  · rw [hcore, hbc, Core.future_setProc, hf]
    exact hg
  · rw [hcore, hbc, Core.future_setProc, hf]
    exact he
  · rw [hcore, hbc]
    exact hv
  rw [hcore, hbc]
  generalize handleEntry (handleOf (s.g (s.ra a))) = e at *
  generalize hu' : ((s.begun w (s.futureUse [] a)).advance.setCore s.ctx.core _) = u
  obtain ⟨hsweep, hdies, hmem, hticks⟩ := u.sweepCrossings_keeps s.ctx.core
  have hcore' : (u.core s.ctx.core) = ((s.core s.ctx.core).setProc s.ctx.pn (s.steppedProc w (s.futureUse [] a))).withVecQ
      ((s.core s.ctx.core).vecQ.filter (fun v => v.entry != e)) := by
    rw [← hu', State.core_setCore]
    rfl
  generalize u.sweepCrossings s.ctx.core = x at *
  rw [hcore'] at hsweep
  have hfx : (x.core s.ctx.core).future e = f := by
    rw [hsweep, ← hf]
    rfl
  have hlx : x.isLate s.ctx.core e = false := by
    rw [← hl]
    unfold State.isLate State.cyc State.die
    rw [hfx, hf, hticks, hdies, ← hu']
    rfl
  obtain ⟨fs, free, ws, ht, hlook⟩ := x.endFuture_table (core := s.ctx.core) 3 0 0 0 (by rw [hfx]; exact hu)
  have hft := (congrArg (fun l => look {} l e) (ht.futures s.ctx.core) :)
  rw [State.core_withTable] at hft
  refine ⟨?_, ?_, ?_, ?_⟩
  · rw [Core.future, hft, hlook]
    rfl
  · rw [Core.future, hft, hlook, hfx, hlx]
    simp [Future.ended, Future.statusAt, Future.checked, he]
  · refine ((congrArg Core.vecQ (ht.cores s.ctx.core) :).trans ?_)
    rw [State.core_withTable, hsweep]
    rfl
  · refine ht.mem.trans (hmem.trans ?_)
    rw [← hu']
    rfl

end Sys2Proof.Machine
end

/-! ## ITER answered from its entry (R166) -/

section
namespace Sys2Proof.Machine

/-! ### ITER (R166) -/

def Proc.withIter (p : Proc) (e : IterEntry) : Proc := { p with iter := e }

/-- Results of variable latency enter flight. -/
def Core.flying (c : Core) (pn due : Nat) (ws : List (Nat × Word)) : Core :=
  { c with
    flight := c.flight ++ [{ pn := pn, writes := ws.filter (fun e => e.1 != 0), due := due, seq := c.seq, var := true }]
    seq := c.seq + 1 }

theorem Core.setProc_flying (c : Core) (pn due : Nat) (ws : List (Nat × Word)) (n : Nat) (p : Proc) :
    (c.flying pn due ws).setProc n p = (c.setProc n p).flying pn due ws := rfl

@[simp] theorem Core.proc_flying (c : Core) (pn due : Nat) (ws : List (Nat × Word)) (n : Nat) :
    (c.flying pn due ws).proc n = c.proc n := rfl

/-- The issuing process of an ITER answered from its entry: the entry after it, and the registers it writes pending. -/
def State.countedProc (s : State) (w : BitVec 2) (u : Use) (e : IterEntry) (ws : List (Nat × Word)) : Proc :=
  (ws.foldl (fun (q : Proc) x => q.setPending x.1 true) ((s.begunProc w u).withIter e)).stepPc s.ctx.pc s.ctx.rep.isSome

/-- An ITER answered from its entry, its results in flight. -/
theorem State.iter_eq (s : State) (w : BitVec 2) (u : Use) (l : Nat) (e : IterEntry) (ws : List (Nat × Word)) :
    ((((s.begun w u).modMe (fun p => p.withIter e)).varResult l ws).advance)
      = s.withCore (((s.core s.ctx.core).setProc s.ctx.pn (s.countedProc w u e ws)).flying s.ctx.pn (s.ticks + l) ws) := by
  have h : ws.foldl (fun t e => t.pendDest e.1) ((s.begun w u).modMe (fun p => p.withIter e)) = s.withCore _ :=
    (State.foldl_pendDest _ _ _).trans (s.begun_modMe w u _)
  unfold State.varResult State.countedProc
  rw [h]
  generalize List.foldl _ _ ws = p
  have hm : (s.withCore ((s.core s.ctx.core).setProc s.ctx.pn p)).modCore s.ctx.core
      (fun c => c.flying s.ctx.pn (s.ticks + l) ws)
      = s.withCore (((s.core s.ctx.core).setProc s.ctx.pn p).flying s.ctx.pn (s.ticks + l) ws) := s.withCore_modCore _ _
  refine (congrArg State.advance hm :).trans ?_
  refine (s.withCore_modMe _ _).trans ?_
  rw [Core.setProc_flying, Core.proc_flying, Core.proc_setProc, Core.setProc_setProc]
  rfl

theorem Proc.stepPc_nests (p : Proc) (pc : Word) (rep : Bool) :
    (p.stepPc pc rep).iter = p.iter ∧ (p.stepPc pc rep).pastNests = p.pastNests ∧ (p.stepPc pc rep).asyncTrap = p.asyncTrap := by
  unfold Proc.stepPc
  split
  · split
    all_goals exact ⟨rfl, rfl, rfl⟩
  · exact ⟨rfl, rfl, rfl⟩

theorem State.countedProc_as (s : State) (w : BitVec 2) (u : Use) (e : IterEntry) (ws : List (Nat × Word)) :
    (s.countedProc w u e ws).iter = e ∧ (s.countedProc w u e ws).pc = s.nextPc
      ∧ (s.countedProc w u e ws).regs = s.me.regs := by
  have hrep := s.begunProc_repRemain w u
  obtain ⟨hregs, -⟩ := s.keeps_begunProc w u
  unfold State.countedProc
  generalize s.begunProc w u = p at *
  rw [Proc.foldl_setPending_eq, Proc.stepPc_regs]
  exact ⟨(Proc.stepPc_nests _ _ _).1, Proc.stepPc_pc s _ hrep, hregs⟩

/-- An ITER whose entry answers it. -/
theorem exec_iter_answered {s : State} {e : IterEntry} {vs : List (Nat × Word)} (w : BitVec 2) (d : BitVec 5)
    (hc : s.clear { writes := [s.rd d, s.rd d + 1, s.rd d + 2, s.rd d + 3], var := true } = true)
    (hq : (s.core s.ctx.core).claims s.ctx.pn = []) (ha : s.me.iter.answer (s.rd d) = some (e, vs)) :
    ∃ t, exec (.iter w d) s = .next t ∧ t.me.iter = e ∧ t.me.pc = s.nextPc
      ∧ (t.core s.ctx.core).flight = (s.core s.ctx.core).flight ++ [{
          pn := s.ctx.pn, due := s.ticks + 2, seq := (s.core s.ctx.core).seq, var := true
          writes := vs.filter (fun x => x.1 != 0) }]
      ∧ t.me.regs = s.me.regs ∧ s.onlyCore t s.ctx.core := by
  have hn : (if ((s.core s.ctx.core).claims s.ctx.pn).isEmpty then s.me.iter.answer (s.rd d) else none) = some (e, vs) := by
    rw [hq, ha]
    rfl
  have he : execIter w d s = .next (((s.begun w { writes := [s.rd d, s.rd d + 1, s.rd d + 2, s.rd d + 3], var := true }).modMe
      (fun p => p.withIter e)).varResult 2 vs).advance := by
    unfold execIter
    simp only [hn]
    exact State.issue_clear hc w _
  refine ⟨_, (he :).trans (congrArg _ (s.iter_eq w _ 2 e vs)), ?_⟩
  obtain ⟨hiter, hpc, hregs⟩ := s.countedProc_as w
    { writes := [s.rd d, s.rd d + 1, s.rd d + 2, s.rd d + 3], var := true } e vs
  rw [State.me_withCore, Core.proc_flying, Core.proc_setProc, State.core_withCore]
  exact ⟨hiter, hpc, rfl, hregs, s.onlyCore_withCore _⟩

theorem IterEntry.answer_next {e : IterEntry} (d : Nat) (h : e.next < e.stop) :
    e.answer d = some ({ e with next := e.next + 1 }, e.index d e.next) := by
  unfold IterEntry.answer
  rw [if_neg (by simp [Nat.ne_of_lt h]), if_pos h]

theorem IterEntry.answer_exhausted {e : IterEntry} (d : Nat) (h : e.exhausted = true) (hs : e.next = e.stop) :
    e.answer d = some (e, [(d, -1), (d + 1, 0), (d + 2, 0), (d + 3, 0)]) := by
  unfold IterEntry.answer
  rw [if_pos (by simp [h, hs])]
  rfl

theorem IterEntry.answer_none {e : IterEntry} (d : Nat) (h : e.exhausted = false) (hs : e.stop ≤ e.next) :
    e.answer d = none := by
  unfold IterEntry.answer
  rw [if_neg (by simp [h]), if_neg (by omega)]

theorem accesses_iter {s : State} (w : BitVec 2) (d : BitVec 5)
    (hc : s.clear { writes := [s.rd d, s.rd d + 1, s.rd d + 2, s.rd d + 3], var := true } = true)
    (ha : ¬ (s.core s.ctx.core).claims s.ctx.pn = [] ∨ s.me.iter.answer (s.rd d) = none) :
    s.accesses (.iter w d) w { s.me.iter.claim (s.rd d) with nest := s.me.iter.gen } := by
  refine State.accesses_of_not_waits ?_ hc rfl rfl
  have hn : (if ((s.core s.ctx.core).claims s.ctx.pn).isEmpty then s.me.iter.answer (s.rd d) else none) = none := by
    obtain hq | hq := ha
    · exact if_neg (by simpa using hq)
    · rw [hq, ite_self]
  change execIter w d s = _
  unfold execIter
  simp only [hn]

end Sys2Proof.Machine
end

/-! ## What reads leave of the issuing process (R274, R378) -/

section
namespace Sys2Proof.Machine

/-! ### Reads of the issuing process (R274) -/

/-- The state while an instruction reads: its process so far, and the free values drawn. -/
def State.readingAs (s : State) (p : Proc) (n : Nat) : State :=
  { s.withCore ((s.core s.ctx.core).setProc s.ctx.pn p) with free := n }

/-- A process with the writes that its reads have seen. -/
def Proc.withSeen (p : Proc) (seen : AMap Nat) : Proc := { p with seen := seen }

theorem State.begun_readingAs (s : State) (w : BitVec 2) (u : Use) : s.begun w u = s.readingAs (s.begunProc w u) s.free := rfl

theorem State.core_readingAs (s : State) (p : Proc) (n : Nat) :
    (s.readingAs p n).core s.ctx.core = (s.core s.ctx.core).setProc s.ctx.pn p := s.core_withCore _

theorem State.core_readingAs_ne (s : State) (p : Proc) (n : Nat) {k : Nat} (h : k ≠ s.ctx.core) :
    (s.readingAs p n).core k = s.core k := State.core_setCore_ne s _ h

theorem State.me_readingAs (s : State) (p : Proc) (n : Nat) : (s.readingAs p n).me = p :=
  (s.me_withCore _).trans (Core.proc_setProc _ _ _)

theorem State.mem_readingAs (s : State) (p : Proc) (n : Nat) : (s.readingAs p n).mem = s.mem := rfl

theorem State.jobOf_readingAs (s : State) (p : Proc) (n : Nat) :
    (s.readingAs p n).jobOf s.ctx.core = s.jobOf s.ctx.core := by
  unfold State.jobOf
  rw [State.core_readingAs]
  rfl

theorem State.locate_readingAs (s : State) (p : Proc) (n : Nat) (r : Req) :
    (s.readingAs p n).locate s.ctx.core r = s.locate s.ctx.core r := by
  unfold State.locate
  rw [State.core_readingAs, State.jobOf_readingAs]
  rfl

theorem State.modMe_readingAs (s : State) (p : Proc) (n : Nat) (g : Proc → Proc) :
    (s.readingAs p n).modMe g = s.readingAs (g p) n :=
  (congrArg (fun t : State => { t with free := n }) (s.withCore_modMe _ g) :).trans (by
    rw [Core.proc_setProc, Core.setProc_setProc]
    rfl)

theorem any_put {α : Type} (m : AMap α) (i : Nat) (v : α) : (put m i v).any (fun e => e.1 == i) = true := by
  induction m with
  | nil => simp [put]
  | cons e m ih =>
    unfold put
    split
    · simp
    · split
      · simp
      · simp [ih]

theorem State.modLive_readingAs (s : State) (p : Proc) (n : Nat) (g : Proc → Proc) :
    (s.readingAs p n).modLive s.ctx.core s.ctx.pn g = s.readingAs (g p) n := by
  unfold State.modLive
  rw [State.core_readingAs, if_pos (show ((s.core s.ctx.core).setProc s.ctx.pn p).procs.any (fun e => e.1 == s.ctx.pn) = true from any_put _ _ _)]
  exact s.modMe_readingAs p n g

theorem State.remember_readingAs (s : State) (p : Proc) (n w age : Nat) :
    ∃ seen, (s.readingAs p n).remember s.ctx.core s.ctx.pn w age = s.readingAs (p.withSeen seen) n := by
  unfold State.remember
  split
  · exact ⟨_, s.modLive_readingAs p n _⟩
  · exact ⟨p.seen, rfl⟩

theorem State.sawWord_readingAs (s : State) (p : Proc) (n : Nat) (q : Path) (w : Nat) :
    ∃ seen m, (s.readingAs p n).sawWord s.ctx.core s.ctx.pn q w = s.readingAs (p.withSeen seen) m := by
  obtain ⟨seen, h⟩ := s.remember_readingAs p n w ((s.readingAs p n).version s.ctx.core s.ctx.pn q w).2
  unfold State.sawWord
  split
  · exact ⟨seen, n, h⟩
  · exact ⟨seen, n + 1, congrArg State.drawn h⟩

/-- A run of reads leaves the process as it was, but for the writes it has seen. -/
theorem State.readRun_readingAs (s : State) (p : Proc) (n : Nat) (q : Path) (k l : Nat) :
    ∃ seen m, ((s.readingAs p n).readRun s.ctx.core s.ctx.pn q k l).1 = s.readingAs (p.withSeen seen) m := by
  induction l generalizing p n k with
  | zero => exact ⟨p.seen, n, rfl⟩
  | succ l ih =>
    unfold State.readRun
    split
    · exact ih p (n + 1) (k + 8)
    · obtain ⟨seen, m, h⟩ := s.sawWord_readingAs p n q (k / 8)
      obtain ⟨seen', m', h'⟩ := ih (p.withSeen seen) m (k + 8)
      refine ⟨seen', m', ?_⟩
      dsimp only
      rw [h, h']
      rfl

/-- A read of a record in clean lines is its run of reads. The definition is opened behind a variable, since a comparison of
its two sides would count out the lines of the pool. -/
theorem State.recordRead_clean {s : State} {core n : Nat} {a : Word} (pn : Nat)
    (h : s.mem.poisonIn (poolKey core a.toNat) (8 * n) = none) :
    s.recordRead core pn a n = (s.readRun core pn .c (poolKey core a.toNat) n).1 := by
  generalize hf : @State.recordRead = f
  delta State.recordRead at hf
  subst hf
  dsimp only
  rw [h]

theorem State.recordRead_poisoned {s : State} {core n l : Nat} {a : Word} (pn : Nat)
    (h : s.mem.poisonIn (poolKey core a.toNat) (8 * n) = some l) :
    s.recordRead core pn a n
      = (s.readRun core pn .c (poolKey core a.toNat) n).1.poisonRead core pn (word (l * 64 % 2 ^ 21)) := by
  generalize hf : @State.recordRead = f
  delta State.recordRead at hf
  subst hf
  dsimp only
  rw [h]

theorem lineAddress_masked (l : Nat) : word (l * 64 % 2 ^ 21) &&& ~~~(63 : Word) = word (l * 64 % 2 ^ 21) := by
  have h : l * 64 % 2 ^ 21 = l % 2 ^ 15 * 2 ^ 6 := by omega
  rw [h]
  refine BitVec.eq_of_getLsbD_eq fun i hi => ?_
  have h63 : (63 : Word).getLsbD i = decide (i < 6) := Nat.testBit_two_pow_sub_one 6 i
  rw [BitVec.getLsbD_and, BitVec.getLsbD_not, h63, word, BitVec.getLsbD_ofNat, Nat.testBit_mul_two_pow]
  by_cases h6 : i < 6
  · simp [h6, Nat.not_le.2 h6]
  · simp [hi, h6]

/-- A poisoned line read gives its process POISON (R378). -/
theorem State.poisonRead_readingAs (s : State) (p : Proc) (n l : Nat) :
    (s.readingAs p n).poisonRead s.ctx.core s.ctx.pn (word (l * 64 % 2 ^ 21)) = s.readingAs { p with
      asyncTrap := p.asyncTrap.or (some (.poison, word (l * 64 % 2 ^ 21))) } n := by
  unfold State.poisonRead
  rw [lineAddress_masked]
  exact s.modLive_readingAs p n _

/-! ### Reads behind the process's own writes (R276, R300) -/

theorem settleOwn_of_calm {s : State} {core pn : Nat} (h : s.calm core pn) : s.settleOwn core pn = s := by
  unfold State.settleOwn State.arriveFirst
  rw [List.filter_eq_nil_iff.2]
  · rfl
  · intro r hr
    have := h r hr
    simp only [Bool.and_eq_true, beq_iff_eq, bne_iff_ne]
    tauto

theorem ownWritesDone_of_calm {s : State} {core pn : Nat} (h : s.calm core pn) (upto : Nat) :
    (s.core core).ownWritesDone pn upto = true := by
  unfold Core.ownWritesDone
  refine List.all_eq_true.2 fun r hr => ?_
  have := h r hr
  simp only [Bool.or_eq_true, bne_iff_ne, beq_iff_eq]
  tauto

/-- Behind no write of its own, a word reads at once. -/
theorem State.afterOwnWrites_of_calm {t : State} (k : State → State) (h : t.calm t.ctx.core t.ctx.pn) :
    t.afterOwnWrites k = k t := by
  unfold State.afterOwnWrites
  dsimp only
  rw [settleOwn_of_calm h, if_pos (ownWritesDone_of_calm h _)]

end Sys2Proof.Machine
end

/-! ## Nest records (R165) -/

section
namespace Sys2Proof.Machine

/-! ### NESTSET (R165) -/

theorem State.calm_begun {s : State} (w : BitVec 2) (u : Use) (h : s.quiet) :
    (s.begun w u).calm (s.begun w u).ctx.core (s.begun w u).ctx.pn := by
  unfold State.calm
  rw [State.begun_ctx, State.core_begun]
  exact h

theorem State.advance_readingAs (s : State) (p : Proc) (n : Nat) :
    (s.readingAs p n).advance = s.readingAs (p.stepPc s.ctx.pc s.ctx.rep.isSome) n := s.modMe_readingAs p n _

theorem State.begunProc_nests (s : State) (w : BitVec 2) (u : Use) : (s.begunProc w u).iter = s.me.iter
    ∧ (s.begunProc w u).pastNests = s.me.pastNests ∧ (s.begunProc w u).asyncTrap = s.me.asyncTrap := by
  unfold State.begunProc Proc.observeRegs
  split
  all_goals exact ⟨rfl, rfl, rfl⟩

/-- A process that has read goes on. -/
theorem State.stepped_reading {s : State} {p : Proc} (n : Nat) (hr : p.repRemain = s.me.repRemain) (hk : s.me.keeps p)
    (hd : p.pend = s.me.pend) :
    let t := s.readingAs (p.stepPc s.ctx.pc s.ctx.rep.isSome) n
    t.me.pc = s.nextPc ∧ s.me.keeps t.me ∧ t.me.pend = s.me.pend ∧ t.mem = s.mem
      ∧ t.me.iter = p.iter ∧ t.me.pastNests = p.pastNests ∧ t.me.asyncTrap = p.asyncTrap := by
  dsimp only
  rw [State.me_readingAs]
  obtain ⟨hi, hn, ha⟩ := p.stepPc_nests s.ctx.pc s.ctx.rep.isSome
  exact ⟨Proc.stepPc_pc s p hr, Proc.keeps_stepPc hk _ _, (Proc.stepPc_pend _ _ _).trans hd, rfl, hi, hn, ha⟩

section
variable {s : State} {a : BitVec 5} (w : BitVec 2) (hc : s.clear { reads := [s.ra a] } = true)
  (hin : (s.core s.ctx.core).inScratchpad (s.g (s.ra a)) 64 = true) (hal : (s.g (s.ra a)).toNat % 64 = 0)
include hc hin hal

/-- NESTSET on a record of its scratchpad reads it behind the process's own writes. -/
theorem exec_nestset : ∃ k, exec (.nestset w a) s = .next ((s.begun w { reads := [s.ra a] }).afterOwnWrites k)
    ∧ (∀ t : State, t.mem.poisonIn (poolKey s.ctx.core (s.g (s.ra a)).toNat) 64 ≠ none →
      k t = (t.recordRead s.ctx.core s.ctx.pn (s.g (s.ra a)) 8).advance)
    ∧ (∀ (t u : State) e r, t.mem.poisonIn (poolKey s.ctx.core (s.g (s.ra a)).toNat) 64 = none →
      e = nestEntry (BitVec.ofNat 512 (packWords (t.recordWords s.ctx.core s.ctx.pn (s.g (s.ra a)) 8))) →
      u = t.recordRead s.ctx.core s.ctx.pn (s.g (s.ra a)) 8 →
      e.ok = true → e.caddr.toNat % 8 = 0 → spaceOf (isKernel s.ctx.core) e.caddr = .global →
      u.locate s.ctx.core { e.claim 0 with job := u.jobOf s.ctx.core } = .away r → r.target < 2 →
      k t = (u.modMe (fun p => p.newNest (u.core s.ctx.core) s.ctx.pn e)).advance) := by
  have hin' : ((s.begun w { reads := [s.ra a] }).core s.ctx.core).inScratchpad (s.g (s.ra a)) 64 = true := by
    rw [State.core_begun]
    exact hin
  change ∃ k, execNestset w a s = _ ∧ _
  unfold execNestset
  dsimp only
  rw [State.issue_clear hc, if_neg (by rw [hin']; decide), if_neg (by rw [hal]; decide)]
  refine ⟨_, rfl, fun t hp => ?_, fun t u e r hp he hu hok h8 hsp hl ht => ?_⟩
  · exact if_pos (Option.isSome_iff_ne_none.2 hp)
  · rw [← he, ← hu, if_neg (by rw [hp]; decide), if_neg (by simp [hok]), if_neg (by simp [h8]), if_neg (by simp [hsp]), hl]
    exact if_neg (by omega)

theorem awaitsOwn_nestset : s.awaitsOwn (.nestset w a) w { reads := [s.ra a] } := by
  obtain ⟨k, hk, -⟩ := exec_nestset w hc hin hal
  intro hnot
  unfold State.afterOwnWrites at hk
  dsimp only at hk
  have hnot' : ¬ (((s.begun w { reads := [s.ra a] }).settleOwn s.ctx.core s.ctx.pn).core s.ctx.core).ownWritesDone s.ctx.pn
      (((s.begun w { reads := [s.ra a] }).settleOwn s.ctx.core s.ctx.pn).core s.ctx.core).nextTag = true :=
    Bool.eq_false_iff.1 hnot
  rw [State.begun_ctx, if_neg hnot', State.core_begun] at hk
  exact State.blocks_begun hk

theorem nestset_poisoned {l : Nat} (hq : s.quiet)
    (hp : s.mem.poisonIn (poolKey s.ctx.core (s.g (s.ra a)).toNat) 64 = some l) (ha : s.me.asyncTrap = none) :
    ∃ t, exec (.nestset w a) s = .next t ∧ t.me.pc = s.nextPc ∧ s.me.keeps t.me ∧ t.me.pend = s.me.pend
      ∧ t.mem = s.mem ∧ t.me.iter = s.me.iter ∧ t.me.pastNests = s.me.pastNests
      ∧ t.me.asyncTrap = some (.poison, word (l * 64 % 2 ^ 21)) := by
  obtain ⟨k, hk, hpoison, -⟩ := exec_nestset w hc hin hal
  rw [State.afterOwnWrites_of_calm k (State.calm_begun w _ hq), hpoison _ (by rw [State.begun_readingAs, State.mem_readingAs, hp]; simp),
    State.begun_readingAs] at hk
  obtain ⟨seen, m, hr⟩ := s.readRun_readingAs (s.begunProc w { reads := [s.ra a] }) s.free .c
    (poolKey s.ctx.core (s.g (s.ra a)).toNat) 8
  rw [State.recordRead_poisoned (l := l) s.ctx.pn hp, hr, State.poisonRead_readingAs] at hk
  rw [State.advance_readingAs] at hk
  obtain ⟨hiter, hnests, htrap⟩ := s.begunProc_nests w { reads := [s.ra a] }
  have hrep := s.begunProc_repRemain w { reads := [s.ra a] }
  have hpend := s.begunProc_pend w { reads := [s.ra a] }
  have hkeep := s.keeps_begunProc w { reads := [s.ra a] }
  generalize s.begunProc w { reads := [s.ra a] } = p at *
  obtain ⟨h1, h2, h3, h4, h5, h6, h7⟩ := State.stepped_reading (s := s) (p := { p.withSeen seen with
    asyncTrap := p.asyncTrap.or (some (.poison, word (l * 64 % 2 ^ 21))) }) m hrep hkeep hpend
  refine ⟨_, hk, h1, h2, h3, h4, h5.trans hiter, h6.trans hnests, h7.trans ?_⟩
  dsimp only
  rw [htrap, ha]
  rfl

theorem nestset_set {e : IterEntry} {r : Req} (hq : s.quiet)
    (hp : s.mem.poisonIn (poolKey s.ctx.core (s.g (s.ra a)).toNat) 64 = none)
    (he : e = nestEntry (BitVec.ofNat 512 (packWords ((s.begun w { reads := [s.ra a] }).recordWords s.ctx.core s.ctx.pn
        (s.g (s.ra a)) 8))))
    (hok : e.ok = true) (h8 : e.caddr.toNat % 8 = 0) (hsp : spaceOf (isKernel s.ctx.core) e.caddr = .global)
    (hl : s.locate s.ctx.core { e.claim 0 with job := s.jobOf s.ctx.core } = .away r) (ht : r.target < 2) :
    ∃ t, exec (.nestset w a) s = .next t ∧ t.me.pc = s.nextPc ∧ s.me.keeps t.me ∧ t.me.pend = s.me.pend
      ∧ t.mem = s.mem ∧ (∀ k, k ≠ s.ctx.core → t.core k = s.core k)
      ∧ t.me.iter = { e with gen := s.me.iter.gen + 1 }
      ∧ t.me.pastNests = (s.me.iter :: s.me.pastNests).filter (fun o =>
        ((s.core s.ctx.core).claims s.ctx.pn).any (fun r => r.nest == o.gen)) := by
  obtain ⟨k, hk, -, hset⟩ := exec_nestset w hc hin hal
  obtain ⟨seen, m, hr⟩ := s.readRun_readingAs (s.begunProc w { reads := [s.ra a] }) s.free .c
    (poolKey s.ctx.core (s.g (s.ra a)).toNat) 8
  rw [State.afterOwnWrites_of_calm k (State.calm_begun w _ hq)] at hk
  have hread : _ = (s.begun w { reads := [s.ra a] }).recordRead s.ctx.core s.ctx.pn (s.g (s.ra a)) 8 :=
    (State.recordRead_clean s.ctx.pn hp).symm
  rw [State.begun_readingAs, hr] at hread
  rw [hset (s.begun w { reads := [s.ra a] }) _ e r hp he hread hok h8 hsp (by rwa [State.locate_readingAs, State.jobOf_readingAs]) ht] at hk
  rw [State.modMe_readingAs, State.advance_readingAs, State.core_readingAs] at hk
  obtain ⟨hiter, hnests, -⟩ := s.begunProc_nests w { reads := [s.ra a] }
  have hrep := s.begunProc_repRemain w { reads := [s.ra a] }
  have hpend := s.begunProc_pend w { reads := [s.ra a] }
  have hkeep := s.keeps_begunProc w { reads := [s.ra a] }
  clear hread he hr
  generalize s.begunProc w { reads := [s.ra a] } = p at *
  obtain ⟨h1, h2, h3, h4, h5, h6, -⟩ := State.stepped_reading (s := s) (p := (p.withSeen seen).newNest
    ((s.core s.ctx.core).setProc s.ctx.pn (p.withSeen seen)) s.ctx.pn e) m hrep hkeep hpend
  refine ⟨_, hk, h1, h2, h3, h4, fun k hk => s.core_readingAs_ne _ _ hk, h5.trans ?_, h6.trans ?_⟩
  · rw [← hiter]
    rfl
  · rw [← hiter, ← hnests]
    rfl

end
end Sys2Proof.Machine
end

/-! ## Futures and nests at issue (O33) -/

section
namespace Sys2Proof.Machine

/-- Settles O33: FWAIT by the three answers of its core's table, FTEST, FCANCEL, FPASS and FPROM by their effects at issue,
NESTSET by the process that has read its record, and ITER by what its entry answers. -/
theorem futureAndIterationInstructions : Obligations.FutureAndIterationInstructions := by
  unfold Obligations.FutureAndIterationInstructions
  refine ⟨fun s w d a i => fwait_ended w, fun s w d a i => fwait_expired w, fun s w d a f => fwait_pending w,
    fun s w d a => delivers_ftest w d a, fun s w a => acts_fcancel w, fun s w a f => fcancel_queued w,
    fun s w d a => acts_fpass w d a, fun s w d a e => fpass_pending w, fun s w d a hc hh hok => acts_fprom w d a hc hh hok rfl,
    fun s w a r hc hin hal hq hp hok h8 hsp hl ht => nestset_set w hc hin hal hq hp rfl hok h8 hsp hl ht,
    fun s w a l hc hin hal => nestset_poisoned w hc hin hal,
    fun s w a => awaitsOwn_nestset w, fun s w d hc => ⟨fun hq hn => ?_,
      fun hq hx hs => ?_, fun ha => ?_⟩⟩
  · exact exec_iter_answered w d hc hq (IterEntry.answer_next _ hn)
  · exact exec_iter_answered w d hc hq (IterEntry.answer_exhausted _ hx hs)
  · exact accesses_iter w d hc (ha.imp_right fun h => IterEntry.answer_none _ h.1 h.2)

end Sys2Proof.Machine
end

/-! ## Regions and barriers that release their processes (R162, R163, R203, R206) -/

section
namespace Sys2Proof.Machine

/-! ### Releases of blocked residents (R149) -/

/-- A process that runs again. -/
def Proc.resumed (p : Proc) : Proc := { p with wait := .none, state := .running }

theorem State.wake_resumes {s : State} {core pn i : Nat} (hb : (s.proc core pn).state.isBlocked = true)
    (hi : (s.core core).slotOf pn = some i) : s.wake core pn = s.setProc core pn (s.proc core pn).resumed :=
  State.wake_blocked hb hi

theorem State.proc_setProc (s : State) (core pn : Nat) (p : Proc) : (s.setProc core pn p).proc core pn = p :=
  s.proc_modProc core pn (fun _ => p)

/-- A blocked resident runs again, its core changed in what is neither of its slot nor of its process. -/
theorem State.resumed_modCore {s : State} {core pn i : Nat} {g : Core → Core} (hproc : (g (s.core core)).proc pn = s.proc core pn)
    (hslot : (g (s.core core)).slotOf pn = (s.core core).slotOf pn) (hi : (s.core core).slotOf pn = some i)
    (hb : (s.proc core pn).state = .blockedSync) :
    ((s.modCore core g).wake core pn).core core = (g (s.core core)).setProc pn (s.proc core pn).resumed
      ∧ (((s.modCore core g).wake core pn).proc core pn) = (s.proc core pn).resumed
      ∧ s.onlyCore ((s.modCore core g).wake core pn) core := by
  have hp : (s.modCore core g).proc core pn = s.proc core pn := by
    rw [State.proc, State.core_modCore, hproc]
  have hw : (s.modCore core g).wake core pn = (s.modCore core g).setProc core pn (s.proc core pn).resumed := by
    rw [State.wake_resumes (i := i), hp]
    · rw [hp, hb]
      rfl
    · rw [State.core_modCore, hslot, hi]
  rw [hw]
  refine ⟨?_, State.proc_setProc _ core pn _,
    State.onlyCore_trans (s.onlyCore_modCore core g) (State.onlyCore_modCore _ core _)⟩
  rw [State.setProc, State.core_modCore, State.core_modCore]

theorem ProcState.isBlocked_of_sync {st : ProcState} (h : st = .blockedSync) : st.isBlocked = true := by
  rw [h]
  rfl

/-- A core with a hold buffer. -/
def Core.withHold (c : Core) (h : Hold) : Core := { c with hold := h }

/-! ### Processes on record -/

/-- A process whose record differs from that of a free process is on record. -/
theorem any_of_look {α : Type} {d : α} {m : AMap α} {i : Nat} (h : look d m i ≠ d) : m.any (fun e => e.1 == i) = true := by
  induction m with
  | nil => exact absurd rfl h
  | cons e m ih =>
    obtain ⟨k, x⟩ := e
    by_cases hk : k = i
    · simp [hk]
    · rw [List.any_cons, ih, Bool.or_true]
      rwa [look, if_neg (Ne.symm hk)] at h

theorem State.modLive_known {s : State} {core pn : Nat} (g : Proc → Proc)
    (h : (s.core core).procs.any (fun e => e.1 == pn) = true) : s.modLive core pn g = s.modProc core pn g := if_pos h

theorem State.known_of_state {s : State} {core pn : Nat} (h : (s.proc core pn).state ≠ .free) :
    (s.core core).procs.any (fun e => e.1 == pn) = true := by
  refine any_of_look (d := ({} : Proc)) fun he => h ?_
  rw [State.proc, Core.proc, he]

theorem State.known_setProc (s : State) (core pn : Nat) (p : Proc) :
    ((s.setProc core pn p).core core).procs.any (fun e => e.1 == pn) = true := by
  rw [State.setProc, State.core_modCore]
  exact any_put _ _ _

theorem State.known_modProc (s : State) (core pn : Nat) (g : Proc → Proc) :
    ((s.modProc core pn g).core core).procs.any (fun e => e.1 == pn) = true := s.known_setProc core pn _

/-- A process that has taken an acquire (R279, R281). -/
def Proc.acquired (p : Proc) (age : Nat) (carries : List (Path × Path × Nat)) : Proc :=
  { p with observed := [Path.c, .v, .m, .y, .n, .s, .h].map (fun q => (q, age)), carried := carries }

theorem State.acquireAll_known {s : State} {core pn : Nat} (h : (s.core core).procs.any (fun e => e.1 == pn) = true) :
    s.acquireAll core pn = s.modProc core pn (fun p => p.acquired s.mem.age s.carries) := by
  unfold State.acquireAll State.observeAll State.takeCarries
  rw [State.modLive_known _ h, State.modLive_known _ (s.known_modProc core pn _), State.modProc_modProc]
  rfl

/-! ### Speculation regions (R203, R206) -/

theorem holdBufferFreed_opens {s : State} {core pn i : Nat} (ho : (s.core core).hold.owner = none)
    (hw : (s.core core).specWaiter = some pn) (hi : (s.core core).slotOf pn = some i)
    (hb : (s.proc core pn).state = .blockedSync) :
    ∃ t, exec (.holdBufferFreed core) s = .next t ∧ (t.core core).hold = { owner := some pn }
      ∧ (t.proc core pn).state = .running ∧ (s.proc core pn).keeps (t.proc core pn) ∧ s.onlyCore t core := by
  have he : exec (.holdBufferFreed core) s
      = .next ((s.modCore core (fun c => c.withHold { owner := some pn })).wake core pn) := by
    change execHoldBufferFreed core s = _
    simp only [execHoldBufferFreed, ho, hw]
    rfl
  obtain ⟨hcore, hproc, honly⟩ := State.resumed_modCore (g := fun c => c.withHold { owner := some pn }) rfl rfl hi hb
  refine ⟨_, he, congrArg Core.hold hcore, ?_, ?_, honly⟩
  · rw [hproc]
    rfl
  · rw [hproc]
    exact (s.proc core pn).keeps_refl

theorem holdBufferFreed_owned {s : State} {core : Nat} (h : (s.core core).hold.owner ≠ none) :
    exec (.holdBufferFreed core) s = .next s := by
  obtain ⟨pn, hpn⟩ := Option.ne_none_iff_exists'.1 h
  change execHoldBufferFreed core s = _
  simp only [execHoldBufferFreed, hpn]

theorem commitCompletion_idle {s : State} {core : Nat} (h : (s.core core).hold.committing = false) :
    exec (.commitCompletion core) s = .next s := by
  change execCommitCompletion core s = _
  unfold execCommitCompletion
  cases ho : (s.core core).hold.owner with
  | none => simp only [ho]
  | some pn => simp only [ho, h, Bool.not_false, if_true]

/-- A COMMIT whose items have left completes. -/
theorem commitCompletion_done {s : State} {core pn i : Nat} (ho : (s.core core).hold.owner = some pn)
    (hm : (s.core core).hold.committing = true) (hi : (s.core core).slotOf pn = some i)
    (hb : (s.proc core pn).state = .blockedSync) (hn : (s.core core).hold.items = [])
    (hd : (s.core core).committed pn = true) :
    ∃ t, exec (.commitCompletion core) s = .next t ∧ (t.core core).hold = {} ∧ (t.proc core pn).state = .running
      ∧ (s.proc core pn).keeps (t.proc core pn) ∧ s.onlyCore t core := by
  have he : exec (.commitCompletion core) s = .next ((s.modCore core (fun c => c.withHold {})).wake core pn) := by
    change execCommitCompletion core s = _
    simp only [execCommitCompletion, ho, hm, hn, hd, Bool.not_true, Bool.false_eq_true, if_false, if_true]
    rfl
  obtain ⟨hcore, hproc, honly⟩ := State.resumed_modCore (g := fun c => c.withHold {}) rfl rfl hi hb
  refine ⟨_, he, congrArg Core.hold hcore, ?_, ?_, honly⟩
  · rw [hproc]
    rfl
  · rw [hproc]
    exact (s.proc core pn).keeps_refl

/-! ### Barriers (R162, R163) -/

theorem barrierAck_waits {s : State} {core pn upto : Nat} {x : Bool} (hw : (s.proc core pn).wait = .doneBarrier upto x)
    (hd : (s.core core).accessesDone pn upto = false) : exec (.barrierAck core pn) s = .next s := by
  change execBarrierAck core pn s = _
  simp only [execBarrierAck, hw, hd, Bool.not_false, if_true]

/-- The barrier unit of a launch with a core done. -/
def Die.doneAt (d : Die) (id core : Nat) : Die :=
  { d with running := d.running.map (fun (r : Running) =>
    if r.id = id then { r with undone := r.undone.filter (· != core) } else r) }

theorem Die.undone_doneAt {d : Die} {id core : Nat} {q : Running} (hq : q ∈ (d.doneAt id core).running) (h : q.id = id) :
    core ∉ q.undone := by
  obtain ⟨r, -, hr⟩ := List.mem_map.1 hq
  by_cases hid : r.id = id
  · rw [if_pos hid] at hr
    rw [← hr]
    simp
  · rw [if_neg hid] at hr
    exact absurd (hr ▸ h) hid

theorem barrierAck_acknowledges {s : State} {core pn upto i : Nat} {x : Bool} {l : LaunchRef} {r : Running}
    (hw : (s.proc core pn).wait = .doneBarrier upto x) (hl : s.launchOf core = some (l, r))
    (hi : (s.core core).slotOf pn = some i) (hb : (s.proc core pn).state = .blockedSync)
    (hd : (s.core core).accessesDone pn upto = true) :
    ∃ t, exec (.barrierAck core pn) s = .next t
      ∧ (∀ q ∈ (t.die l.die).running, q.id = l.id → core ∉ q.undone) ∧ (t.proc core pn).state = .running
      ∧ (s.proc core pn).keeps (t.proc core pn) ∧ t.mem = s.mem ∧ (∀ k, k ≠ core → t.core k = s.core k) := by
  have he : exec (.barrierAck core pn) s = .next ((s.modDie l.die (fun d => d.doneAt l.id core)).wake core pn) := by
    change execBarrierAck core pn s = _
    simp only [execBarrierAck, hw, hd, hl, Bool.not_true, Bool.false_eq_true, if_false]
    rfl
  rw [State.wake_resumes (s := s.modDie l.die (fun d => d.doneAt l.id core)) (i := i) (ProcState.isBlocked_of_sync hb) hi] at he
  refine ⟨_, he, fun q hq hid => Die.undone_doneAt (d := s.die l.die) ?_ hid, ?_, ?_, rfl, fun k hk => ?_⟩
  · rw [← s.die_modDie l.die (fun d => d.doneAt l.id core)]
    exact hq
  · rw [State.proc_setProc]
    rfl
  · rw [State.proc_setProc]
    exact (s.proc core pn).keeps_refl
  · exact State.core_modCore_ne _ _ hk

theorem bwaitRelease_waits {s : State} {core pn x y m n : Nat} {d : BitVec 32} {l : LaunchRef} {r : Running}
    (hw : (s.proc core pn).wait = .barrier d) (hl : s.launchOf core = some (l, r))
    (hr : subRect l (d.setWidth 64) = some (x, y, m, n)) (hc : barrierCount l r x y m n ≠ 0) :
    exec (.bwaitRelease core pn) s = .next s := by
  change execBwaitRelease core pn s = _
  simp only [execBwaitRelease, hw, hl, hr, hc, if_false]

theorem bwaitRelease_releases {s : State} {core pn x y m n i : Nat} {d : BitVec 32} {l : LaunchRef} {r : Running}
    (hw : (s.proc core pn).wait = .barrier d) (hl : s.launchOf core = some (l, r))
    (hr : subRect l (d.setWidth 64) = some (x, y, m, n)) (hi : (s.core core).slotOf pn = some i)
    (hb : (s.proc core pn).state = .blockedSync) (hc : barrierCount l r x y m n = 0) :
    ∃ t, exec (.bwaitRelease core pn) s = .next t
      ∧ (t.proc core pn).state = .running ∧ (t.proc core pn).pc = (s.proc core pn).pc
      ∧ (s.proc core pn).keeps (t.proc core pn) ∧ s.onlyCore t core := by
  have he : exec (.bwaitRelease core pn) s = .next ((s.acquireAll core pn).wake core pn) := by
    change execBwaitRelease core pn s = _
    simp only [execBwaitRelease, hw, hl, hr, hc, if_true]
  have hp := s.proc_modProc core pn (fun p => p.acquired s.mem.age s.carries)
  rw [State.acquireAll_known (State.known_of_state (by rw [hb]; decide)), State.wake_resumes (i := i), hp] at he
  · have ht := (s.modProc core pn (fun p => p.acquired s.mem.age s.carries)).proc_setProc core pn
      ((s.proc core pn).acquired s.mem.age s.carries).resumed
    refine ⟨_, he, ?_, ?_, ?_, State.onlyCore_trans (s.onlyCore_modCore core _) (State.onlyCore_modCore _ core _)⟩
    · rw [ht]
      rfl
    · rw [ht]
      rfl
    · rw [ht]
      exact (s.proc core pn).keeps_refl
  · rw [hp]
    exact ProcState.isBlocked_of_sync hb
  · rw [State.core_modProc, Core.slotOf_setProc, hi]

end Sys2Proof.Machine
end

/-! ## Time-out guards, committed stores and probes sent (R168, R191, R206) -/

section
namespace Sys2Proof.Machine

/-! ### Time-out guards (R191) -/

theorem State.reap_alive {s : State} {core pn : Nat} (h : (s.proc core pn).state ≠ .ended) : s.reap core pn = s := by
  unfold State.reap
  dsimp only
  rw [if_neg (by
    rw [Bool.and_eq_true, beq_iff_eq]
    exact fun hh => h hh.1)]

theorem Proc.arrive_as (p : Proc) (n : Nat) (v : Word) : (p.arrive n v).state = p.state ∧ (p.arrive n v).wait = p.wait
    ∧ (p.arrive n v).pc = p.pc ∧ (p.arrive n v).altSet = p.altSet := by
  unfold Proc.arrive Proc.setPending Proc.setReg
  split
  all_goals exact ⟨rfl, rfl, rfl, rfl⟩

theorem Proc.reg_arrive {p : Proc} {n : Nat} (v : Word) (h0 : 0 < n) (hl : n < p.regs.length) : (p.arrive n v).reg n = v := by
  unfold Proc.arrive Proc.setPending
  split
  all_goals exact p.reg_setReg v (Nat.ne_of_gt h0) hl

/-- A result arrives at a process on record that waits for no tags, and is not at its end. -/
theorem State.arriveReg_known {s : State} {core pn : Nat} (n : Nat) (v : Word)
    (hk : (s.core core).procs.any (fun e => e.1 == pn) = true) (hs : (s.proc core pn).state ≠ .ended)
    (hw : ∀ regs, (s.proc core pn).wait ≠ .tag regs) :
    s.arriveReg core pn n v = s.modProc core pn (fun p => p.arrive n v) := by
  have hp := s.proc_modProc core pn (fun p => p.arrive n v)
  unfold State.arriveReg
  rw [State.modLive_known _ hk]
  obtain ⟨hstate, hwait, -, -⟩ := (s.proc core pn).arrive_as n v
  generalize s.modProc core pn (fun p => p.arrive n v) = t at *
  rw [← hp] at hstate hwait
  unfold State.tagWake
  dsimp only
  split
  next regs ht => exact absurd (hwait.symm.trans ht) (hw regs)
  next => exact State.reap_alive (by rwa [hstate])

theorem Core.altResult_timeout (c : Core) (e now : Word) (tag : BitVec 4) :
    c.altResult { guards := [], timeout := some (e, tag, true) } now
      = if e.toNat ≤ now.toNat then some (word (tag.toNat + 256)) else none := rfl

theorem altTimeout_early {s : State} {core pn dest : Nat} {e : Word} {tag : BitVec 4} (hw : (s.proc core pn).wait = .alt dest)
    (ha : (s.proc core pn).altSet = { guards := [], timeout := some (e, tag, true) })
    (ht : (s.cyc (dieOf core)).toNat < e.toNat) : exec (.altTimeout core pn) s = .next s := by
  change Host.Outcome.next (s.altCheck core pn) = _
  unfold State.altCheck
  rw [hw, ha, Core.altResult_timeout, if_neg (Nat.not_le.2 ht)]

/-- The waiting process with its set of guards emptied. -/
def Proc.unguarded (p : Proc) : Proc := { p with altSet := {} }

theorem altTimeout_fires {s : State} {core pn dest i : Nat} {e : Word} {tag : BitVec 4}
    (hw : (s.proc core pn).wait = .alt dest) (hs : (s.proc core pn).state = .alt) (hi : (s.core core).slotOf pn = some i)
    (ha : (s.proc core pn).altSet = { guards := [], timeout := some (e, tag, true) }) (hd : 0 < dest)
    (hl : dest < (s.proc core pn).regs.length) (ht : e.toNat ≤ (s.cyc (dieOf core)).toNat) :
    ∃ t, exec (.altTimeout core pn) s = .next t
      ∧ (t.proc core pn).reg dest = word (tag.toNat + 256) ∧ (t.proc core pn).state = .running
      ∧ (t.proc core pn).altSet = {} ∧ (t.proc core pn).pc = (s.proc core pn).pc ∧ s.onlyCore t core := by
  have he : exec (.altTimeout core pn) s = .next
      (((s.modProc core pn Proc.unguarded).arriveReg core pn dest (word (tag.toNat + 256))).wake core pn) := by
    change Host.Outcome.next (s.altCheck core pn) = _
    unfold State.altCheck State.altEnd State.altRegister
    rw [hw, ha, Core.altResult_timeout, if_pos ht]
    rfl
  have hp := s.proc_modProc core pn Proc.unguarded
  rw [State.arriveReg_known _ _ (s.known_modProc core pn _), State.modProc_modProc] at he
  · obtain ⟨hstate, -, hpc, halt⟩ := (s.proc core pn).unguarded.arrive_as dest (word (tag.toNat + 256))
    have hreg := (s.proc core pn).unguarded.reg_arrive (word (tag.toNat + 256)) hd hl
    have hp' := s.proc_modProc core pn (fun p => p.unguarded.arrive dest (word (tag.toNat + 256)))
    rw [State.wake_resumes (i := i), hp'] at he
    · refine ⟨_, he, ?_⟩
      rw [State.proc_setProc]
      exact ⟨hreg, rfl, halt, hpc, State.onlyCore_trans (s.onlyCore_modCore core _) (State.onlyCore_modCore _ core _)⟩
    · rw [hp', hstate]
      exact (congrArg ProcState.isBlocked hs).trans rfl
    · rw [State.core_modProc, Core.slotOf_setProc, hi]
  · rw [hp]
    exact fun h => absurd (hs.symm.trans h) (by decide)
  · rw [hp]
    exact fun regs h => Wait.noConfusion (hw.symm.trans h)

/-! ### Committed stores (R206) -/

theorem State.startReq_length (s : State) (core : Nat) (r : Req) :
    ((s.startReq core r).core core).reqs.length = (s.core core).reqs.length ∧ (s.startReq core r).mem = s.mem := by
  unfold State.startReq
  split
  · refine ⟨?_, rfl⟩
    rw [State.core_modCore]
    exact List.length_map _
  · obtain ⟨hcore, -, hmem, -⟩ := s.sendReq_started core r
    rw [hcore]
    exact ⟨List.length_map _, hmem⟩

/-- The oldest held store of a COMMIT is entered, and leaves the hold buffer. -/
theorem commitCompletion_store {s : State} {core pn : Nat} {r : Req} {rest : List HoldItem}
    (ho : (s.core core).hold.owner = some pn) (hm : (s.core core).hold.committing = true)
    (hn : (s.core core).hold.items = .store r :: rest) (hf : (s.core core).entryFree r = true) :
    ∃ t, exec (.commitCompletion core) s = .next t ∧ (t.core core).hold.items = rest
      ∧ (t.core core).reqs.length = (s.core core).reqs.length + 1 ∧ t.mem = s.mem := by
  have he : exec (.commitCompletion core) s = .next (((s.enterReq core { r with release := true }).1).modCore core
      (fun c => c.withHold { c.hold with items := rest })) := by
    change execCommitCompletion core s = _
    simp only [execCommitCompletion, ho, hm, hn, hf, Bool.not_true, Bool.false_eq_true, if_false, if_true]
    rfl
  rw [State.enterReq_free (q := { r with release := true }) hf] at he
  generalize s.numbered core { r with release := true } .sent = q at he
  obtain ⟨hlength, hmem⟩ := (s.enlisted core q).startReq_length core q
  refine ⟨_, he, ?_, ?_, hmem⟩
  · rw [State.core_modCore]
    rfl
  · rw [State.core_modCore]
    refine hlength.trans ?_
    rw [State.enlisted, State.core_modProc, State.core_modCore]
    exact List.length_append

/-! ### Probes (R168 to R170) -/

theorem probeSend_early {s : State} {core pn : Nat} (h : s.ticks < (s.proc core pn).probeAt) :
    exec (.probeSend core pn) s = .next s := by
  change execProbeSend core pn s = _
  unfold execProbeSend
  dsimp only
  rw [if_pos (by simp [h])]

theorem probeSend_sends {s : State} {core pn h : Nat} (hw : (s.proc core pn).wait ≠ .none)
    (ht : (s.proc core pn).probeAt ≤ s.ticks) (he : s.waitEdges core pn = [h]) :
    ∃ t, exec (.probeSend core pn) s = .next t ∧ (t.proc core pn).probeAt = (s.proc core pn).probeAt + 4096
      ∧ (∃ p, t.net = s.net ++ [p] ∧ p.src = core ∧ p.dst = (s.ep core h).peerCore
        ∧ p.body = .probe (pidOf core pn) (s.proc core pn).waitSince h (s.ep core h).wseq.toNat (pidOf core pn) 0 [] false)
      ∧ (s.proc core pn).keeps (t.proc core pn) ∧ t.mem = s.mem := by
  have hx : exec (.probeSend core pn) s = .next ((s.modProc core pn (fun p => { p with probeAt := p.probeAt + 4096 })).sendProbe
      core pn h (pidOf core pn) (s.proc core pn).waitSince 0 [] false) := by
    change execProbeSend core pn s = _
    unfold execProbeSend
    dsimp only
    rw [if_neg (by simp [hw, Nat.not_lt.2 ht]), he]
    rfl
  have hp := s.proc_modProc core pn (fun p => { p with probeAt := p.probeAt + 4096 })
  have hep : (s.modProc core pn (fun p => { p with probeAt := p.probeAt + 4096 })).ep core h = s.ep core h := by
    unfold State.ep
    rw [State.core_modProc]
    rfl
  refine ⟨_, hx, ?_, ⟨_, rfl, rfl, congrArg Endpoint.peerCore hep, ?_⟩, ?_, rfl⟩
  · exact congrArg Proc.probeAt hp
  · rw [hep]
  · exact hp ▸ (s.proc core pn).keeps_refl

end Sys2Proof.Machine
end

/-! ## Probes that arrive (R169, R170) -/

section
namespace Sys2Proof.Machine

section
variable {s : State} {pkt : Nat} {p : Packet} {origin seq h hseq pid hops : Nat} {record : List (Nat × Nat)} {trunc : Bool}
  (hp : s.arrived pkt = some p) (hb : p.body = .probe origin seq h hseq pid hops record trunc)
include hp hb

/-- A probe that no longer travels along a wait edge is dropped (R169). -/
theorem probeArrival_dropped (hh : h ∉ (s.unpacket pkt).waitEdges (pid / 256) (pid % 256)) :
    exec (.probeArrival pkt) s = .next (s.unpacket pkt) := by
  change execProbeArrival pkt s = _
  simp only [execProbeArrival, hp, hb]
  rw [if_pos (by simp [hh])]

/-- A wait that has been reported is not reported again (R170). -/
theorem probeArrival_reported (ho : ((s.unpacket pkt).ep (pid / 256) h).peerPid = origin)
    (hr : ((s.unpacket pkt).proc (((s.unpacket pkt).ep (pid / 256) h).peerPid / 256)
      (((s.unpacket pkt).ep (pid / 256) h).peerPid % 256)).reported = seq) :
    exec (.probeArrival pkt) s = .next (s.unpacket pkt) := by
  change execProbeArrival pkt s = _
  simp only [execProbeArrival, hp, hb]
  generalize s.unpacket pkt = u at *
  split
  · rfl
  · rw [if_neg (by simp [hr])]

/-- A probe that has come round at the wait it left from reports it, and raises DEADLOCK (R170). -/
theorem exec_probeArrival_round {u : State} {e : Endpoint} {q : Proc} (hu : s.unpacket pkt = u) (he : u.ep (pid / 256) h = e)
    (hq : u.proc (e.peerPid / 256) (e.peerPid % 256) = q) (hh : h ∈ u.waitEdges (pid / 256) (pid % 256))
    (hw : e.wseq.toNat = hseq) (ho : e.peerPid = origin) (hs : q.waitSince = seq) (hr : q.reported ≠ seq) {k d : Nat}
    (hk : q.wait = .receiving k d) :
    exec (.probeArrival pkt) s = .next (((u.modProc (e.peerPid / 256) (e.peerPid % 256) (fun q => { q with
      reported := seq })).deadlockReport (e.peerPid / 256) (e.peerPid % 256) k hops record trunc).deadlock
        (e.peerPid / 256) (e.peerPid % 256) k) := by
  have hedge : u.deadlockEdge (e.peerPid / 256) (e.peerPid % 256) h record = k := by
    unfold State.deadlockEdge
    rw [hq, hk]
  change execProbeArrival pkt s = _
  simp only [execProbeArrival, hp, hb, hu, he, hq, hedge]
  rw [if_neg (by simp [hh, hw]), if_pos ho, if_pos (by simp [hk, hs, hr])]

end

/-- DEADLOCK in a receive: its record is withdrawn and its destination leaves the pending state (R170, R181). -/
theorem State.deadlock_receiving {s : State} {core pn k d : Nat} (hw : (s.proc core pn).wait = .receiving k d)
    (he : (s.ep core k).state = 2) (h : Nat) :
    s.deadlock core pn h = (((s.modEp core k Endpoint.rest).itemOf core pn 5 2 0x14 k).dropDest core pn).trapBlocked core pn
      .deadlock (handleWord h) := by
  have hstands : s.recvStands core k = true := by
    unfold State.recvStands
    dsimp only
    rw [he]
    rfl
  unfold State.deadlock
  rw [hw]
  exact if_pos hstands

theorem State.faultOut_dropDest (s : State) (core pn : Nat) :
    ((s.dropDest core pn).core core).faultOut = (s.core core).faultOut := by
  unfold State.dropDest
  split
  iterate 5
    rw [State.core_modProc]
    rfl
  rfl

theorem State.faultOut_itemOf (s : State) (core pn item state : Nat) (reason : BitVec 8) (handle k : Nat) :
    ((s.itemOf core pn item state reason handle).core k).faultOut = (s.core k).faultOut := by
  obtain ⟨d, hd⟩ : ∃ d, s.itemOf core pn item state reason handle = { s with dies := d } := s.invRecord_eq _ _
  rw [hd]
  rfl

/-- The report of a wait that a probe has come round to (R170, R341). -/
theorem State.deadlockReport_sent (s : State) (core pn h hops : Nat) (record : List (Nat × Nat)) (trunc : Bool) :
    ∃ m ∈ ((s.deadlockReport core pn h hops record trunc).core core).faultOut, m.kind = 3 ∧ m.cause = 0x14
      ∧ m.faddr = word h ∧ m.pid = BitVec.ofNat 31 (pidOf core pn) := by
  unfold State.deadlockReport State.report
  rw [State.core_modCore]
  exact ⟨_, List.mem_append_right _ (List.mem_singleton_self _), rfl, rfl, rfl, rfl⟩

/-- DEADLOCK at the wait of a receive, with its report (R170). -/
theorem probeArrival_deadlock {s u : State} {pkt : Nat} {p : Packet} {origin seq h hseq pid hops : Nat}
    {record : List (Nat × Nat)} {trunc : Bool} {e : Endpoint} {q : Proc} {k d : Nat} (hp : s.arrived pkt = some p)
    (hb : p.body = .probe origin seq h hseq pid hops record trunc)
    (hu : s.unpacket pkt = u) (he : u.ep (pid / 256) h = e) (hq : u.proc (e.peerPid / 256) (e.peerPid % 256) = q)
    (hh : h ∈ u.waitEdges (pid / 256) (pid % 256)) (hw : e.wseq.toNat = hseq) (ho : e.peerPid = origin)
    (hs : q.waitSince = seq) (hr : q.reported ≠ seq) (hk : q.wait = .receiving k d)
    (hst : (u.ep (e.peerPid / 256) k).state = 2) :
    ∃ v : State, exec (.probeArrival pkt) s = .next (v.trapBlocked (e.peerPid / 256) (e.peerPid % 256) .deadlock (word k))
      ∧ (∃ m ∈ (v.core (e.peerPid / 256)).faultOut, m.kind = 3 ∧ m.cause = 0x14 ∧ m.faddr = word k
        ∧ m.pid = BitVec.ofNat 31 (pidOf (e.peerPid / 256) (e.peerPid % 256))) := by
  have hx := exec_probeArrival_round hp hb hu he hq hh hw ho hs hr hk
  generalize e.peerPid / 256 = yc at *
  generalize e.peerPid % 256 = yp at *
  have hcore := u.core_modProc yc yp (fun q => { q with reported := seq })
  generalize hu' : u.modProc yc yp (fun q => { q with reported := seq }) = u' at *
  obtain ⟨m, hm, hfields⟩ := u'.deadlockReport_sent yc yp k hops record trunc
  have hcore' : ((u'.deadlockReport yc yp k hops record trunc).core yc)
      = { u'.core yc with faultOut := ((u'.deadlockReport yc yp k hops record trunc).core yc).faultOut } := by
    unfold State.deadlockReport State.report
    rw [State.core_modCore]
  generalize u'.deadlockReport yc yp k hops record trunc = w at *
  rw [State.deadlock_receiving (d := d)] at hx
  · refine ⟨_, hx, m, ?_, hfields⟩
    rw [State.faultOut_dropDest, State.faultOut_itemOf, State.modEp, State.core_modCore]
    exact hm
  · have hproc : w.proc yc yp = { q with reported := seq } := by
      rw [State.proc, hcore', ← hq]
      exact (congrArg (fun c : Core => c.proc yp) hcore).trans (Core.proc_setProc _ _ _)
    rw [hproc]
    exact hk
  · have hep : w.ep yc k = u.ep yc k := by
      rw [State.ep, hcore']
      exact (congrArg (fun c : Core => look {} c.endpoints (k % 2 ^ 20)) hcore).trans rfl
    rw [hep]
    exact hst

end Sys2Proof.Machine
end

/-! ## Switches into a slot (R28, R149) -/

section
namespace Sys2Proof.Machine

/-! ### What a slot's line buffers do (R28) -/

/-- Requests for lines change a slot's buffers and the caches of its die, and leave the slot's resident. -/
structure State.Refetches (s t : State) (core i : Nat) : Prop where
  others : ∀ k, k ≠ core → t.core k = s.core k
  work : { t.core core with slots := (s.core core).slots } = s.core core
  resident : ((t.core core).slot i).proc = ((s.core core).slot i).proc
  switching : ((t.core core).slot i).switchEnd = ((s.core core).slot i).switchEnd
  mem : t.mem = s.mem

theorem State.Refetches.refl (s : State) (core i : Nat) : s.Refetches s core i := ⟨fun _ _ => rfl, rfl, rfl, rfl, rfl⟩

theorem State.Refetches.trans {s t u : State} {core i : Nat} (h : s.Refetches t core i) (h' : t.Refetches u core i) :
    s.Refetches u core i :=
  ⟨fun k hk => (h'.others k hk).trans (h.others k hk),
    (congrArg (fun c : Core => { c with slots := (s.core core).slots }) h'.work :).trans h.work,
    h'.resident.trans h.resident, h'.switching.trans h.switching, h'.mem.trans h.mem⟩

theorem State.refetches_modSlot (s : State) (core i : Nat) {g : Slot → Slot}
    (hp : (g ((s.core core).slot i)).proc = ((s.core core).slot i).proc)
    (he : (g ((s.core core).slot i)).switchEnd = ((s.core core).slot i).switchEnd) :
    s.Refetches (s.modSlot core i g) core i := by
  have hc : (s.modSlot core i g).core core = (s.core core).setSlot i (g ((s.core core).slot i)) := s.core_modCore core _
  refine ⟨fun k hk => State.core_modCore_ne s _ hk, by rw [hc]; rfl, ?_, ?_, rfl⟩
  all_goals
    rw [hc]
    by_cases hi : i < (s.core core).slots.length
    · rwa [Core.slot_setSlot _ _ hi]
    · rw [Core.setSlot, List.set_eq_of_length_le (Nat.not_lt.1 hi)]

theorem State.refetches_modCluster (s : State) (core i die cl : Nat) (F : Cluster → Cluster) :
    s.Refetches (s.modCluster die cl F) core i := ⟨fun _ _ => rfl, rfl, rfl, rfl, rfl⟩

theorem State.refetches_wantLine (s : State) (core i line : Nat) : s.Refetches (s.wantLine core i line) core i := by
  unfold State.wantLine
  dsimp only
  split
  · exact .refl s core i
  · exact (s.refetches_modSlot core i rfl rfl).trans (State.refetches_modCluster _ core i _ _ _)

theorem State.refetches_follow (s : State) (core i : Nat) : s.Refetches (s.follow core i) core i := by
  unfold State.follow
  dsimp only
  split
  · exact .refl s core i
  split
  · exact .refl s core i
  split
  · exact s.refetches_wantLine core i _
  split
  · split
    · exact s.refetches_wantLine core i _
    · exact .refl s core i
  · exact (s.refetches_modSlot core i rfl rfl).trans (State.refetches_wantLine _ core i _)

/-- A process that a switch has brought into a slot. -/
def Proc.switched (p : Proc) (now : Nat) : Proc := { p with state := .running, rot := now, tagSince := none, inRep := false }

/-- A switch brings a process into a slot (R11, R149). -/
theorem State.startSwitch_running {s : State} {core i pn : Nat} (hi : i < (s.core core).slots.length) :
    ((s.startSwitch core i pn true).proc core pn) = (s.proc core pn).switched s.ticks
      ∧ (∀ n, n ≠ pn → (s.startSwitch core i pn true).proc core n = s.proc core n)
      ∧ (((s.startSwitch core i pn true).core core).slot i).proc = some pn
      ∧ (((s.startSwitch core i pn true).core core).slot i).switchEnd = some (s.ticks + 4)
      ∧ ((s.startSwitch core i pn true).core core).handler = (s.core core).handler
      ∧ (s.startSwitch core i pn true).mem = s.mem
      ∧ (∀ k, k ≠ core → (s.startSwitch core i pn true).core k = s.core k) := by
  unfold State.startSwitch
  dsimp only
  generalize hg : s.modCore core _ = t
  have hc : t.core core = (((s.core core).unlist pn).setProc pn ((s.proc core pn).switched s.ticks)).setSlot i
      { ((s.core core).slot i).emptied with proc := some pn, switchEnd := some (s.ticks + 4), since := s.ticks } := by
    rw [← hg, State.core_modCore]
    rfl
  obtain ⟨hothers, hwork, hresident, hswitch, hmem⟩ := t.refetches_follow core i
  have hprocs : ∀ n, (t.follow core i).proc core n = t.proc core n := fun n => (congrArg (fun c : Core => c.proc n) hwork :)
  have hslot : (t.core core).slot i
      = { ((s.core core).slot i).emptied with proc := some pn, switchEnd := some (s.ticks + 4), since := s.ticks } := by
    rw [hc]
    exact Core.slot_setSlot (((s.core core).unlist pn).setProc pn ((s.proc core pn).switched s.ticks)) _ hi
  refine ⟨?_, fun n hn => ?_, ?_, ?_, ?_, ?_, fun k hk => ?_⟩
  · rw [hprocs, State.proc, hc]
    exact Core.proc_setProc _ _ _
  · rw [hprocs, State.proc, hc]
    exact Core.proc_setProc_ne ((s.core core).unlist pn) _ hn
  · rw [hresident, hslot]
  · rw [hswitch, hslot]
  · refine (congrArg Core.handler hwork :).trans ?_
    rw [hc]
    rfl
  · rw [hmem, ← hg]
    rfl
  · rw [hothers k hk, ← hg]
    exact State.core_modCore_ne s _ hk

end Sys2Proof.Machine
end

/-! ## Handlers (R194, R197) -/

section
namespace Sys2Proof.Machine

/-! ### HANDLER_START (R194, R197) -/

theorem Core.nextActive_none {c : Core} (h : c.handler ≠ none ∨ ∀ m ∈ c.normal, m.msg.kind.toNat < 2) : c.nextActive = none := by
  unfold Core.nextActive
  obtain h | h := h
  · exact if_pos (Option.isSome_iff_ne_none.2 h)
  · split
    · rfl
    · refine List.find?_eq_none.2 fun m hm => ?_
      have := h m hm
      simpa using this

theorem handlerStart_idle {s : State} {core : Nat}
    (h : (s.core core).handler ≠ none ∨ ∀ m ∈ (s.core core).normal, m.msg.kind.toNat < 2) :
    exec (.handlerStart core) s = .next s := by
  change execHandlerStart core s = _
  simp only [execHandlerStart, Core.nextActive_none h]

theorem Core.nextActive_first {c : Core} {m : Stored} {rest : List Stored} (hh : c.handler = none) (hn : c.normal = m :: rest)
    (hk : 2 ≤ m.msg.kind.toNat) : c.nextActive = some m := by
  unfold Core.nextActive
  rw [hh, hn]
  exact List.find?_cons_of_pos (p := fun x : Stored => 2 ≤ x.msg.kind.toNat) (by simpa using hk)

/-- The process of a handler before its switch into slot 15 (R194). -/
def Stored.handlerProc (m : Stored) (c : Core) (trap : Option Word) : Proc :=
  { state := .running
    pc := if m.msg.kind = 2 then word (inboxBase c.part + m.first * 64 + 64)
      else vectorBits ((look 0 c.handlers m.msg.hidx.toNat).extractLsb' 0 64)
    prio := 127, wsz := 16
    regs := handlerRegs m.msg (if m.msg.kind = 2 then 0 else (look 0 c.handlers m.msg.hidx.toNat).extractLsb' 64 64)
    pend := List.replicate 16 false
    asyncTrap := trap.map (fun a => (.poison, a)) }

theorem handlerRegs_args (m : Msg) (gp : Word) {k : Nat} (h : k < 7) : (handlerRegs m gp).getD (5 + k) 0 = m.words.getD k 0 := by
  have hlen : ((m.words ++ List.replicate 7 0).take 7).length = 7 := by simp
  unfold handlerRegs
  rw [List.append_assoc, List.append_assoc, List.getD_append_right _ _ _ _ (by simp),
    List.getD_append _ _ _ _ (by rw [hlen]; simpa using h)]
  simp only [List.length_cons, List.length_nil, Nat.zero_add, Nat.reduceAdd, Nat.add_sub_cancel_left,
    List.getD_eq_getElem?_getD, List.getElem?_take_of_lt h]
  by_cases hk : k < m.words.length
  · rw [List.getElem?_append_left hk]
  · rw [List.getElem?_append_right (Nat.not_lt.1 hk), List.getElem?_replicate, List.getElem?_eq_none (Nat.not_lt.1 hk)]
    split
    all_goals rfl

theorem handlerRegs_sender (m : Msg) (gp : Word) : (handlerRegs m gp).getD 12 0 = m.sender.setWidth 64 := by
  have hlen : ((m.words ++ List.replicate 7 0).take 7).length = 7 := by simp
  unfold handlerRegs
  rw [List.append_assoc, List.getD_append_right _ _ _ _ (by simp), List.length_append, hlen]
  rfl

theorem vectorBits_low (e : BitVec 512) : vectorBits (e.extractLsb' 0 64) = e.setWidth 64 &&& 0xFFFFFFFFFFFFFC := by
  unfold vectorBits
  congr 1

/-- A core whose handler is at work on a message. -/
def Core.handling (c : Core) (m : Stored) : Core := { c with handler := some m }

theorem exec_handlerStart {s : State} {core : Nat} {m : Stored} (hm : (s.core core).nextActive = some m)
    (hu : (s.core core).unhandled m.msg = false) (he : ((s.core core).slot 15).isEmpty = true) :
    exec (.handlerStart core) s = .next
      ((((s.modCore core (fun c => c.handling m)).setProc core 256
        (m.handlerProc (s.core core) (s.poisonedUnit core m))).acquireAll core 256).startSwitch core 15 256 true) := by
  change execHandlerStart core s = _
  unfold execHandlerStart
  simp only [hm, hu, he, Bool.false_eq_true, if_false, Bool.not_true]
  rfl

theorem Core.unhandled_false {c : Core} {m : Msg}
    (h : m.kind = 2 ∨ (m.kind = 3 ∧ (look 0 c.handlers m.hidx.toNat : BitVec 512).getLsbD 63 = true)) :
    c.unhandled m = false := by
  unfold Core.unhandled
  obtain h | ⟨-, h⟩ := h
  · rw [h]
    rfl
  · rw [h, Bool.not_true, Bool.and_false]

/-- The oldest active message of an idle core starts its handler in slot 15. -/
theorem handlerStart_starts {s : State} {core : Nat} {m : Stored} {rest : List Stored}
    (hl : (s.core core).slots.length = 16) (hh : (s.core core).handler = none)
    (he : ((s.core core).slot 15).isEmpty = true) (hn : (s.core core).normal = m :: rest)
    (hk : m.msg.kind = 2
      ∨ (m.msg.kind = 3 ∧ (look 0 (s.core core).handlers m.msg.hidx.toNat : BitVec 512).getLsbD 63 = true)) :
    ∃ t, exec (.handlerStart core) s = .next t ∧ (t.core core).handler = some m
      ∧ ((t.core core).slot 15).proc = some 256 ∧ ((t.core core).slot 15).switchEnd = some (s.ticks + 4)
      ∧ (t.proc core 256).state = .running ∧ (t.proc core 256).wsz = 16
      ∧ (m.msg.kind = 2 → (t.proc core 256).pc = word (inboxBase (s.core core).part + m.first * 64 + 64)
        ∧ (t.proc core 256).reg 3 = 0)
      ∧ (m.msg.kind = 3 → (t.proc core 256).pc
          = (look 0 (s.core core).handlers m.msg.hidx.toNat : BitVec 512).setWidth 64 &&& 0xFFFFFFFFFFFFFC
        ∧ (t.proc core 256).reg 3 = (look 0 (s.core core).handlers m.msg.hidx.toNat : BitVec 512).extractLsb' 64 64)
      ∧ (∀ k, k < 7 → (t.proc core 256).reg (5 + k) = m.msg.words.getD k 0)
      ∧ (t.proc core 256).reg 12 = m.msg.sender.setWidth 64 ∧ t.mem = s.mem
      ∧ (∀ n, n ≠ 256 → t.proc core n = s.proc core n) ∧ (∀ k, k ≠ core → t.core k = s.core k) := by
  have hkind : 2 ≤ m.msg.kind.toNat := by
    obtain h | ⟨h, -⟩ := hk
    all_goals
      rw [h]
      decide
  have hx := exec_handlerStart (Core.nextActive_first hh hn hkind) (Core.unhandled_false hk) he
  generalize hp : m.handlerProc (s.core core) (s.poisonedUnit core m) = p at hx
  obtain ⟨trap, rfl⟩ : ∃ trap, m.handlerProc (s.core core) trap = p := ⟨_, hp⟩
  clear hp
  rw [State.acquireAll_known (State.known_setProc _ core 256 _)] at hx
  generalize hu : State.modProc _ core 256 _ = u at hx
  have hcore : u.core core = ((s.core core).handling m).setProc 256
      ((m.handlerProc (s.core core) trap).acquired s.mem.age s.carries) := by
    rw [← hu, State.core_modProc, State.proc_setProc, State.setProc, State.core_modCore, State.core_modCore,
      Core.setProc_setProc]
    rfl
  have hproc : u.proc core 256 = (m.handlerProc (s.core core) trap).acquired s.mem.age s.carries := by
    rw [State.proc, hcore, Core.proc_setProc]
  obtain ⟨hrun, hothers, hslot, hswitch, hhandler, hmem, hcores⟩ := State.startSwitch_running (s := u) (core := core)
    (i := 15) (pn := 256) (by rw [hcore]; exact (Nat.lt_of_lt_of_eq (by decide) hl.symm))
  have hticks : u.ticks = s.ticks := by
    rw [← hu]
    rfl
  rw [hproc] at hrun
  refine ⟨_, hx, ?_, hslot, hticks ▸ hswitch, ?_⟩
  · rw [hhandler, hcore]
    rfl
  have hne (h3 : m.msg.kind = 3) : ¬ m.msg.kind = 2 := by
    rw [h3]
    decide
  rw [hrun]
  refine ⟨rfl, rfl, fun h2 => ⟨if_pos h2, ?_⟩, fun h3 => ⟨?_, ?_⟩, fun k hk7 => ?_, handlerRegs_sender _ _, ?_,
    fun n hne => ?_, fun k hk => ?_⟩
  · exact if_pos h2
  · exact (if_neg (hne h3)).trans (vectorBits_low _)
  · exact if_neg (hne h3)
  · exact (if_neg (by omega)).trans (handlerRegs_args _ _ hk7)
  · rw [hmem, ← hu]
    rfl
  · rw [hothers n hne, State.proc, hcore, Core.proc_setProc_ne _ _ hne]
    rfl
  · rw [hcores k hk, ← hu, State.core_modProc_ne _ _ _ hk, State.setProc, State.core_modCore_ne _ _ hk,
      State.core_modCore_ne _ _ hk]

/-! ### HANDLER_END (R194) -/

/-- An inline handler has issued past its last word, or stands at a last word that is a REP. -/
theorem State.codeOver_iff {s : State} {core base n : Nat} (hi : (s.core core).inlineCode = some (base, n))
    (hr : (s.proc core 256).state = .running) :
    s.codeOver core = true ↔
      (if (s.proc core 256).inRep = true then (s.proc core 256).pc.toNat + 4 else (s.proc core 256).pc.toNat) < base
      ∨ base + 4 * n ≤ (if (s.proc core 256).inRep = true then (s.proc core 256).pc.toNat + 4 else (s.proc core 256).pc.toNat)
      ∨ ((s.proc core 256).pc.toNat = base + 4 * (n - 1)
        ∧ (BitVec.ofNat 32 (s.mem.read (poolKey core (s.proc core 256).pc.toNat) 4)).extractLsb' 24 6 = 0x15#6) := by
  unfold State.codeOver
  rw [hi]
  simp only [Proc.pastCode, State.lastIsRep, hr, beq_self_eq_true, Bool.true_and, Bool.or_eq_true, Bool.and_eq_true,
    decide_eq_true_eq, beq_iff_eq, or_assoc]
  exact Iff.rfl

theorem exec_handlerEnd {s : State} {core base n : Nat} (hi : (s.core core).inlineCode = some (base, n)) :
    exec (.handlerEnd core) s = .next (if s.codeOver core then s.endHandler core else s) := by
  change execHandlerEnd core s = _
  unfold execHandlerEnd
  rw [hi]

/-- The core whose handler of a message has ended. -/
def Core.handled (c : Core) (m : Stored) : Core :=
  { (c.freeSlotOf 256).detach 256 with handler := none, normal := c.normal.filter (fun x => x.first != m.first) }

/-- The record of a process that is no more. -/
def Proc.gone (p : Proc) : Proc := { p with state := .free, wait := .none }

/-- The credit of a message returns to its sender. -/
def State.credited (s : State) (core job : Nat) (m : Stored) : State :=
  { s with net := s.net ++ [{ src := core, dst := m.msg.sender.toNat / 256, at_ := pkgOf core, job := job,
                              body := .credit m.msg.back }] }

theorem State.endHandler_eq {s : State} {core : Nat} {m : Stored} (hh : (s.core core).handler = some m) :
    ∃ job, s.endHandler core = ((s.modCore core (fun c => c.handled m)).modProc core 256 Proc.gone).credited core job m := by
  unfold State.endHandler
  rw [hh]
  exact ⟨_, rfl⟩

/-- A handler ends: its message's units are free, and its credit returns. -/
theorem State.endHandler_ends {s : State} {core : Nat} {m : Stored} (hh : (s.core core).handler = some m) :
    ((s.endHandler core).core core).handler = none ∧ ((s.endHandler core).proc core 256).state = .free
      ∧ ((s.endHandler core).core core).normal = (s.core core).normal.filter (fun x => x.first != m.first)
      ∧ (∃ p, (s.endHandler core).net = s.net ++ [p] ∧ p.dst = m.msg.sender.toNat / 256 ∧ p.body = .credit m.msg.back)
      ∧ (s.endHandler core).mem = s.mem := by
  obtain ⟨job, he⟩ := State.endHandler_eq hh
  rw [he]
  generalize ht : (s.modCore core (fun c => c.handled m)).modProc core 256 Proc.gone = t
  have hcore : t.core core = ((s.core core).handled m).setProc 256 (((s.core core).handled m).proc 256).gone := by
    rw [← ht, State.core_modProc, State.proc, State.core_modCore]
  have hproc : t.proc core 256 = (((s.core core).handled m).proc 256).gone := by
    rw [State.proc, hcore, Core.proc_setProc]
  refine ⟨congrArg Core.handler hcore, congrArg Proc.state hproc, congrArg Core.normal hcore, ?_, ?_⟩
  · rw [← ht]
    exact ⟨_, rfl, rfl, rfl⟩
  · rw [← ht]
    rfl

theorem handlerEnd_ends {s : State} {core base n : Nat} {m : Stored} (hh : (s.core core).handler = some m)
    (hi : (s.core core).inlineCode = some (base, n)) (ho : s.codeOver core = true) :
    ∃ t, exec (.handlerEnd core) s = .next t
      ∧ (t.core core).handler = none ∧ (t.proc core 256).state = .free
      ∧ (t.core core).normal = (s.core core).normal.filter (fun x => x.first != m.first)
      ∧ (∃ p, t.net = s.net ++ [p] ∧ p.dst = m.msg.sender.toNat / 256 ∧ p.body = .credit m.msg.back) ∧ t.mem = s.mem :=
  ⟨_, (exec_handlerEnd hi).trans (congrArg _ (if_pos ho)), State.endHandler_ends hh⟩

theorem handlerEnd_continues {s : State} {core base n : Nat} (hi : (s.core core).inlineCode = some (base, n))
    (ho : ¬ s.codeOver core = true) : exec (.handlerEnd core) s = .next s :=
  (exec_handlerEnd hi).trans (congrArg _ (if_neg ho))

/-- Settles O44: each event by what it does when its condition holds, and by its state unchanged before. -/
theorem handlersRegionsAndProbes : Obligations.HandlersRegionsAndProbes := by
  unfold Obligations.HandlersRegionsAndProbes
  refine ⟨fun s core m rest hl hh he hn => handlerStart_starts hl hh he hn, fun s core => handlerStart_idle,
    fun s core base n m hh hi hr => ?_,
    fun s core pn dest e tag i hw hs hi ha hd hl => ⟨altTimeout_early hw ha, altTimeout_fires hw hs hi ha hd hl⟩,
    fun s core pn i => holdBufferFreed_opens, fun s core => holdBufferFreed_owned,
    fun s core pn i ho hm hi hb => ⟨commitCompletion_done ho hm hi hb, fun r rest => commitCompletion_store ho hm⟩,
    fun s core => commitCompletion_idle, fun s core pn h hw => ⟨probeSend_early, probeSend_sends hw⟩,
    fun s pkt p origin seq h hseq pid hops record trunc hp hb => ⟨probeArrival_dropped hp hb, fun hh hw ho hs hr k d hk hst =>
      probeArrival_deadlock hp hb rfl rfl rfl hh hw ho hs hr hk hst, probeArrival_reported hp hb⟩,
    fun s core pn upto x l r i hw hl hi hb => ⟨barrierAck_waits hw, barrierAck_acknowledges hw hl hi hb⟩,
    fun s core pn d l r x y m n i hw hl hr hi hb => ⟨bwaitRelease_waits hw hl hr, bwaitRelease_releases hw hl hr hi hb⟩⟩
  have hover := State.codeOver_iff hi hr
  dsimp only
  refine ⟨fun h1 h2 h3 => handlerEnd_continues hi fun ho => ?_, fun h => handlerEnd_ends hh hi (hover.2 h)⟩
  obtain h | h | h := hover.1 ho
  · exact absurd h1 (Nat.not_le.2 h)
  · exact absurd h2 (Nat.not_lt.2 h)
  · exact h3 h

end Sys2Proof.Machine
end

/-! ## The launch unit (R306) -/

section
namespace Sys2Proof.Machine

/-! ### The launch unit's requests (R306) -/

theorem State.modDie_modDie (s : State) (k : Nat) (f g : Die → Die) :
    (s.modDie k f).modDie k g = s.modDie k (fun d => g (f d)) := by
  unfold State.modDie
  rw [State.die_setDie]
  simp [State.setDie]

theorem State.die_modDie_ne (s : State) {j k : Nat} (g : Die → Die) (h : j ≠ k) : (s.modDie k g).die j = s.die j :=
  s.die_setDie_ne _ h

/-- What a change of one die keeps of it, it keeps of every die. -/
theorem State.die_modDie_keeps {α : Type} {s : State} {k : Nat} {g : Die → Die} (F : Die → α) (h : F (g (s.die k)) = F (s.die k))
    (d : Nat) : F ((s.modDie k g).die d) = F (s.die d) := by
  by_cases hd : d = k
  · rw [hd, State.die_modDie, h]
  · rw [State.die_modDie_ne s g hd]

/-- A die whose launch unit has taken a request, and one of whose records is written. -/
def Die.patchedAt (d : Die) (rest : List LaunchReq) (i : Nat) (r : LRec) : Die :=
  { d with launchReqs := rest, lrecs := put d.lrecs i r }

theorem State.lrec_patchedAt (s : State) (die : Nat) (rest : List LaunchReq) (i : Nat) (r : LRec) :
    (s.modDie die (fun d => d.patchedAt rest i r)).lrec die i = r
      ∧ (∀ j, j ≠ i → (s.modDie die (fun d => d.patchedAt rest i r)).lrec die j = s.lrec die j)
      ∧ ((s.modDie die (fun d => d.patchedAt rest i r)).die die).launchReqs = rest := by
  unfold State.lrec
  rw [State.die_modDie]
  exact ⟨look_put_self _ _ _ _, fun j hj => look_put_ne _ _ _ hj, rfl⟩

theorem State.lrec_modReqs (s : State) (die : Nat) (rest : List LaunchReq) (j : Nat) :
    (s.modDie die (fun d => { d with launchReqs := rest })).lrec die j = s.lrec die j := by
  unfold State.lrec
  rw [State.die_modDie]

theorem launchUnitRequest_none {s : State} {die : Nat} (h : (s.die die).launchReqs = []) :
    exec (.launchUnitRequest die) s = .next s := by
  change execLaunchUnitRequest die s = _
  simp only [execLaunchUnitRequest, h]

section
variable {s : State} {die core pn : Nat} {sel v : Word} {rest : List LaunchReq}
  (h : (s.die die).launchReqs = .patch core pn sel v :: rest)
include h

theorem launchUnitRequest_performs {r : LRec}
    (hr : patched (s.lrec die (sel.toNat % 1024)) (s.jobOf core) sel v = .inl r)
    (hb : (s.proc core pn).state = .blockedSync) :
    ∃ t, exec (.launchUnitRequest die) s = .next t ∧ t.lrec die (sel.toNat % 1024) = r
      ∧ (∀ j, j ≠ sel.toNat % 1024 → t.lrec die j = s.lrec die j) ∧ (t.die die).launchReqs = rest
      ∧ ((t.proc core pn).state = .running ∨ (t.proc core pn).state = .ready) ∧ (t.proc core pn).wait = .none
      ∧ (s.proc core pn).keeps (t.proc core pn) ∧ t.mem = s.mem ∧ (∀ k, k ≠ core → t.core k = s.core k) := by
  have he : exec (.launchUnitRequest die) s
      = .next ((s.modDie die (fun d => d.patchedAt rest (sel.toNat % 1024) r)).wake core pn) := by
    change execLaunchUnitRequest die s = _
    have hr' : patched ((s.modDie die (fun d => { d with launchReqs := rest })).lrec die (sel.toNat % 1024))
        ((s.modDie die (fun d => { d with launchReqs := rest })).jobOf core) sel v = .inl r := by
      rw [State.lrec_modReqs]
      exact hr
    simp only [execLaunchUnitRequest, h, hr']
    rw [State.setLrec, State.modDie_modDie]
    rfl
  obtain ⟨hi, hne, hreqs⟩ := s.lrec_patchedAt die rest (sel.toNat % 1024) r
  have hwake := State.proc_wake (s := s.modDie die (fun d => d.patchedAt rest (sel.toNat % 1024) r)) (core := core) (pn := pn) hb
  refine ⟨_, he, hi, hne, hreqs, ?_, ?_, ?_, rfl, fun k hk => State.core_modCore_ne _ _ hk⟩
  · rw [hwake]
    dsimp only
    split
    · exact .inr rfl
    · exact .inl rfl
  · rw [hwake]
  · rw [hwake]
    exact (s.proc core pn).keeps_refl

theorem launchUnitRequest_refuses {f : Word}
    (hr : patched (s.lrec die (sel.toNat % 1024)) (s.jobOf core) sel v = .inr f) :
    ∃ u : State, exec (.launchUnitRequest die) s = .next (u.trapBlocked core pn .prot f)
      ∧ (u.die die).launchReqs = rest ∧ u.cores = s.cores ∧ u.mem = s.mem ∧ (∀ j, u.lrec die j = s.lrec die j) := by
  have hr' : patched ((s.modDie die (fun d => { d with launchReqs := rest })).lrec die (sel.toNat % 1024))
      ((s.modDie die (fun d => { d with launchReqs := rest })).jobOf core) sel v = .inr f := by
    rw [State.lrec_modReqs]
    exact hr
  refine ⟨s.modDie die (fun d => { d with launchReqs := rest }), ?_, ?_, rfl, rfl, s.lrec_modReqs die rest⟩
  · change execLaunchUnitRequest die s = _
    simp only [execLaunchUnitRequest, h, hr']
  · rw [State.die_modDie]

end
end Sys2Proof.Machine
end

/-! ## Fields of launch records (R306) -/

section
namespace Sys2Proof.Machine

/-! ### Fields of a record (R303, R306) -/

theorem setBits_toNat_split (x lo n v : Nat) :
    x - x / 2 ^ lo % 2 ^ n * 2 ^ lo + v % 2 ^ n * 2 ^ lo
      = 2 ^ lo * (2 ^ n * (x / 2 ^ lo / 2 ^ n) + v % 2 ^ n) + x % 2 ^ lo := by
  have h1 := Nat.div_add_mod x (2 ^ lo)
  have h2 := Nat.div_add_mod (x / 2 ^ lo) (2 ^ n)
  generalize x / 2 ^ lo % 2 ^ n = m at *
  generalize x / 2 ^ lo / 2 ^ n = q at *
  rw [← h2] at h1
  generalize x % 2 ^ lo = l at *
  have h3 : 2 ^ lo * (2 ^ n * q + m) = 2 ^ lo * (2 ^ n * q) + m * 2 ^ lo := by rw [Nat.mul_add, Nat.mul_comm _ m]
  have h4 : 2 ^ lo * (2 ^ n * q + v % 2 ^ n) = 2 ^ lo * (2 ^ n * q) + v % 2 ^ n * 2 ^ lo := by
    rw [Nat.mul_add, Nat.mul_comm _ (v % 2 ^ n)]
  omega

/-- The bits of a record with one field written: those of the field are the value's, the others stay. -/
theorem getLsbD_setBits {w : Nat} (x : BitVec w) (lo n v : Nat) {i : Nat} (h : i < w) :
    (setBits x lo n v).getLsbD i = if lo ≤ i ∧ i < lo + n then v.testBit (i - lo) else x.getLsbD i := by
  unfold setBits
  rw [BitVec.getLsbD_ofNat, setBits_toNat_split,
    Nat.testBit_two_pow_mul_add _ (Nat.mod_lt _ (Nat.two_pow_pos lo)),
    Nat.testBit_two_pow_mul_add _ (Nat.mod_lt _ (Nat.two_pow_pos n))]
  simp only [h, decide_true, Bool.true_and]
  by_cases h1 : i < lo
  · rw [if_pos h1, if_neg (by omega), Nat.testBit_mod_two_pow]
    simp [h1, BitVec.getLsbD]
  · rw [if_neg h1]
    by_cases h2 : i - lo < n
    · rw [if_pos h2, if_pos (by omega), Nat.testBit_mod_two_pow]
      simp [h2]
    · rw [if_neg h2, if_neg (by omega), Nat.testBit_div_two_pow, Nat.testBit_div_two_pow]
      rw [BitVec.getLsbD]
      congr 1
      omega

theorem extract_setBits {w : Nat} (x : BitVec w) {lo n a b : Nat} (v : Nat) (hb : a + b ≤ n) (hw : lo + n ≤ w) :
    (setBits x lo n v).extractLsb' (lo + a) b = BitVec.ofNat b (v / 2 ^ a) := by
  refine BitVec.eq_of_getLsbD_eq fun i hi => ?_
  rw [BitVec.getLsbD_extractLsb', getLsbD_setBits _ _ _ _ (by omega), if_pos (by omega), BitVec.getLsbD_ofNat,
    Nat.testBit_div_two_pow]
  congr 2
  omega

/-- A number of a field's width has no bits past the field. -/
theorem testBit_masked {a k : Nat} (h : a < 2 ^ k) (j : Nat) : (a.testBit j && !(2 ^ k - 1).testBit j) = false := by
  rw [Nat.testBit_two_pow_sub_one]
  by_cases hj : j < k
  · simp [hj]
  · rw [Nat.testBit_lt_two_pow (Nat.lt_of_lt_of_le h (Nat.pow_le_pow_right (by decide) (Nat.not_lt.1 hj)))]
    rfl

theorem selector_masked {i k : Nat} (hi : i < 1024) (hk : k < 16) : word (i + k * 2 ^ 16) &&& ~~~(0xF03FF : Word) = 0 := by
  refine BitVec.eq_of_getLsbD_eq fun j hj => ?_
  have hv : (word (i + k * 2 ^ 16)).getLsbD j = (2 ^ 16 * k + i).testBit j := by
    rw [word, BitVec.getLsbD_ofNat, Nat.add_comm, Nat.mul_comm]
    simp [hj]
  have hm : (0xF03FF : Word).getLsbD j = (2 ^ 16 * 15 + 1023).testBit j := rfl
  rw [BitVec.getLsbD_and, BitVec.getLsbD_not, hv, hm, show (0 : Word).getLsbD j = false from BitVec.getLsbD_zero, Nat.testBit_two_pow_mul_add _ (by omega),
    Nat.testBit_two_pow_mul_add _ (by decide)]
  simp only [hj, decide_true, Bool.true_and]
  split
  · exact testBit_masked (k := 10) hi j
  · exact testBit_masked (k := 4) hk _

theorem selector_toNat {i k : Nat} (hi : i < 1024) (hk : k < 16) : (word (i + k * 2 ^ 16)).toNat = i + k * 2 ^ 16 := by
  rw [word, BitVec.toNat_ofNat]
  omega

theorem rectangle_masked {x y m n : Nat} (hx : x < 32) (hy : y < 32) (hm : m < 32) (hn : n < 32) :
    word (x + y * 2 ^ 8 + m * 2 ^ 16 + n * 2 ^ 24) &&& ~~~(0x1F1F1F1F : Word) = 0 := by
  refine BitVec.eq_of_getLsbD_eq fun j hj => ?_
  have hv : (word (x + y * 2 ^ 8 + m * 2 ^ 16 + n * 2 ^ 24)).getLsbD j
      = (2 ^ 8 * (2 ^ 8 * (2 ^ 8 * n + m) + y) + x).testBit j := by
    rw [word, BitVec.getLsbD_ofNat, show x + y * 2 ^ 8 + m * 2 ^ 16 + n * 2 ^ 24 = 2 ^ 8 * (2 ^ 8 * (2 ^ 8 * n + m) + y) + x by ring]
    simp [hj]
  have hM : (0x1F1F1F1F : Word).getLsbD j = (2 ^ 8 * (2 ^ 8 * (2 ^ 8 * 31 + 31) + 31) + 31).testBit j := rfl
  rw [BitVec.getLsbD_and, BitVec.getLsbD_not, hv, hM, show (0 : Word).getLsbD j = false from BitVec.getLsbD_zero]
  iterate 3 rw [Nat.testBit_two_pow_mul_add _ (by omega)]
  iterate 3 rw [Nat.testBit_two_pow_mul_add _ (by decide)]
  simp only [hj, decide_true, Bool.true_and]
  split
  · exact testBit_masked (k := 5) hx j
  split
  · exact testBit_masked (k := 5) hy _
  split
  · exact testBit_masked (k := 5) hm _
  · exact testBit_masked (k := 5) hn _

theorem rectWord_of {x y m n : Nat} (hx : x < 32) (hy : y < 32) (hm : m < 32) (hn : n < 32) :
    rectWord (word (x + y * 2 ^ 8 + m * 2 ^ 16 + n * 2 ^ 24)) = some (x, y, m, n) := by
  have hv : (word (x + y * 2 ^ 8 + m * 2 ^ 16 + n * 2 ^ 24)).toNat = x + y * 2 ^ 8 + m * 2 ^ 16 + n * 2 ^ 24 := by
    rw [word, BitVec.toNat_ofNat]
    omega
  unfold rectWord
  rw [rectangle_masked hx hy hm hn, hv]
  have h : (x + y * 2 ^ 8 + m * 2 ^ 16 + n * 2 ^ 24) % 32 = x ∧ (x + y * 2 ^ 8 + m * 2 ^ 16 + n * 2 ^ 24) / 2 ^ 8 % 32 = y
      ∧ (x + y * 2 ^ 8 + m * 2 ^ 16 + n * 2 ^ 24) / 2 ^ 16 % 32 = m
      ∧ (x + y * 2 ^ 8 + m * 2 ^ 16 + n * 2 ^ 24) / 2 ^ 24 % 32 = n := by omega
  obtain ⟨h1, h2, h3, h4⟩ := h
  simp only [h1, h2, h3, h4]
  rfl

theorem selector_field {i k : Nat} (hi : i < 1024) (hk : k < 16) : (word (i + k * 2 ^ 16)).toNat / 2 ^ 16 % 16 = k := by
  rw [selector_toNat hi hk]
  omega

/-- The checks of LPATCH pass a selector with a field of a valid record of the job (R306). -/
theorem selector_legal {r : LRec} {job i k : Nat} (hv : lrValid r = true) (hj : lrJob r = job) (hi : i < 1024) (hk : k < 10) :
    ((word (i + k * 2 ^ 16) &&& ~~~(0xF03FF : Word) != 0)
      || decide (10 ≤ k) || !lrValid r || lrJob r != job) = false := by
  rw [selector_masked hi (show k < 16 by omega), hv, hj]
  simp [hk]

theorem patched_refused {r : LRec} {job : Nat} {sel : Word} (v : Word)
    (h : (lrValid r = false ∨ lrJob r ≠ job ∨ sel &&& ~~~(0xF03FF : Word) ≠ 0) ∨ 10 ≤ sel.toNat / 2 ^ 16 % 16) :
    patched r job sel v = .inr sel := by
  unfold patched
  refine if_pos ?_
  simp only [Bool.or_eq_true, bne_iff_ne, decide_eq_true_eq, Bool.not_eq_true']
  tauto

theorem patched_argument {r : LRec} {job i k : Nat} (v : Word) (hv : lrValid r = true) (hj : lrJob r = job) (hi : i < 1024)
    (hk : k < 8) : ∃ q, patched r job (word (i + k * 2 ^ 16)) v = .inl q ∧ lrArg q k = v
      ∧ (∀ n, n < 1024 → (n < 512 + 64 * k ∨ 576 + 64 * k ≤ n) → q.getLsbD n = r.getLsbD n) := by
  have hp : patched r job (word (i + k * 2 ^ 16)) v = .inl (setBits r (512 + 64 * k) 64 v.toNat) := by
    unfold patched
    simp only [selector_legal hv hj hi (show k < 10 by omega), Bool.false_eq_true, if_false,
      selector_field hi (show k < 16 by omega), hk, if_true]
  refine ⟨_, hp, ?_, fun n hn h => ?_⟩
  · refine (extract_setBits r (lo := 512 + 64 * k) (a := 0) v.toNat (by omega) (by omega)).trans ?_
    simp
  · rw [getLsbD_setBits _ _ _ _ hn, if_neg (by omega)]

theorem patched_priority {r : LRec} {job i : Nat} (v : Word) (hv : lrValid r = true) (hj : lrJob r = job) (hi : i < 1024) :
    ∃ q, patched r job (word (i + 8 * 2 ^ 16)) v = .inl q ∧ lrPrio q = v.setWidth 7
      ∧ (∀ n, n < 1024 → (n < 64 ∨ 71 ≤ n) → q.getLsbD n = r.getLsbD n) := by
  have hp : patched r job (word (i + 8 * 2 ^ 16)) v = .inl (setBits r 64 7 v.toNat) := by
    unfold patched
    simp only [selector_legal hv hj hi (show 8 < 10 by decide), Bool.false_eq_true, if_false,
      selector_field hi (show 8 < 16 by decide), if_true]
    rfl
  refine ⟨_, hp, ?_, fun n hn h => ?_⟩
  · refine (extract_setBits r (lo := 64) (n := 7) (a := 0) v.toNat (by omega) (by omega)).trans ?_
    exact BitVec.eq_of_toNat_eq (by simp)
  · rw [getLsbD_setBits _ _ _ _ hn, if_neg (by omega)]

/-- The sides of a rectangle written to a record. -/
theorem setBits_rectangle (r : LRec) {x y m n : Nat} (hx : x < 32) (hy : y < 32) (hm : m < 32) (hn : n < 32) :
    let q := setBits r 80 20 (x + y * 2 ^ 5 + m * 2 ^ 10 + n * 2 ^ 15)
    lrX0 q = x ∧ lrY0 q = y ∧ lrWm1 q = m ∧ lrHm1 q = n := by
  have h (a : Nat) (ha : a + 5 ≤ 20) := congrArg BitVec.toNat (extract_setBits r (lo := 80) (a := a) (b := 5)
    (x + y * 2 ^ 5 + m * 2 ^ 10 + n * 2 ^ 15) ha (by decide))
  refine ⟨(h 0 (by decide)).trans ?_, (h 5 (by decide)).trans ?_, (h 10 (by decide)).trans ?_, (h 15 (by decide)).trans ?_⟩
  all_goals
    rw [BitVec.toNat_ofNat]
    omega

theorem patched_rectangle {r : LRec} {job i x y m n : Nat} (hv : lrValid r = true) (hj : lrJob r = job) (hi : i < 1024)
    (hx : x < 32) (hy : y < 32) (hm : m < 32) (hn : n < 32) :
    patched r job (word (i + 9 * 2 ^ 16)) (word (x + y * 2 ^ 8 + m * 2 ^ 16 + n * 2 ^ 24))
      = if inRange x m (lrPx0 r) (lrPwm1 r) && inRange y n (lrPy0 r) (lrPhm1 r) then
          .inl (setBits r 80 20 (x + y * 2 ^ 5 + m * 2 ^ 10 + n * 2 ^ 15))
        else .inr (word (x + y * 2 ^ 8 + m * 2 ^ 16 + n * 2 ^ 24)) := by
  unfold patched
  simp only [selector_legal hv hj hi (show 9 < 10 by decide), Bool.false_eq_true, if_false,
    selector_field hi (show 9 < 16 by decide), rectWord_of hx hy hm hn]
  rfl

/-- A rectangle within the permitted one is written, and another is refused (R306). -/
theorem patched_rectangle_writes {r : LRec} {job i x y m n : Nat} (hv : lrValid r = true) (hj : lrJob r = job) (hi : i < 1024)
    (hx : x < 32) (hy : y < 32) (hm : m < 32) (hn : n < 32) :
    let v := word (x + y * 2 ^ 8 + m * 2 ^ 16 + n * 2 ^ 24)
    if inRange x m (lrPx0 r) (lrPwm1 r) && inRange y n (lrPy0 r) (lrPhm1 r) then
      ∃ q, patched r job (word (i + 9 * 2 ^ 16)) v = .inl q ∧ lrX0 q = x ∧ lrY0 q = y ∧ lrWm1 q = m ∧ lrHm1 q = n
        ∧ (∀ j, j < 1024 → (j < 80 ∨ 100 ≤ j) → q.getLsbD j = r.getLsbD j)
    else patched r job (word (i + 9 * 2 ^ 16)) v = .inr v := by
  have hp := patched_rectangle hv hj hi hx hy hm hn
  dsimp only
  cases hin : inRange x m (lrPx0 r) (lrPwm1 r) && inRange y n (lrPy0 r) (lrPhm1 r) with
  | false =>
    rw [hin, if_neg Bool.false_ne_true] at hp
    exact (if_neg Bool.false_ne_true).mpr hp
  | true =>
    rw [hin, if_pos rfl] at hp
    obtain ⟨hqx, hqy, hqm, hqn⟩ := setBits_rectangle r hx hy hm hn
    refine (if_pos rfl).mpr ⟨_, hp, hqx, hqy, hqm, hqn, fun j hj h => ?_⟩
    rw [getLsbD_setBits _ _ _ _ hj, if_neg (by omega)]

end Sys2Proof.Machine
end

/-! ## Quanta, and the tenants that leave (R318, R320) -/

section
namespace Sys2Proof.Machine

/-! ### Quanta (R320) -/

theorem timeShareQuantum_none {s : State} {die : Nat} (h : (s.die die).quantumEnd = none) :
    exec (.timeShareQuantum die) s = .next s := by
  change execTimeShareQuantum die s = _
  simp only [execTimeShareQuantum, h]

theorem timeShareQuantum_early {s : State} {die e : Nat} (h : (s.die die).quantumEnd = some e) (ht : s.ticks < e) :
    exec (.timeShareQuantum die) s = .next s := by
  change execTimeShareQuantum die s = _
  simp only [execTimeShareQuantum, h, ht, if_true]

/-- The die whose turn goes to a binding. -/
def Die.turnTo (d : Die) (now n : Nat) (b : Word) : Die :=
  { d with turn := n, quantumEnd := some (now + ldQuant b), switching := d.switching || n != d.turn }

/-- The next binding's turn comes when the quantum has ended. -/
theorem timeShareQuantum_turns {s : State} {die e n : Nat} {b : Word} (h : (s.die die).quantumEnd = some e) (ht : e ≤ s.ticks)
    (hn : ((s.turns die).find? (fun x => (s.die die).turn < x.1)).or (s.turns die).head? = some (n, b)) :
    ∃ t, exec (.timeShareQuantum die) s = .next t ∧ t.die die = (s.die die).turnTo s.ticks n b
      ∧ (∀ k, k ≠ die → t.die k = s.die k) ∧ t.cores = s.cores ∧ t.mem = s.mem := by
  have he : exec (.timeShareQuantum die) s = .next (s.setDie die ((s.die die).turnTo s.ticks n b)) := by
    change execTimeShareQuantum die s = _
    simp only [execTimeShareQuantum, h, hn, Nat.not_lt.2 ht, if_false]
    rfl
  exact ⟨_, he, s.die_setDie die _, fun k hk => s.die_setDie_ne _ hk, rfl, rfl⟩

theorem timeShareQuantum_ascends {s : State} {die e n : Nat} {b : Word} (h : (s.die die).quantumEnd = some e) (ht : e ≤ s.ticks)
    (hn : (s.turns die).find? (fun x => (s.die die).turn < x.1) = some (n, b)) :
    ∃ t, exec (.timeShareQuantum die) s = .next t
      ∧ t.die die = { s.die die with turn := n, quantumEnd := some (s.ticks + ldQuant b), switching := true }
      ∧ (∀ k, k ≠ die → t.die k = s.die k) ∧ t.cores = s.cores ∧ t.mem = s.mem := by
  obtain ⟨t, he, hd, hrest⟩ := timeShareQuantum_turns h ht (n := n) (b := b) (by rw [hn]; rfl)
  have hlt : (s.die die).turn < n := by simpa using List.find?_some hn
  refine ⟨t, he, hd.trans ?_, hrest⟩
  rw [Die.turnTo, bne_iff_ne.2 (Nat.ne_of_gt hlt), Bool.or_true]

theorem timeShareQuantum_wraps {s : State} {die e n : Nat} {b : Word} {rest : List (Nat × Word)}
    (h : (s.die die).quantumEnd = some e) (ht : e ≤ s.ticks)
    (hl : (s.turns die).all (fun x => x.1 ≤ (s.die die).turn) = true) (hn : s.turns die = (n, b) :: rest) :
    ∃ t, exec (.timeShareQuantum die) s = .next t
      ∧ t.die die = { s.die die with
        turn := n, quantumEnd := some (s.ticks + ldQuant b), switching := (s.die die).switching || n != (s.die die).turn }
      ∧ (∀ k, k ≠ die → t.die k = s.die k) ∧ t.cores = s.cores ∧ t.mem = s.mem := by
  have hnone : (s.turns die).find? (fun x => (s.die die).turn < x.1) = none := by
    refine List.find?_eq_none.2 fun x hx => ?_
    have := List.all_eq_true.1 hl x hx
    simp only [decide_eq_true_eq] at *
    omega
  exact timeShareQuantum_turns h ht (by rw [hnone, hn]; rfl)

/-! ### Who leaves (R318) -/

theorem State.switchDue_false {s : State} {pkg job target : Nat}
    (h : job = target ∨ ∀ d, pkgOfDie d = pkg → s.timeShares target d = true → s.turnOf d target = false) :
    s.switchDue pkg job target = false := by
  unfold State.switchDue
  obtain h | h := h
  · simp [h]
  · rw [List.any_eq_false.2, Bool.and_false]
    intro d _
    simp only [Bool.and_eq_true, beq_iff_eq, not_and]
    intro ⟨⟨hp, hs⟩, ht⟩
    exact absurd ((h d hp hs).symm.trans ht) Bool.false_ne_true

theorem tenantSwitch_notDue {s : State} {pkg job target : Nat} (h : s.switchDue pkg job target = false) :
    exec (.tenantSwitch pkg job target) s = .next s := by
  change execTenantSwitch pkg job target s = _
  simp only [execTenantSwitch, h, Bool.not_false, if_true]

/-- The dies and tenants that leave for a target (R318). -/
theorem State.mem_leavers_iff {s : State} {job target : Nat} {e : Nat × Nat} : e ∈ s.leavers job target ↔
    (e.2 = job ∨ (∃ b ∈ s.allDies, s.timeShares target b = true ∧ e.2 ∈ s.residents b) ∧ e.2 ≠ target)
      ∧ e.1 ∈ s.allDies ∧ (e.1 ∈ s.tenantDies e.2
        ∨ ((e.1 ∈ s.allDies ∧ s.timeShares target e.1 = true) ∧ s.onlyTenant e.1 e.2 = true) ∧ e.2 ∈ s.residents e.1) := by
  obtain ⟨d, j⟩ := e
  unfold State.leavers
  rw [List.mem_flatMap]
  constructor
  · rintro ⟨k, hk, hd⟩
    obtain ⟨c, hc, heq⟩ := List.mem_map.1 hd
    cases heq
    exact ⟨by simpa [and_assoc] using hk, by simpa [and_assoc] using hc⟩
  · rintro ⟨hj, hd⟩
    exact ⟨j, by simpa [and_assoc] using hj, List.mem_map.2 ⟨d, by simpa [and_assoc] using hd, rfl⟩⟩

theorem State.mem_leavers {s : State} {job target d : Nat} : (d, job) ∈ s.leavers job target ↔
    d ∈ s.tenantDies job ∨ (d ∈ s.allDies ∧ s.timeShares target d = true ∧ s.onlyTenant d job = true ∧ job ∈ s.residents d) := by
  have hsub : d ∈ s.tenantDies job → d ∈ s.allDies := fun h => (List.mem_filter.1 h).1
  rw [State.mem_leavers_iff]
  dsimp only
  tauto

/-- A tenant that leaves for a target is not the target. -/
theorem State.leavers_ne {s : State} {job target : Nat} (h : job ≠ target) {e : Nat × Nat} (he : e ∈ s.leavers job target) :
    e.2 ≠ target := by
  obtain ⟨h' | ⟨-, h'⟩, -⟩ := State.mem_leavers_iff.1 he
  · rwa [h']
  · exact h'

end Sys2Proof.Machine
end

/-! ## Cores as a launch finds them (R313) -/

section
namespace Sys2Proof.Machine

/-! ### Cores as a launch finds them (R313, R314) -/

theorem sixteen_le_lrWsz (r : LRec) : 16 ≤ lrWsz r := by
  unfold lrWsz
  have := Nat.one_le_two_pow (n := (r.extractLsb' 56 2).toNat)
  omega

/-- The root process of a launch on a core at a place of its rectangle. -/
def lrRoot (r : LRec) (ref : LaunchRef) : Proc :=
  { state := .ready, pc := lrEntry r &&& ~~~(3 : Word), prio := lrPrio r, wsz := lrWsz r, wbase := 128, depmax := lrDepmax r
    regs := windowWith (lrWsz r) [(5, lrArg r 0), (6, word (ref.rx * 65536 + ref.ry)),
      (2, if lrSpbase r = 0 then 0
        else word (lrSpbase r + (ref.ry * (lrWm1 r + 1) + ref.rx + 1) * 2 ^ lrSplog r))]
    pend := List.replicate (lrWsz r) false }

/-- The overflow process of a launch on a core. -/
def lrSpill (r : LRec) (j : JobRec) (lcn : BitVec 22) : Proc :=
  { state := .ready, pc := j.oventry.setWidth 64, prio := 127, wsz := 32
    wbase := BitVec.ofNat 12 (if lrWsz r ≤ 32 then 130 else 128 + lrWsz r / 16), depmax := 0
    regs := windowWith 32 [(5, word (j.ovheap.toNat + lcn.toNat * 2 ^ j.ovhlog.toNat)), (6, word (2 ^ j.ovhlog.toNat))]
    pend := List.replicate 32 false }

theorem Core.procs_prepared (c : Core) (r : LRec) (j : JobRec) (ref : LaunchRef) :
    (c.prepared r j ref).procs = put (put [] 0 (lrRoot r ref)) 255
      (lrSpill r j (lrLcnb r + BitVec.ofNat 22 (ref.ry * (lrWm1 r + 1) + ref.rx))) := rfl

theorem Core.prepared_root (c : Core) (r : LRec) (j : JobRec) (ref : LaunchRef) :
    (c.prepared r j ref).proc 0 = lrRoot r ref := by
  rw [Core.proc, Core.procs_prepared, look_put_ne _ _ _ (by decide), look_put_self]

theorem Core.prepared_spill (c : Core) (r : LRec) (j : JobRec) (ref : LaunchRef) :
    (c.prepared r j ref).proc 255
      = lrSpill r j (lrLcnb r + BitVec.ofNat 22 (ref.ry * (lrWm1 r + 1) + ref.rx)) := by
  rw [Core.proc, Core.procs_prepared, look_put_self]

theorem Core.prepared_others (c : Core) (r : LRec) (j : JobRec) (ref : LaunchRef) {n : Nat} (h : n ≠ 0) (h' : n ≠ 255) :
    (c.prepared r j ref).proc n = {} := by
  rw [Core.proc, Core.procs_prepared, look_put_ne _ _ _ h', look_put_ne _ _ _ h, look_nil]

/-- The registers of a root process: its argument, its place, and its stack pointer; the others zero. -/
theorem lrRoot_reg (r : LRec) (ref : LaunchRef) (n : Nat) : (lrRoot r ref).reg n
    = if n = 2 then (if lrSpbase r = 0 then 0
        else word (lrSpbase r + (ref.ry * (lrWm1 r + 1) + ref.rx + 1) * 2 ^ lrSplog r))
      else if n = 6 then word (ref.rx * 65536 + ref.ry) else if n = 5 then lrArg r 0 else 0 := by
  have hw := sixteen_le_lrWsz r
  unfold Proc.reg lrRoot windowWith
  dsimp only [List.foldl]
  generalize (if lrSpbase r = 0 then (0 : Word) else _) = sp
  generalize lrWsz r = w at *
  simp only [List.getD_eq_getElem?_getD, List.getElem?_set, List.getElem?_replicate, List.length_set, List.length_replicate]
  by_cases h2 : n = 2
  · subst h2
    simp [show 2 < w by omega]
  by_cases h6 : n = 6
  · subst h6
    simp [show 6 < w by omega]
  by_cases h5 : n = 5
  · subst h5
    simp [show 5 < w by omega]
  have h2' : ¬ 2 = n := fun h => h2 h.symm
  have h6' : ¬ 6 = n := fun h => h6 h.symm
  have h5' : ¬ 5 = n := fun h => h5 h.symm
  simp only [h2, h5, h6, h2', h5', h6', if_false]
  split
  · rfl
  · split
    all_goals rfl

theorem prepared_core (c : Core) (r : LRec) (j : JobRec) (ref : LaunchRef) :
    let d := c.prepared r j ref
    let rank := ref.ry * (lrWm1 r + 1) + ref.rx
    let sp : Word := if lrSpbase r = 0 then 0 else word (lrSpbase r + (rank + 1) * 2 ^ lrSplog r)
    (d.proc 0).state = .ready ∧ (d.proc 0).pc = lrEntry r &&& ~~~(3 : Word) ∧ (d.proc 0).wsz = lrWsz r
    ∧ (d.proc 0).prio = lrPrio r ∧ (d.proc 0).depmax = lrDepmax r ∧ (d.proc 0).depth = 0 ∧ (d.proc 0).reg 5 = lrArg r 0
    ∧ (d.proc 0).reg 6 = word (ref.rx * 65536 + ref.ry) ∧ (d.proc 0).reg 2 = sp
    ∧ (∀ n, n ≠ 2 → n ≠ 5 → n ≠ 6 → (d.proc 0).reg n = 0)
    ∧ (d.proc 255).state = .ready ∧ (d.proc 255).pc = j.oventry.setWidth 64 ∧ (d.proc 255).prio = 127
    ∧ (d.proc 255).wsz = 32 ∧ (d.proc 255).reg 6 = word (2 ^ j.ovhlog.toNat)
    ∧ d.lcn = lrLcnb r + BitVec.ofNat 22 rank ∧ d.handler = none ∧ d.normal = [] ∧ d.staging = []
    ∧ (∀ n, n ≠ 0 → n ≠ 255 → (d.proc n).state = .free) := by
  dsimp only
  rw [Core.prepared_root, Core.prepared_spill]
  refine ⟨rfl, rfl, rfl, rfl, rfl, rfl, lrRoot_reg r ref 5, lrRoot_reg r ref 6, lrRoot_reg r ref 2, fun n h2 h5 h6 => ?_,
    rfl, rfl, rfl, rfl, rfl, rfl, rfl, rfl, rfl, fun n h0 h255 => ?_⟩
  · rw [lrRoot_reg, if_neg h2, if_neg h6, if_neg h5]
  · rw [Core.prepared_others c r j ref h0 h255]

end Sys2Proof.Machine
end

/-! ## Launches that end, and launches that do not start (R312 to R315) -/

section
namespace Sys2Proof.Machine

/-! ### The end of a launch (R315) -/

theorem launchCompletion_running {s : State} {die pos : Nat} {q : Running} {rest : List Running}
    (hq : takeAt (s.die die).running pos = some (q, rest))
    (hf : ((lrCores (pkgOfDie die) q.record).map (fun e => e.1)).all (fun c => s.freeOf c die q.id) = false) :
    exec (.launchCompletion die pos) s = .next s := by
  change execLaunchCompletion die pos s = _
  simp only [execLaunchCompletion, hq, hf, Bool.not_false, if_true]

/-- A change to the launches of cores keeps the dies, memory, and every future table. -/
theorem State.foldl_modLaunch {g : Core → Core} (hg : ∀ x : Core, ∃ l, g x = { x with launch := l }) (cs : List Nat) (s : State) :
    (cs.foldl (fun t c => t.modCore c g) s).dies = s.dies ∧ (cs.foldl (fun t c => t.modCore c g) s).mem = s.mem
      ∧ ∀ k, s.SameFutures (cs.foldl (fun t c => t.modCore c g) s) k := by
  induction cs generalizing s with
  | nil => exact ⟨rfl, rfl, fun _ => ⟨rfl, rfl, rfl, rfl, rfl⟩⟩
  | cons c cs ih =>
    obtain ⟨hdies, hmem, hsame⟩ := ih (s.modCore c g)
    refine ⟨hdies, hmem, fun k => .trans ?_ (hsame k)⟩
    obtain ⟨l, hl⟩ := hg (s.core c)
    have hk : (s.modCore c g).core k = s.core k ∨ (s.modCore c g).core k = { s.core k with launch := l } := by
      by_cases h : k = c
      · rw [h, State.core_modCore, hl]
        exact .inr rfl
      · exact .inl (s.core_modCore_ne g h)
    obtain h | h := hk
    all_goals exact ⟨(congrArg Core.futures h :), (congrArg Core.gateJob h :), rfl, rfl, rfl⟩

theorem State.onTenant_unsaved {s : State} {core job : Nat} (f : State → State) (h : (s.die (dieOf core)).saved = []) :
    s.onTenant core job f = f s := by
  unfold State.onTenant
  dsimp only
  rw [h]
  exact ite_self _

/-- What is done with the future of a launch whose cores are free again. -/
def State.launchEnds (s : State) (q : Running) : State :=
  if ((s.core q.core).future q.entry).gen != q.gen then s
  else if q.reason != 0 then s.failFuture q.core q.entry 0 q.reason 0 0 true
  else if q.killed then s.failFuture q.core q.entry 0 0x40 0 0 true
  else s.endFuture q.core q.entry 1 0 0 0

/-- A launch whose cores are free again leaves its die, and its future is looked after where it is no saved tenant's. -/
theorem exec_launchCompletion {s : State} {die pos : Nat} {q : Running} {rest : List Running}
    (hq : takeAt (s.die die).running pos = some (q, rest))
    (hf : ((lrCores (pkgOfDie die) q.record).map (fun e => e.1)).all (fun c => s.freeOf c die q.id) = true)
    (hs : (s.die (dieOf q.core)).saved = []) :
    ∃ u : State, exec (.launchCompletion die pos) s = .next (u.launchEnds q) ∧ (u.die die).running = rest ∧ u.mem = s.mem
      ∧ s.SameFutures u q.core := by
  generalize ht : s.modDie die (fun d => { d with running := rest }) = t
  have hsaved : (t.die (dieOf q.core)).saved = [] := by
    rw [← ht, State.die_modDie_keeps Die.saved rfl, hs]
  have hst : s.SameFutures t q.core := by
    rw [← ht]
    exact ⟨rfl, rfl, rfl, State.die_modDie_keeps Die.epoch rfl _, State.die_modDie_keeps Die.tdWork rfl _⟩
  change ∃ u : State, execLaunchCompletion die pos s = _ ∧ _
  simp only [execLaunchCompletion, hq, hf, Bool.not_true, Bool.false_eq_true, if_false, ht]
  generalize hg : (fun x : Core => match x.launch with
    | some l => if l.die = die && l.id = q.id then { x with launch := none } else x
    | none => x) = g
  obtain ⟨hdies, hmem, hsame⟩ := State.foldl_modLaunch (g := g) (by
    intro x
    rw [← hg]
    dsimp only
    split
    · split
      · exact ⟨none, rfl⟩
      · exact ⟨x.launch, rfl⟩
    · exact ⟨x.launch, rfl⟩) ((lrCores (pkgOfDie die) q.record).map (fun e => e.1)) t
  generalize hu : List.foldl (fun t c => t.modCore c g) t _ = u at *
  have hu' : u.die = t.die := by
    unfold State.die
    rw [hdies]
  refine ⟨u, congrArg _ ?_, ?_, hmem.trans (by rw [← ht]; rfl), hst.trans (hsame q.core)⟩
  · refine (State.onTenant_unsaved _ ?_).trans rfl
    rw [hu']
    exact hsaved
  · rw [hu', ← ht, State.die_modDie]

/-- A future that is another operation's by now is left (R315). -/
theorem launchCompletion_stale {s : State} {die pos : Nat} {q : Running} {rest : List Running}
    (hq : takeAt (s.die die).running pos = some (q, rest))
    (hf : ((lrCores (pkgOfDie die) q.record).map (fun e => e.1)).all (fun c => s.freeOf c die q.id) = true)
    (hs : (s.die (dieOf q.core)).saved = []) (hg : ((s.core q.core).future q.entry).gen ≠ q.gen) :
    ∃ t, exec (.launchCompletion die pos) s = .next t ∧ (t.die die).running = rest ∧ t.mem = s.mem
      ∧ (t.core q.core).futures = (s.core q.core).futures := by
  obtain ⟨u, he, hrun, hmem, hsame⟩ := exec_launchCompletion hq hf hs
  have hends : u.launchEnds q = u := by
    unfold State.launchEnds
    rw [hsame.future]
    exact if_pos (bne_iff_ne.2 hg)
  rw [hends] at he
  exact ⟨u, he, hrun, hmem, hsame.futures⟩

/-- The future of a launch that it was armed with ends with the launch (R315). -/
theorem launchCompletion_ends {s : State} {die pos : Nat} {q : Running} {rest : List Running}
    (hq : takeAt (s.die die).running pos = some (q, rest))
    (hf : ((lrCores (pkgOfDie die) q.record).map (fun e => e.1)).all (fun c => s.freeOf c die q.id) = true)
    (hs : (s.die (dieOf q.core)).saved = []) (hg : ((s.core q.core).future q.entry).gen = q.gen)
    (hu : ((s.core q.core).future q.entry).used = true) (he : ((s.core q.core).future q.entry).engine = 3) :
    ∃ t, exec (.launchCompletion die pos) s = .next t ∧ (t.die die).running = rest ∧ t.mem = s.mem
      ∧ (q.reason = 0 → q.killed = false → s.futureEnds t q.core q.entry 1 0 0)
      ∧ (q.reason = 0 → q.killed = true → s.futureEnds t q.core q.entry 2 0x40 0)
      ∧ (q.reason ≠ 0 → s.futureEnds t q.core q.entry 2 q.reason 0) := by
  obtain ⟨u, hx, hrun, hmem, hsame⟩ := exec_launchCompletion hq hf hs
  have hgen : ¬ ((((u.core q.core).future q.entry).gen != q.gen) = true) := by
    rw [hsame.future, hg]
    simp
  have hu' : ((u.core q.core).future q.entry).used = true := by
    rw [hsame.future, hu]
  have hnot (reason : BitVec 8) :
      (true && !fromOutside reason && decide (((s.core q.core).future q.entry).engine.toNat < 3)) = false := by
    rw [he]
    exact Bool.and_false _
  unfold State.launchEnds at hx
  rw [if_neg hgen] at hx
  have hkeeps {t : State} (h : (∀ d, (u.die d).sameWork (t.die d)) ∧ t.mem = u.mem) :
      (t.die die).running = rest ∧ t.mem = s.mem :=
    ⟨(congrArg Die.running (h.1 die) :).trans hrun, h.2.trans hmem⟩
  by_cases hr : q.reason = 0
  · rw [if_neg (by simp [hr])] at hx
    cases hk : q.killed with
    | true =>
      rw [hk, if_pos rfl] at hx
      obtain ⟨h1, h2⟩ := hkeeps (State.failFuture_frame 0 0x40 0 0 true hu')
      exact ⟨_, hx, h1, h2, fun _ h => Bool.noConfusion h, fun _ _ => hsame.failFuture 0 0 hu (hnot _),
        fun h => absurd hr h⟩
    | false =>
      rw [hk, if_neg Bool.false_ne_true] at hx
      obtain ⟨h1, h2⟩ := hkeeps (State.endFuture_frame 1 0 0 0 hu')
      exact ⟨_, hx, h1, h2, fun _ _ => hsame.futureEnds 1 0 0 hu, fun _ h => Bool.noConfusion h, fun h => absurd hr h⟩
  · rw [if_pos (bne_iff_ne.2 hr)] at hx
    obtain ⟨h1, h2⟩ := hkeeps (State.failFuture_frame 0 q.reason 0 0 true hu')
    exact ⟨_, hx, h1, h2, fun h => absurd h hr, fun h => absurd h hr, fun _ => hsame.failFuture 0 0 hu (hnot _)⟩

/-! ### Launches that do not start (R312 to R314) -/

section
variable {s : State} {die pos : Nat} {q : Queued} {rest : List Queued}
  (hq : takeAt (s.die die).launchQ pos = some (q, rest)) (hw : (s.die die).switching = false)
include hq hw

theorem launchStart_overlapped (ho : ((s.die die).launchQ.take pos).any (fun o => lrOverlap o.record q.record) = true) :
    exec (.launchStart die pos) s = .next s := by
  change execLaunchStart die pos s = _
  simp only [execLaunchStart, hq, hw, ho, Bool.false_eq_true, if_false, if_true]

variable (ho : ((s.die die).launchQ.take pos).any (fun o => lrOverlap o.record q.record) = false)
include ho

theorem launchStart_unfit (hf : (lrCores (pkgOfDie die) q.record).all (fun e => (s.core e.1).isFree
      && s.holds (lrJob q.record) (dieOf e.1) && !(s.die (dieOf e.1)).isSaved (lrJob q.record)
      && !(s.die (dieOf e.1)).switching) = false) :
    exec (.launchStart die pos) s = .next s := by
  change execLaunchStart die pos s = _
  simp only [execLaunchStart, hq, hw, ho, hf, Bool.false_eq_true, if_false, Bool.not_false, if_true]

/-- A launch that fails its checks leaves the queue, and its future ends FAILED (R314). -/
theorem launchStart_fails {c : Cause} (hf : (lrCores (pkgOfDie die) q.record).all (fun e => (s.core e.1).isFree
      && s.holds (lrJob q.record) (dieOf e.1) && !(s.die (dieOf e.1)).isSaved (lrJob q.record)
      && !(s.die (dieOf e.1)).switching) = true) (hc : s.launchCause (pkgOfDie die) q.record = some c)
    (hu : ((s.core q.core).future q.entry).used = true) :
    ∃ t, exec (.launchStart die pos) s = .next t ∧ (t.die die).launchQ = rest
      ∧ s.futureEnds t q.core q.entry 2 c.code 0 ∧ t.mem = s.mem := by
  generalize ht : s.modDie die (fun d => { d with launchQ := rest }) = t
  have he : exec (.launchStart die pos) s = .next (t.failFuture q.core q.entry 0 c.code 0 0 false) := by
    change execLaunchStart die pos s = _
    simp only [execLaunchStart, hq, hw, ho, hf, hc, Bool.false_eq_true, if_false, Bool.not_true, ht]
  have hst : s.SameFutures t q.core := by
    rw [← ht]
    exact ⟨rfl, rfl, rfl, State.die_modDie_keeps Die.epoch rfl _, State.die_modDie_keeps Die.tdWork rfl _⟩
  obtain ⟨hdies, hmem⟩ := State.failFuture_frame (u := t) (core := q.core) (e := q.entry) 0 c.code 0 0 false
    (by rw [hst.future, hu])
  refine ⟨_, he, (congrArg Die.launchQ (hdies die) :).trans ?_, hst.failFuture 0 0 hu rfl, hmem.trans ?_⟩
  · rw [← ht, State.die_modDie]
  · rw [← ht]
    rfl

end

theorem launchCause_rectangle {s : State} {pkg : Nat} {r : LRec} (h : lrRectOk r = false) :
    s.launchCause pkg r = some .prot := by
  unfold State.launchCause
  exact if_pos (by simp [h])

end Sys2Proof.Machine
end

/-! ## Launches that start (R312 to R314) -/

section
namespace Sys2Proof.Machine

/-! ### Dies that only gather records -/

/-- Two dies that differ at most in the records that wait at them. -/
def Die.sameButRecords (d e : Die) : Prop := e = { d with invlost := e.invlost, invBuf := e.invBuf }

theorem Die.sameButRecords.trans {d e f : Die} (h : d.sameButRecords e) (h' : e.sameButRecords f) : d.sameButRecords f := by
  unfold sameButRecords at *
  rw [h', h]

/-- The dies gather records at most, packages stay. -/
structure State.GathersRecords (s t : State) : Prop where
  dies : ∀ k, (s.die k).sameButRecords (t.die k)
  pkgs : t.pkgs = s.pkgs

theorem State.GathersRecords.refl (s : State) : s.GathersRecords s := ⟨fun _ => rfl, rfl⟩

theorem State.GathersRecords.trans {s t u : State} (h : s.GathersRecords t) (h' : t.GathersRecords u) : s.GathersRecords u :=
  ⟨fun k => (h.dies k).trans (h'.dies k), h'.pkgs.trans h.pkgs⟩

theorem State.GathersRecords.waits {s t : State} (h : s.GathersRecords t) (k : Nat) : (t.die k).waits = (s.die k).waits :=
  (congrArg Die.waits (h.dies k) :)

theorem State.invRecord_gathers (s : State) (die : Nat) (x : InvRec) :
    s.GathersRecords (s.invRecord die x) ∧ (s.invRecord die x).cores = s.cores := by
  unfold State.invRecord
  split
  · exact ⟨.refl s, rfl⟩
  refine ⟨⟨fun k => ?_, rfl⟩, rfl⟩
  by_cases h : k = die
  · rw [h, State.die_modDie]
    split
    all_goals rfl
  · rw [State.die_modDie_ne _ _ h]
    rfl

/-- A die with no waiting operations scans nothing. -/
theorem State.rescanRange_eq_self {s : State} {k : Nat} (n : Nat) (h : (s.die (dieOfKey k)).waits = []) :
    s.rescanRange k n = s := by
  unfold State.rescanRange
  rw [h]
  rfl

/-! ### The rectangle of a launch -/

theorem coreAt_inj {pkg x y x' y' : Nat} (hx : x < 32) (hx' : x' < 32)
    (h : coreAt pkg x y = coreAt pkg x' y') : x = x' ∧ y = y' := by
  unfold coreAt at h
  omega

theorem nodup_lrCores (pkg : Nat) (r : LRec) : ((lrCores pkg r).map (fun e => e.1)).Nodup := by
  unfold lrCores
  rw [List.map_flatMap]
  simp only [List.map_map]
  refine List.nodup_flatMap.2 ⟨fun y _ => ?_, ?_⟩
  · refine List.Nodup.map_on (fun a ha b hb h => ?_) List.nodup_range
    rw [List.mem_range] at ha hb
    have := (coreAt_inj (by omega) (by omega) h).1
    omega
  · refine List.nodup_range.pairwise_of_forall_ne (fun y _ z _ hyz => ?_)
    refine List.disjoint_left.2 (fun c hc hc' => hyz ?_)
    obtain ⟨a, ha, rfl⟩ := List.mem_map.1 hc
    obtain ⟨b, hb, h⟩ := List.mem_map.1 hc'
    rw [List.mem_range] at ha hb
    have := (coreAt_inj (by omega) (by omega) h).2
    omega

/-! ### The cores of a launch, one after another -/

/-- What a core of a launch knows of it. -/
def lrRef (r : LRec) (home id : Nat) (e : Nat × Nat × Nat) : LaunchRef :=
  { die := home, id := id, x0 := lrX0 r, y0 := lrY0 r, wm1 := lrWm1 r, hm1 := lrHm1 r, rx := e.2.1, ry := e.2.2, job := lrJob r }

/-- The records made of the lines of the shapes image that find poison in a core's pool (R378). -/
def State.recordsBadImage (s : State) (core : Nat) (image : List Byte) : State :=
  (s.mem.badImage core image).foldl (fun t i => t.poisonStore 0 (poolKey core (64 * i))) s

/-- One core of a launch made ready for it. -/
def State.launchOn (s : State) (r : LRec) (home id : Nat) (image : List Byte) (e : Nat × Nat × Nat) : State :=
  let t := s.recordsBadImage e.1 image
  ({ t with mem := t.mem.preparePool e.1 r image (t.jobOf e.1) }.modCore e.1 (fun c =>
    c.prepared r ((s.jobRec (dieOf e.1) (lrJob r)).getD {}) (lrRef r home id e))).rescanRange (poolKey e.1 0) (2 ^ 21)

theorem State.foldl_poisonStore_gathers (core : Nat) (bad : List Nat) (s : State) :
    let t := bad.foldl (fun t i => t.poisonStore 0 (poolKey core (64 * i))) s
    s.GathersRecords t ∧ t.cores = s.cores := by
  induction bad generalizing s with
  | nil => exact ⟨.refl s, rfl⟩
  | cons i bad ih =>
    obtain ⟨h, hc⟩ := s.invRecord_gathers (dieOfKey (poolKey core (64 * i))) { item := 10, state := 2, reason := 0x28
                                                                               job := s.mem.tag (poolKey core (64 * i) / 64)
                                                                               pid := 0, started := false
                                                                               itemid := byteAddress (poolKey core (64 * i) / 64 * 64)
                                                                               value := 0, cycle := 0 }
    obtain ⟨h', hc'⟩ := ih (s.poisonStore 0 (poolKey core (64 * i)))
    exact ⟨h.trans h', hc'.trans hc⟩

theorem State.launchOn_eq {s : State} (hn : s.noWaiters) (r : LRec) (home id : Nat) (image : List Byte) (e : Nat × Nat × Nat) :
    s.GathersRecords (s.launchOn r home id image e)
      ∧ (∃ j, (s.launchOn r home id image e).core e.1 = (s.core e.1).prepared r j (lrRef r home id e))
      ∧ ∀ k, k ≠ e.1 → (s.launchOn r home id image e).core k = s.core k := by
  obtain ⟨hg, hc⟩ := s.foldl_poisonStore_gathers e.1 (s.mem.badImage e.1 image)
  unfold State.launchOn
  change s.GathersRecords (s.recordsBadImage e.1 image) at hg
  change (s.recordsBadImage e.1 image).cores = s.cores at hc
  generalize s.recordsBadImage e.1 image = t at *
  have hcore (k : Nat) : t.core k = s.core k := by
    unfold State.core
    rw [hc]
  dsimp only
  generalize hu : State.modCore _ _ _ = u
  have hdies : u.dies = t.dies := by
    rw [← hu]
    rfl
  have hdie : u.die = t.die := by
    unfold State.die
    rw [hdies]
  rw [State.rescanRange_eq_self _ (by rw [hdie, hg.waits, hn])]
  rw [← hu]
  refine ⟨⟨hg.dies, hg.pkgs⟩, ⟨(s.jobRec (dieOf e.1) (lrJob r)).getD {}, ?_⟩, fun k hk => ?_⟩
  · rw [State.core_modCore]
    exact congrArg (fun c : Core => c.prepared r _ (lrRef r home id e)) (hcore e.1)
  · rw [State.core_modCore_ne _ _ hk]
    exact hcore k

theorem State.foldl_launchOn (r : LRec) (home id : Nat) (image : List Byte) (es : List (Nat × Nat × Nat))
    (hd : (es.map (fun e => e.1)).Nodup) {s : State} (hn : s.noWaiters) :
    let t := es.foldl (fun t e => t.launchOn r home id image e) s
    s.GathersRecords t
      ∧ (∀ e ∈ es, ∃ j, t.core e.1 = (s.core e.1).prepared r j (lrRef r home id e))
      ∧ ∀ k, (∀ e ∈ es, e.1 ≠ k) → t.core k = s.core k := by
  induction es generalizing s with
  | nil => exact ⟨.refl s, fun e he => absurd he List.not_mem_nil, fun _ _ => rfl⟩
  | cons e es ih =>
    rw [List.map_cons, List.nodup_cons] at hd
    obtain ⟨hnot, hd⟩ := hd
    have hne : ∀ x ∈ es, x.1 ≠ e.1 := fun x hx h => hnot (List.mem_map.2 ⟨x, hx, h⟩)
    obtain ⟨hg, ⟨j, hj⟩, hk⟩ := State.launchOn_eq hn r home id image e
    obtain ⟨hg', hin, hout⟩ := ih hd (s := s.launchOn r home id image e) (fun d => (hg.waits d).trans (hn d))
    refine ⟨hg.trans hg', fun x hx => ?_, fun k hk' => ?_⟩
    · obtain rfl | hx := List.mem_cons.1 hx
      · exact ⟨j, (hout x.1 hne).trans hj⟩
      · obtain ⟨j', hj'⟩ := hin x hx
        exact ⟨j', hj'.trans (congrArg (fun c : Core => c.prepared r j' _) (hk x.1 (hne x hx)))⟩
    · exact (hout k (fun x hx => hk' x (List.mem_cons_of_mem _ hx))).trans
        (hk k (fun h => hk' e List.mem_cons_self h.symm))

/-! ### The start of a launch (R312 to R314) -/

/-- What is done to each die of a list, to do which twice is to do it once, is done to the dies of the list. -/
theorem State.die_foldl {f : State → Nat → State} {g : Die → Die} (hself : ∀ t d, (f t d).die d = g (t.die d))
    (hne : ∀ t d k, k ≠ d → (f t d).die k = t.die k) (hg : ∀ d, g (g d) = g d) (ds : List Nat) (s : State) (k : Nat) :
    (ds.foldl f s).die k = if k ∈ ds then g (s.die k) else s.die k := by
  induction ds generalizing s with
  | nil => rfl
  | cons d ds ih =>
    refine (ih (f s d)).trans ?_
    by_cases hk : k = d
    · rw [hk, hself, hg, if_pos List.mem_cons_self]
      exact ite_self _
    · rw [hne _ _ _ hk]
      simp only [List.mem_cons, hk, false_or]

theorem State.foldl_launchReset (ds : List Nat) (s : State) :
    let t := ds.foldl (fun t d => t.modDie d Die.launchReset) s
    t.cores = s.cores ∧ t.pkgs = s.pkgs ∧ ∀ k, t.die k = if k ∈ ds then (s.die k).launchReset else s.die k :=
  ⟨List.foldlRecOn (motive := fun t : State => t.cores = s.cores) ds _ rfl fun _ h _ _ => h,
    List.foldlRecOn (motive := fun t : State => t.pkgs = s.pkgs) ds _ rfl fun _ h _ _ => h,
    State.die_foldl (g := Die.launchReset) (fun _ _ => State.die_modDie _ _ _) (fun _ _ _ h => State.die_modDie_ne _ _ h)
      (fun _ => rfl) ds s⟩

/-- The launch as the die of its origin core lists it. -/
def State.launched (s : State) (pkg : Nat) (q : Queued) : Running :=
  { id := (s.die (lrDie pkg q.record)).nextLaunch, record := q.record, core := q.core, entry := q.entry
    gen := ((s.core q.core).future q.entry).gen, undone := (lrCores pkg q.record).map (fun e => e.1) }

def Die.lists (d : Die) (x : Running) : Die := { d with nextLaunch := x.id + 1, running := d.running ++ [x] }

/-- A launch out of its queue and listed, the registers of its dies and its package at their reset values; its cores are
still to be prepared. -/
def State.launching (s : State) (die : Nat) (q : Queued) (rest : List Queued) : State :=
  (((lrCores (pkgOfDie die) q.record).map (fun e => dieOf e.1)).eraseDups).foldl (fun t d => t.modDie d Die.launchReset)
    (((s.modDie die (fun x => { x with launchQ := rest })).modDie (lrDie (pkgOfDie die) q.record)
      (fun x => x.lists (s.launched (pkgOfDie die) q))).modPkg (pkgOfDie die) (fun p => { p with land := 0 }))

theorem State.die_foldl_launchReset {α : Type} (ds : List Nat) (s : State) (F : Die → α) (h : ∀ d : Die, F d.launchReset = F d)
    (k : Nat) : F ((ds.foldl (fun t d => t.modDie d Die.launchReset) s).die k) = F (s.die k) := by
  obtain ⟨-, -, hd⟩ := s.foldl_launchReset ds
  rw [hd k]
  split
  · exact h _
  · rfl

theorem State.launching_eq (s : State) (die : Nat) (q : Queued) (rest : List Queued) :
    let t := s.launching die q rest
    let home := lrDie (pkgOfDie die) q.record
    t.cores = s.cores ∧ (t.pkg (pkgOfDie die)).land = 0 ∧ (t.die die).launchQ = rest
      ∧ (t.die home).nextLaunch = (s.die home).nextLaunch + 1
      ∧ (t.die home).running = (s.die home).running ++ [s.launched (pkgOfDie die) q]
      ∧ (∀ e ∈ lrCores (pkgOfDie die) q.record, (t.die (dieOf e.1)).launchReset = t.die (dieOf e.1))
      ∧ ∀ k, (t.die k).waits = (s.die k).waits := by
  unfold State.launching
  dsimp only
  generalize ha : s.modDie die (fun x => { x with launchQ := rest }) = a
  generalize hb : a.modDie (lrDie (pkgOfDie die) q.record) (fun x => x.lists (s.launched (pkgOfDie die) q)) = b
  have hhome : b.die (lrDie (pkgOfDie die) q.record)
      = (a.die (lrDie (pkgOfDie die) q.record)).lists (s.launched (pkgOfDie die) q) := by
    rw [← hb, State.die_modDie]
  have hqueue : (b.die die).launchQ = rest := by
    rw [← hb]
    refine (State.die_modDie_keeps Die.launchQ rfl die).trans ?_
    rw [← ha, State.die_modDie]
  have hwaits (k : Nat) : (b.die k).waits = (s.die k).waits := by
    rw [← hb]
    refine (State.die_modDie_keeps Die.waits rfl k).trans ?_
    rw [← ha]
    exact State.die_modDie_keeps Die.waits rfl k
  generalize hl : b.modPkg (pkgOfDie die) (fun p => { p with land := 0 }) = l
  have hlb (k : Nat) : l.die k = b.die k := by
    rw [← hl]
    rfl
  obtain ⟨hcores, hpkgs, hdies⟩ := l.foldl_launchReset ((lrCores (pkgOfDie die) q.record).map (fun e => dieOf e.1)).eraseDups
  have hnext : (a.die (lrDie (pkgOfDie die) q.record)).running = (s.die (lrDie (pkgOfDie die) q.record)).running := by
    rw [← ha]
    exact State.die_modDie_keeps Die.running rfl _
  refine ⟨hcores.trans ?_, ?_, ?_, ?_, ?_, fun e he => ?_, fun k => ?_⟩
  · rw [← hl, ← hb, ← ha]
    rfl
  · unfold State.pkg
    rw [hpkgs, ← hl]
    exact congrArg Pkg.land (State.pkg_modPkg _ _ _)
  · rw [State.die_foldl_launchReset _ _ Die.launchQ (fun _ => rfl), hlb, hqueue]
  · rw [State.die_foldl_launchReset _ _ Die.nextLaunch (fun _ => rfl), hlb, hhome]
    rfl
  · rw [State.die_foldl_launchReset _ _ Die.running (fun _ => rfl), hlb, hhome]
    exact congrArg (· ++ _) hnext
  · rw [hdies, if_pos (List.mem_eraseDups.2 (List.mem_map.2 ⟨e, he, rfl⟩))]
    rfl
  · rw [State.die_foldl_launchReset _ _ Die.waits (fun _ => rfl), hlb, hwaits]

/-- A launch that passes its checks, its cores awake, leaves its queue, is listed, and its cores are made ready (R313). -/
theorem exec_launchStart_starts {s : State} {die pos : Nat} {q : Queued} {rest : List Queued} {image : List Byte}
    (hq : takeAt (s.die die).launchQ pos = some (q, rest)) (hw : (s.die die).switching = false)
    (ho : ((s.die die).launchQ.take pos).any (fun o => lrOverlap o.record q.record) = false)
    (hf : (lrCores (pkgOfDie die) q.record).all (fun e => (s.core e.1).isFree
      && s.holds (lrJob q.record) (dieOf e.1) && !(s.die (dieOf e.1)).isSaved (lrJob q.record)
      && !(s.die (dieOf e.1)).switching) = true) (hc : s.launchCause (pkgOfDie die) q.record = none)
    (hi : s.shapesImage die q.record = .inl image)
    (hg : (lrCores (pkgOfDie die) q.record).all (fun e => !(s.core e.1).gated) = true) :
    exec (.launchStart die pos) s = .next ((lrCores (pkgOfDie die) q.record).foldl (fun t e =>
      t.launchOn q.record (lrDie (pkgOfDie die) q.record) (s.launched (pkgOfDie die) q).id image e)
      (s.launching die q rest)) := by
  have hasleep : (lrCores (pkgOfDie die) q.record).filter (fun e => (s.core e.1).gated) = [] := by
    refine List.filter_eq_nil_iff.2 (fun e he h => ?_)
    have := List.all_eq_true.1 hg e he
    rw [h] at this
    exact Bool.noConfusion this
  change execLaunchStart die pos s = _
  simp only [execLaunchStart, hq, hw, ho, hf, hc, hi, hasleep, Bool.false_eq_true, if_false, Bool.not_true,
    List.isEmpty_nil]
  rfl

theorem launchStart_starts {s : State} {die pos : Nat} {q : Queued} {rest : List Queued} {image : List Byte}
    (hq : takeAt (s.die die).launchQ pos = some (q, rest)) (hw : (s.die die).switching = false) (hn : s.noWaiters)
    (ho : ((s.die die).launchQ.take pos).any (fun o => lrOverlap o.record q.record) = false)
    (hf : (lrCores (pkgOfDie die) q.record).all (fun e => (s.core e.1).isFree
      && s.holds (lrJob q.record) (dieOf e.1) && !(s.die (dieOf e.1)).isSaved (lrJob q.record)
      && !(s.die (dieOf e.1)).switching) = true) (hc : s.launchCause (pkgOfDie die) q.record = none)
    (hi : s.shapesImage die q.record = .inl image)
    (hg : (lrCores (pkgOfDie die) q.record).all (fun e => !(s.core e.1).gated) = true) :
    ∃ t, exec (.launchStart die pos) s = .next t ∧ (t.die die).launchQ = rest
      ∧ (let home := lrDie (pkgOfDie die) q.record
        (t.die home).nextLaunch = (s.die home).nextLaunch + 1
        ∧ (t.die home).running = (s.die home).running ++ [s.launched (pkgOfDie die) q]
        ∧ ∀ e ∈ lrCores (pkgOfDie die) q.record,
            (t.core e.1).launch = some (lrRef q.record home (s.die home).nextLaunch e))
      ∧ (∀ e ∈ lrCores (pkgOfDie die) q.record, (t.die (dieOf e.1)).gbud = 0x40000 ∧ (t.die (dieOf e.1)).gramp = 0x4000
        ∧ (t.die (dieOf e.1)).gprev = 0 ∧ (t.die (dieOf e.1)).gallow = 0x4000)
      ∧ (t.pkg (pkgOfDie die)).land = 0
      ∧ (∀ k, (∀ e ∈ lrCores (pkgOfDie die) q.record, e.1 ≠ k) → t.core k = s.core k)
      ∧ (∀ e ∈ lrCores (pkgOfDie die) q.record, (t.core e.1).part = lrPart q.record) := by
  obtain ⟨hcores, hland, hqueue, hnext, hrun, hgov, hwaits⟩ := s.launching_eq die q rest
  obtain ⟨hrec, hin, hout⟩ := State.foldl_launchOn q.record (lrDie (pkgOfDie die) q.record)
    (s.launched (pkgOfDie die) q).id image (lrCores (pkgOfDie die) q.record) (nodup_lrCores _ _)
    (s := s.launching die q rest) (fun d => (hwaits d).trans (hn d))
  refine ⟨_, exec_launchStart_starts hq hw ho hf hc hi hg, ?_⟩
  generalize List.foldl _ (s.launching die q rest) _ = t at *
  have hcore (k : Nat) : (s.launching die q rest).core k = s.core k := by
    unfold State.core
    rw [hcores]
  refine ⟨(congrArg Die.launchQ (hrec.dies die) :).trans hqueue,
    ⟨(congrArg Die.nextLaunch (hrec.dies _) :).trans hnext, (congrArg Die.running (hrec.dies _) :).trans hrun,
      fun e he => ?_⟩, fun e he => ?_, ?_, fun k hk => (hout k hk).trans (hcore k), fun e he => ?_⟩
  · obtain ⟨j, hj⟩ := hin e he
    rw [hj]
    rfl
  · have h := (hrec.dies (dieOf e.1))
    rw [← hgov e he] at h
    exact ⟨(congrArg Die.gbud h :), (congrArg Die.gramp h :), (congrArg Die.gprev h :), (congrArg Die.gallow h :)⟩
  · unfold State.pkg
    rw [hrec.pkgs]
    exact hland
  · obtain ⟨j, hj⟩ := hin e he
    rw [hj]
    rfl

end Sys2Proof.Machine
end

/-! ## Tenants saved and loaded (R318) -/

section
namespace Sys2Proof.Machine

/-! ### What a die keeps for saved tenants (R318) -/

/-- The saved tenants of every die stay, with the packages and memory. -/
structure State.KeepsTenants (s t : State) : Prop where
  saved : ∀ k, (t.die k).saved = (s.die k).saved
  pkgs : t.pkgs = s.pkgs
  mem : t.mem = s.mem

theorem State.KeepsTenants.refl (s : State) : s.KeepsTenants s := ⟨fun _ => rfl, rfl, rfl⟩

theorem State.KeepsTenants.trans {s t u : State} (h : s.KeepsTenants t) (h' : t.KeepsTenants u) : s.KeepsTenants u :=
  ⟨fun k => (h'.saved k).trans (h.saved k), h'.pkgs.trans h.pkgs, h'.mem.trans h.mem⟩

theorem State.KeepsTenants.isSaved {s t : State} (h : s.KeepsTenants t) (k job : Nat) :
    (t.die k).isSaved job = (s.die k).isSaved job := by
  unfold Die.isSaved
  rw [h.saved]

theorem State.keepsTenants_foldl {α : Type} {f : State → α → State} (h : ∀ (t : State) x, t.KeepsTenants (f t x)) (l : List α)
    (s : State) : s.KeepsTenants (l.foldl f s) :=
  List.foldlRecOn l f (.refl s) fun t ht x _ => ht.trans (h t x)

theorem State.keepsTenants_modCore (s : State) (k : Nat) (g : Core → Core) : s.KeepsTenants (s.modCore k g) :=
  ⟨fun _ => rfl, rfl, rfl⟩

theorem State.keepsTenants_modDie {s : State} {k : Nat} {g : Die → Die} (h : (g (s.die k)).saved = (s.die k).saved) :
    s.KeepsTenants (s.modDie k g) := ⟨State.die_modDie_keeps Die.saved h, rfl, rfl⟩

theorem State.keepsTenants_modProc (s : State) (core pn : Nat) (g : Proc → Proc) : s.KeepsTenants (s.modProc core pn g) :=
  ⟨fun _ => rfl, rfl, rfl⟩

theorem State.keepsTenants_modLive (s : State) (core pn : Nat) (g : Proc → Proc) : s.KeepsTenants (s.modLive core pn g) := by
  unfold State.modLive
  split
  · exact s.keepsTenants_modProc core pn g
  · exact .refl s

theorem State.keepsTenants_modCluster (s : State) (die cl : Nat) (g : Cluster → Cluster) :
    s.KeepsTenants (s.modCluster die cl g) := State.keepsTenants_modDie rfl

theorem State.keepsTenants_wantLine (s : State) (core i line : Nat) : s.KeepsTenants (s.wantLine core i line) := by
  unfold State.wantLine
  dsimp only
  split
  · exact .refl s
  · exact (s.keepsTenants_modCore core _).trans (State.keepsTenants_modCluster _ _ _ _)

theorem State.keepsTenants_follow (s : State) (core i : Nat) : s.KeepsTenants (s.follow core i) := by
  unfold State.follow
  dsimp only
  split
  · exact .refl s
  split
  · exact .refl s
  split
  · exact s.keepsTenants_wantLine core i _
  split
  · split
    · exact s.keepsTenants_wantLine core i _
    · exact .refl s
  · exact (s.keepsTenants_modCore core _).trans (State.keepsTenants_wantLine _ core i _)

theorem State.keepsTenants_startSwitch (s : State) (core i pn : Nat) (running : Bool) :
    s.KeepsTenants (s.startSwitch core i pn running) :=
  (s.keepsTenants_modCore core _).trans (State.keepsTenants_follow _ core i)

theorem State.keepsTenants_leaveSlot (s : State) (core i pn : Nat) (why : Leave) :
    s.KeepsTenants (s.leaveSlot core i pn why) := by
  have halign : s.KeepsTenants (if (s.proc core pn).wait == .align then (s.leaveAlign core pn).unhold core pn else s) := by
    split
    · exact (s.keepsTenants_modCluster _ _ _).trans (State.keepsTenants_modProc _ core pn _)
    · exact .refl s
  unfold State.leaveSlot
  dsimp only
  generalize (if (s.proc core pn).wait == .align then (s.leaveAlign core pn).unhold core pn else s) = t at *
  refine halign.trans ((t.keepsTenants_modCore core _).trans (?_ : (t.modSlot core i Slot.emptied).KeepsTenants _))
  split
  · split
    · exact State.keepsTenants_modCore _ core _
    · exact State.keepsTenants_modCore _ core _
  · split
    · exact State.keepsTenants_modCore _ core _
    · exact State.keepsTenants_modCore _ core _
  · exact State.keepsTenants_modCore _ core _

theorem State.keepsTenants_evict (s : State) (core : Nat) : s.KeepsTenants (s.evict core) := by
  refine State.keepsTenants_foldl (fun t i => ?_) _ s
  split
  · split
    · exact t.keepsTenants_modCore core _
    · exact t.keepsTenants_leaveSlot core i _ .preempt
  · exact .refl t

theorem State.keepsTenants_reissueHeld (s : State) (core : Nat) : s.KeepsTenants (s.reissueHeld core) := by
  refine State.keepsTenants_foldl (fun t pn => ?_) _ s
  split
  · exact (t.keepsTenants_modProc core pn _).trans (State.keepsTenants_modCore _ core _)
  · exact .refl t

theorem State.keepsTenants_askWalk (s : State) (core pn va job : Nat) : s.KeepsTenants (s.askWalk core pn va job) :=
  State.keepsTenants_modDie rfl

theorem State.keepsTenants_reaskWalks (s : State) (core : Nat) : s.KeepsTenants (s.reaskWalks core) := by
  refine State.keepsTenants_foldl (fun t pn => ?_) _ s
  split
  · exact t.keepsTenants_askWalk core pn _ _
  · exact t.keepsTenants_askWalk core pn _ _
  · exact t.keepsTenants_askWalk core pn _ _
  · exact t.keepsTenants_askWalk core pn _ _
  · exact .refl t

theorem State.keepsTenants_acquireDone (s : State) (die : Nat) : s.KeepsTenants (s.acquireDone die) := by
  refine State.keepsTenants_foldl (fun t e => ?_) _ s
  split
  · split
    · exact ((t.keepsTenants_modLive e.1 e.2 _).trans (State.keepsTenants_modLive _ e.1 e.2 _)).trans
        (State.keepsTenants_modCore _ e.1 _)
    · exact .refl t
  · exact .refl t

/-! ### A tenant leaves a die (R318) -/

theorem cellGet_filter_pos {p : Nat → Bool} (cells : List Host.Cell) {k : Nat} (h : p k = true) :
    cellGet (cells.filter (fun c => p c.1)) k = cellGet cells k := by
  induction cells with
  | nil => rfl
  | cons c cells ih =>
    obtain ⟨a, b⟩ := c
    by_cases hk : k = a
    · subst hk
      rw [List.filter_cons_of_pos (by simpa using h)]
      simp [cellGet]
    · by_cases ha : p a = true
      · rw [List.filter_cons_of_pos (by simpa using ha)]
        simp only [cellGet, hk, if_false, ih]
      · rw [List.filter_cons_of_neg (by simpa using ha)]
        simp only [cellGet, hk, if_false, ih]

theorem cellGet_filter_neg {p : Nat → Bool} (cells : List Host.Cell) {k : Nat} (h : p k = false) :
    cellGet (cells.filter (fun c => p c.1)) k = 0 := by
  induction cells with
  | nil => rfl
  | cons c cells ih =>
    obtain ⟨a, b⟩ := c
    by_cases ha : p a = true
    · have hk : k ≠ a := fun hk => by rw [hk, ha] at h; exact Bool.noConfusion h
      rw [List.filter_cons_of_pos (by simpa using ha)]
      simp only [cellGet, hk, if_false, ih]
    · rw [List.filter_cons_of_neg (by simpa using ha), ih]

/-- A part of memory taken away reads zero, and the rest stays. -/
theorem Memory.byte_without (m : Memory) (p : Nat → Bool) (a : Nat) :
    (m.without p).byte a = if p a then 0 else m.byte a := by
  cases h : p a with
  | true => exact cellGet_filter_neg (p := fun k => !p k) m.cells (by simp [h])
  | false => exact cellGet_filter_pos (p := fun k => !p k) m.cells (by simp [h])

/-- A core whose tenant has left. -/
def Core.vacated (c : Core) : Core :=
  { faultOut := c.faultOut, nextTag := c.nextTag, gated := c.gated, wakeEnd := c.wakeEnd }

theorem State.foldl_vacated (cs : List Nat) (s : State) :
    let t := cs.foldl (fun t c => t.modCore c Core.vacated) s
    t.dies = s.dies ∧ t.pkgs = s.pkgs ∧ t.mem = s.mem
      ∧ ∀ c, (c ∈ cs ∨ ((s.core c).procs = [] ∧ (s.core c).tlb = [])) → (t.core c).procs = [] ∧ (t.core c).tlb = [] := by
  induction cs generalizing s with
  | nil => exact ⟨rfl, rfl, rfl, fun c hc => hc.resolve_left List.not_mem_nil⟩
  | cons k cs ih =>
    obtain ⟨hd, hp, hm, hc⟩ := ih (s.modCore k Core.vacated)
    refine ⟨hd, hp, hm, fun c h => hc c ?_⟩
    by_cases hk : c = k
    · right
      rw [hk, State.core_modCore]
      exact ⟨rfl, rfl⟩
    · rw [State.core_modCore_ne _ _ hk]
      exact h.imp_left fun h => (List.mem_cons.1 h).resolve_left hk

/-- A die out of whose slots every resident has gone. -/
def State.evictAll (s : State) (die : Nat) : State :=
  (s.tenantCores die).foldl (fun t c => (t.evict c).reissueHeld c) s

/-- A die whose cores and pools hold no tenant any more. -/
def State.vacate (s : State) (die : Nat) : State :=
  (s.tenantCores die).foldl (fun t c => t.modCore c Core.vacated)
    { s.evictAll die with mem := (s.evictAll die).mem.without (poolOfDie die) }

theorem any_filter_job {job j : Nat} (hj : j ≠ job) (l : List Saved) :
    (l.filter (fun y => y.job != job)).any (fun y => y.job == j) = l.any (fun y => y.job == j) := by
  rw [List.any_filter]
  congr 1
  funext y
  by_cases h : y.job = j
  · simp [h, hj]
  · simp [h]

theorem any_replace_job (l : List Saved) {x : Saved} {job : Nat} (hx : x.job = job) (j : Nat) :
    (l.filter (fun y => y.job != job) ++ [x]).any (fun y => y.job == j) = (l.any (fun y => y.job == j) || job == j) := by
  rw [List.any_append, List.any_cons, List.any_nil, Bool.or_false, hx]
  by_cases h : j = job
  · rw [h, beq_self_eq_true, Bool.or_true, Bool.or_true]
  · rw [any_filter_job h]

theorem State.saveTenant_steps (s : State) (die job : Nat) : ∃ g : Die → Die,
    s.saveTenant die job = (s.vacate die).modDie die g ∧ ∀ (d : Die) j, (g d).isSaved j = (d.isSaved j || job == j) := by
  unfold State.saveTenant State.vacate State.evictAll
  refine ⟨_, rfl, fun d j => ?_⟩
  unfold Die.isSaved
  refine any_replace_job (job := job) d.saved ?_ j
  rfl

theorem State.vacate_eq (s : State) (die : Nat) :
    let t := s.vacate die
    (∀ k, (t.die k).saved = (s.die k).saved) ∧ t.pkgs = s.pkgs ∧ t.mem = s.mem.without (poolOfDie die)
      ∧ ∀ c ∈ s.tenantCores die, (t.core c).procs = [] ∧ (t.core c).tlb = [] := by
  have hkeep : s.KeepsTenants (s.evictAll die) :=
    State.keepsTenants_foldl (fun t c => (t.keepsTenants_evict c).trans (State.keepsTenants_reissueHeld _ c)) _ s
  unfold State.vacate
  generalize s.evictAll die = t at *
  obtain ⟨hd, hp, hm, hc⟩ := State.foldl_vacated (s.tenantCores die) { t with mem := t.mem.without (poolOfDie die) }
  refine ⟨fun k => ?_, hp.trans hkeep.pkgs, hm.trans (congrArg (Memory.without · _) hkeep.mem), fun c h => hc c (.inl h)⟩
  rw [← hkeep.saved]
  unfold State.die
  rw [hd]

/-- A tenant's save joins the saved tenants of its die, its cores hold no process, and its pools are gone (R318). -/
theorem State.saveTenant_eq (s : State) (die job : Nat) :
    let t := s.saveTenant die job
    (∀ k j, (t.die k).isSaved j = ((s.die k).isSaved j || (k == die && job == j))) ∧ t.pkgs = s.pkgs
      ∧ t.mem = s.mem.without (poolOfDie die)
      ∧ ∀ c ∈ s.tenantCores die, (t.core c).procs = [] ∧ (t.core c).tlb = [] := by
  obtain ⟨g, he, hg⟩ := s.saveTenant_steps die job
  obtain ⟨hsaved, hpkgs, hmem, hcores⟩ := s.vacate_eq die
  dsimp only
  rw [he]
  refine ⟨fun k j => ?_, hpkgs, hmem, hcores⟩
  have hsame : ((s.vacate die).die k).isSaved j = (s.die k).isSaved j := by
    unfold Die.isSaved
    rw [hsaved]
  by_cases hk : k = die
  · subst hk
    rw [State.die_modDie, hg, hsame, beq_self_eq_true, Bool.true_and]
  · rw [State.die_modDie_ne _ _ hk, hsame, beq_eq_false_iff_ne.2 hk, Bool.false_and, Bool.or_false]

theorem State.timeShares_congr {s t : State} (h : t.pkgs = s.pkgs) (job die : Nat) :
    t.timeShares job die = s.timeShares job die := by
  unfold State.timeShares State.pkg
  rw [h]

theorem State.leaveDie_shared {s : State} {die job : Nat} (h : s.timeShares job die = true) :
    s.leaveDie die job = s.saveTenant die job := by
  unfold State.leaveDie
  rw [h]
  rfl

theorem State.leaveDie_keeps (s : State) (die job : Nat) :
    (s.leaveDie die job).pkgs = s.pkgs
      ∧ ∀ k j, (s.die k).isSaved j = true → ((s.leaveDie die job).die k).isSaved j = true := by
  unfold State.leaveDie
  split
  · have h := State.keepsTenants_foldl (fun (t : State) c => t.keepsTenants_modCore c
      (fun x => { x with gateV := false, gateJob := 0, tlb := [] })) (s.tenantCores die) s
    exact ⟨h.pkgs, fun k j hj => (h.isSaved k j).trans hj⟩
  · obtain ⟨hsaved, hpkgs, -⟩ := s.saveTenant_eq die job
    exact ⟨hpkgs, fun k j hj => by rw [hsaved, hj, Bool.true_or]⟩

theorem State.foldl_leaveDie (ds : List (Nat × Nat)) (s : State) :
    let t := ds.foldl (fun t d => t.leaveDie d.1 d.2) s
    t.pkgs = s.pkgs ∧ (∀ k j, (s.die k).isSaved j = true → (t.die k).isSaved j = true)
      ∧ ∀ e ∈ ds, s.timeShares e.2 e.1 = true → (t.die e.1).isSaved e.2 = true := by
  induction ds generalizing s with
  | nil => exact ⟨rfl, fun _ _ h => h, fun e he => absurd he List.not_mem_nil⟩
  | cons d ds ih =>
    obtain ⟨hp, hk⟩ := s.leaveDie_keeps d.1 d.2
    obtain ⟨hp', hk', hs'⟩ := ih (s.leaveDie d.1 d.2)
    refine ⟨hp'.trans hp, fun k j h => hk' k j (hk k j h), fun e he hs => ?_⟩
    obtain rfl | he := List.mem_cons.1 he
    · refine hk' _ _ ?_
      rw [State.leaveDie_shared hs, (s.saveTenant_eq e.1 e.2).1]
      simp
    · exact hs' e he ((State.timeShares_congr hp _ _).trans hs)

/-! ### A tenant comes back (R318) -/

theorem State.isSaved_loadTenant (s : State) (die : Nat) {job j : Nat} (hj : j ≠ job) (k : Nat) :
    ((s.loadTenant die job).die k).isSaved j = (s.die k).isSaved j := by
  unfold State.loadTenant
  split
  · rfl
  next x hx =>
    dsimp only
    generalize hl : List.foldl (fun (t : State) (e : Nat × Core) => t.modCore e.1 _) _ x.cores = l
    have hdies : l.dies = s.dies := by
      rw [← hl]
      exact List.foldlRecOn (motive := fun t : State => t.dies = s.dies) x.cores _ rfl fun _ h _ _ => h
    have hld : l.die = s.die := by
      unfold State.die
      rw [hdies]
    generalize hu : State.modDie l die _ = u
    have hdie : (u.die k).isSaved j = (s.die k).isSaved j := by
      rw [← hu, ← hld]
      by_cases hk : k = die
      · rw [hk, State.die_modDie]
        exact any_filter_job hj _
      · rw [State.die_modDie_ne _ _ hk]
    refine Eq.trans ?_ hdie
    refine State.KeepsTenants.isSaved (.trans (State.keepsTenants_foldl (fun t c => ?_) _ u) (State.keepsTenants_acquireDone _ die)) k j
    split
    · exact (t.keepsTenants_reaskWalks c).trans (State.keepsTenants_startSwitch _ c 15 256 true)
    · exact t.keepsTenants_reaskWalks c

theorem State.isSaved_foldl_loadTenant {job j : Nat} (hj : j ≠ job) (ds : List Nat) (s : State) (k : Nat) :
    ((ds.foldl (fun t d => t.loadTenant d job) s).die k).isSaved j = (s.die k).isSaved j :=
  List.foldlRecOn (motive := fun t : State => (t.die k).isSaved j = (s.die k).isSaved j) ds _ rfl
    fun t h d _ => (t.isSaved_loadTenant d hj k).trans h

/-! ### A switch ends (R318) -/

def Die.settled (d : Die) : Die := { d with switching := false }

theorem State.switched_eq (s : State) (die : Nat) :
    (s.switched die).dies = (s.modDie die Die.settled).dies ∧ (s.switched die).cores = s.cores
      ∧ (s.switched die).mem = s.mem := by
  unfold State.switched State.teardownNext
  dsimp only
  split
  · exact ⟨rfl, rfl, rfl⟩
  split
  · exact ⟨rfl, rfl, rfl⟩
  split
  all_goals exact ⟨rfl, rfl, rfl⟩

theorem State.die_switched (s : State) (die : Nat) : (s.switched die).die = (s.modDie die Die.settled).die := by
  unfold State.die
  rw [(s.switched_eq die).1]

theorem State.foldl_switched (ds : List Nat) (s : State) :
    let t := ds.foldl (fun t d => t.switched d) s
    t.cores = s.cores ∧ t.mem = s.mem ∧ ∀ k, t.die k = if k ∈ ds then (s.die k).settled else s.die k :=
  ⟨List.foldlRecOn (motive := fun t : State => t.cores = s.cores) ds _ rfl
      fun t h d _ => (t.switched_eq d).2.1.trans h,
    List.foldlRecOn (motive := fun t : State => t.mem = s.mem) ds _ rfl
      fun t h d _ => (t.switched_eq d).2.2.trans h,
    State.die_foldl (g := Die.settled) (fun t d => by rw [State.die_switched, State.die_modDie])
      (fun t d k h => by rw [State.die_switched, State.die_modDie_ne _ _ h]) (fun _ => rfl) ds s⟩

end Sys2Proof.Machine
end

/-! ## Tenant switches (R318, R320) -/

section
namespace Sys2Proof.Machine

/-! ### Tenants switch (R318, R320) -/

/-- Whether every core of the dies of a switch has come to rest. -/
def State.switchStill (s : State) (ds : List (Nat × Nat)) : Bool :=
  ds.all (fun d => (s.die d.1).switching && (s.tenantCores d.1).all (fun c => (s.core c).quiet))

def Die.switchBegun (d : Die) : Die := { d with switching := true }

section
variable {s : State} {pkg job target : Nat} (hd : s.switchDue pkg job target = true)
include hd

/-- A switch that is due and whose cores have not come to rest begins (R318 step 1). -/
theorem tenantSwitch_begins (hs : s.switchStill (s.leavers job target) = false) :
    ∃ t, exec (.tenantSwitch pkg job target) s = .next t ∧ t.cores = s.cores ∧ t.mem = s.mem
      ∧ ∀ k, t.die k = if k ∈ (s.leavers job target).map (fun e => e.1) then (s.die k).switchBegun else s.die k := by
  have he : exec (.tenantSwitch pkg job target) s
      = .next (((s.leavers job target).map (fun e => e.1)).foldl (fun t d => t.modDie d Die.switchBegun) s) := by
    unfold State.switchStill at hs
    change execTenantSwitch pkg job target s = _
    simp only [execTenantSwitch, hd, hs, Bool.not_true, Bool.false_eq_true, if_false, List.foldl_map]
    rfl
  refine ⟨_, he, ?_, ?_, State.die_foldl (g := Die.switchBegun) (fun _ _ => State.die_modDie _ _ _)
    (fun _ _ _ h => State.die_modDie_ne _ _ h) (fun _ => rfl) _ s⟩
  · exact List.foldlRecOn (motive := fun t : State => t.cores = s.cores) _ _ rfl fun _ h _ _ => h
  · exact List.foldlRecOn (motive := fun t : State => t.mem = s.mem) _ _ rfl fun _ h _ _ => h

/-- The dies at which a switch is over. -/
def State.switchEnds (s : State) (job target : Nat) : List Nat :=
  (s.allDies.filter (fun d => s.timeShares target d && s.turnOf d target)
    ++ (s.leavers job target).map (fun d => d.1)).eraseDups

/-- Tenants that have left their dies, the target's saves loaded (R318 steps 2 to 5). -/
def State.exchanged (s : State) (job target : Nat) : State :=
  let t := (s.leavers job target).foldl (fun t d => t.leaveDie d.1 d.2) s
  (t.vacantDies target).foldl (fun t d => t.loadTenant d target) t

theorem tenantSwitch_exchanges (hs : s.switchStill (s.leavers job target) = true) :
    ∃ t, exec (.tenantSwitch pkg job target) s = .next t
      ∧ t.cores = (s.exchanged job target).cores ∧ t.mem = (s.exchanged job target).mem
      ∧ ∀ k, t.die k = if k ∈ s.switchEnds job target then ((s.exchanged job target).die k).settled
        else (s.exchanged job target).die k := by
  have he : exec (.tenantSwitch pkg job target) s
      = .next ((s.switchEnds job target).foldl (fun t d => t.switched d) (s.exchanged job target)) := by
    unfold State.switchStill at hs
    change execTenantSwitch pkg job target s = _
    simp only [execTenantSwitch, hd, hs, Bool.not_true, Bool.false_eq_true, if_false, if_true]
    rfl
  exact ⟨_, he, State.foldl_switched _ _⟩

end

theorem State.mem_switchEnds {s : State} {job target : Nat} {e : Nat × Nat} (he : e ∈ s.leavers job target) :
    e.1 ∈ s.switchEnds job target :=
  List.mem_eraseDups.2 (List.mem_append_right _ (List.mem_map.2 ⟨e, he, rfl⟩))

theorem State.isSaved_exchanged {s : State} {job target : Nat} (hne : job ≠ target) {e : Nat × Nat}
    (he : e ∈ s.leavers job target) (hs : s.timeShares e.2 e.1 = true) :
    ((s.exchanged job target).die e.1).isSaved e.2 = true := by
  obtain ⟨-, -, hsaved⟩ := State.foldl_leaveDie (s.leavers job target) s
  unfold State.exchanged
  dsimp only
  rw [State.isSaved_foldl_loadTenant (State.leavers_ne hne he)]
  exact hsaved e he hs

theorem Die.isSaved_settled (d : Die) (job : Nat) : d.settled.isSaved job = d.isSaved job := rfl

/-- Dies of several tenants switch together (R318). -/
theorem tenantSwitch_all {s : State} {pkg job target : Nat} (hd : s.switchDue pkg job target = true) :
    let ds := s.leavers job target
    let still := ds.all (fun d => (s.die d.1).switching && (s.tenantCores d.1).all (fun c => (s.core c).quiet))
    (still = false → ∃ t, exec (.tenantSwitch pkg job target) s = .next t ∧ t.cores = s.cores ∧ t.mem = s.mem
      ∧ (∀ e ∈ ds, (t.die e.1).switching = true))
    ∧ (still = true → ∃ t, exec (.tenantSwitch pkg job target) s = .next t
      ∧ (∀ e ∈ ds, (t.die e.1).switching = false ∧ (s.timeShares e.2 e.1 = true → (t.die e.1).isSaved e.2 = true))) := by
  refine ⟨fun hs => ?_, fun hs => ?_⟩
  · obtain ⟨t, he, hc, hm, hk⟩ := tenantSwitch_begins hd hs
    refine ⟨t, he, hc, hm, fun e hmem => ?_⟩
    rw [hk, if_pos (List.mem_map.2 ⟨e, hmem, rfl⟩)]
    rfl
  · obtain ⟨t, he, -, -, hk⟩ := tenantSwitch_exchanges hd hs
    refine ⟨t, he, fun e hmem => ?_⟩
    have hne : job ≠ target := by
      unfold State.switchDue at hd
      exact bne_iff_ne.1 (Bool.and_eq_true_iff.1 hd).1
    rw [hk, if_pos (State.mem_switchEnds hmem)]
    exact ⟨rfl, fun hshare => (Die.isSaved_settled _ _).trans (State.isSaved_exchanged hne hmem hshare)⟩

/-- One tenant that stands on one die leaves it (R318). -/
theorem tenantSwitch_one {s : State} {pkg job target d : Nat} (hne : job ≠ target) (hl : s.leavers job target = [(d, job)])
    (hd : d ∈ s.tenantDies job) (hp : pkgOfDie d = pkg) (ht : s.timeShares target d = true) (hturn : s.turnOf d target = true) :
    let still := (s.die d).switching && (s.tenantCores d).all (fun c => (s.core c).quiet)
    (still = false → ∃ t, exec (.tenantSwitch pkg job target) s = .next t
      ∧ t.die d = { s.die d with switching := true } ∧ (∀ k, k ≠ d → t.die k = s.die k) ∧ t.cores = s.cores ∧ t.mem = s.mem)
    ∧ (still = true → (∀ k, (s.die k).isSaved target = false) → (s.die d).saved = [] →
      ∃ t, exec (.tenantSwitch pkg job target) s = .next t
        ∧ (t.die d).isSaved job = true ∧ (t.die d).switching = false
        ∧ (∀ c ∈ s.tenantCores d, (t.core c).procs = [] ∧ (t.core c).tlb = [])
        ∧ (∀ a, poolOfDie d a = true → t.mem.byte a = 0) ∧ (∀ a, poolOfDie d a = false → t.mem.byte a = s.mem.byte a)) := by
  have hdie := List.mem_filter.1 hd
  have hshare : s.timeShares job d = true := by
    have := hdie.2
    simp only [Bool.and_eq_true] at this
    exact this.1.1
  have hdue : s.switchDue pkg job target = true := by
    unfold State.switchDue
    rw [bne_iff_ne.2 hne, Bool.true_and]
    exact List.any_eq_true.2 ⟨d, hdie.1, by simp [hp, ht, hturn, hd]⟩
  have hstill : s.switchStill (s.leavers job target)
      = ((s.die d).switching && (s.tenantCores d).all (fun c => (s.core c).quiet)) := by
    rw [hl]
    exact Bool.and_true _
  refine ⟨fun hs => ?_, fun hs hnone hsaved => ?_⟩
  · obtain ⟨t, he, hc, hm, hk⟩ := tenantSwitch_begins hdue (hstill.trans hs)
    rw [hl] at hk
    exact ⟨t, he, (hk d).trans (if_pos List.mem_cons_self), fun k h => (hk k).trans (if_neg (by simpa using h)), hc, hm⟩
  · obtain ⟨t, he, hc, hm, hk⟩ := tenantSwitch_exchanges hdue (hstill.trans hs)
    obtain ⟨hsave, hpkgs, hmem, hcores⟩ := s.saveTenant_eq d job
    have hex : s.exchanged job target = s.saveTenant d job := by
      unfold State.exchanged
      rw [hl]
      dsimp only [List.foldl]
      rw [State.leaveDie_shared hshare]
      have hvacant : (s.saveTenant d job).vacantDies target = [] := by
        refine List.filter_eq_nil_iff.2 fun k _ h => ?_
        rw [hsave, hnone, beq_eq_false_iff_ne.2 hne, Bool.and_false, Bool.or_false, Bool.and_false, Bool.false_and] at h
        exact Bool.noConfusion h
      rw [hvacant]
      rfl
    rw [hex] at hc hm hk
    have htd : t.die d = ((s.saveTenant d job).die d).settled :=
      (hk d).trans (if_pos (State.mem_switchEnds (e := (d, job)) (by rw [hl]; exact List.mem_cons_self)))
    refine ⟨t, he, ?_, ?_, fun c h => ?_, fun a ha => ?_, fun a ha => ?_⟩
    · rw [htd, Die.isSaved_settled, hsave]
      simp
    · rw [htd]
      rfl
    · have hcore : t.core c = (s.saveTenant d job).core c := by
        unfold State.core
        rw [hc]
      rw [hcore]
      exact hcores c h
    · rw [hm, hmem, Memory.byte_without, ha]
      rfl
    · rw [hm, hmem, Memory.byte_without, ha]
      rfl

end Sys2Proof.Machine
end

/-! ## The launch and tenant events (R303 to R320) -/

section
namespace Sys2Proof.Machine

/-- LPATCH writes the field it names, or is refused (R306). -/
theorem patched_fields (r : LRec) (job : Nat) (sel v : Word) (hv : lrValid r = true) (hj : lrJob r = job) :
    (∀ i k : Nat, i < 1024 → k < 8 → sel = word (i + k * 2 ^ 16) → ∃ q, patched r job sel v = .inl q ∧ lrArg q k = v
      ∧ (∀ n, n < 1024 → (n < 512 + 64 * k ∨ 576 + 64 * k ≤ n) → q.getLsbD n = r.getLsbD n))
    ∧ (∀ i : Nat, i < 1024 → sel = word (i + 8 * 2 ^ 16) → ∃ q, patched r job sel v = .inl q ∧ lrPrio q = v.setWidth 7
      ∧ (∀ n, n < 1024 → (n < 64 ∨ 71 ≤ n) → q.getLsbD n = r.getLsbD n))
    ∧ (∀ i x y m n : Nat, i < 1024 → sel = word (i + 9 * 2 ^ 16) → x < 32 → y < 32 → m < 32 → n < 32 →
      v = word (x + y * 2 ^ 8 + m * 2 ^ 16 + n * 2 ^ 24) →
      (if inRange x m (lrPx0 r) (lrPwm1 r) && inRange y n (lrPy0 r) (lrPhm1 r) then
        ∃ q, patched r job sel v = .inl q ∧ lrX0 q = x ∧ lrY0 q = y ∧ lrWm1 q = m ∧ lrHm1 q = n
          ∧ (∀ j, j < 1024 → (j < 80 ∨ 100 ≤ j) → q.getLsbD j = r.getLsbD j)
       else patched r job sel v = .inr v))
    ∧ (∀ k, 10 ≤ sel.toNat / 2 ^ 16 % 16 → k = job → patched r k sel v = .inr sel) := by
  refine ⟨?argument, ?priority, ?rectangle, fun k hk _ => patched_refused v (.inr hk)⟩
  case argument =>
    rintro i k hi hk rfl
    exact patched_argument v hv hj hi hk
  case priority =>
    rintro i hi rfl
    exact patched_priority v hv hj hi
  case rectangle =>
    rintro i x y m n hi rfl hx hy hm hn rfl
    exact patched_rectangle_writes hv hj hi hx hy hm hn

/-- Settles O48: each kind of event by the lemmas about it. -/
theorem launchAndTenantEvents : Obligations.LaunchAndTenantEvents := by
  unfold Obligations.LaunchAndTenantEvents
  refine ⟨fun s die h => launchUnitRequest_none h, ?request, patched_fields,
    fun r job sel v h => patched_refused v (.inl h), ?start, prepared_core, ?completion, ?quantum,
    fun s pkg job target h => tenantSwitch_notDue (State.switchDue_false h),
    fun s pkg job target d hne hl hd hp ht hturn => tenantSwitch_one hne hl hd hp ht hturn,
    fun s pkg job target hd => tenantSwitch_all hd, fun s job target d => State.mem_leavers⟩
  case request =>
    intro s die core pn sel v rest h
    exact ⟨fun r hr hb => launchUnitRequest_performs h hr hb, fun f hf => launchUnitRequest_refuses h hf⟩
  case start =>
    intro s die pos q rest hq hw
    exact ⟨fun ho => launchStart_overlapped hq hw ho,
      fun ho hf hr hu => launchStart_fails (c := .prot) hq hw ho hf (launchCause_rectangle hr) hu,
      fun ho hf => launchStart_unfit hq hw ho hf,
      fun c ho hf hc hu => launchStart_fails hq hw ho hf hc hu,
      fun image hn ho hf hc hi hg => launchStart_starts hq hw hn ho hf hc hi hg⟩
  case completion =>
    intro s die pos q rest hq
    exact ⟨fun hf => launchCompletion_running hq hf, fun hf hs hg => launchCompletion_stale hq hf hs hg,
      fun hf hs hg hu he => launchCompletion_ends hq hf hs hg hu he⟩
  case quantum =>
    intro s die
    exact ⟨fun h => timeShareQuantum_none h, fun e h ht => timeShareQuantum_early h ht,
      fun e n b h ht hn => timeShareQuantum_ascends h ht hn,
      fun e n b rest h ht hl hn => timeShareQuantum_wraps h ht hl hn⟩

end Sys2Proof.Machine
end
